-- ==== Sys2Proof/Word.lean ====
section
/-! DEFINITION. The word types: a byte, the 64-bit word of a register or of memory, and a device time.
The bit-field helpers stand in Machine/Bits.lean. -/

namespace Sys2Proof

/-- A byte of memory. -/
abbrev Byte := BitVec 8

/-- A 64-bit register or memory word (scope chapter, "Register descriptions"). -/
abbrev Word := BitVec 64

/-- Device time: 64-bit unsigned, in units of 2^-16 ns (Table 0.3). -/
abbrev DT := BitVec 64

/-- A bus-master number of Table 16.8 (R422). -/
abbrev Master := Nat

end Sys2Proof
end

