-- ==== Sys2Proof/Machine/Bits.lean ====
section
/-! DEFINITION. Bit fields, two's complement, saturation and rounding: the plain arithmetic that every
chapter uses. Division rounds toward minus infinity (scope chapter, "Notation"). -/

namespace Sys2Proof.Machine

/-- Bits `lo + w - 1 : lo` of `v`. -/
def getBits (v lo w : Nat) : Nat := (v >>> lo) % 2 ^ w

/-- `v` with bits `lo + w - 1 : lo` replaced by the low `w` bits of `x`. -/
def setBits (v lo w x : Nat) : Nat :=
  v - (getBits v lo w <<< lo) + ((x % 2 ^ w) <<< lo)

/-- Bit `i` of `v`. -/
def bit (v i : Nat) : Bool := v.testBit i

/-- 1 for true, 0 for false. -/
def b2n (b : Bool) : Nat := if b then 1 else 0

/-- The `w`-bit two's-complement value of the low `w` bits of `v`. -/
def toS (w v : Nat) : Int :=
  let u := v % 2 ^ w
  if u < 2 ^ (w - 1) then (u : Int) else (u : Int) - (2 ^ w : Nat)

/-- The `w`-bit two's-complement pattern of `i` (wrapping). -/
def ofS (w : Nat) (i : Int) : Nat := (i % ((2 ^ w : Nat) : Int)).toNat

/-- The largest value of a signed `w`-bit field. -/
def maxS (w : Nat) : Int := ((2 ^ (w - 1) : Nat) : Int) - 1

/-- The least value of a signed `w`-bit field. -/
def minS (w : Nat) : Int := -((2 ^ (w - 1) : Nat) : Int)

/-- `i` held to the range `lo` to `hi`. -/
def clampI (lo hi i : Int) : Int := if i < lo then lo else if hi < i then hi else i

/-- `i` saturated to a signed `w`-bit field. -/
def satS (w : Nat) (i : Int) : Int := clampI (minS w) (maxS w) i

/-- `i` saturated to an unsigned `w`-bit field. -/
def satU (w : Nat) (i : Int) : Nat := (clampI 0 (((2 ^ w : Nat) : Int) - 1) i).toNat

/-- Division toward minus infinity; 0 when the divisor is 0. -/
def fdiv (a b : Int) : Int := if b = 0 then 0 else Int.fdiv a b

/-- Arithmetic shift right by `n`, toward minus infinity. -/
def shr (a : Int) (n : Nat) : Int := Int.fdiv a ((2 ^ n : Nat) : Int)

/-- `a * 2^n`. -/
def shl (a : Int) (n : Nat) : Int := a * ((2 ^ n : Nat) : Int)

/-- Division with the result rounded up. -/
def ceilDiv (a b : Nat) : Nat := (a + b - 1) / b

/-- The square root of `n` rounded down, bit by bit from bit `k - 1`: `r` holds the bits above. -/
def isqrtGo (n : Nat) : Nat → Nat → Nat
  | 0, r => r
  | k + 1, r => let c := r + 2 ^ k; if c * c ≤ n then isqrtGo n k c else isqrtGo n k r

/-- The square root of `n`, rounded down: it has at most half the bits of `n`, rounded up. -/
def isqrt (n : Nat) : Nat := isqrtGo n (Nat.log2 n / 2 + 1) 0

/-- The `i`-th byte of `v`, the least significant first. -/
def byteOf (v i : Nat) : Byte := BitVec.ofNat 8 (v >>> (8 * i))

/-- The number of bits that are 1 among the low `w` bits of `v`. -/
def popCount : Nat → Nat → Nat
  | 0, _ => 0
  | w + 1, v => v % 2 + popCount w (v / 2)

/-- Unsigned saturating increment of a `w`-bit count. -/
def satInc (w n : Nat) : Nat := if n + 1 < 2 ^ w then n + 1 else 2 ^ w - 1

/-- `n + k` held to the largest `w`-bit count. -/
def satAdd (w n k : Nat) : Nat := min (n + k) (2 ^ w - 1)

/-- The first number below `n` that satisfies `p`, counting from `0`. -/
def findBelow (p : Nat → Bool) : Nat → Option Nat
  | 0 => none
  | n + 1 => match findBelow p n with
    | some k => some k
    | none => if p n then some n else none

/-- The largest of the numbers in the list, or `d` for the empty list. -/
def maxNat (d : Nat) : List Nat → Nat
  | [] => d
  | x :: xs => max x (maxNat d xs)

/-- Signed 64-bit difference `a - b` of two device times (R62). -/
def dtDiff (a b : DT) : Int := (a - b).toInt

/-- 125 ns in DT units (R30): 125 x 2^16. -/
def stepUnits : Nat := 125 * 65536

/-- Nanoseconds in DT units. -/
def nsUnits (ns : Nat) : Nat := ns * 65536

/-- `v` in the bits of `mask`, `old` elsewhere. -/
def blend (old v mask : Nat) : Nat :=
  ((BitVec.ofNat 64 old &&& ~~~(BitVec.ofNat 64 mask)) ||| (BitVec.ofNat 64 v &&& BitVec.ofNat 64 mask)).toNat

/-- `a` without the bits of `b`. -/
def without (a b : Nat) : Nat := (BitVec.ofNat 64 a &&& ~~~(BitVec.ofNat 64 b)).toNat

/-- What the count of DT shows at the instant `d` (R60): it advances with the time clock, in every five periods by 52,429 four
times and then by 52,428, and groups of five begin at the whole multiples of 4 ns. -/
def dtCount (d : DT) : DT :=
  BitVec.ofNat 64 (d.toNat / 262144 * 262144 + d.toNat % 262144 / 52429 * 52429)

/-- A DT moved forward by `n` units. -/
def dtAdd (a : DT) (n : Int) : DT := a + BitVec.ofInt 64 n

/-- Whole nanoseconds of a DT difference, toward minus infinity. -/
def toNs (d : Int) : Int := shr d 16

/-- One bit of the CRC-32 register of IEEE 802.3, the least significant bit first. -/
def crcBit (c : Nat) : Nat := if c % 2 = 1 then (c / 2) ^^^ 0xEDB88320 else c / 2

/-- The CRC-32 register after a byte. -/
def crcByte (c b : Nat) : Nat :=
  crcBit (crcBit (crcBit (crcBit (crcBit (crcBit (crcBit (crcBit (c ^^^ (b % 256)))))))))

/-- The CRC-32 of a list of bytes (IEEE 802.3). -/
def crc32 (l : List Nat) : Nat := (l.foldl crcByte 0xFFFFFFFF) ^^^ 0xFFFFFFFF

end Sys2Proof.Machine
end

