-- ==== Sys2Proof/Syntax.lean ====
section
/-! DEFINITION. The commands of the block (spec/opcode_table.json) and the frames they carry. -/

namespace Sys2Proof

/-- What the receive side of a field port sees of a frame (R67, R198, R199): the capture of its start-of-frame
delimiter at the MAC/PCS boundary, whether the FCS is good, its bytes with the FCS, whether it is VLAN-tagged
or a MAC-control frame, whether the ingress buffer has no room for it (R21), its EtherType and source address,
and the fields of the Seluth header (Table 8.2). -/
structure FrameHdr where
  capture : DT
  fcsOk : Bool
  size : Nat
  tagged : Bool
  full : Bool
  etherType : Nat
  srcMac : Nat
  version : Nat
  type : Nat
  seg : Nat
  headEnd : Bool
  length : Nat
  cycle : Nat
  epoch : Nat
  src : Nat
  txDt : Nat
deriving DecidableEq, Repr, Inhabited

/-- A position record of an UPLINK (Table 8.6): raw count, 48-bit sample DT, the VALID flag, and where INDEX is
flagged the raw count and 48-bit DT of the index. -/
structure PosRec where
  raw : Nat
  dt : Nat
  valid : Bool
  index : Option (Nat × Nat)
deriving DecidableEq, Repr, Inhabited

/-- An UPLINK payload (Table 8.6). -/
structure UplinkBody where
  dlRx : Nat
  status : Nat
  ackEpoch : Nat
  recs : List PosRec
deriving DecidableEq, Repr, Inhabited

/-- A SENSOR payload (Table 8.7): the columns' node channels, and the samples row by row. -/
structure SensorBody where
  firstDt : DT
  interval : Nat
  gap : Bool
  overrange : Bool
  seq : Nat
  chans : List Nat
  rows : List (List Int)
deriving DecidableEq, Repr, Inhabited

/-- An ANNOUNCE or CLAIM payload (Table 8.8). -/
structure AnnounceBody where
  number : Nat
  spRecords : Nat
  posRecords : Nat
  sensorCh : Nat
  maxUl : Nat
  fwdLat : Nat
  head : Bool
  rxDt : Nat
  vendor : Nat
  slot : Nat
  action : Nat
deriving DecidableEq, Repr, Inhabited

/-! The plan state of an axis and of a gear group (chapter 7): the state copy carries them (Table 15.4). -/

namespace Machine

/-- One entry of a configuration block (R445): guarded or plain, BAR0 offset, value. -/
structure CfgEntry where
  guarded : Bool
  offset : Nat
  value : Word
deriving DecidableEq, Repr, Inhabited

/-- What the HK finds when it boots (R444 to R446, R453, Table 17.5): whether each image passes its length and CRC test,
and their versions; the valid configuration copies with their SEQUENCE; whether the PLLs lock and the memories
initialise; which loop engines and signal cores pass a self-check; the factory record and the straps. -/
structure BootIn where
  okA : Bool
  okB : Bool
  versionA : Nat
  versionB : Nat
  cfg0 : Option (Nat × List CfgEntry)
  cfg1 : Option (Nat × List CfgEntry)
  selfTest : Bool
  engines : Nat
  cores : Nat
  dieRev : Nat
  serial : Nat
  caseMax : Nat
  grade : Nat
  mpStrap : Nat
  twinId : Nat
deriving DecidableEq, Repr, Inhabited


/-- A reference state at a T0, in the PG's exact units (R172, notes/assumptions/16): jerk in 2^-64 counts/s³,
acceleration in 2^-64/(8 × 10^6) counts/s², velocity in 2^-64/(128 × 10^12) counts/s, position in
2^-114/(3072 × 10^18) counts. With these units the motion over a whole number of 125 ns steps is exact. -/
structure PgRef where
  p : Int
  v : Int
  a : Int
  j : Int
deriving DecidableEq, Repr, Inhabited

/-- A plan: segments of (cycles, jerk) still to run, and where they end. -/
structure PgPlan where
  /-- 0 none, 1 to a velocity (a stop is one to 0), 2 a move to a position. -/
  kind : Nat
  segs : List (Nat × Int)
  endV : Int
  endP : Int
  vmax : Int
  amax : Int
  jmax : Int
  /-- The period the segments were planned for. -/
  per : Nat
deriving DecidableEq, Repr, Inhabited

/-- The PG's state for one axis. Modes are those of Table 7.2. -/
structure PgAx where
  mode : Nat
  ref : PgRef
  /-- The PG has formed a set-point for the axis: `ref` is its reference at SP_DT. -/
  formed : Bool
  plan : PgPlan
  group : Nat
  /-- Ratio at SP_DT, its step over the coming cycle, ρ′, and the ramp's target and rate (gain64). -/
  rho : Int
  delta : Int
  rhoDot : Int
  rTarget : Int
  rRate : Int
  atTarget : Bool
  stopFault : Bool
  strong : Bool
  /-- Cycles since the last automatic drive-mode change. -/
  dwell : Nat
  /-- The cycle whose following error FOLLOWING has examined before its TR. -/
  feSeen : Option Nat
  reason : Nat
  /-- The axis was enabled, and in the fault state, at the last TR. -/
  wasOn : Bool
  wasFault : Bool
deriving DecidableEq, Repr, Inhabited

/-- The master state of a group in register formats at a T0. -/
structure PgMaster where
  p : Int
  v : Int
  a : Int
  j : Int
deriving DecidableEq, Repr, Inhabited

/-- A gear group (R179 to R192). -/
structure PgGrp where
  /-- 0 IDLE, 1 RUN, 2 STOPPING, 3 STOPPED. -/
  state : Nat
  cause : Nat
  lost : Bool
  /-- The internal master: the virtual master, or the ramp of a group stop. -/
  ref : PgRef
  plan : PgPlan
  /-- VTARGET, VACC, VJERK and STOP_DEC as last taken up. -/
  vt : Int
  vacc : Int
  vjerk : Int
  stopDec : Int
  /-- The master state formed at the last TR, for the T0 that followed it. -/
  last : PgMaster
  /-- `last` is the origin of increments. -/
  hasLast : Bool
  /-- Cause of a stop requested since the last TR, 0 for none; RESTART and enable to be taken up. -/
  stopReq : Nat
  restart : Bool
  start : Bool
  /-- EN is to be cleared when the group is STOPPED (R192). -/
  closing : Bool
deriving DecidableEq, Repr, Inhabited

/-! Claims, grants and epoch changes (chapter 9): the cycle block of the state copy carries them. -/

/-- A claim accepted in this cycle, and a grant (R236 to R239). -/
structure FpClaim where
  slot : Nat
  mac : Nat
  sp : Nat
  pos : Nat
  sensor : Nat
  maxUl : Nat
  fwd : Nat
  vendor : Nat
  stamp : DT
  /-- Of a grant: the number given, the winning cycle, and whether the claimant cancelled. -/
  node : Nat
  cycle : BitVec 32
  cancel : Bool
deriving DecidableEq, Repr, Inhabited

/-- The epoch change beside its registers (R241 to R246). -/
structure EpochSt where
  cancelled : Bool
  /-- The decision of UL_END of D was to commit. -/
  commit : Bool
  /-- The last aborted epoch. -/
  aborted : Option Nat
deriving DecidableEq, Repr, Inhabited

/-! What the twin is told of axes that are enabled and of channels that are feedback-active (Table 15.4, R405). -/

/-- FB_CFG as read at START (R88). -/
structure FbCfg where
  source : Nat
  dir : Bool
  indexEn : Bool
  rawBits : Nat
  seg : Nat
  node : Nat
  record : Nat
  qe : Nat
deriving DecidableEq, Repr, Inhabited

/-- What an axis enable reads and does not read again (R125, R169). -/
structure LawCfg where
  struct : Nat
  repEn : Bool
  presetEn : Bool
  seg : Nat
  node : Nat
  record : Nat
  pvAxis : Nat
  /-- REP_CFG. -/
  repCfg : Nat
deriving DecidableEq, Repr, Inhabited

/-- What the LE holds of an enabled axis beside its record: the configuration read at its enable, whether no step has committed
since (R137), MANUAL of the last record sent (R43), a bank switch that is due (R140), and what the correction has done (R162,
Table 6.1). -/
structure LeCarry where
  cfg : LawCfg
  fresh : Bool
  manual : Bool
  switchDue : Bool
  angleArmed : Bool
  corrClamped : Bool
deriving DecidableEq, Repr, Inhabited

end Machine

/-- A state copy (Table 15.4): the words of the axis records (axis, offset, value), the bins of the repetitive tables that the
cycle's steps updated (axis, bin, 32-bit value; R167), the registers of the cycle block (BAR0 offset, value), the PG state of
axes and groups, the epoch change, of each segment the grants and the spare entries that return to its pool, and what the LE
holds of each enabled axis. -/
structure CopyBody where
  /-- The party-wall ingress buffer had no room for it (R21). -/
  full : Bool
  axes : List (Nat × Nat × Nat)
  laws : List (Nat × Machine.LeCarry)
  table : List (Nat × Nat × Nat)
  block : List (Nat × Nat)
  plans : List (Nat × Machine.PgAx)
  groups : List (Nat × Machine.PgGrp)
  epoch : Machine.EpochSt
  grants : List (Nat × List Machine.FpClaim × List Nat)
deriving DecidableEq, Repr, Inhabited

/-- A DOWNLINK as the standby receives it at end B (Tables 8.4 and 8.5): TR_DT, and of each set-point record the
axis (where it is assigned), MAIN, AUX and the flags byte. -/
structure DownlinkBody where
  trDt : DT
  recs : List (Option Nat × Int × Int × Nat)
deriving DecidableEq, Repr, Inhabited

/-- A frame that arrives on the Ethernet side: the HE port, whether its ingress buffer is full (R21), and the frame's size in bytes
(R438). -/
structure HeIn where
  port : Nat
  full : Bool
  size : Nat
deriving DecidableEq, Repr, Inhabited

/-- A Pdelay_Resp that arrives, and its PTP domain. -/
structure PdelayIn extends HeIn where
  domain : Nat
deriving DecidableEq, Repr, Inhabited

/-- A Pdelay_Req that arrives, its PTP domain and the capture of its delimiter. -/
structure PdelayReqIn extends HeIn where
  domain : Nat
  capture : DT
deriving DecidableEq, Repr, Inhabited

/-- What the host asks (R26, R434): a read, or a write of a value that may meet the full ingress buffer (R21) or come as a poisoned
TLP (R433). -/
inductive HostOp where
  | read
  | write (v : Word) (full poison : Bool)
deriving DecidableEq, Repr, Inhabited

/-- What the host writes to the configuration space (R433, R437): Bus Master Enable, MSI-X Enable and Function Mask. -/
structure HpConfig where
  busMaster : Bool
  msixOn : Bool
  msixMask : Bool
deriving DecidableEq, Repr, Inhabited

/-- The address of an MP command, and its PEC byte where it has one (R442). -/
structure MpIn where
  addr : Word
  pec : Option Byte
deriving DecidableEq, Repr, Inhabited

/-- The table of an axis as the standby has received it (R168): its entries and REP_SUM. -/
structure RepCopy where
  /-- The party-wall ingress buffer had no room for a part of it (R21). -/
  full : Bool
  axis : Nat
  entries : List Nat
  sum : Word
deriving DecidableEq, Repr, Inhabited

/-- What a heartbeat carries beside the time exchange (Table 15.1): T0 of the cycle in the sender's DT, the bitmaps of accepted
nodes, the segments on which a port of a node was seen to fall (R215), the nodes' ACK_EPOCH (segment, node, epoch; R243), whether
the frames of a node passed the epoch test (segment, node; R246), and the words of the sender's protected set that have changed
(R396). -/
structure HeartbeatBody where
  /-- The party-wall ingress buffer had no room for it (R21). -/
  full : Bool
  t0 : DT
  seen : List Nat
  fell : Nat
  acks : List (Nat × Nat × Nat)
  epochs : List (Nat × Nat × Bool)
  prot : List (Nat × Word)
deriving DecidableEq, Repr, Inhabited

/-- What the bulk copy brings beside memory and registers (R405): the partner's protected set, what the LE holds of each enabled
axis, what R202 remembers of each downlink record, and the feedback-active axes with FB_CFG, BW and CPR as read at their START. -/
structure BulkRest where
  /-- The party-wall ingress buffer had no room for a part of it (R21). -/
  full : Bool
  prot : List (Nat × Word)
  laws : List (Nat × Machine.LeCarry)
  /-- The table copies under way: axis and entries still to send (R168). -/
  syncs : List (Nat × Nat)
  remembered : List (Nat × Nat × Nat)
  feedback : List (Nat × Machine.FbCfg × Nat × Nat)
deriving DecidableEq, Repr, Inhabited

/-- Where a mirrored write goes (R390): the cycle in which the active applied it, and the BAR0 offset. -/
structure MirrorAt where
  /-- The party-wall ingress buffer had no room for it (R21). -/
  full : Bool
  cycle : Nat
  off : Nat
deriving DecidableEq, Repr, Inhabited

/-- A declaration of the partner (R399): its cause, 0 for the notice of a planned switch (R400), and whether the party-wall
ingress buffer had no room for it (R21). -/
structure DeclIn where
  cause : Nat
  full : Bool
deriving DecidableEq, Repr, Inhabited

/-- What the result of an engine differs by from the law's: added to MAIN and AUX, and toggled in FLAGS. An engine that computes
rightly has none. -/
structure EngineFlaw where
  main : Int
  aux : Int
  flags : Nat
deriving DecidableEq, Repr, Inhabited

/-- The flits that a consumer removes (R20, R350): one of context `c`, or `n` from the stream-packet queue. -/
inductive Credit where
  | context (c : Nat)
  | stream (n : Nat)
deriving DecidableEq, Repr, Inhabited

/-- What the party-wall link relays for a segment (R216, R217): a frame, a set-point record with its node, record index, AXIS
word, flags, MAIN and AUX, or the epoch fields of the active's DOWNLINK (NEXT_EPOCH, EPOCH_CMD, ACT_CYCLE). -/
inductive RelayBody where
  | uplink (h : FrameHdr) (b : UplinkBody)
  | sensor (h : FrameHdr) (b : SensorBody)
  | record (node index axisWord flags : Nat) (main aux : Int)
  | epoch (next cmd act : Nat)
deriving DecidableEq, Repr

/-- What arrives by relay, and whether the party-wall ingress buffer had no room for it (R21). -/
structure RelayIn where
  full : Bool
  body : RelayBody
deriving DecidableEq, Repr

/-- The commands of the block, one constructor per row of the opcode table. Every command carries the DT
`t` of its step. -/
inductive Instr where
  /-- T0 (R30): the start of a cycle, where one is due. -/
  | t0 (t : DT)
  /-- FEEDBACK_CLOSE (R108): T0 + UL_END; `peer` is the protected set that the partner's digest stands for and that set after the partner has compared it with its image, `flawed` the protected words found uncorrectable, `flagged` whether the injected mismatch was flagged. -/
  | feedbackClose (t : DT) (peer : Option (List (Nat × Word) × List (Nat × Word))) (flawed : List Nat) (flagged : Bool)
  /-- CW_START (R339): T0 + CW_START. -/
  | cwStart (t : DT)
  /-- CW_END (R42): T0 + CW_END. -/
  | cwEnd (t : DT)
  /-- TR (R170): T0 + TR. -/
  | tr (t : DT)
  /-- DL_END (R52): T0 + DL_END, at which a cycle is complete. -/
  | dlEnd (t : DT)
  /-- TICK (R343): a Keystone tick. -/
  | tick (t : DT)
  /-- VFIXED_WALK_STEP (R53): one step of the code toward VFIXED. -/
  | vfixedWalkStep (t : DT)
  /-- HOUSEKEEPING_EDGE (R419): an edge of the always-on domain, with the values measured. -/
  | housekeepingEdge (t : DT) (vcore va ca vb cb holdup : Nat) (tj : Int)
  /-- DT_WRAP (R61): DT passes to 0 and ERA counts. -/
  | dtWrap (t : DT)
  /-- REF_LOST (R64): the 25 MHz reference is lost. -/
  | refLost (t : DT)
  /-- REF_RESTORED (R64): the reference returns. -/
  | refRestored (t : DT)
  /-- CYCLE_ENABLE (R34): master `m` sets ENABLE of the cycle page. -/
  | cycleEnable (t : DT) (m : Nat)
  /-- CYCLE_DISABLE (R35): master `m` clears ENABLE of the cycle page. -/
  | cycleDisable (t : DT) (m : Nat)
  /-- LATE_HOLD (R48): HOLD_RUN of axis `a` has reached 3. -/
  | lateHold (t : DT) (a : Nat)
  /-- CYC_SNAP_TAKE (R58): master `m` takes CYC_SNAP. -/
  | cycSnapTake (t : DT) (m : Nat)
  /-- SG_ENABLE (R57): master `m` sets ENABLE of the SG page. -/
  | sgEnable (t : DT) (m : Nat)
  /-- SG_DISABLE (R53): master `m` clears ENABLE of the SG page. -/
  | sgDisable (t : DT) (m : Nat)
  /-- SG_STATS_RESET (R56): master `m` resets the SG statistics. -/
  | sgStatsReset (t : DT) (m : Nat)
  /-- SG_HIST_SNAP_TAKE (R56): master `m` takes SG_HIST_SNAP. -/
  | sgHistSnapTake (t : DT) (m : Nat)
  /-- TIME_PAGE_ENABLE (R85): master `m` sets ENABLE of the TU time page. -/
  | timePageEnable (t : DT) (m : Nat)
  /-- TU_SNAP_TAKE (R66): master `m` takes TU_SNAP. -/
  | tuSnapTake (t : DT) (m : Nat)
  /-- TSCORR_WRITE (R68): a write of TU_TSCORRn. -/
  | tscorrWrite (t : DT) (n : Nat) (v : Word)
  /-- PTP_ENABLE (R85): master `m` sets ENABLE of the PTP page. -/
  | ptpEnable (t : DT) (m : Nat)
  /-- PTP_DISABLE (R77): master `m` clears ENABLE of the PTP page. -/
  | ptpDisable (t : DT) (m : Nat)
  /-- REARM (R71): PTP_DOMn_CFG.REARM of slot `n`. -/
  | rearm (t : DT) (n : Nat)
  /-- SYNC_RECEIVED (R76): a Sync with its Follow_Up arrives at HE port `he`: source port, origin time, correction field, capture of its delimiter, interval. -/
  | syncReceived (t : DT) (he : HeIn) (domain profile transport src : Nat) (origin corr : Int) (capture : DT) (log : Int)
  /-- ANNOUNCE_MSG_RECEIVED (R70): a PTP Announce arrives at HE port `he`: source port, grandmaster, rank in the comparison, UTC offset, interval. -/
  | announceMsgReceived (t : DT) (he : HeIn) (domain profile transport src gm : Nat) (rank : List Nat) (utc log : Int)
  /-- DELAY_RESP_RECEIVED (R70): a Delay_Resp arrives at HE port `he` with the master's receipt time. -/
  | delayRespReceived (t : DT) (he : HeIn) (domain profile transport src : Nat) (rx : Int)
  /-- PDELAY_REQ_RECEIVED (R70): a Pdelay_Req arrives at HE port `he`. -/
  | pdelayReqReceived (t : DT) (he : PdelayReqIn)
  /-- PDELAY_RESP_RECEIVED (R70): a Pdelay_Resp with its follow-up arrives at HE port `he`. -/
  | pdelayRespReceived (t : DT) (he : PdelayIn) (t2 t3 : Int) (capture : DT)
  /-- DELAY_REQ_SEND (R70): the message interval of slot `n` has passed. -/
  | delayReqSend (t : DT) (n : Nat)
  /-- SYNC_RECEIPT_TIMEOUT (R72): no valid Sync for slot `n`. -/
  | syncReceiptTimeout (t : DT) (n : Nat)
  /-- ANNOUNCE_RECEIPT_TIMEOUT (R72): the Announce receipt timeout of slot `n`. -/
  | announceReceiptTimeout (t : DT) (n : Nat)
  /-- RATE_EVALUATION (R78): the comparison of rates, once a second. -/
  | rateEvaluation (t : DT)
  /-- PPS_IN_EDGE (R81): a rising edge on PPS_IN. -/
  | ppsInEdge (t : DT)
  /-- REF10_GATE (R82): a gate of REF10_IN ends with the rate `rate`. -/
  | ref10Gate (t : DT) (rate : Int)
  /-- PPS_OUT_PULSE (R83): PPS_OUT rises where its second has come. -/
  | ppsOutPulse (t : DT)
  /-- FBE_ENABLE (R120): master `m` sets ENABLE of the FBE page. -/
  | fbeEnable (t : DT) (m : Nat)
  /-- FBE_DISABLE (R88): master `m` clears ENABLE of the FBE page. -/
  | fbeDisable (t : DT) (m : Nat)
  /-- FEEDBACK_START (R88): master `m` writes FBE_AXCTL.START for axis `a`. -/
  | feedbackStart (t : DT) (m a : Nat)
  /-- FEEDBACK_STOP (R88): master `m` writes FBE_AXCTL.STOP for axis `a`. -/
  | feedbackStop (t : DT) (m a : Nat)
  /-- FBE_SNAP_TAKE (R119): master `m` takes FBE_SNAP. -/
  | fbeSnapTake (t : DT) (m : Nat)
  /-- FB_LOST (R109): MISS_RUN of axis `a` has reached MISS_LIMIT. -/
  | fbLost (t : DT) (a : Nat)
  /-- SETTLED (R114): the measured updates of axis `a` have reached their count. -/
  | settled (t : DT) (a : Nat)
  /-- QE_PAGE_ENABLE (R120): master `m` sets ENABLE of the QE page. -/
  | qePageEnable (t : DT) (m : Nat)
  /-- QE_CHANNEL_ENABLE (R120): master `m` writes QE_CFGn with EN set and the other fields of `v`. -/
  | qeChannelEnable (t : DT) (m n : Nat) (v : Word)
  /-- QE_EDGE (R92, R93): a 400 MHz sample of channel `n`: of A, B and Z the last three samples, the latest in bit 0. -/
  | qeEdge (t : DT) (n a b z : Nat)
  /-- QE_TRIP (R98): the faults of channel `n` have reached FAULT_LIMIT. -/
  | qeTrip (t : DT) (n : Nat)
  /-- QE_CLEAN (R99): CLEAN_CYCLES cycles of channel `n` without a fault have passed. -/
  | qeClean (t : DT) (n : Nat)
  /-- INJECT (R100): master `m` writes QE_CTRLn.INJECT. -/
  | inject (t : DT) (m n : Nat)
  /-- CLR_FAULTS (R118): master `m` writes QE_CTRLn.CLR_FAULTS. -/
  | clrFaults (t : DT) (m n : Nat)
  /-- REGUARD (R98): master `m` writes QE_CTRLn.REGUARD. -/
  | reguard (t : DT) (m n : Nat)
  /-- QE_SNAP_TAKE (R119): master `m` takes QE_SNAP of channel `n`. -/
  | qeSnapTake (t : DT) (m n : Nat)
  /-- LE_PAGE_ENABLE (R149): master `m` sets ENABLE of the LE page. -/
  | lePageEnable (t : DT) (m : Nat)
  /-- AXIS_ENABLE (R141): master `m` enables axis `a` by a guarded LE_AXEN. -/
  | axisEnable (t : DT) (m a : Nat)
  /-- AXIS_DISABLE (R143): master `m` disables axis `a` by a guarded LE_AXEN. -/
  | axisDisable (t : DT) (m a : Nat)
  /-- AXIS_STEP_COMPLETE (R44): engine `n` completes the item it executes. -/
  | axisStepComplete (t : DT) (n : Nat)
  /-- WITHDRAW (R148): master `m` writes LE_SVCn.WITHDRAW. -/
  | withdraw (t : DT) (m n : Nat)
  /-- RESTORE (R149): master `m` writes LE_SVCn.RESTORE. -/
  | restore (t : DT) (m n : Nat)
  /-- LE_SNAP_TAKE (R151): master `m` takes LE_SNAP. -/
  | leSnapTake (t : DT) (m : Nat)
  /-- REP_SYNC (R168): master `m` sets REP_CMD.SYNC of axis `a`. -/
  | repSync (t : DT) (m a : Nat)
  /-- REP_SYNC_DONE (R168): the copy `a` of an axis's table is complete. -/
  | repSyncDone (t : DT) (a : RepCopy)
  /-- PG_ENABLE (R173): master `m` sets ENABLE of the PG page. -/
  | pgEnable (t : DT) (m : Nat)
  /-- PG_DISABLE (R173): master `m` clears ENABLE of the PG page. -/
  | pgDisable (t : DT) (m : Nat)
  /-- FOLLOWING (R186): FE_RUN of axis `a` has reached FE_CYCLES. -/
  | following (t : DT) (a : Nat)
  /-- PG_GROUP_STOP (R189): master `m` writes PG_GROUP_STOP. -/
  | pgGroupStop (t : DT) (m : Nat) (v : Word)
  /-- GROUP_ENABLE (R192): master `m` writes PG_GRPn_CFG with EN set and the other fields of `v`. -/
  | groupEnable (t : DT) (m n : Nat) (v : Word)
  /-- GROUP_DISABLE (R192): master `m` writes PG_GRPn_CFG with EN clear and the other fields of `v`. -/
  | groupDisable (t : DT) (m n : Nat) (v : Word)
  /-- RESTART (R192): master `m` writes PG_GRPn_CFG.RESTART. -/
  | restart (t : DT) (m n : Nat)
  /-- FP_ENABLE (R222): master `m` sets ENABLE of the page of port `p` by a guarded write. -/
  | fpEnable (t : DT) (m p : Nat)
  /-- FP_DISABLE (R235): master `m` clears ENABLE of the page of port `p` by a guarded write. -/
  | fpDisable (t : DT) (m p : Nat)
  /-- LINK_UP (R213): the link of port `p` comes up. -/
  | linkUp (t : DT) (p : Nat)
  /-- LINK_DOWN (R213): the link of port `p` goes down. -/
  | linkDown (t : DT) (p : Nat)
  /-- DISCOVERY_START (R212): master `m` writes FP_DISC.START of port `p`. -/
  | discoveryStart (t : DT) (m p : Nat)
  /-- ANNOUNCE_RECEIVED (R212): an ANNOUNCE arrives at port `p`. -/
  | announceReceived (t : DT) (p : Nat) (h : FrameHdr) (b : AnnounceBody)
  /-- DISCOVER_TIMEOUT (R212): 100 µs have passed since the last DISCOVER of port `p`. -/
  | discoverTimeout (t : DT) (p : Nat)
  /-- ALONE_DISCOVER (R214): 1 ms has passed in an ALONE segment. -/
  | aloneDiscover (t : DT) (p : Nat)
  /-- DISCOVER_RECEIVED (R212): a DISCOVER arrives at port `p` of the standby. -/
  | discoverReceived (t : DT) (p : Nat) (h : FrameHdr)
  /-- UPLINK_RECEIVED (R230): an UPLINK arrives at port `p`. -/
  | uplinkReceived (t : DT) (p : Nat) (h : FrameHdr) (b : UplinkBody)
  /-- SENSOR_RECEIVED (R254): a SENSOR frame arrives at port `p`. -/
  | sensorReceived (t : DT) (p : Nat) (h : FrameHdr) (b : SensorBody)
  /-- DOWNLINK_RECEIVED (R394): a DOWNLINK arrives at port `p` of the standby. -/
  | downlinkReceived (t : DT) (p : Nat) (h : FrameHdr) (b : DownlinkBody)
  /-- NODE_MUTED (R233): the faults of node `j` have reached MUTE_LIMIT. -/
  | nodeMuted (t : DT) (p j : Nat)
  /-- RING_HEALED (R218): the 64 cycles of R218 have passed. -/
  | ringHealed (t : DT) (p : Nat)
  /-- RELAY_FRAME_RECEIVED (R216): the party-wall link relays a frame or a record of segment `p`. -/
  | relayFrameReceived (t : DT) (p : Nat) (b : RelayIn)
  /-- FP_SNAP_TAKE (R119): master `m` takes FP_SNAP of port `p`. -/
  | fpSnapTake (t : DT) (m p : Nat)
  /-- FP_GSNAP_TAKE (R232): master `m` takes FP_GSNAP of port `p`. -/
  | fpGsnapTake (t : DT) (m p : Nat)
  /-- COMMIT (R228): master `m` commits the shadow bank of port `p` by a guarded FP_COMMIT. -/
  | commit (t : DT) (m p : Nat)
  /-- RELEASE (R228): master `m` releases the schedule of port `p` by a guarded FP_COMMIT. -/
  | release (t : DT) (m p : Nat)
  /-- MUTE (R234): master `m` mutes node `j` by FP_MUTECTL. -/
  | mute (t : DT) (m p j : Nat)
  /-- UNMUTE (R234): master `m` unmutes node `j` by FP_MUTECTL. -/
  | unmute (t : DT) (m p j : Nat)
  /-- CLAIM_RECEIVED (R236): a CLAIM arrives at port `p`. -/
  | claimReceived (t : DT) (p : Nat) (h : FrameHdr) (b : AnnounceBody)
  /-- EPOCH_REQUEST (R241): master `m` requests an epoch change by a guarded FP_EPOCH_CMD. -/
  | epochRequest (t : DT) (m : Nat)
  /-- EPOCH_CANCEL (R244): master `m` cancels the pending change by a guarded FP_EPOCH_CMD. -/
  | epochCancel (t : DT) (m : Nat)
  /-- NODE_EPOCH_STOP (R247): node `j` has been in the wrong epoch for 16 cycles. -/
  | nodeEpochStop (t : DT) (p j : Nat)
  /-- AE_PAGE_ENABLE (R278): master `m` sets ENABLE of the AE page. -/
  | aePageEnable (t : DT) (m : Nat)
  /-- CHANNEL_ENABLE (R251): master `m` enables channel `c` by AE_CH_CTL. -/
  | channelEnable (t : DT) (m c : Nat)
  /-- CHANNEL_DISABLE (R251): master `m` disables channel `c` by AE_CH_CTL. -/
  | channelDisable (t : DT) (m c : Nat)
  /-- TRIG_OUT_PULSE (R268): the pulse scheduled on pin `pin` begins. -/
  | trigOutPulse (t : DT) (pin : Nat)
  /-- TRIG_PIN_EDGE (R265): a confirmed edge on TRIG_IN pin `pin`. -/
  | trigPinEdge (t : DT) (pin : Nat) (rising : Bool)
  /-- TRIGGER_UNIT_ENABLE (R278): master `m` writes AE_TRGu_CFG with EN set and the other fields of `v`. -/
  | triggerUnitEnable (t : DT) (m u : Nat) (v : Word)
  /-- STREAM_START (R258): master `m` starts stream `n` by AE_ST_CTL. -/
  | streamStart (t : DT) (m n : Nat)
  /-- STREAM_STOP (R274): master `m` stops stream `n` by AE_ST_CTL. -/
  | streamStop (t : DT) (m n : Nat)
  /-- STREAM_RESTART (R273): master `m` restarts stream `n` by AE_ST_CTL. -/
  | streamRestart (t : DT) (m n : Nat)
  /-- PACKET_FLUSH (R260): the FLUSH time of the open packet of stream `n` has passed. -/
  | packetFlush (t : DT) (n : Nat)
  /-- MAPPING_INTERVAL (R262): MAP_INTERVAL of stream `n` has passed. -/
  | mappingInterval (t : DT) (n : Nat)
  /-- RECORD_TRUNCATED (R269): the record of stream `n` has taken twice its expected time. -/
  | recordTruncated (t : DT) (n : Nat)
  /-- AE_SNAP_TAKE (R119): master `m` takes AE_SNAP. -/
  | aeSnapTake (t : DT) (m : Nat)
  /-- ANG_PAGE_ENABLE (R297): master `m` sets ENABLE of the angle page. -/
  | angPageEnable (t : DT) (m : Nat)
  /-- ANGLE_CHANNEL_ENABLE (R281): master `m` enables angle channel `g` by AE_ANG_CTL. -/
  | angleChannelEnable (t : DT) (m g : Nat)
  /-- ANGLE_CHANNEL_DISABLE (R281): master `m` disables angle channel `g` by AE_ANG_CTL. -/
  | angleChannelDisable (t : DT) (m g : Nat)
  /-- ANGLE_RECORD_WRITE (R291): the oldest record of angle channel `g` is written once all it needs is held. -/
  | angleRecordWrite (t : DT) (g : Nat)
  /-- HISTOGRAM_ENABLE (R294): master `m` starts the histogram of channel `c` by AE_HIST_CTL. -/
  | histogramEnable (t : DT) (m c : Nat)
  /-- HISTOGRAM_DISABLE (R294): master `m` stops the histogram of channel `c` by AE_HIST_CTL. -/
  | histogramDisable (t : DT) (m c : Nat)
  /-- COPY_HISTOGRAM (R296): master `m` copies the histogram of channel `c` by ANG_COPY. -/
  | copyHistogram (t : DT) (m c : Nat) (clear : Bool)
  /-- COPY_MAP (R296): master `m` copies map `k` by ANG_COPY. -/
  | copyMap (t : DT) (m k : Nat) (clear : Bool)
  /-- COPY_DONE (R296): the copy is complete. -/
  | copyDone (t : DT)
  /-- SC_ENABLE (R330): master `m` sets ENABLE of the page of core `n`. -/
  | scEnable (t : DT) (m n : Nat)
  /-- SC_DISABLE (R330): master `m` clears ENABLE of the page of core `n`. -/
  | scDisable (t : DT) (m n : Nat)
  /-- SC_SNAP_TAKE (R420): master `m` writes SC_SNAP of core `n`. -/
  | scSnapTake (t : DT) (m n : Nat)
  /-- ADD (R329): core `n` issues ADD gd, ga, gb. -/
  | add (t : DT) (n d a b : Nat)
  /-- SUB (R329): core `n` issues SUB gd, ga, gb. -/
  | sub (t : DT) (n d a b : Nat)
  /-- MIN (R329): core `n` issues MIN gd, ga, gb. -/
  | minS (t : DT) (n d a b : Nat)
  /-- MAX (R329): core `n` issues MAX gd, ga, gb. -/
  | maxS (t : DT) (n d a b : Nat)
  /-- AND (R329): core `n` issues AND gd, ga, gb. -/
  | andB (t : DT) (n d a b : Nat)
  /-- OR (R329): core `n` issues OR gd, ga, gb. -/
  | orB (t : DT) (n d a b : Nat)
  /-- XOR (R329): core `n` issues XOR gd, ga, gb. -/
  | xorB (t : DT) (n d a b : Nat)
  /-- SHL (R312): core `n` issues SHL gd, ga, gb. -/
  | shl (t : DT) (n d a b : Nat)
  /-- SHR (R312): core `n` issues SHR gd, ga, gb. -/
  | shr (t : DT) (n d a b : Nat)
  /-- SHRU (R329): core `n` issues SHRU gd, ga, gb. -/
  | shru (t : DT) (n d a b : Nat)
  /-- SLT (R329): core `n` issues SLT gd, ga, gb. -/
  | slt (t : DT) (n d a b : Nat)
  /-- SEQ (R329): core `n` issues SEQ gd, ga, gb. -/
  | seq (t : DT) (n d a b : Nat)
  /-- MOV (R329): core `n` issues MOV gd, ga. -/
  | mov (t : DT) (n d a : Nat)
  /-- NEG (R312): core `n` issues NEG gd, ga. -/
  | neg (t : DT) (n d a : Nat)
  /-- ABS (R312): core `n` issues ABS gd, ga. -/
  | abs (t : DT) (n d a : Nat)
  /-- NOT (R329): core `n` issues NOT gd, ga. -/
  | notB (t : DT) (n d a : Nat)
  /-- EXP (R314): core `n` issues EXP gd, ga. -/
  | exp (t : DT) (n d a : Nat)
  /-- NORM (R314): core `n` issues NORM gd, ga. -/
  | norm (t : DT) (n d a : Nat)
  /-- ADDI (R329): core `n` issues ADDI gd, ga, imm. -/
  | addi (t : DT) (n d a : Nat) (imm : Int)
  /-- ANDI (R329): core `n` issues ANDI gd, ga, imm. -/
  | andi (t : DT) (n d a : Nat) (imm : Int)
  /-- ORI (R329): core `n` issues ORI gd, ga, imm. -/
  | ori (t : DT) (n d a : Nat) (imm : Int)
  /-- XORI (R329): core `n` issues XORI gd, ga, imm. -/
  | xori (t : DT) (n d a : Nat) (imm : Int)
  /-- SHLI (R329): core `n` issues SHLI gd, ga, imm. -/
  | shli (t : DT) (n d a : Nat) (imm : Int)
  /-- SHRI (R329): core `n` issues SHRI gd, ga, imm. -/
  | shri (t : DT) (n d a : Nat) (imm : Int)
  /-- SHRUI (R329): core `n` issues SHRUI gd, ga, imm. -/
  | shrui (t : DT) (n d a : Nat) (imm : Int)
  /-- LDI (R329): core `n` issues LDI gd, imm32, the second word being `imm`. -/
  | ldi (t : DT) (n d imm : Nat)
  /-- LDIH (R329): core `n` issues LDIH gd, imm32, the second word being `imm`. -/
  | ldih (t : DT) (n d imm : Nat)
  /-- MUL (R313): core `n` issues MUL gd, ga, gb, sh. -/
  | mul (t : DT) (n d a b sh : Nat)
  /-- MAC (R313): core `n` issues MAC a(acc), ga, gb. -/
  | mac (t : DT) (n acc a b : Nat)
  /-- MSU (R313): core `n` issues MSU a(acc), ga, gb. -/
  | msu (t : DT) (n acc a b : Nat)
  /-- MACL (R329): core `n` issues MACL; `mx` and `my` select MODE 2. -/
  | macl (t : DT) (n acc a b px py : Nat) (mx my : Bool)
  /-- MSUL (R329): core `n` issues MSUL; `mx` and `my` select MODE 2. -/
  | msul (t : DT) (n acc a b px py : Nat) (mx my : Bool)
  /-- SATA (R313): core `n` issues SATA gd, a(acc), sh. -/
  | sata (t : DT) (n d acc sh : Nat)
  /-- LDA (R313): core `n` issues LDA a(acc), ga, sh. -/
  | lda (t : DT) (n acc a sh : Nat)
  /-- ADDA (R313): core `n` issues ADDA a(acc), a(src). -/
  | adda (t : DT) (n acc src : Nat)
  /-- CLRA (R329): core `n` issues CLRA a(acc). -/
  | clra (t : DT) (n acc : Nat)
  /-- EXPA (R314): core `n` issues EXPA gd, a(acc). -/
  | expa (t : DT) (n d acc : Nat)
  /-- LD (R309): core `n` issues LD.z gd, [pp], mode; the size is 2^size bytes. -/
  | ld (t : DT) (n d p mode size : Nat) (sign : Bool)
  /-- ST (R315): core `n` issues ST.z gr, [pp], mode; the size is 2^size bytes. -/
  | st (t : DT) (n r p mode size : Nat)
  /-- LDXY (R300): core `n` issues LDXY gd, ge, [px] mx, [py] my. -/
  | ldxy (t : DT) (n d e px mx py my : Nat)
  /-- LDD (R311): core `n` issues LDD.z gd, [ga + imm]. -/
  | ldd (t : DT) (n d a : Nat) (imm : Int) (size : Nat) (sign : Bool)
  /-- STD (R311): core `n` issues STD.z gr, [ga + imm]. -/
  | std (t : DT) (n r a : Nat) (imm : Int) (size : Nat)
  /-- SETP (R329): core `n` issues SETP pp, ga. -/
  | setp (t : DT) (n p a : Nat)
  /-- SETM (R329): core `n` issues SETM pp, ga. -/
  | setm (t : DT) (n p a : Nat)
  /-- SETC (R311): core `n` issues SETC pp, ga, gb. -/
  | setc (t : DT) (n p a b : Nat)
  /-- GETP (R329): core `n` issues GETP gd, pp. -/
  | getp (t : DT) (n d p : Nat)
  /-- GETM (R329): core `n` issues GETM gd, pp. -/
  | getm (t : DT) (n d p : Nat)
  /-- LDR (R318): core `n` issues LDR.z gd, [ga]. -/
  | ldr (t : DT) (n d a size : Nat) (sign : Bool)
  /-- LDR_DATA_RETURN (R318): the data of core `n`'s LDR arrive. -/
  | ldrDataReturn (t : DT) (n : Nat)
  /-- STR (R318): core `n` issues STR.z gr, [ga]. -/
  | str (t : DT) (n r a size : Nat)
  /-- FENCE (R319): core `n` issues FENCE. -/
  | fence (t : DT) (n : Nat)
  /-- REMOTE_TIMEOUT (R318): the time limit of core `n`'s oldest remote access has passed. -/
  | remoteTimeout (t : DT) (n : Nat)
  /-- BR (R305): core `n` issues BR off. -/
  | br (t : DT) (n : Nat) (off : Int)
  /-- CALL (R305): core `n` issues CALL off. -/
  | call (t : DT) (n : Nat) (off : Int)
  /-- BZ (R329): core `n` issues BZ ga, off. -/
  | bz (t : DT) (n a : Nat) (off : Int)
  /-- BNZ (R329): core `n` issues BNZ ga, off. -/
  | bnz (t : DT) (n a : Nat) (off : Int)
  /-- BEQ (R329): core `n` issues BEQ ga, gb, off. -/
  | beq (t : DT) (n a b : Nat) (off : Int)
  /-- BNE (R329): core `n` issues BNE ga, gb, off. -/
  | bne (t : DT) (n a b : Nat) (off : Int)
  /-- BLT (R329): core `n` issues BLT ga, gb, off. -/
  | blt (t : DT) (n a b : Nat) (off : Int)
  /-- BGE (R329): core `n` issues BGE ga, gb, off. -/
  | bge (t : DT) (n a b : Nat) (off : Int)
  /-- JMP (R329): core `n` issues JMP ga. -/
  | jmp (t : DT) (n a : Nat)
  /-- REPI (R307): core `n` issues REPI count, len. -/
  | repi (t : DT) (n count len : Nat)
  /-- REPR (R307): core `n` issues REPR ga, len. -/
  | repr (t : DT) (n a len : Nat)
  /-- NOP (R329): core `n` issues NOP. -/
  | nop (t : DT) (n : Nat)
  /-- MOVS_READ (R329): core `n` issues MOVS gd, CSR. -/
  | movsRead (t : DT) (n d : Nat)
  /-- MOVS_WRITE (R302): core `n` issues MOVS CSR, ga; the reserved bits stay 0. -/
  | movsWrite (t : DT) (n a : Nat)
  /-- LOCK (R325): core `n` issues LOCK gd, l. -/
  | lock (t : DT) (n d l : Nat)
  /-- UNLOCK (R347): core `n` issues UNLOCK l. -/
  | unlock (t : DT) (n l : Nat)
  /-- NOTIFY (R334): core `n` issues NOTIFY ga. -/
  | notify (t : DT) (n a : Nat)
  /-- WAIT (R324): core `n` issues WAIT. -/
  | wait (t : DT) (n : Nat)
  /-- YIELD (R335): core `n` issues YIELD. -/
  | yield (t : DT) (n : Nat)
  /-- END (R341): core `n` issues END. -/
  | endProg (t : DT) (n : Nat)
  /-- BREAK (R326): core `n` issues BREAK. -/
  | breakPoint (t : DT) (n : Nat)
  /-- TRACE (R447): core `n` issues TRACE imm. -/
  | trace (t : DT) (n imm : Nat)
  /-- PREEMPTION (R321): core `n` takes the pre-emption request that Keystone has made. -/
  | preemption (t : DT) (n : Nat)
  /-- CONTEXT_SAVE_DONE (R323): core `n` has written the save area of the context that leaves. -/
  | contextSaveDone (t : DT) (n : Nat)
  /-- DORMANT (R327): core `n` becomes dormant. -/
  | dormant (t : DT) (n : Nat)
  /-- WAKE (R327): core `n` wakes. -/
  | wake (t : DT) (n : Nat)
  /-- KS_DISABLE (R355): master `m` clears ENABLE of the KS page. -/
  | ksDisable (t : DT) (m : Nat)
  /-- CX_START (R333): master `m` starts context `c` by KS_CXCTL. -/
  | cxStart (t : DT) (m c : Nat)
  /-- CX_RESUME (R333): master `m` resumes context `c` by KS_CXCTL. -/
  | cxResume (t : DT) (m c : Nat)
  /-- CX_RESET (R333): master `m` resets context `c` by KS_CXCTL. -/
  | cxReset (t : DT) (m c : Nat)
  /-- CX_NOTIFY (R334): master `m` notifies context `c` by KS_CXCTL. -/
  | cxNotify (t : DT) (m c : Nat)
  /-- CONTEXT_PREFETCH (R336): Keystone fills an empty prefetch slot. -/
  | contextPrefetch (t : DT)
  /-- FLOW_ENABLE (R340): master `m` enables flow `f` by KS_FLOWCTL. -/
  | flowEnable (t : DT) (m f : Nat)
  /-- FLOW_DISABLE (R340): master `m` disables flow `f` by KS_FLOWCTL. -/
  | flowDisable (t : DT) (m f : Nat)
  /-- FLOW_POST (R341): master `m` posts its KS_POST_ARG to flow `f`. -/
  | flowPost (t : DT) (m f : Nat)
  /-- DL_INSERT (R344): master `m` inserts an entry of the delay list from its own registers. -/
  | dlInsert (t : DT) (m tag : Nat) (write discard : Bool)
  /-- DL_CANCEL (R346): master `m` cancels the entries with the tag. -/
  | dlCancel (t : DT) (m tag : Nat)
  /-- ACQUIRE (R348): master `m` acquires lock `l` for `owner`. -/
  | acquire (t : DT) (m l owner : Nat)
  /-- LOCK_RELEASE (R348): master `m` releases lock `l` of `owner`. -/
  | lockRelease (t : DT) (m l owner : Nat)
  /-- QUOTA_WRITE (R351): CX_QUOTA.QUOTA of context `c` is written. -/
  | quotaWrite (t : DT) (c q : Nat)
  /-- KS_SNAP_TAKE (R352): master `m` takes KS_SNAP. -/
  | ksSnapTake (t : DT) (m : Nat)
  /-- XU_INVAL_ALL (R366): XU_INVAL with OP = 1. -/
  | xuInvalAll (t : DT)
  /-- XU_INVAL_RANGE (R366): XU_INVAL with OP = 2: `n` + 1 pages of 4 KiB from page `first`. -/
  | xuInvalRange (t : DT) (first n : Nat)
  /-- INVALIDATION_DONE (R366): the oldest invalidation completes. -/
  | invalidationDone (t : DT)
  /-- DMA_RING_ENABLE (R382): master `m` enables ring `k` of engine `n` by DMn_CTL. -/
  | dmaRingEnable (t : DT) (m n k : Nat)
  /-- DMA_RING_DISABLE (R382): master `m` disables ring `k` of engine `n` by DMn_CTL. -/
  | dmaRingDisable (t : DT) (m n k : Nat)
  /-- DMA_RESUME (R371): master `m` resumes ring `k` of engine `n` by DMn_CTL. -/
  | dmaResume (t : DT) (m n k : Nat)
  /-- DMA_ABORT (R371): master `m` aborts the descriptor of ring `k` of engine `n` by DMn_CTL. -/
  | dmaAbort (t : DT) (m n k : Nat)
  /-- DMA_CONTINUE (R373): master `m` continues ring `k` of engine `n` by DMn_CTL. -/
  | dmaContinue (t : DT) (m n k : Nat)
  /-- DMA_POST (R368): master `m` writes DMn_WRk. -/
  | dmaPost (t : DT) (m n k wr : Nat)
  /-- DMA_DONE (R369): every write of the present descriptor of ring `k` of engine `n` has been acknowledged. -/
  | dmaDone (t : DT) (n k : Nat)
  /-- QUEUE_ENABLE (R376): master `m` enables queue `q` by Q_CTL. -/
  | queueEnable (t : DT) (m q : Nat)
  /-- QUEUE_DISABLE (R376): master `m` disables queue `q` by Q_CTL. -/
  | queueDisable (t : DT) (m q : Nat)
  /-- Q_PUSH (R377): master `m` pushes a word to queue `q`. -/
  | qPush (t : DT) (m q : Nat) (v : Word)
  /-- Q_COMMIT (R377): master `m` commits the packet of queue `q` by Q_CMD. -/
  | qCommit (t : DT) (m q : Nat)
  /-- Q_ABANDON (R377): master `m` abandons the packet of queue `q` by Q_CMD. -/
  | qAbandon (t : DT) (m q : Nat) (force : Bool)
  /-- Q_MARK (R378): master `m` marks queue `q` by Q_CMD. -/
  | qMark (t : DT) (m q : Nat)
  /-- Q_REWIND (R378): master `m` rewinds queue `q` by Q_CMD. -/
  | qRewind (t : DT) (m q : Nat)
  /-- Q_POP (R378): master `m` reads Q_POP of queue `q`; the answer leaves the device. -/
  | qPop (t : DT) (m q : Nat)
  /-- Q_POP_TIMEOUT (R379): the TIMEOUT of the oldest waiting read of queue `q` has passed. -/
  | qPopTimeout (t : DT) (q : Nat)
  /-- SCRUB_READ (R360): the patrol scrubber reads the word at `a`: 0 sound, 1 corrected, 2 uncorrectable. -/
  | scrubRead (t : DT) (a flaw : Nat)
  /-- MEM_SNAP_TAKE (R119): master `m` takes MEM_SNAP. -/
  | memSnapTake (t : DT) (m : Nat)
  /-- PW_ENABLE (R410): master `m` sets ENABLE of the PW page. -/
  | pwEnable (t : DT) (m : Nat)
  /-- PW_LINK_UP (R387): the party-wall link comes up with the lanes and the partner's identity. -/
  | pwLinkUp (t : DT) (lanes serial rev role twinId : Nat)
  /-- PW_LANE_DOWN (R384): lane `lane` fails. -/
  | pwLaneDown (t : DT) (lane : Nat)
  /-- PW_LINK_DOWN (R401): the party-wall link goes down. -/
  | pwLinkDown (t : DT)
  /-- HEARTBEAT_RECEIVED (R388): a heartbeat arrives with the time exchange and what else it carries. -/
  | heartbeatReceived (t : DT) (cycle role : Nat) (off rate : Int) (locked : Bool) (seen : HeartbeatBody)
  /-- MIRRORED_WRITE (R390): a mirrored write reaches the standby. -/
  | mirroredWrite (t : DT) (off : MirrorAt) (v : Word)
  /-- STATE_COPY_APPLIED (R391): a complete state copy reaches the standby. -/
  | stateCopyApplied (t : DT) (cycle : Nat) (b : CopyBody)
  /-- SHADOW_EVALUATION (R394): the standby evaluates sampled axis `a` on engines `e1` and `e2`, whose results are off by `flaws`. -/
  | shadowEvaluation (t : DT) (a cycle e1 e2 : Nat) (words : List Int) (main aux : Int) (flags : Nat)
      (flaws : EngineFlaw × EngineFlaw) (pass : Nat)
  /-- SWITCH (R400): master `m` requests a planned switch by a guarded TW_ROLE. -/
  | switch (t : DT) (m : Nat)
  /-- SILENCE (R398): master `m` silences the unit by a guarded TW_ROLE. -/
  | silence (t : DT) (m : Nat)
  /-- CORE_FAULT_DECLARED (R399): the core fault `cause` that stands is declared. -/
  | coreFaultDeclared (t : DT) (cause : Nat)
  /-- DECLARATION_RECEIVED (R401): a declaration of the partner arrives. -/
  | declarationReceived (t : DT) (cause : DeclIn) (cycle : Nat)
  /-- BULK_COPY_DONE (R405): the resynchronisation copy is complete. -/
  | bulkCopyDone (t : DT) (words regs : List (Nat × Nat)) (rest : BulkRest)
  /-- STANDBY_READY (R405): 64 consecutive copies have been applied. -/
  | standbyReady (t : DT)
  /-- OVERTEMP (R398): Tj has been at or above 130 °C for 1 ms. -/
  | overtemp (t : DT)
  /-- HK_WATCHDOG (R398): the HK firmware watchdog has not been served for 2 s. -/
  | hkWatchdog (t : DT)
  /-- REGULATOR (R398): a conversion stage reports a fault, or no longer does. -/
  | regulator (t : DT) (on vcore : Bool)
  /-- TW_SNAP_TAKE (R119): master `m` takes TW_SNAP. -/
  | twSnapTake (t : DT) (m : Nat)
  /-- FEED_GOOD (R407): feed `n` has been above 34 V for 10 ms. -/
  | feedGood (t : DT) (n : Nat)
  /-- FEED_OV_RETURN (R407): feed `n` has been below 76 V for 10 ms. -/
  | feedOvReturn (t : DT) (n : Nat)
  /-- SHUTDOWN (R409): HOLDUP has fallen below 24 V. -/
  | shutdown (t : DT)
  /-- DIS_A (R408): master `m` writes DIS_A by a guarded FS_FEED_DIS that keeps DIS_B. -/
  | disA (t : DT) (m : Nat) (on : Bool)
  /-- DIS_B (R408): master `m` writes DIS_B by a guarded FS_FEED_DIS that keeps DIS_A. -/
  | disB (t : DT) (m : Nat) (on : Bool)
  /-- PAGE_ENABLE (R413): master `m` sets ENABLE of the page at `p`. -/
  | pageEnable (t : DT) (m p : Nat)
  /-- CHECK_DONE (R413): the check of the page at `p` completes; `pass` tells the outcome of self-checks. -/
  | checkDone (t : DT) (p pass : Nat)
  /-- EVT_MASK_WRITE (R416): master `m` writes EVT_MASK of the page at `p`. -/
  | evtMaskWrite (t : DT) (m p : Nat) (v : Word)
  /-- GUARD_SEL_WRITE (R418): master `m` writes GUARD_SEL of the page at `p`. -/
  | guardSelWrite (t : DT) (m p : Nat) (v : Word)
  /-- GUARD_A_WRITE (R418): master `m` writes GUARD_A of the page at `p`. -/
  | guardAWrite (t : DT) (m p : Nat) (v : Word)
  /-- GUARD_B_WRITE (R417): master `m` writes GUARD_B of the page at `p`. -/
  | guardBWrite (t : DT) (m p : Nat) (v : Word)
  /-- REGISTER_WRITE (R7): master `m` writes `n` bytes at XU address `a`, within one word. -/
  | registerWrite (t : DT) (m a n : Nat) (v : Word)
  /-- GROUP_CLOSE (R429): the window of the open groups of queue `q` has passed. -/
  | groupClose (t : DT) (q : Nat)
  /-- EH_QUEUE_ENABLE (R432): master `m` writes EH_QqCFG with EN set and the other fields of `v`. -/
  | ehQueueEnable (t : DT) (m q : Nat) (v : Word)
  /-- EH_QUEUE_DISABLE (R432): master `m` writes EH_QqCFG with EN clear and the other fields of `v`. -/
  | ehQueueDisable (t : DT) (m q : Nat) (v : Word)
  /-- EH_DISABLE (R432): master `m` clears ENABLE of the EH page. -/
  | ehDisable (t : DT) (m : Nat)
  /-- EH_RD_WRITE (R431): EH_QqRD is written. -/
  | ehRdWrite (t : DT) (q : Nat) (v : Word)
  /-- MSIX_UNMASK (R435): the host clears the mask bit of vector `v`. -/
  | msixUnmask (t : DT) (v : Nat)
  /-- PERST (R437): PERST# is asserted. -/
  | perst (t : DT)
  /-- HOT_RESET (R437): a hot reset. -/
  | hotReset (t : DT)
  /-- FUNCTION_LEVEL_RESET (R437): a Function Level Reset. -/
  | functionLevelReset (t : DT)
  /-- D3HOT_ENTRY (R437): the function enters D3hot. -/
  | d3hotEntry (t : DT)
  /-- HP_LINK_UP (R452): the PCIe link comes up. -/
  | hpLinkUp (t : DT) (width speed : Nat)
  /-- HP_LINK_DOWN (R437): the PCIe link goes down. -/
  | hpLinkDown (t : DT)
  /-- HOST_ACCESS (R26): a host access of `n` bytes at offset `off` of space `sp`: a write of a value, or a read. -/
  | hostAccess (t : DT) (sp off n : Nat) (write : HostOp)
  /-- HE_LINK_UP (R452): the link of HE port `n` comes up. -/
  | heLinkUp (t : DT) (n : Nat)
  /-- HE_LINK_DOWN (R452): the link of HE port `n` goes down. -/
  | heLinkDown (t : DT) (n : Nat)
  /-- REGISTER_ACCESS_REQUEST (R439): a register-access datagram arrives at HE port `n`; `pass` tells the outcome of self-checks. -/
  | registerAccessRequest (t : DT) (n : HeIn) (ip port target dport magic version count seq pass : Nat) (ops : List (Nat × Nat × Nat × Word))
  /-- ARP_REQUEST (R438): an ARP request arrives at HE port `n`. -/
  | arpRequest (t : DT) (n : HeIn) (sender target : Nat)
  /-- MP_WRITE (R442): MP command 0x01. -/
  | mpWrite (t : DT) (addr : MpIn) (v : Word)
  /-- MP_READ (R442): MP command 0x02. -/
  | mpRead (t : DT) (addr : MpIn)
  /-- BOOT_SEL_WRITE (R446): master `m` names the image of the next boot by a guarded BOOT_SEL. -/
  | bootSelWrite (t : DT) (m image : Nat)
  /-- HK_BOOT (R446): the HK boots, with what it finds. -/
  | hkBoot (t : DT) (b : Machine.BootIn)
  /-- START_STAGE (R454): start stage `n` begins. -/
  | startStage (t : DT) (n : Nat)
  /-- STAGE_WAIT_EXPIRY (R460): the wait limit of stage `n` has passed, for port `p` where the stage has one. -/
  | stageWaitExpiry (t : DT) (n p : Nat)
  /-- PAIR_WAIT_EXPIRY (R455): PAIR_WAIT has passed. -/
  | pairWaitExpiry (t : DT)
  /-- AUTO_CLEARED (R461): master `m` clears HK_START.AUTO. -/
  | autoCleared (t : DT) (m : Nat)
  /-- RESTART_WARM (R466): master `m` writes RESTART by a guarded HK_RESTART. -/
  | restartWarm (t : DT) (m : Nat)
  /-- RESTART_CLEAR (R466): master `m` writes RESTART_CLEAR by a guarded HK_RESTART. -/
  | restartClear (t : DT) (m : Nat)
  /-- TRC_ENABLE (R447): master `m` sets ENABLE of the TRC page. -/
  | trcEnable (t : DT) (m : Nat)
  /-- JTAG_BYPASS (R450): The BYPASS instruction. -/
  | jtagBypass (t : DT)
  /-- JTAG_IDCODE (R450): The IDCODE instruction returns 0x1E51_2C3D. -/
  | jtagIdcode (t : DT)
  /-- SAMPLE_PRELOAD (R450): SAMPLE/PRELOAD: the pins sampled and the value loaded. -/
  | samplePreload (t : DT) (pins v : Word)
  /-- EXTEST (R450): EXTEST, carried out only in minimal mode or a stopped SINGLE unit. -/
  | extest (t : DT)
  /-- DEBUG (R450): DEBUG: an access at offset `off` of space `sp`. -/
  | jtagDebug (t : DT) (sp off : Nat) (write : Option Word)
  /-- REMOTE_STORE_ACK (R319): the target acknowledges the oldest remote store of core `n`. -/
  | remoteStoreAck (t : DT) (n : Nat)
  /-- CREDIT_RETURN (R20, R350): a consumer removes flits from a Mortar queue. -/
  | creditReturn (t : DT) (c : Credit)
  /-- CONFIG_SPACE_WRITE (R437): the host writes Bus Master Enable and the MSI-X control, and may return the function to D0. -/
  | configSpaceWrite (t : DT) (bme : HpConfig) (d0 : Bool)
  /-- PPS_PRESENT_TIMEOUT (R81): no edge on PPS_IN for 1 s plus 1 ms. -/
  | ppsPresentTimeout (t : DT)
deriving DecidableEq, Repr

end Sys2Proof
end

