-- ==== Sys2Proof/Decode.lean ====
section
/-! DEFINITION. The signal-core instruction words (Tables 12.7 and 12.8): the encoder and the decoder; and the
decoder that the host asks for, which answers none because no row of the opcode table gives bits. -/

namespace Sys2Proof

open Sys2Proof.Machine

/-- No row of the opcode table gives bits, so no word spells a command. -/
def decodeTableWord (nbits w : Nat) : Option Instr :=
  let _ := (nbits, w)
  none

/-! ### Encoding (Table 12.7) -/

/-- Class A: OP, gD, gA, gB. -/
def encA (op d a b : Nat) : Nat × Option Nat := (op * 2 ^ 22 + d * 2 ^ 17 + a * 2 ^ 12 + b * 2 ^ 7, none)

/-- Class I: OP, gD, gA, IMM15. -/
def encI (op d a : Nat) (imm : Int) : Nat × Option Nat :=
  (1 * 2 ^ 28 + op * 2 ^ 25 + d * 2 ^ 20 + a * 2 ^ 15 + ofS 15 imm, none)

/-- Class L: OP, gD and the second word. -/
def encL (op d imm : Nat) : Nat × Option Nat := (2 * 2 ^ 28 + op * 2 ^ 26 + d * 2 ^ 21, some imm)

/-- Class M, MUL: gD, gA, gB, SH. -/
def encMul (d a b sh : Nat) : Nat × Option Nat :=
  (3 * 2 ^ 28 + 0 * 2 ^ 24 + d * 2 ^ 19 + a * 2 ^ 14 + b * 2 ^ 9 + sh * 2 ^ 2, none)

/-- Class M, the accumulator instructions: OP, aN, a register in 21:17, a field in 16:12, SH. -/
def encM (op acc r b sh : Nat) : Nat × Option Nat :=
  (3 * 2 ^ 28 + op * 2 ^ 24 + acc * 2 ^ 22 + r * 2 ^ 17 + b * 2 ^ 12 + sh * 2 ^ 5, none)

/-- Class M, MACL and MSUL. -/
def encMacl (op acc a b px py : Nat) (mx my : Bool) : Nat × Option Nat :=
  (3 * 2 ^ 28 + op * 2 ^ 24 + acc * 2 ^ 22 + a * 2 ^ 17 + b * 2 ^ 12 + px * 2 ^ 9 + py * 2 ^ 6 + b2n mx * 2 ^ 5 +
    b2n my * 2 ^ 4, none)

/-- Class X, LD and ST. -/
def encX (op size sign r p mode : Nat) : Nat × Option Nat :=
  (4 * 2 ^ 28 + op * 2 ^ 25 + size * 2 ^ 23 + sign * 2 ^ 22 + r * 2 ^ 17 + p * 2 ^ 14 + mode * 2 ^ 12, none)

/-- Class X, LDXY. -/
def encLdxy (d e px mx py my : Nat) : Nat × Option Nat :=
  (4 * 2 ^ 28 + 2 * 2 ^ 25 + 3 * 2 ^ 23 + d * 2 ^ 17 + e * 2 ^ 12 + px * 2 ^ 9 + mx * 2 ^ 7 + py * 2 ^ 4 + my * 2 ^ 2, none)

/-- Class X, LDD and STD. -/
def encXd (op size sign r a : Nat) (imm : Int) : Nat × Option Nat :=
  (4 * 2 ^ 28 + op * 2 ^ 25 + size * 2 ^ 23 + sign * 2 ^ 22 + r * 2 ^ 17 + a * 2 ^ 12 + ofS 12 imm, none)

/-- Class P. -/
def encP (op p r b : Nat) : Nat × Option Nat :=
  (5 * 2 ^ 28 + op * 2 ^ 25 + p * 2 ^ 22 + r * 2 ^ 17 + b * 2 ^ 12, none)

/-- Class G. -/
def encG (op size sign r a : Nat) : Nat × Option Nat :=
  (6 * 2 ^ 28 + op * 2 ^ 26 + size * 2 ^ 24 + sign * 2 ^ 23 + r * 2 ^ 18 + a * 2 ^ 13, none)

/-- Class B, BR and CALL. -/
def encB24 (op : Nat) (off : Int) : Nat × Option Nat := (7 * 2 ^ 28 + op * 2 ^ 24 + ofS 24 off, none)

/-- Class B, the conditional branches and JMP. -/
def encB14 (op a b : Nat) (off : Int) : Nat × Option Nat :=
  (7 * 2 ^ 28 + op * 2 ^ 24 + a * 2 ^ 19 + b * 2 ^ 14 + ofS 14 off, none)

/-- Class S. -/
def encS (op r imm : Nat) : Nat × Option Nat := (8 * 2 ^ 28 + op * 2 ^ 22 + r * 2 ^ 17 + imm, none)

/-- The words of a signal-core instruction (Table 12.8): the first and, for class L, the second. -/
def scEncode : Instr → Option (Nat × Option Nat)
  | .add _ _ d a b => some (encA 0x00 d a b)
  | .sub _ _ d a b => some (encA 0x01 d a b)
  | .minS _ _ d a b => some (encA 0x02 d a b)
  | .maxS _ _ d a b => some (encA 0x03 d a b)
  | .andB _ _ d a b => some (encA 0x04 d a b)
  | .orB _ _ d a b => some (encA 0x05 d a b)
  | .xorB _ _ d a b => some (encA 0x06 d a b)
  | .shl _ _ d a b => some (encA 0x07 d a b)
  | .shr _ _ d a b => some (encA 0x08 d a b)
  | .shru _ _ d a b => some (encA 0x09 d a b)
  | .slt _ _ d a b => some (encA 0x0A d a b)
  | .seq _ _ d a b => some (encA 0x0B d a b)
  | .mov _ _ d a => some (encA 0x10 d a 0)
  | .neg _ _ d a => some (encA 0x11 d a 0)
  | .abs _ _ d a => some (encA 0x12 d a 0)
  | .notB _ _ d a => some (encA 0x13 d a 0)
  | .exp _ _ d a => some (encA 0x14 d a 0)
  | .norm _ _ d a => some (encA 0x15 d a 0)
  | .addi _ _ d a i => some (encI 0 d a i)
  | .andi _ _ d a i => some (encI 1 d a i)
  | .ori _ _ d a i => some (encI 2 d a i)
  | .xori _ _ d a i => some (encI 3 d a i)
  | .shli _ _ d a i => some (encI 4 d a i)
  | .shri _ _ d a i => some (encI 5 d a i)
  | .shrui _ _ d a i => some (encI 6 d a i)
  | .ldi _ _ d i => some (encL 0 d i)
  | .ldih _ _ d i => some (encL 1 d i)
  | .mul _ _ d a b sh => some (encMul d a b sh)
  | .mac _ _ n a b => some (encM 1 n a b 0)
  | .msu _ _ n a b => some (encM 2 n a b 0)
  | .macl _ _ n a b px py mx my => some (encMacl 3 n a b px py mx my)
  | .msul _ _ n a b px py mx my => some (encMacl 4 n a b px py mx my)
  | .sata _ _ d n sh => some (encM 5 n d 0 sh)
  | .lda _ _ n a sh => some (encM 6 n a 0 sh)
  | .adda _ _ n m => some (encM 7 n 0 m 0)
  | .clra _ _ n => some (encM 8 n 0 0 0)
  | .expa _ _ d n => some (encM 9 n d 0 0)
  | .ld _ _ d p mode z sg => some (encX 0 z (b2n sg) d p mode)
  | .st _ _ r p mode z => some (encX 1 z 0 r p mode)
  | .ldxy _ _ d e px mx py my => some (encLdxy d e px mx py my)
  | .ldd _ _ d a i z sg => some (encXd 3 z (b2n sg) d a i)
  | .std _ _ r a i z => some (encXd 4 z 0 r a i)
  | .setp _ _ p a => some (encP 0 p a 0)
  | .setm _ _ p a => some (encP 1 p a 0)
  | .setc _ _ p a b => some (encP 2 p a b)
  | .getp _ _ d p => some (encP 3 p d 0)
  | .getm _ _ d p => some (encP 4 p d 0)
  | .ldr _ _ d a z sg => some (encG 0 z (b2n sg) d a)
  | .str _ _ r a z => some (encG 1 z 0 r a)
  | .fence _ _ => some (encG 2 0 0 0 0)
  | .br _ _ o => some (encB24 0 o)
  | .call _ _ o => some (encB24 1 o)
  | .bz _ _ a o => some (encB14 2 a 0 o)
  | .bnz _ _ a o => some (encB14 3 a 0 o)
  | .beq _ _ a b o => some (encB14 4 a b o)
  | .bne _ _ a b o => some (encB14 5 a b o)
  | .blt _ _ a b o => some (encB14 6 a b o)
  | .bge _ _ a b o => some (encB14 7 a b o)
  | .jmp _ _ a => some (encB14 8 a 0 0)
  | .repi _ _ c l => some (7 * 2 ^ 28 + 9 * 2 ^ 24 + c * 2 ^ 8 + (l - 1), none)
  | .repr _ _ a l => some (7 * 2 ^ 28 + 10 * 2 ^ 24 + a * 2 ^ 19 + (l - 1), none)
  | .nop _ _ => some (encS 0 0 0)
  | .movsRead _ _ d => some (encS 1 d 0)
  | .movsWrite _ _ a => some (encS 2 a 0)
  | .lock _ _ d l => some (encS 3 d l)
  | .unlock _ _ l => some (encS 4 0 l)
  | .notify _ _ a => some (encS 5 a 0)
  | .wait _ _ => some (encS 6 0 0)
  | .yield _ _ => some (encS 7 0 0)
  | .endProg _ _ => some (encS 8 0 0)
  | .breakPoint _ _ => some (encS 9 0 0)
  | .trace _ _ i => some (encS 10 0 i)
  | _ => none

/-! ### Decoding (R328, R329). Fields that the layouts mark 0 must be 0; a field of the layout that the
instruction does not name is not read. -/

/-- `i` when the reserved fields are 0. -/
def whenZero (r : Nat) (i : Instr) : Option Instr := if r = 0 then some i else none

/-- Class A. -/
def decA (t : DT) (n w : Nat) : Option Instr :=
  let d := getBits w 17 5
  let a := getBits w 12 5
  let b := getBits w 7 5
  let r := getBits w 0 7
  match getBits w 22 6 with
  | 0x00 => whenZero r (.add t n d a b)
  | 0x01 => whenZero r (.sub t n d a b)
  | 0x02 => whenZero r (.minS t n d a b)
  | 0x03 => whenZero r (.maxS t n d a b)
  | 0x04 => whenZero r (.andB t n d a b)
  | 0x05 => whenZero r (.orB t n d a b)
  | 0x06 => whenZero r (.xorB t n d a b)
  | 0x07 => whenZero r (.shl t n d a b)
  | 0x08 => whenZero r (.shr t n d a b)
  | 0x09 => whenZero r (.shru t n d a b)
  | 0x0A => whenZero r (.slt t n d a b)
  | 0x0B => whenZero r (.seq t n d a b)
  | 0x10 => whenZero r (.mov t n d a)
  | 0x11 => whenZero r (.neg t n d a)
  | 0x12 => whenZero r (.abs t n d a)
  | 0x13 => whenZero r (.notB t n d a)
  | 0x14 => whenZero r (.exp t n d a)
  | 0x15 => whenZero r (.norm t n d a)
  | _ => none

/-- Class I. -/
def decI (t : DT) (n w : Nat) : Option Instr :=
  let d := getBits w 20 5
  let a := getBits w 15 5
  let i := toS 15 w
  match getBits w 25 3 with
  | 0 => some (.addi t n d a i)
  | 1 => some (.andi t n d a i)
  | 2 => some (.ori t n d a i)
  | 3 => some (.xori t n d a i)
  | 4 => some (.shli t n d a i)
  | 5 => some (.shri t n d a i)
  | 6 => some (.shrui t n d a i)
  | _ => none

/-- Class L. -/
def decL (t : DT) (n w imm : Nat) : Option Instr :=
  let d := getBits w 21 5
  let r := getBits w 0 21
  match getBits w 26 2 with
  | 0 => whenZero r (.ldi t n d imm)
  | 1 => whenZero r (.ldih t n d imm)
  | _ => none

/-- Class M. -/
def decM (t : DT) (n w : Nat) : Option Instr :=
  let acc := getBits w 22 2
  let x := getBits w 17 5
  let b := getBits w 12 5
  let sh := getBits w 5 7
  let r := getBits w 0 5
  match getBits w 24 4 with
  | 0 => whenZero (getBits w 0 2) (.mul t n (getBits w 19 5) (getBits w 14 5) (getBits w 9 5) (getBits w 2 7))
  | 1 => whenZero r (.mac t n acc x b)
  | 2 => whenZero r (.msu t n acc x b)
  | 3 => whenZero (getBits w 0 4) (.macl t n acc x b (getBits w 9 3) (getBits w 6 3) (bit w 5) (bit w 4))
  | 4 => whenZero (getBits w 0 4) (.msul t n acc x b (getBits w 9 3) (getBits w 6 3) (bit w 5) (bit w 4))
  | 5 => whenZero r (.sata t n x acc sh)
  | 6 => if sh ≤ 71 then whenZero r (.lda t n acc x sh) else none
  | 7 => whenZero r (.adda t n acc (getBits w 12 2))
  | 8 => whenZero r (.clra t n acc)
  | 9 => whenZero r (.expa t n x acc)
  | _ => none

/-- Class X. -/
def decX (t : DT) (n w : Nat) : Option Instr :=
  let z := getBits w 23 2
  let sg := bit w 22
  let x := getBits w 17 5
  let i := toS 12 w
  match getBits w 25 3 with
  | 0 => if z = 3 && sg then none
         else whenZero (getBits w 0 12) (.ld t n x (getBits w 14 3) (getBits w 12 2) z sg)
  | 1 => if sg then none else whenZero (getBits w 0 12) (.st t n x (getBits w 14 3) (getBits w 12 2) z)
  | 2 => if z ≠ 3 || sg then none
         else whenZero (getBits w 0 2)
          (.ldxy t n x (getBits w 12 5) (getBits w 9 3) (getBits w 7 2) (getBits w 4 3) (getBits w 2 2))
  | 3 => if z = 3 && sg then none else some (.ldd t n x (getBits w 12 5) i z sg)
  | 4 => if sg then none else some (.std t n x (getBits w 12 5) i z)
  | _ => none

/-- Class P. -/
def decP (t : DT) (n w : Nat) : Option Instr :=
  let p := getBits w 22 3
  let x := getBits w 17 5
  let r := getBits w 0 12
  match getBits w 25 3 with
  | 0 => whenZero r (.setp t n p x)
  | 1 => whenZero r (.setm t n p x)
  | 2 => whenZero r (.setc t n p x (getBits w 12 5))
  | 3 => whenZero r (.getp t n x p)
  | 4 => whenZero r (.getm t n x p)
  | _ => none

/-- Class G. -/
def decG (t : DT) (n w : Nat) : Option Instr :=
  let z := getBits w 24 2
  let sg := bit w 23
  let x := getBits w 18 5
  let a := getBits w 13 5
  let r := getBits w 0 13
  match getBits w 26 2 with
  | 0 => if z = 3 && sg then none else whenZero r (.ldr t n x a z sg)
  | 1 => if sg then none else whenZero r (.str t n x a z)
  | 2 => whenZero r (.fence t n)
  | _ => none

/-- Class B. -/
def decB (t : DT) (n w : Nat) : Option Instr :=
  let a := getBits w 19 5
  let b := getBits w 14 5
  let o := toS 14 w
  match getBits w 24 4 with
  | 0 => some (.br t n (toS 24 w))
  | 1 => some (.call t n (toS 24 w))
  | 2 => whenZero b (.bz t n a o)
  | 3 => whenZero b (.bnz t n a o)
  | 4 => some (.beq t n a b o)
  | 5 => some (.bne t n a b o)
  | 6 => some (.blt t n a b o)
  | 7 => some (.bge t n a b o)
  | 8 => whenZero (getBits w 0 19) (.jmp t n a)
  | 9 => whenZero (getBits w 4 4) (.repi t n (getBits w 8 16) (getBits w 0 4 + 1))
  | 10 => whenZero (getBits w 4 15) (.repr t n a (getBits w 0 4 + 1))
  | _ => none

/-- Class S. -/
def decS (t : DT) (n w : Nat) : Option Instr :=
  let x := getBits w 17 5
  match getBits w 22 6 with
  | 0 => some (.nop t n)
  | 1 => some (.movsRead t n x)
  | 2 => some (.movsWrite t n x)
  | 3 => some (.lock t n x (getBits w 0 8))
  | 4 => some (.unlock t n (getBits w 0 8))
  | 5 => some (.notify t n x)
  | 6 => some (.wait t n)
  | 7 => some (.yield t n)
  | 8 => some (.endProg t n)
  | 9 => some (.breakPoint t n)
  | 10 => some (.trace t n (getBits w 0 16))
  | _ => none

/-- The instruction that core `n` reads from the word `w`, with `imm` the word after it; `none` for ILLEGAL
(Table 12.6, cause 1). -/
def scDecode (t : DT) (n w imm : Nat) : Option Instr :=
  match getBits w 28 4 with
  | 0 => decA t n w
  | 1 => decI t n w
  | 2 => decL t n w imm
  | 3 => decM t n w
  | 4 => decX t n w
  | 5 => decP t n w
  | 6 => decG t n w
  | 7 => decB t n w
  | 8 => decS t n w
  | _ => none

/-- Words that the instruction whose first word is `w` takes (R328). -/
def scWordCount (w : Nat) : Nat := if getBits w 28 4 = 2 then 2 else 1

end Sys2Proof
end

