-- ==== Sys2Proof/Config.lean ====
section
/-! DEFINITION. The free values: what the spec leaves open, as constants without a body. Nothing in Lean
can evaluate one, so a statement that holds holds whatever the value is. -/

namespace Sys2Proof

/-- A byte of host memory that the device has not written: the `n`-th reading of address `h` (the host's
memory is outside the device, R2). -/
opaque Config.hostByte (n h : Nat) : BitVec 8

/-- The `n`-th free value. -/
opaque Config.freeValue (n : Nat) : BitVec 64

/-- The offset against DT that the clock servo of R71 estimates for the last measurement, in 2^-16 ns: from FILTER and
the measurements, newest first, each as its DT and its offset. The spec gives the servo no algorithm. -/
opaque Config.servoOffset (filter : Nat) (hist : List (Nat × Int)) : Int

/-- The rate against DT that the clock servo of R71 estimates, in 1/256 ppb. -/
opaque Config.servoRate (filter : Nat) (hist : List (Nat × Int)) : Int

end Sys2Proof
end

