-- ==== Sys2Proof/Machine/RegMap.lean ====
section
/-! DEFINITION. The register map: the address and the bits of every register and record field of the
spec's register tables (each chapter's register sections; the pages of Table 16.9), by its name in the
spec. A field of a BAR0 page has its BAR0 offset; a field of a record in memory (axis record, context
record, channel, stream and angle descriptor) has its offset within the record. -/

namespace Sys2Proof.Machine

/-- A field: the address of its 64-bit word, its lowest bit and its width. -/
structure Fld where
  adr : Nat
  lo : Nat
  w : Nat
deriving DecidableEq, Repr

/-- BAR0 offset of the chip page (Table 16.9). -/
abbrev pChip : Nat := 0x0
/-- BAR0 offset of the HK page (Table 16.9). -/
abbrev pHK : Nat := 0x1000
/-- BAR0 offset of the boot page (Table 16.9). -/
abbrev pBoot : Nat := 0x2000
/-- BAR0 offset of the FS page (Table 16.9). -/
abbrev pFS : Nat := 0x3000
/-- BAR0 offset of the SG page (Table 16.9). -/
abbrev pSG : Nat := 0x4000
/-- BAR0 offset of the KS page (Table 16.9). -/
abbrev pKS : Nat := 0x10000
/-- BAR0 offset of the LE page (Table 16.9). -/
abbrev pLE : Nat := 0x20000
/-- BAR0 offset of the FBE page (Table 16.9). -/
abbrev pFBE : Nat := 0x30000
/-- BAR0 offset of the QE page (Table 16.9). -/
abbrev pQE : Nat := 0x31000
/-- BAR0 offset of the PG page (Table 16.9). -/
abbrev pPG : Nat := 0x40000
/-- BAR0 offset of the FP epoch page (Table 16.9). -/
abbrev pEpoch : Nat := 0x58000
/-- BAR0 offset of the TU time page (Table 16.9). -/
abbrev pTU : Nat := 0x60000
/-- BAR0 offset of the TU cycle page (Table 16.9). -/
abbrev pCyc : Nat := 0x61000
/-- BAR0 offset of the TU PTP page (Table 16.9). -/
abbrev pPTP : Nat := 0x62000
/-- BAR0 offset of the AE page (Table 16.9). -/
abbrev pAE : Nat := 0x70000
/-- BAR0 offset of the angle page (Table 16.9). -/
abbrev pANG : Nat := 0x71000
/-- BAR0 offset of the XU page (Table 16.9). -/
abbrev pXU : Nat := 0x90000
/-- BAR0 offset of the DMA page (Table 16.9). -/
abbrev pDMA : Nat := 0x91000
/-- BAR0 offset of the queue page (Table 16.9). -/
abbrev pQ : Nat := 0x92000
/-- BAR0 offset of the memory page (Table 16.9). -/
abbrev pMEM : Nat := 0x93000
/-- BAR0 offset of the PW page (Table 16.9). -/
abbrev pPW : Nat := 0xa0000
/-- BAR0 offset of the EH page (Table 16.9). -/
abbrev pEH : Nat := 0xb0000
/-- BAR0 offset of the HP page (Table 16.9). -/
abbrev pHP : Nat := 0xc0000
/-- BAR0 offset of the MP page (Table 16.9). -/
abbrev pMP : Nat := 0xc3000
/-- BAR0 offset of the TRC page (Table 16.9). -/
abbrev pTRC : Nat := 0xd0000
/-- BAR0 offset of the FPn page, instance p (Table 16.9). -/
abbrev pFP (p : Nat) : Nat := 0x50000 + 0x1000 * p
/-- BAR0 offset of the SCn page, instance p (Table 16.9). -/
abbrev pSC (p : Nat) : Nat := 0x80000 + 0x1000 * p
/-- BAR0 offset of the HEn page, instance p (Table 16.9). -/
abbrev pHE (p : Nat) : Nat := 0xc1000 + 0x1000 * p

namespace F

/-- CYC_STATE: cycle status (TU cycle page, 0x0010). -/
abbrev CYC_STATE : Fld := ⟨pCyc + 0x10, 0, 64⟩
abbrev CYC_STATE_HELD_LAST : Fld := ⟨pCyc + 0x10, 32, 10⟩
abbrev CYC_STATE_HOLDS_LAST : Fld := ⟨pCyc + 0x10, 2, 1⟩
abbrev CYC_STATE_RUNNING : Fld := ⟨pCyc + 0x10, 1, 1⟩
abbrev CYC_STATE_STARTING : Fld := ⟨pCyc + 0x10, 0, 1⟩
/-- CYC_PERIOD_NEXT: next period and downlink end (TU cycle page, 0x0080). -/
abbrev CYC_PERIOD_NEXT : Fld := ⟨pCyc + 0x80, 0, 64⟩
abbrev CYC_PERIOD_NEXT_DL_END : Fld := ⟨pCyc + 0x80, 16, 13⟩
abbrev CYC_PERIOD_NEXT_PERIOD : Fld := ⟨pCyc + 0x80, 0, 13⟩
/-- CYC_PHASE_NEXT: next phase instants (TU cycle page, 0x0088). -/
abbrev CYC_PHASE_NEXT : Fld := ⟨pCyc + 0x88, 0, 64⟩
abbrev CYC_PHASE_NEXT_TR : Fld := ⟨pCyc + 0x88, 48, 13⟩
abbrev CYC_PHASE_NEXT_CW_END : Fld := ⟨pCyc + 0x88, 32, 13⟩
abbrev CYC_PHASE_NEXT_CW_START : Fld := ⟨pCyc + 0x88, 16, 13⟩
abbrev CYC_PHASE_NEXT_UL_END : Fld := ⟨pCyc + 0x88, 0, 13⟩
/-- CYC_START_DT: first T0 (TU cycle page, 0x0090). -/
abbrev CYC_START_DT : Fld := ⟨pCyc + 0x90, 0, 64⟩
/-- CYC_PERIOD_LIVE: live period and downlink end (TU cycle page, 0x0098). -/
abbrev CYC_PERIOD_LIVE : Fld := ⟨pCyc + 0x98, 0, 64⟩
abbrev CYC_PERIOD_LIVE_DL_END : Fld := ⟨pCyc + 0x98, 16, 13⟩
abbrev CYC_PERIOD_LIVE_PERIOD : Fld := ⟨pCyc + 0x98, 0, 13⟩
/-- CYC_PHASE_LIVE: live phase instants (TU cycle page, 0x00A0). -/
abbrev CYC_PHASE_LIVE : Fld := ⟨pCyc + 0xa0, 0, 64⟩
abbrev CYC_PHASE_LIVE_TR : Fld := ⟨pCyc + 0xa0, 48, 13⟩
abbrev CYC_PHASE_LIVE_CW_END : Fld := ⟨pCyc + 0xa0, 32, 13⟩
abbrev CYC_PHASE_LIVE_CW_START : Fld := ⟨pCyc + 0xa0, 16, 13⟩
abbrev CYC_PHASE_LIVE_UL_END : Fld := ⟨pCyc + 0xa0, 0, 13⟩
/-- CYC_SNAP: snapshot trigger (TU cycle page, 0x00A8). -/
abbrev CYC_SNAP : Fld := ⟨pCyc + 0xa8, 0, 64⟩
abbrev CYC_SNAP_TAKE : Fld := ⟨pCyc + 0xa8, 0, 1⟩
/-- CYC_SNAP_T0: snapshot T0 (TU cycle page, 0x00B0). -/
abbrev CYC_SNAP_T0 : Fld := ⟨pCyc + 0xb0, 0, 64⟩
/-- CYC_SNAP_NUM: snapshot cycle number (TU cycle page, 0x00B8). -/
abbrev CYC_SNAP_NUM : Fld := ⟨pCyc + 0xb8, 0, 64⟩
abbrev CYC_SNAP_NUM_CYCLE : Fld := ⟨pCyc + 0xb8, 0, 32⟩
/-- CYC_SNAP_HOLDS: snapshot held-record total (TU cycle page, 0x00C0). -/
abbrev CYC_SNAP_HOLDS : Fld := ⟨pCyc + 0xc0, 0, 64⟩
/-- CYC_SNAP_HCYC: snapshot held-cycle total (TU cycle page, 0x00C8). -/
abbrev CYC_SNAP_HCYC : Fld := ⟨pCyc + 0xc8, 0, 64⟩
/-- SG_STATE: governor status (SG page, 0x0010). -/
abbrev SG_STATE : Fld := ⟨pSG + 0x10, 0, 64⟩
abbrev SG_STATE_FROZEN : Fld := ⟨pSG + 0x10, 4, 1⟩
abbrev SG_STATE_SLACK_LOW : Fld := ⟨pSG + 0x10, 3, 1⟩
abbrev SG_STATE_AT_CEILING : Fld := ⟨pSG + 0x10, 2, 1⟩
abbrev SG_STATE_AT_FLOOR : Fld := ⟨pSG + 0x10, 1, 1⟩
abbrev SG_STATE_GOVERNING : Fld := ⟨pSG + 0x10, 0, 1⟩
/-- SG_CFG: governor targets (SG page, 0x0080). -/
abbrev SG_CFG : Fld := ⟨pSG + 0x80, 0, 64⟩
abbrev SG_CFG_FREEZE : Fld := ⟨pSG + 0x80, 48, 16⟩
abbrev SG_CFG_WINDOW : Fld := ⟨pSG + 0x80, 32, 9⟩
abbrev SG_CFG_BAND : Fld := ⟨pSG + 0x80, 16, 16⟩
abbrev SG_CFG_TARGET : Fld := ⟨pSG + 0x80, 0, 16⟩
/-- SG_MODE: governor mode (SG page, 0x0088). -/
abbrev SG_MODE : Fld := ⟨pSG + 0x88, 0, 64⟩
abbrev SG_MODE_MODE : Fld := ⟨pSG + 0x88, 16, 1⟩
abbrev SG_MODE_WARN : Fld := ⟨pSG + 0x88, 0, 16⟩
/-- SG_VLIMIT: voltage limits (SG page, 0x0090). -/
abbrev SG_VLIMIT : Fld := ⟨pSG + 0x90, 0, 64⟩
abbrev SG_VLIMIT_VFIXED : Fld := ⟨pSG + 0x90, 16, 6⟩
abbrev SG_VLIMIT_VMAX : Fld := ⟨pSG + 0x90, 8, 6⟩
abbrev SG_VLIMIT_VMIN : Fld := ⟨pSG + 0x90, 0, 6⟩
/-- SG_SLACK: last slack (SG page, 0x0098). -/
abbrev SG_SLACK : Fld := ⟨pSG + 0x98, 0, 64⟩
abbrev SG_SLACK_CYCLE : Fld := ⟨pSG + 0x98, 32, 32⟩
abbrev SG_SLACK_SLACK : Fld := ⟨pSG + 0x98, 0, 32⟩
/-- SG_SLACK_MIN: lowest slack (SG page, 0x00A0). -/
abbrev SG_SLACK_MIN : Fld := ⟨pSG + 0xa0, 0, 64⟩
abbrev SG_SLACK_MIN_CYCLE : Fld := ⟨pSG + 0xa0, 32, 32⟩
abbrev SG_SLACK_MIN_SLACK : Fld := ⟨pSG + 0xa0, 0, 32⟩
/-- SG_STATS_RESET: statistics reset (SG page, 0x00A8). -/
abbrev SG_STATS_RESET : Fld := ⟨pSG + 0xa8, 0, 64⟩
abbrev SG_STATS_RESET_RESET : Fld := ⟨pSG + 0xa8, 0, 1⟩
/-- SG_VCORE: voltage code and steps (SG page, 0x00B0). -/
abbrev SG_VCORE : Fld := ⟨pSG + 0xb0, 0, 64⟩
abbrev SG_VCORE_DOWN_STEPS : Fld := ⟨pSG + 0xb0, 40, 24⟩
abbrev SG_VCORE_UP_STEPS : Fld := ⟨pSG + 0xb0, 16, 24⟩
abbrev SG_VCORE_SETTLING : Fld := ⟨pSG + 0xb0, 8, 1⟩
abbrev SG_VCORE_CODE : Fld := ⟨pSG + 0xb0, 0, 6⟩
/-- SG_VCORE_MEAS: measured VCORE (SG page, 0x00C0). -/
abbrev SG_VCORE_MEAS : Fld := ⟨pSG + 0xc0, 0, 64⟩
abbrev SG_VCORE_MEAS_MV : Fld := ⟨pSG + 0xc0, 0, 16⟩
/-- SG_VCORE_MEAS_DT: refresh time of measured VCORE (SG page, 0x00C8). -/
abbrev SG_VCORE_MEAS_DT : Fld := ⟨pSG + 0xc8, 0, 64⟩
/-- SG_HIST_SNAP: histogram snapshot trigger (SG page, 0x00D0). -/
abbrev SG_HIST_SNAP : Fld := ⟨pSG + 0xd0, 0, 64⟩
abbrev SG_HIST_SNAP_TAKE : Fld := ⟨pSG + 0xd0, 0, 1⟩
/-- SG_HIST: slack histogram bins 2n and 2n + 1 (SG page, 0x0100 + 8 × n, n = 0–7). -/
abbrev SG_HIST (n : Nat) : Fld := ⟨pSG + 0x100 + 8 * n, 0, 64⟩
abbrev SG_HIST_BIN_ODD (n : Nat) : Fld := ⟨pSG + 0x100 + 8 * n, 32, 32⟩
abbrev SG_HIST_BIN_EVEN (n : Nat) : Fld := ⟨pSG + 0x100 + 8 * n, 0, 32⟩
/-- TU_STATE: time status (TU time page, 0x0010). -/
abbrev TU_STATE : Fld := ⟨pTU + 0x10, 0, 64⟩
abbrev TU_STATE_PPS_IN_ERROR : Fld := ⟨pTU + 0x10, 3, 1⟩
abbrev TU_STATE_PPS_PRESENT : Fld := ⟨pTU + 0x10, 2, 1⟩
abbrev TU_STATE_REF10_PRESENT : Fld := ⟨pTU + 0x10, 1, 1⟩
abbrev TU_STATE_REF_LOST : Fld := ⟨pTU + 0x10, 0, 1⟩
/-- TU_DT: device time (TU time page, 0x0080). -/
abbrev TU_DT : Fld := ⟨pTU + 0x80, 0, 64⟩
/-- TU_SNAP: snapshot trigger (TU time page, 0x0088). -/
abbrev TU_SNAP : Fld := ⟨pTU + 0x88, 0, 64⟩
abbrev TU_SNAP_TAKE : Fld := ⟨pTU + 0x88, 0, 1⟩
/-- TU_SNAP_DT: snapshot DT (TU time page, 0x0090). -/
abbrev TU_SNAP_DT : Fld := ⟨pTU + 0x90, 0, 64⟩
/-- TU_SNAP_INFO: snapshot counts (TU time page, 0x0098). -/
abbrev TU_SNAP_INFO : Fld := ⟨pTU + 0x98, 0, 64⟩
abbrev TU_SNAP_INFO_GEN : Fld := ⟨pTU + 0x98, 48, 16⟩
abbrev TU_SNAP_INFO_ERA : Fld := ⟨pTU + 0x98, 32, 16⟩
abbrev TU_SNAP_INFO_CYCLE : Fld := ⟨pTU + 0x98, 0, 32⟩
/-- TU_SNAP_WS: snapshot wall seconds (TU time page, 0x00A0). -/
abbrev TU_SNAP_WS : Fld := ⟨pTU + 0xa0, 0, 64⟩
abbrev TU_SNAP_WS_VALID : Fld := ⟨pTU + 0xa0, 63, 1⟩
abbrev TU_SNAP_WS_TSTATE : Fld := ⟨pTU + 0xa0, 60, 3⟩
abbrev TU_SNAP_WS_SECONDS : Fld := ⟨pTU + 0xa0, 0, 48⟩
/-- TU_SNAP_WNS: snapshot wall fraction (TU time page, 0x00A8). -/
abbrev TU_SNAP_WNS : Fld := ⟨pTU + 0xa8, 0, 64⟩
abbrev TU_SNAP_WNS_UTC_OFFSET : Fld := ⟨pTU + 0xa8, 48, 16⟩
abbrev TU_SNAP_WNS_NS : Fld := ⟨pTU + 0xa8, 16, 32⟩
abbrev TU_SNAP_WNS_FRAC : Fld := ⟨pTU + 0xa8, 0, 16⟩
/-- TU_SNAP_RATE: snapshot mapping rate (TU time page, 0x00B0). -/
abbrev TU_SNAP_RATE : Fld := ⟨pTU + 0xb0, 0, 64⟩
/-- TU_TSCORR: port timestamp correction (TU time page, 0x0100 + 8 × n, n = 0–9). -/
abbrev TU_TSCORR (n : Nat) : Fld := ⟨pTU + 0x100 + 8 * n, 0, 64⟩
abbrev TU_TSCORR_EGRESS (n : Nat) : Fld := ⟨pTU + 0x100 + 8 * n, 32, 32⟩
abbrev TU_TSCORR_INGRESS (n : Nat) : Fld := ⟨pTU + 0x100 + 8 * n, 0, 32⟩
/-- TU_REF_CFG: reference input and output configuration (TU time page, 0x0180). -/
abbrev TU_REF_CFG : Fld := ⟨pTU + 0x180, 0, 64⟩
abbrev TU_REF_CFG_PPS_ERR_LIMIT : Fld := ⟨pTU + 0x180, 48, 16⟩
abbrev TU_REF_CFG_PPS_WIDTH : Fld := ⟨pTU + 0x180, 16, 16⟩
abbrev TU_REF_CFG_REF10_OUT_SRC : Fld := ⟨pTU + 0x180, 5, 1⟩
abbrev TU_REF_CFG_PPS_OUT_SRC : Fld := ⟨pTU + 0x180, 4, 1⟩
abbrev TU_REF_CFG_REF10_OUT_EN : Fld := ⟨pTU + 0x180, 3, 1⟩
abbrev TU_REF_CFG_PPS_OUT_EN : Fld := ⟨pTU + 0x180, 2, 1⟩
abbrev TU_REF_CFG_REF10_IN_EN : Fld := ⟨pTU + 0x180, 1, 1⟩
abbrev TU_REF_CFG_PPS_IN_EN : Fld := ⟨pTU + 0x180, 0, 1⟩
/-- TU_PPS_IN_DT: last PPS_IN edge (TU time page, 0x0188). -/
abbrev TU_PPS_IN_DT : Fld := ⟨pTU + 0x188, 0, 64⟩
/-- TU_REFIN_MEAS: reference input measurements (TU time page, 0x0190). -/
abbrev TU_REFIN_MEAS : Fld := ⟨pTU + 0x190, 0, 64⟩
abbrev TU_REFIN_MEAS_PPS_ERR : Fld := ⟨pTU + 0x190, 32, 32⟩
abbrev TU_REFIN_MEAS_REF10_RATE : Fld := ⟨pTU + 0x190, 0, 32⟩
/-- PTP_STATE: network time status (TU PTP page, 0x0010). -/
abbrev PTP_STATE : Fld := ⟨pPTP + 0x10, 0, 64⟩
abbrev PTP_STATE_DISAGREE : Fld := ⟨pPTP + 0x10, 7, 1⟩
abbrev PTP_STATE_DEMOTED_ANY : Fld := ⟨pPTP + 0x10, 6, 1⟩
abbrev PTP_STATE_SELECTED : Fld := ⟨pPTP + 0x10, 4, 2⟩
abbrev PTP_STATE_TSTATE : Fld := ⟨pPTP + 0x10, 0, 3⟩
/-- PTP_DOM_CFG: domain slot configuration (TU PTP page, 0x0080 + 0x20 × n, n = 0–1). -/
abbrev PTP_DOM_CFG (n : Nat) : Fld := ⟨pPTP + 0x80 + 0x20 * n, 0, 64⟩
abbrev PTP_DOM_CFG_REARM (n : Nat) : Fld := ⟨pPTP + 0x80 + 0x20 * n, 63, 1⟩
abbrev PTP_DOM_CFG_QUAL (n : Nat) : Fld := ⟨pPTP + 0x80 + 0x20 * n, 20, 4⟩
abbrev PTP_DOM_CFG_FILTER (n : Nat) : Fld := ⟨pPTP + 0x80 + 0x20 * n, 17, 3⟩
abbrev PTP_DOM_CFG_TRANSPORT (n : Nat) : Fld := ⟨pPTP + 0x80 + 0x20 * n, 16, 1⟩
abbrev PTP_DOM_CFG_PROFILE (n : Nat) : Fld := ⟨pPTP + 0x80 + 0x20 * n, 15, 1⟩
abbrev PTP_DOM_CFG_PORT (n : Nat) : Fld := ⟨pPTP + 0x80 + 0x20 * n, 14, 1⟩
abbrev PTP_DOM_CFG_EN (n : Nat) : Fld := ⟨pPTP + 0x80 + 0x20 * n, 13, 1⟩
abbrev PTP_DOM_CFG_DOMAIN (n : Nat) : Fld := ⟨pPTP + 0x80 + 0x20 * n, 0, 7⟩
/-- PTP_DOM_STATE: domain slot state (TU PTP page, 0x0088 + 0x20 × n, n = 0–1). -/
abbrev PTP_DOM_STATE (n : Nat) : Fld := ⟨pPTP + 0x88 + 0x20 * n, 0, 64⟩
abbrev PTP_DOM_STATE_OFFSET (n : Nat) : Fld := ⟨pPTP + 0x88 + 0x20 * n, 32, 32⟩
abbrev PTP_DOM_STATE_STATE (n : Nat) : Fld := ⟨pPTP + 0x88 + 0x20 * n, 0, 3⟩
/-- PTP_DOM_GM: grandmaster identity (TU PTP page, 0x0090 + 0x20 × n, n = 0–1). -/
abbrev PTP_DOM_GM (n : Nat) : Fld := ⟨pPTP + 0x90 + 0x20 * n, 0, 64⟩
/-- PTP_DOM_RATE: domain rates (TU PTP page, 0x0098 + 0x20 × n, n = 0–1). -/
abbrev PTP_DOM_RATE (n : Nat) : Fld := ⟨pPTP + 0x98 + 0x20 * n, 0, 64⟩
abbrev PTP_DOM_RATE_WINDOW (n : Nat) : Fld := ⟨pPTP + 0x98 + 0x20 * n, 32, 32⟩
abbrev PTP_DOM_RATE_SERVO (n : Nat) : Fld := ⟨pPTP + 0x98 + 0x20 * n, 0, 32⟩
/-- PTP_SEL: selection (TU PTP page, 0x00C0). -/
abbrev PTP_SEL : Fld := ⟨pPTP + 0xc0, 0, 64⟩
abbrev PTP_SEL_RHO_H : Fld := ⟨pPTP + 0xc0, 32, 32⟩
abbrev PTP_SEL_HOLD_REF : Fld := ⟨pPTP + 0xc0, 2, 1⟩
abbrev PTP_SEL_REVERT : Fld := ⟨pPTP + 0xc0, 1, 1⟩
abbrev PTP_SEL_PRIMARY : Fld := ⟨pPTP + 0xc0, 0, 1⟩
/-- PTP_LIMITS: comparison and mapping limits (TU PTP page, 0x00C8). -/
abbrev PTP_LIMITS : Fld := ⟨pPTP + 0xc8, 0, 64⟩
abbrev PTP_LIMITS_STEP_CONFIRM : Fld := ⟨pPTP + 0xc8, 48, 4⟩
abbrev PTP_LIMITS_SLEW_PPM : Fld := ⟨pPTP + 0xc8, 32, 16⟩
abbrev PTP_LIMITS_STEP_LIMIT : Fld := ⟨pPTP + 0xc8, 16, 16⟩
abbrev PTP_LIMITS_LIMIT_PPB : Fld := ⟨pPTP + 0xc8, 0, 16⟩
/-- FB_STATUS: feedback status (axis record, offset 0x130). -/
abbrev FB_STATUS : Fld := ⟨0x130, 0, 64⟩
abbrev FB_STATUS_CYCLE : Fld := ⟨0x130, 32, 32⟩
abbrev FB_STATUS_MISS_RUN : Fld := ⟨0x130, 24, 8⟩
abbrev FB_STATUS_CFG_IGNORED : Fld := ⟨0x130, 15, 1⟩
abbrev FB_STATUS_UPDATING : Fld := ⟨0x130, 14, 1⟩
abbrev FB_STATUS_REBASED : Fld := ⟨0x130, 13, 1⟩
abbrev FB_STATUS_ANGLE_STEP : Fld := ⟨0x130, 12, 1⟩
abbrev FB_STATUS_FB_LOST : Fld := ⟨0x130, 11, 1⟩
abbrev FB_STATUS_INDEX_MISMATCH : Fld := ⟨0x130, 10, 1⟩
abbrev FB_STATUS_REFERENCED : Fld := ⟨0x130, 9, 1⟩
abbrev FB_STATUS_SETTLED : Fld := ⟨0x130, 8, 1⟩
abbrev FB_STATUS_REJECT : Fld := ⟨0x130, 4, 2⟩
abbrev FB_STATUS_SUSPECT : Fld := ⟨0x130, 3, 1⟩
abbrev FB_STATUS_EXTRAP : Fld := ⟨0x130, 2, 1⟩
abbrev FB_STATUS_MEASURED : Fld := ⟨0x130, 1, 1⟩
abbrev FB_STATUS_ACTIVE : Fld := ⟨0x130, 0, 1⟩
/-- FB_CFG: feedback source (axis record, offset 0x158). -/
abbrev FB_CFG : Fld := ⟨0x158, 0, 64⟩
abbrev FB_CFG_SOURCE : Fld := ⟨0x158, 62, 2⟩
abbrev FB_CFG_DIR : Fld := ⟨0x158, 61, 1⟩
abbrev FB_CFG_INDEX_EN : Fld := ⟨0x158, 60, 1⟩
abbrev FB_CFG_RAW_BITS : Fld := ⟨0x158, 48, 8⟩
abbrev FB_CFG_SEGMENT : Fld := ⟨0x158, 40, 3⟩
abbrev FB_CFG_NODE : Fld := ⟨0x158, 32, 5⟩
abbrev FB_CFG_RECORD : Fld := ⟨0x158, 24, 3⟩
abbrev FB_CFG_QE : Fld := ⟨0x158, 16, 5⟩
/-- FB_OBS_CFG: observer configuration (axis record, offset 0x160). -/
abbrev FB_OBS_CFG : Fld := ⟨0x160, 0, 64⟩
abbrev FB_OBS_CFG_BW : Fld := ⟨0x160, 44, 20⟩
abbrev FB_OBS_CFG_JUMP_LIMIT : Fld := ⟨0x160, 0, 40⟩
/-- FB_CPR: counts per revolution (axis record, offset 0x168). -/
abbrev FB_CPR : Fld := ⟨0x168, 0, 64⟩
abbrev FB_CPR_INDEX_TOL : Fld := ⟨0x168, 48, 16⟩
abbrev FB_CPR_CPR : Fld := ⟨0x168, 0, 41⟩
/-- FB_CMD: feedback commands (axis record, offset 0x178). -/
abbrev FB_CMD : Fld := ⟨0x178, 0, 64⟩
abbrev FB_CMD_REF_ARM : Fld := ⟨0x178, 63, 1⟩
abbrev FB_CMD_REBASE_REQ : Fld := ⟨0x178, 62, 1⟩
abbrev FB_CMD_REBASE : Fld := ⟨0x178, 0, 40⟩
/-- FBE_STATE: feedback status (FBE page, 0x0010). -/
abbrev FBE_STATE : Fld := ⟨pFBE + 0x10, 0, 64⟩
abbrev FBE_STATE_LOST_AXES : Fld := ⟨pFBE + 0x10, 16, 10⟩
abbrev FBE_STATE_UNSETTLED_ANY : Fld := ⟨pFBE + 0x10, 1, 1⟩
abbrev FBE_STATE_LOST_ANY : Fld := ⟨pFBE + 0x10, 0, 1⟩
/-- FBE_CFG: feedback limits (FBE page, 0x0080). -/
abbrev FBE_CFG : Fld := ⟨pFBE + 0x80, 0, 64⟩
abbrev FBE_CFG_MISS_LIMIT : Fld := ⟨pFBE + 0x80, 32, 8⟩
abbrev FBE_CFG_DT_TOL : Fld := ⟨pFBE + 0x80, 0, 16⟩
/-- FBE_SNAP: snapshot trigger (FBE page, 0x0088). -/
abbrev FBE_SNAP : Fld := ⟨pFBE + 0x88, 0, 64⟩
abbrev FBE_SNAP_TAKE : Fld := ⟨pFBE + 0x88, 0, 1⟩
/-- FBE_SNAP_ACCEPT: totals (FBE page, 0x0090, 0x0098, 0x00A0). -/
abbrev FBE_SNAP_ACCEPT : Fld := ⟨pFBE + 0x90, 0, 64⟩
/-- FBE_SNAP_EXTRAP: totals (FBE page, 0x0090, 0x0098, 0x00A0). -/
abbrev FBE_SNAP_EXTRAP : Fld := ⟨pFBE + 0x98, 0, 64⟩
/-- FBE_SNAP_REJECT: totals (FBE page, 0x0090, 0x0098, 0x00A0). -/
abbrev FBE_SNAP_REJECT : Fld := ⟨pFBE + 0xa0, 0, 64⟩
/-- FBE_SNAP_CYCLE: snapshot cycle (FBE page, 0x00A8). -/
abbrev FBE_SNAP_CYCLE : Fld := ⟨pFBE + 0xa8, 0, 64⟩
abbrev FBE_SNAP_CYCLE_CYCLE : Fld := ⟨pFBE + 0xa8, 0, 32⟩
/-- FBE_AXCTL: axis feedback start and stop (FBE page, 0x00B0). -/
abbrev FBE_AXCTL : Fld := ⟨pFBE + 0xb0, 0, 64⟩
abbrev FBE_AXCTL_START : Fld := ⟨pFBE + 0xb0, 63, 1⟩
abbrev FBE_AXCTL_STOP : Fld := ⟨pFBE + 0xb0, 62, 1⟩
abbrev FBE_AXCTL_AXIS : Fld := ⟨pFBE + 0xb0, 0, 9⟩
/-- QE_STATE: channel status (QE page, 0x0010). -/
abbrev QE_STATE : Fld := ⟨pQE + 0x10, 0, 64⟩
abbrev QE_STATE_GUARDED : Fld := ⟨pQE + 0x10, 32, 32⟩
abbrev QE_STATE_TRIPPED : Fld := ⟨pQE + 0x10, 0, 32⟩
/-- QE_SNAP: channel snapshot trigger (QE page, 0x0080). -/
abbrev QE_SNAP : Fld := ⟨pQE + 0x80, 0, 64⟩
abbrev QE_SNAP_TAKE : Fld := ⟨pQE + 0x80, 8, 1⟩
abbrev QE_SNAP_CHANNEL : Fld := ⟨pQE + 0x80, 0, 5⟩
/-- QE_SNAP_COUNT: snapshot count (QE page, 0x0088). -/
abbrev QE_SNAP_COUNT : Fld := ⟨pQE + 0x88, 0, 64⟩
abbrev QE_SNAP_COUNT_Z : Fld := ⟨pQE + 0x88, 34, 1⟩
abbrev QE_SNAP_COUNT_B : Fld := ⟨pQE + 0x88, 33, 1⟩
abbrev QE_SNAP_COUNT_A : Fld := ⟨pQE + 0x88, 32, 1⟩
abbrev QE_SNAP_COUNT_COUNT : Fld := ⟨pQE + 0x88, 0, 32⟩
/-- QE_SNAP_EDGE: snapshot edge times (QE page, 0x0090 and 0x00A0). -/
abbrev QE_SNAP_EDGE : Fld := ⟨pQE + 0x90, 0, 64⟩
/-- QE_SNAP_INDEX: snapshot edge times (QE page, 0x0090 and 0x00A0). -/
abbrev QE_SNAP_INDEX : Fld := ⟨pQE + 0xa0, 0, 64⟩
/-- QE_SNAP_FAULTS: snapshot fault counts (QE page, 0x0098). -/
abbrev QE_SNAP_FAULTS : Fld := ⟨pQE + 0x98, 0, 64⟩
abbrev QE_SNAP_FAULTS_SPACING : Fld := ⟨pQE + 0x98, 32, 32⟩
abbrev QE_SNAP_FAULTS_ILLEGAL : Fld := ⟨pQE + 0x98, 0, 32⟩
/-- QE_CFG: channel configuration (QE page, 0x0100 + 0x10 × n, n = 0–31). -/
abbrev QE_CFG (n : Nat) : Fld := ⟨pQE + 0x100 + 0x10 * n, 0, 64⟩
abbrev QE_CFG_CLEAN_CYCLES (n : Nat) : Fld := ⟨pQE + 0x100 + 0x10 * n, 48, 16⟩
abbrev QE_CFG_FAULT_WINDOW (n : Nat) : Fld := ⟨pQE + 0x100 + 0x10 * n, 32, 16⟩
abbrev QE_CFG_FAULT_LIMIT (n : Nat) : Fld := ⟨pQE + 0x100 + 0x10 * n, 24, 8⟩
abbrev QE_CFG_MIN_SPACING (n : Nat) : Fld := ⟨pQE + 0x100 + 0x10 * n, 16, 8⟩
abbrev QE_CFG_INDEX_GATE (n : Nat) : Fld := ⟨pQE + 0x100 + 0x10 * n, 8, 3⟩
abbrev QE_CFG_POLICY (n : Nat) : Fld := ⟨pQE + 0x100 + 0x10 * n, 4, 2⟩
abbrev QE_CFG_MODE (n : Nat) : Fld := ⟨pQE + 0x100 + 0x10 * n, 2, 2⟩
abbrev QE_CFG_EN (n : Nat) : Fld := ⟨pQE + 0x100 + 0x10 * n, 0, 1⟩
/-- QE_CTRL: channel actions (QE page, 0x0108 + 0x10 × n, n = 0–31). -/
abbrev QE_CTRL (n : Nat) : Fld := ⟨pQE + 0x108 + 0x10 * n, 0, 64⟩
abbrev QE_CTRL_INJECT (n : Nat) : Fld := ⟨pQE + 0x108 + 0x10 * n, 2, 1⟩
abbrev QE_CTRL_CLR_FAULTS (n : Nat) : Fld := ⟨pQE + 0x108 + 0x10 * n, 1, 1⟩
abbrev QE_CTRL_REGUARD (n : Nat) : Fld := ⟨pQE + 0x108 + 0x10 * n, 0, 1⟩
/-- AX_CTRL: axis control (axis record, offset 0x0). -/
abbrev AX_CTRL : Fld := ⟨0x0, 0, 64⟩
abbrev AX_CTRL_MANUAL : Fld := ⟨0x0, 63, 1⟩
abbrev AX_CTRL_TRACK : Fld := ⟨0x0, 62, 1⟩
abbrev AX_CTRL_SAT_EVT_HI : Fld := ⟨0x0, 16, 2⟩
abbrev AX_CTRL_SAT_EVT : Fld := ⟨0x0, 0, 16⟩
/-- LAW_CFG: law configuration (axis record, offset 0x8). -/
abbrev LAW_CFG : Fld := ⟨0x8, 0, 64⟩
abbrev LAW_CFG_STRUCT : Fld := ⟨0x8, 61, 3⟩
abbrev LAW_CFG_REP_EN : Fld := ⟨0x8, 60, 1⟩
abbrev LAW_CFG_PRESET_EN : Fld := ⟨0x8, 59, 1⟩
abbrev LAW_CFG_DL_SEGMENT : Fld := ⟨0x8, 40, 3⟩
abbrev LAW_CFG_DL_NODE : Fld := ⟨0x8, 32, 5⟩
abbrev LAW_CFG_DL_RECORD : Fld := ⟨0x8, 24, 3⟩
abbrev LAW_CFG_PV_AXIS : Fld := ⟨0x8, 0, 9⟩
/-- AX_STATUS: axis status (axis record, offset 0x10). -/
abbrev AX_STATUS : Fld := ⟨0x10, 0, 64⟩
abbrev AX_STATUS_CYCLE : Fld := ⟨0x10, 32, 32⟩
abbrev AX_STATUS_CAUSE : Fld := ⟨0x10, 24, 8⟩
abbrev AX_STATUS_BANK_REASON : Fld := ⟨0x10, 16, 8⟩
abbrev AX_STATUS_HOLD_RUN : Fld := ⟨0x10, 12, 2⟩
abbrev AX_STATUS_TRIM_LO : Fld := ⟨0x10, 11, 1⟩
abbrev AX_STATUS_TRIM_HI : Fld := ⟨0x10, 10, 1⟩
abbrev AX_STATUS_VC_LO : Fld := ⟨0x10, 9, 1⟩
abbrev AX_STATUS_VC_HI : Fld := ⟨0x10, 8, 1⟩
abbrev AX_STATUS_OUT_LO : Fld := ⟨0x10, 7, 1⟩
abbrev AX_STATUS_OUT_HI : Fld := ⟨0x10, 6, 1⟩
abbrev AX_STATUS_BANK_LIVE : Fld := ⟨0x10, 5, 1⟩
abbrev AX_STATUS_MANUAL_LIVE : Fld := ⟨0x10, 4, 1⟩
abbrev AX_STATUS_FAULT : Fld := ⟨0x10, 1, 1⟩
abbrev AX_STATUS_ENABLED : Fld := ⟨0x10, 0, 1⟩
/-- BANK_CTL: bank switch (axis record, offset 0x28). -/
abbrev BANK_CTL : Fld := ⟨0x28, 0, 64⟩
abbrev BANK_CTL_REQ : Fld := ⟨0x28, 63, 1⟩
abbrev BANK_CTL_WHEN : Fld := ⟨0x28, 56, 2⟩
abbrev BANK_CTL_CYCLE : Fld := ⟨0x28, 0, 32⟩
/-- OUT_INFO: last record sent (axis record, offset 0x50). -/
abbrev OUT_INFO : Fld := ⟨0x50, 0, 64⟩
abbrev OUT_INFO_CYCLE : Fld := ⟨0x50, 32, 32⟩
abbrev OUT_INFO_STRONG : Fld := ⟨0x50, 4, 1⟩
abbrev OUT_INFO_FAULT : Fld := ⟨0x50, 3, 1⟩
abbrev OUT_INFO_MANUAL : Fld := ⟨0x50, 2, 1⟩
abbrev OUT_INFO_HOLD : Fld := ⟨0x50, 1, 1⟩
abbrev OUT_INFO_ENABLED : Fld := ⟨0x50, 0, 1⟩
/-- LE_STATE: engine status (LE page, 0x0010). -/
abbrev LE_STATE : Fld := ⟨pLE + 0x10, 0, 64⟩
abbrev LE_STATE_FAULT_AXES : Fld := ⟨pLE + 0x10, 48, 10⟩
abbrev LE_STATE_ENABLED_AXES : Fld := ⟨pLE + 0x10, 32, 10⟩
abbrev LE_STATE_IN_SERVICE : Fld := ⟨pLE + 0x10, 16, 5⟩
abbrev LE_STATE_FAULT_ANY : Fld := ⟨pLE + 0x10, 2, 1⟩
abbrev LE_STATE_ENGINE_FAULTED : Fld := ⟨pLE + 0x10, 1, 1⟩
abbrev LE_STATE_WITHDRAWN : Fld := ⟨pLE + 0x10, 0, 1⟩
/-- LE_AXEN: axis enable (LE page, 0x0080). -/
abbrev LE_AXEN : Fld := ⟨pLE + 0x80, 0, 64⟩
abbrev LE_AXEN_OP : Fld := ⟨pLE + 0x80, 9, 1⟩
abbrev LE_AXEN_AXIS : Fld := ⟨pLE + 0x80, 0, 9⟩
/-- LE_AXMAP: enabled axes (LE page, 0x0100 + 8 × n, n = 0–7). -/
abbrev LE_AXMAP (n : Nat) : Fld := ⟨pLE + 0x100 + 8 * n, 0, 64⟩
/-- LE_FAULTMAP: faulted axes (LE page, 0x0140 + 8 × n, n = 0–7). -/
abbrev LE_FAULTMAP (n : Nat) : Fld := ⟨pLE + 0x140 + 8 * n, 0, 64⟩
/-- LE_SVC: engine service (LE page, 0x0200 + 8 × n, n = 0–15). -/
abbrev LE_SVC (n : Nat) : Fld := ⟨pLE + 0x200 + 8 * n, 0, 64⟩
abbrev LE_SVC_WITHDRAW (n : Nat) : Fld := ⟨pLE + 0x200 + 8 * n, 63, 1⟩
abbrev LE_SVC_RESTORE (n : Nat) : Fld := ⟨pLE + 0x200 + 8 * n, 62, 1⟩
abbrev LE_SVC_ITEM (n : Nat) : Fld := ⟨pLE + 0x200 + 8 * n, 16, 10⟩
abbrev LE_SVC_LATE (n : Nat) : Fld := ⟨pLE + 0x200 + 8 * n, 3, 1⟩
abbrev LE_SVC_BUSY (n : Nat) : Fld := ⟨pLE + 0x200 + 8 * n, 2, 1⟩
abbrev LE_SVC_FAULTED (n : Nat) : Fld := ⟨pLE + 0x200 + 8 * n, 1, 1⟩
abbrev LE_SVC_IN_SERVICE (n : Nat) : Fld := ⟨pLE + 0x200 + 8 * n, 0, 1⟩
/-- LE_SNAP: totals snapshot trigger (LE page, 0x0300). -/
abbrev LE_SNAP : Fld := ⟨pLE + 0x300, 0, 64⟩
abbrev LE_SNAP_TAKE : Fld := ⟨pLE + 0x300, 0, 1⟩
/-- LE_SNAP_STEPS: totals (LE page, 0x0308 and 0x0310). -/
abbrev LE_SNAP_STEPS : Fld := ⟨pLE + 0x308, 0, 64⟩
/-- LE_SNAP_DISCARD: totals (LE page, 0x0308 and 0x0310). -/
abbrev LE_SNAP_DISCARD : Fld := ⟨pLE + 0x310, 0, 64⟩
/-- LE_SNAP_CYCLE: snapshot cycle (LE page, 0x0318). -/
abbrev LE_SNAP_CYCLE : Fld := ⟨pLE + 0x318, 0, 64⟩
abbrev LE_SNAP_CYCLE_CYCLE : Fld := ⟨pLE + 0x318, 0, 32⟩
/-- REP_CFG: repetitive configuration (axis record, offset 0x200). -/
abbrev REP_CFG : Fld := ⟨0x200, 0, 64⟩
abbrev REP_CFG_N_LOG2 : Fld := ⟨0x200, 60, 4⟩
abbrev REP_CFG_SHIFT : Fld := ⟨0x200, 50, 6⟩
abbrev REP_CFG_ESRC : Fld := ⟨0x200, 48, 2⟩
abbrev REP_CFG_REQUIRE_REF : Fld := ⟨0x200, 44, 1⟩
abbrev REP_CFG_ZERO_MEAN : Fld := ⟨0x200, 43, 1⟩
abbrev REP_CFG_ANGLE_AXIS : Fld := ⟨0x200, 32, 9⟩
abbrev REP_CFG_BASE : Fld := ⟨0x200, 0, 20⟩
/-- REP_CTL: repetitive control (axis record, offset 0x208). -/
abbrev REP_CTL : Fld := ⟨0x208, 0, 64⟩
abbrev REP_CTL_LEARN_EN : Fld := ⟨0x208, 63, 1⟩
abbrev REP_CTL_APPLY_EN : Fld := ⟨0x208, 62, 1⟩
abbrev REP_CTL_SAT_EVT : Fld := ⟨0x208, 32, 8⟩
abbrev REP_CTL_ENTRY_LIMIT : Fld := ⟨0x208, 0, 31⟩
/-- REP_LEAD: phase lead (axis record, offset 0x228). -/
abbrev REP_LEAD : Fld := ⟨0x228, 0, 64⟩
abbrev REP_LEAD_LEAD_TIME : Fld := ⟨0x228, 32, 32⟩
abbrev REP_LEAD_LEAD_ANGLE : Fld := ⟨0x228, 0, 32⟩
/-- REP_STATUS: repetitive status (axis record, offset 0x248). -/
abbrev REP_STATUS : Fld := ⟨0x248, 0, 64⟩
abbrev REP_STATUS_CYCLE : Fld := ⟨0x248, 32, 32⟩
abbrev REP_STATUS_REASON : Fld := ⟨0x248, 24, 8⟩
abbrev REP_STATUS_FRZ_SPAN : Fld := ⟨0x248, 23, 1⟩
abbrev REP_STATUS_FRZ_ANGLE : Fld := ⟨0x248, 22, 1⟩
abbrev REP_STATUS_FRZ_ACC : Fld := ⟨0x248, 21, 1⟩
abbrev REP_STATUS_FRZ_SPEED : Fld := ⟨0x248, 20, 1⟩
abbrev REP_STATUS_FRZ_LIMIT : Fld := ⟨0x248, 19, 1⟩
abbrev REP_STATUS_FRZ_PRESET : Fld := ⟨0x248, 18, 1⟩
abbrev REP_STATUS_FRZ_MODE : Fld := ⟨0x248, 17, 1⟩
abbrev REP_STATUS_FRZ_OFF : Fld := ⟨0x248, 16, 1⟩
abbrev REP_STATUS_STALE : Fld := ⟨0x248, 15, 1⟩
abbrev REP_STATUS_SYNCING : Fld := ⟨0x248, 14, 1⟩
abbrev REP_STATUS_APPLIED : Fld := ⟨0x248, 13, 1⟩
abbrev REP_STATUS_SLEWED : Fld := ⟨0x248, 12, 1⟩
abbrev REP_STATUS_ECNT : Fld := ⟨0x248, 0, 12⟩
/-- REP_ANGLE: angles of the last step (axis record, offset 0x268). -/
abbrev REP_ANGLE : Fld := ⟨0x268, 0, 64⟩
abbrev REP_ANGLE_LEARN_BIN : Fld := ⟨0x268, 48, 13⟩
abbrev REP_ANGLE_FRAC : Fld := ⟨0x268, 0, 32⟩
/-- REP_CMD: repetitive commands (axis record, offset 0x278). -/
abbrev REP_CMD : Fld := ⟨0x278, 0, 64⟩
abbrev REP_CMD_SYNC : Fld := ⟨0x278, 63, 1⟩
abbrev REP_CMD_UNSTALE : Fld := ⟨0x278, 62, 1⟩
/-- PG_CTL: profile command (axis record, offset 0x1a8). -/
abbrev PG_CTL : Fld := ⟨0x1a8, 0, 64⟩
abbrev PG_CTL_MODE : Fld := ⟨0x1a8, 61, 3⟩
abbrev PG_CTL_GO : Fld := ⟨0x1a8, 60, 1⟩
abbrev PG_CTL_AT_CYCLE : Fld := ⟨0x1a8, 59, 1⟩
abbrev PG_CTL_GROUP : Fld := ⟨0x1a8, 54, 5⟩
abbrev PG_CTL_DM_MODE : Fld := ⟨0x1a8, 52, 2⟩
abbrev PG_CTL_CYCLE : Fld := ⟨0x1a8, 0, 32⟩
/-- PG_STATUS: profile status (axis record, offset 0x1b0). -/
abbrev PG_STATUS : Fld := ⟨0x1b0, 0, 64⟩
abbrev PG_STATUS_CYCLE : Fld := ⟨0x1b0, 32, 32⟩
abbrev PG_STATUS_REASON : Fld := ⟨0x1b0, 24, 8⟩
abbrev PG_STATUS_MODE : Fld := ⟨0x1b0, 21, 3⟩
abbrev PG_STATUS_GROUP : Fld := ⟨0x1b0, 16, 5⟩
abbrev PG_STATUS_FE_RUN : Fld := ⟨0x1b0, 8, 8⟩
abbrev PG_STATUS_RAMPING : Fld := ⟨0x1b0, 6, 1⟩
abbrev PG_STATUS_AT_TARGET : Fld := ⟨0x1b0, 5, 1⟩
abbrev PG_STATUS_GROUP_STOP : Fld := ⟨0x1b0, 4, 1⟩
abbrev PG_STATUS_FE_WARN : Fld := ⟨0x1b0, 3, 1⟩
abbrev PG_STATUS_STRONG : Fld := ⟨0x1b0, 2, 1⟩
abbrev PG_STATUS_STOP_FAULT : Fld := ⟨0x1b0, 1, 1⟩
abbrev PG_STATUS_ACTIVE : Fld := ⟨0x1b0, 0, 1⟩
/-- PG_DRIVE: drive-mode thresholds (axis record, offset 0x1f0). -/
abbrev PG_DRIVE : Fld := ⟨0x1f0, 0, 64⟩
abbrev PG_DRIVE_DM_UP : Fld := ⟨0x1f0, 32, 32⟩
abbrev PG_DRIVE_DM_DOWN : Fld := ⟨0x1f0, 0, 32⟩
/-- PG_FOLLOW: following-error window (axis record, offset 0x1f8). -/
abbrev PG_FOLLOW : Fld := ⟨0x1f8, 0, 64⟩
abbrev PG_FOLLOW_FE_LIMIT : Fld := ⟨0x1f8, 32, 32⟩
abbrev PG_FOLLOW_FE_WARN : Fld := ⟨0x1f8, 8, 24⟩
abbrev PG_FOLLOW_FE_CYCLES : Fld := ⟨0x1f8, 0, 8⟩
/-- PG_STATE: profile status (PG page, 0x0010). -/
abbrev PG_STATE : Fld := ⟨pPG + 0x10, 0, 64⟩
abbrev PG_STATE_GROUP_STOP : Fld := ⟨pPG + 0x10, 32, 32⟩
abbrev PG_STATE_FE_WARN_ANY : Fld := ⟨pPG + 0x10, 2, 1⟩
abbrev PG_STATE_MASTER_LOST_ANY : Fld := ⟨pPG + 0x10, 1, 1⟩
abbrev PG_STATE_STOPPING_ANY : Fld := ⟨pPG + 0x10, 0, 1⟩
/-- PG_CFG: profile configuration (PG page, 0x0080). -/
abbrev PG_CFG : Fld := ⟨pPG + 0x80, 0, 64⟩
abbrev PG_CFG_DM_DWELL : Fld := ⟨pPG + 0x80, 0, 16⟩
/-- PG_GROUP_STOP: group stop request (PG page, 0x0088). -/
abbrev PG_GROUP_STOP : Fld := ⟨pPG + 0x88, 0, 64⟩
abbrev PG_GROUP_STOP_GROUPS : Fld := ⟨pPG + 0x88, 0, 32⟩
/-- PG_GRP_CFG: group configuration (PG page, 0x0800 + 0x40 × n, n = 0–31). -/
abbrev PG_GRP_CFG (n : Nat) : Fld := ⟨pPG + 0x800 + 0x40 * n, 0, 64⟩
abbrev PG_GRP_CFG_EN (n : Nat) : Fld := ⟨pPG + 0x800 + 0x40 * n, 63, 1⟩
abbrev PG_GRP_CFG_RESTART (n : Nat) : Fld := ⟨pPG + 0x800 + 0x40 * n, 62, 1⟩
abbrev PG_GRP_CFG_FAULT_STOP (n : Nat) : Fld := ⟨pPG + 0x800 + 0x40 * n, 61, 1⟩
abbrev PG_GRP_CFG_MSRC (n : Nat) : Fld := ⟨pPG + 0x800 + 0x40 * n, 59, 2⟩
abbrev PG_GRP_CFG_MASTER_AXIS (n : Nat) : Fld := ⟨pPG + 0x800 + 0x40 * n, 32, 9⟩
/-- PG_GRP_STATE: group state (PG page, 0x0830 + 0x40 × n, n = 0–31). -/
abbrev PG_GRP_STATE (n : Nat) : Fld := ⟨pPG + 0x830 + 0x40 * n, 0, 64⟩
abbrev PG_GRP_STATE_CYCLE (n : Nat) : Fld := ⟨pPG + 0x830 + 0x40 * n, 32, 32⟩
abbrev PG_GRP_STATE_CAUSE (n : Nat) : Fld := ⟨pPG + 0x830 + 0x40 * n, 8, 8⟩
abbrev PG_GRP_STATE_MASTER_LOST (n : Nat) : Fld := ⟨pPG + 0x830 + 0x40 * n, 3, 1⟩
abbrev PG_GRP_STATE_STATE (n : Nat) : Fld := ⟨pPG + 0x830 + 0x40 * n, 0, 3⟩
/-- FP_STATE: segment status (FPn page, 0x0010). -/
abbrev FP_STATE (p : Nat) : Fld := ⟨pFP p + 0x10, 0, 64⟩
abbrev FP_STATE_BREAK_HI (p : Nat) : Fld := ⟨pFP p + 0x10, 48, 8⟩
abbrev FP_STATE_BREAK_LO (p : Nat) : Fld := ⟨pFP p + 0x10, 40, 8⟩
abbrev FP_STATE_NODES (p : Nat) : Fld := ⟨pFP p + 0x10, 32, 6⟩
abbrev FP_STATE_TOPO (p : Nat) : Fld := ⟨pFP p + 0x10, 12, 3⟩
abbrev FP_STATE_END (p : Nat) : Fld := ⟨pFP p + 0x10, 11, 1⟩
abbrev FP_STATE_SEG_STATE (p : Nat) : Fld := ⟨pFP p + 0x10, 8, 3⟩
abbrev FP_STATE_OVERFULL (p : Nat) : Fld := ⟨pFP p + 0x10, 4, 1⟩
abbrev FP_STATE_DELAY_DRIFT (p : Nat) : Fld := ⟨pFP p + 0x10, 3, 1⟩
abbrev FP_STATE_BROKEN (p : Nat) : Fld := ⟨pFP p + 0x10, 2, 1⟩
abbrev FP_STATE_ALONE (p : Nat) : Fld := ⟨pFP p + 0x10, 1, 1⟩
abbrev FP_STATE_LINK_UP (p : Nat) : Fld := ⟨pFP p + 0x10, 0, 1⟩
/-- FP_LINKCFG: link configuration (FPn page, 0x0080). -/
abbrev FP_LINKCFG (p : Nat) : Fld := ⟨pFP p + 0x80, 0, 64⟩
abbrev FP_LINKCFG_ETHERTYPE (p : Nat) : Fld := ⟨pFP p + 0x80, 48, 16⟩
abbrev FP_LINKCFG_TIMEOUT (p : Nat) : Fld := ⟨pFP p + 0x80, 40, 8⟩
abbrev FP_LINKCFG_DELAY_TOL (p : Nat) : Fld := ⟨pFP p + 0x80, 16, 16⟩
abbrev FP_LINKCFG_AN_EN (p : Nat) : Fld := ⟨pFP p + 0x80, 1, 1⟩
abbrev FP_LINKCFG_MODE (p : Nat) : Fld := ⟨pFP p + 0x80, 0, 1⟩
/-- FP_MAC: head address (FPn page, 0x0088). -/
abbrev FP_MAC (p : Nat) : Fld := ⟨pFP p + 0x88, 0, 64⟩
abbrev FP_MAC_MAC (p : Nat) : Fld := ⟨pFP p + 0x88, 0, 48⟩
/-- FP_GROUP: segment group address (FPn page, 0x0090). -/
abbrev FP_GROUP (p : Nat) : Fld := ⟨pFP p + 0x90, 0, 64⟩
abbrev FP_GROUP_GROUP (p : Nat) : Fld := ⟨pFP p + 0x90, 0, 48⟩
/-- FP_DISC: discovery control (FPn page, 0x0098). -/
abbrev FP_DISC (p : Nat) : Fld := ⟨pFP p + 0x98, 0, 64⟩
abbrev FP_DISC_START (p : Nat) : Fld := ⟨pFP p + 0x98, 63, 1⟩
abbrev FP_DISC_AUTO (p : Nat) : Fld := ⟨pFP p + 0x98, 0, 1⟩
/-- FP_SNAP: counter snapshot trigger (FPn page, 0x00A0). -/
abbrev FP_SNAP (p : Nat) : Fld := ⟨pFP p + 0xa0, 0, 64⟩
abbrev FP_SNAP_TAKE (p : Nat) : Fld := ⟨pFP p + 0xa0, 0, 1⟩
/-- FP_SNAP_RX: counters (FPn page, 0x00A8, 0x00B0, 0x00B8, 0x00C0, 0x00C8, 0x00D0). -/
abbrev FP_SNAP_RX (p : Nat) : Fld := ⟨pFP p + 0xa8, 0, 64⟩
/-- FP_SNAP_BAD: counters (FPn page, 0x00A8, 0x00B0, 0x00B8, 0x00C0, 0x00C8, 0x00D0). -/
abbrev FP_SNAP_BAD (p : Nat) : Fld := ⟨pFP p + 0xb0, 0, 64⟩
/-- FP_SNAP_OTHER: counters (FPn page, 0x00A8, 0x00B0, 0x00B8, 0x00C0, 0x00C8, 0x00D0). -/
abbrev FP_SNAP_OTHER (p : Nat) : Fld := ⟨pFP p + 0xb8, 0, 64⟩
/-- FP_SNAP_FULL: counters (FPn page, 0x00A8, 0x00B0, 0x00B8, 0x00C0, 0x00C8, 0x00D0). -/
abbrev FP_SNAP_FULL (p : Nat) : Fld := ⟨pFP p + 0xc0, 0, 64⟩
/-- FP_SNAP_RELAYED: counters (FPn page, 0x00A8, 0x00B0, 0x00B8, 0x00C0, 0x00C8, 0x00D0). -/
abbrev FP_SNAP_RELAYED (p : Nat) : Fld := ⟨pFP p + 0xc8, 0, 64⟩
/-- FP_SNAP_RELAYHOLD: counters (FPn page, 0x00A8, 0x00B0, 0x00B8, 0x00C0, 0x00C8, 0x00D0). -/
abbrev FP_SNAP_RELAYHOLD (p : Nat) : Fld := ⟨pFP p + 0xd0, 0, 64⟩
/-- FP_RING: ring delay (FPn page, 0x00D8). -/
abbrev FP_RING (p : Nat) : Fld := ⟨pFP p + 0xd8, 0, 64⟩
abbrev FP_RING_RING_DELAY (p : Nat) : Fld := ⟨pFP p + 0xd8, 0, 32⟩
/-- FP_NODE_MAC: node address (FPn page, 0x0800 + 0x20 × j). -/
abbrev FP_NODE_MAC (p : Nat) (n : Nat) : Fld := ⟨pFP p + 0x800 + 0x20 * n, 0, 64⟩
abbrev FP_NODE_MAC_MAC (p : Nat) (n : Nat) : Fld := ⟨pFP p + 0x800 + 0x20 * n, 0, 48⟩
/-- FP_NODE_CAP: node capabilities (FPn page, 0x0808 + 0x20 × j). -/
abbrev FP_NODE_CAP (p : Nat) (n : Nat) : Fld := ⟨pFP p + 0x808 + 0x20 * n, 0, 64⟩
abbrev FP_NODE_CAP_VENDOR (p : Nat) (n : Nat) : Fld := ⟨pFP p + 0x808 + 0x20 * n, 32, 32⟩
abbrev FP_NODE_CAP_SENSOR_CH (p : Nat) (n : Nat) : Fld := ⟨pFP p + 0x808 + 0x20 * n, 24, 8⟩
abbrev FP_NODE_CAP_SP_RECORDS (p : Nat) (n : Nat) : Fld := ⟨pFP p + 0x808 + 0x20 * n, 20, 4⟩
abbrev FP_NODE_CAP_POS_RECORDS (p : Nat) (n : Nat) : Fld := ⟨pFP p + 0x808 + 0x20 * n, 16, 4⟩
abbrev FP_NODE_CAP_MAX_UL (p : Nat) (n : Nat) : Fld := ⟨pFP p + 0x808 + 0x20 * n, 0, 16⟩
/-- FP_NODE_DELAY: node delays (FPn page, 0x0810 + 0x20 × j). -/
abbrev FP_NODE_DELAY (p : Nat) (n : Nat) : Fld := ⟨pFP p + 0x810 + 0x20 * n, 0, 64⟩
abbrev FP_NODE_DELAY_DELAY_B (p : Nat) (n : Nat) : Fld := ⟨pFP p + 0x810 + 0x20 * n, 32, 32⟩
abbrev FP_NODE_DELAY_DELAY_A (p : Nat) (n : Nat) : Fld := ⟨pFP p + 0x810 + 0x20 * n, 0, 32⟩
/-- FP_NODE_STATE: node state (FPn page, 0x0818 + 0x20 × j). -/
abbrev FP_NODE_STATE (p : Nat) (n : Nat) : Fld := ⟨pFP p + 0x818 + 0x20 * n, 0, 64⟩
abbrev FP_NODE_STATE_STATUS (p : Nat) (n : Nat) : Fld := ⟨pFP p + 0x818 + 0x20 * n, 48, 16⟩
abbrev FP_NODE_STATE_ACK_EPOCH (p : Nat) (n : Nat) : Fld := ⟨pFP p + 0x818 + 0x20 * n, 32, 8⟩
abbrev FP_NODE_STATE_ARRIVAL_ERR (p : Nat) (n : Nat) : Fld := ⟨pFP p + 0x818 + 0x20 * n, 16, 16⟩
abbrev FP_NODE_STATE_FWD_LAT (p : Nat) (n : Nat) : Fld := ⟨pFP p + 0x818 + 0x20 * n, 8, 8⟩
abbrev FP_NODE_STATE_NUMBERED (p : Nat) (n : Nat) : Fld := ⟨pFP p + 0x818 + 0x20 * n, 2, 1⟩
abbrev FP_NODE_STATE_SEEN_B (p : Nat) (n : Nat) : Fld := ⟨pFP p + 0x818 + 0x20 * n, 1, 1⟩
abbrev FP_NODE_STATE_SEEN_A (p : Nat) (n : Nat) : Fld := ⟨pFP p + 0x818 + 0x20 * n, 0, 1⟩
/-- FP_GSNAP: guardian snapshot trigger (FPn page, 0x00E0). -/
abbrev FP_GSNAP (p : Nat) : Fld := ⟨pFP p + 0xe0, 0, 64⟩
abbrev FP_GSNAP_TAKE (p : Nat) : Fld := ⟨pFP p + 0xe0, 0, 1⟩
/-- FP_GSNAP_ACCEPT: totals (FPn page, 0x00E8, 0x00F0, 0x00F8, 0x0100, 0x0108, 0x0110, 0x0118, 0x0120). -/
abbrev FP_GSNAP_ACCEPT (p : Nat) : Fld := ⟨pFP p + 0xe8, 0, 64⟩
/-- FP_GSNAP_WINDOW: totals (FPn page, 0x00E8, 0x00F0, 0x00F8, 0x0100, 0x0108, 0x0110, 0x0118, 0x0120). -/
abbrev FP_GSNAP_WINDOW (p : Nat) : Fld := ⟨pFP p + 0xf0, 0, 64⟩
/-- FP_GSNAP_NOSLOT: totals (FPn page, 0x00E8, 0x00F0, 0x00F8, 0x0100, 0x0108, 0x0110, 0x0118, 0x0120). -/
abbrev FP_GSNAP_NOSLOT (p : Nat) : Fld := ⟨pFP p + 0xf8, 0, 64⟩
/-- FP_GSNAP_OVERSIZE: totals (FPn page, 0x00E8, 0x00F0, 0x00F8, 0x0100, 0x0108, 0x0110, 0x0118, 0x0120). -/
abbrev FP_GSNAP_OVERSIZE (p : Nat) : Fld := ⟨pFP p + 0x100, 0, 64⟩
/-- FP_GSNAP_EPOCH: totals (FPn page, 0x00E8, 0x00F0, 0x00F8, 0x0100, 0x0108, 0x0110, 0x0118, 0x0120). -/
abbrev FP_GSNAP_EPOCH (p : Nat) : Fld := ⟨pFP p + 0x108, 0, 64⟩
/-- FP_GSNAP_MUTED: totals (FPn page, 0x00E8, 0x00F0, 0x00F8, 0x0100, 0x0108, 0x0110, 0x0118, 0x0120). -/
abbrev FP_GSNAP_MUTED (p : Nat) : Fld := ⟨pFP p + 0x110, 0, 64⟩
/-- FP_GSNAP_MISSED: totals (FPn page, 0x00E8, 0x00F0, 0x00F8, 0x0100, 0x0108, 0x0110, 0x0118, 0x0120). -/
abbrev FP_GSNAP_MISSED (p : Nat) : Fld := ⟨pFP p + 0x118, 0, 64⟩
/-- FP_GSNAP_EMPTY: totals (FPn page, 0x00E8, 0x00F0, 0x00F8, 0x0100, 0x0108, 0x0110, 0x0118, 0x0120). -/
abbrev FP_GSNAP_EMPTY (p : Nat) : Fld := ⟨pFP p + 0x120, 0, 64⟩
/-- FP_GSNAP_CLAIMS: claim totals (FPn page, 0x0128). -/
abbrev FP_GSNAP_CLAIMS (p : Nat) : Fld := ⟨pFP p + 0x128, 0, 64⟩
abbrev FP_GSNAP_CLAIMS_LOST (p : Nat) : Fld := ⟨pFP p + 0x128, 32, 32⟩
abbrev FP_GSNAP_CLAIMS_REFUSED (p : Nat) : Fld := ⟨pFP p + 0x128, 0, 32⟩
/-- FP_GSNAP_CYCLE: snapshot cycle (FPn page, 0x0130). -/
abbrev FP_GSNAP_CYCLE (p : Nat) : Fld := ⟨pFP p + 0x130, 0, 64⟩
abbrev FP_GSNAP_CYCLE_CYCLE (p : Nat) : Fld := ⟨pFP p + 0x130, 0, 32⟩
/-- FP_GSTATE: guardian status (FPn page, 0x0138). -/
abbrev FP_GSTATE (p : Nat) : Fld := ⟨pFP p + 0x138, 0, 64⟩
abbrev FP_GSTATE_MUTED (p : Nat) : Fld := ⟨pFP p + 0x138, 32, 32⟩
abbrev FP_GSTATE_PROVISIONAL (p : Nat) : Fld := ⟨pFP p + 0x138, 2, 1⟩
abbrev FP_GSTATE_MISSED_ANY (p : Nat) : Fld := ⟨pFP p + 0x138, 1, 1⟩
abbrev FP_GSTATE_MUTED_ANY (p : Nat) : Fld := ⟨pFP p + 0x138, 0, 1⟩
/-- FP_SLOTCFG: slot configuration (FPn page, 0x0140). -/
abbrev FP_SLOTCFG (p : Nat) : Fld := ⟨pFP p + 0x140, 0, 64⟩
abbrev FP_SLOTCFG_LIVE_BANK (p : Nat) : Fld := ⟨pFP p + 0x140, 63, 1⟩
abbrev FP_SLOTCFG_MUTE_LIMIT (p : Nat) : Fld := ⟨pFP p + 0x140, 48, 8⟩
abbrev FP_SLOTCFG_MUTE_WINDOW (p : Nat) : Fld := ⟨pFP p + 0x140, 32, 16⟩
abbrev FP_SLOTCFG_SPARE_REACH (p : Nat) : Fld := ⟨pFP p + 0x140, 16, 16⟩
abbrev FP_SLOTCFG_GUARD (p : Nat) : Fld := ⟨pFP p + 0x140, 0, 16⟩
/-- FP_COMMIT: schedule commit (FPn page, 0x0148). -/
abbrev FP_COMMIT (p : Nat) : Fld := ⟨pFP p + 0x148, 0, 64⟩
abbrev FP_COMMIT_OP (p : Nat) : Fld := ⟨pFP p + 0x148, 0, 2⟩
/-- FP_MUTECTL: mute control (FPn page, 0x0150). -/
abbrev FP_MUTECTL (p : Nat) : Fld := ⟨pFP p + 0x150, 0, 64⟩
abbrev FP_MUTECTL_OP (p : Nat) : Fld := ⟨pFP p + 0x150, 8, 2⟩
abbrev FP_MUTECTL_NODE (p : Nat) : Fld := ⟨pFP p + 0x150, 0, 5⟩
/-- FP_SPARE: spare pool (FPn page, 0x0158). -/
abbrev FP_SPARE (p : Nat) : Fld := ⟨pFP p + 0x158, 0, 64⟩
abbrev FP_SPARE_GRANT_SLOT (p : Nat) : Fld := ⟨pFP p + 0x158, 56, 8⟩
abbrev FP_SPARE_GRANT_NODE (p : Nat) : Fld := ⟨pFP p + 0x158, 48, 5⟩
abbrev FP_SPARE_POOL (p : Nat) : Fld := ⟨pFP p + 0x158, 0, 4⟩
/-- FP_GNODE_CNTA: node guardian counts (FPn page, 0x0400 and 0x0408 + 0x20 × j, j = 0–31). -/
abbrev FP_GNODE_CNTA (p : Nat) (n : Nat) : Fld := ⟨pFP p + 0x400 + 0x20 * n, 0, 64⟩
abbrev FP_GNODE_CNTA_MISSED___EPOCH (p : Nat) (n : Nat) : Fld := ⟨pFP p + 0x400 + 0x20 * n, 32, 32⟩
abbrev FP_GNODE_CNTA_WINDOW___OTHER (p : Nat) (n : Nat) : Fld := ⟨pFP p + 0x400 + 0x20 * n, 0, 32⟩
/-- FP_GNODE_CNTB: node guardian counts (FPn page, 0x0400 and 0x0408 + 0x20 × j, j = 0–31). -/
abbrev FP_GNODE_CNTB (p : Nat) (n : Nat) : Fld := ⟨pFP p + 0x408 + 0x20 * n, 0, 64⟩
abbrev FP_GNODE_CNTB_MISSED___EPOCH (p : Nat) (n : Nat) : Fld := ⟨pFP p + 0x408 + 0x20 * n, 32, 32⟩
abbrev FP_GNODE_CNTB_WINDOW___OTHER (p : Nat) (n : Nat) : Fld := ⟨pFP p + 0x408 + 0x20 * n, 0, 32⟩
/-- FP_GNODE_STATE: node guardian state (FPn page, 0x0410 + 0x20 × j, j = 0–31). -/
abbrev FP_GNODE_STATE (p : Nat) (n : Nat) : Fld := ⟨pFP p + 0x410 + 0x20 * n, 0, 64⟩
abbrev FP_GNODE_STATE_WE_RUN (p : Nat) (n : Nat) : Fld := ⟨pFP p + 0x410 + 0x20 * n, 56, 8⟩
abbrev FP_GNODE_STATE_FAULTS (p : Nat) (n : Nat) : Fld := ⟨pFP p + 0x410 + 0x20 * n, 32, 16⟩
abbrev FP_GNODE_STATE_PROVISIONAL (p : Nat) (n : Nat) : Fld := ⟨pFP p + 0x410 + 0x20 * n, 3, 1⟩
abbrev FP_GNODE_STATE_WRONG_EPOCH (p : Nat) (n : Nat) : Fld := ⟨pFP p + 0x410 + 0x20 * n, 2, 1⟩
abbrev FP_GNODE_STATE_MUTED (p : Nat) (n : Nat) : Fld := ⟨pFP p + 0x410 + 0x20 * n, 1, 1⟩
abbrev FP_GNODE_STATE_BOUND (p : Nat) (n : Nat) : Fld := ⟨pFP p + 0x410 + 0x20 * n, 0, 1⟩
/-- FP_SLOTk of bank b: slot word. -/
abbrev FP_SLOT (p : Nat) (b : Nat) (k : Nat) : Fld := ⟨pFP p + 0xC00 + 0x200 * b + 8 * k, 0, 64⟩
abbrev FP_SLOT_KIND (p : Nat) (b : Nat) (k : Nat) : Fld := ⟨pFP p + 0xC00 + 0x200 * b + 8 * k, 62, 2⟩
abbrev FP_SLOT_NODE (p : Nat) (b : Nat) (k : Nat) : Fld := ⟨pFP p + 0xC00 + 0x200 * b + 8 * k, 48, 5⟩
abbrev FP_SLOT_LENGTH (p : Nat) (b : Nat) (k : Nat) : Fld := ⟨pFP p + 0xC00 + 0x200 * b + 8 * k, 32, 13⟩
abbrev FP_SLOT_START (p : Nat) (b : Nat) (k : Nat) : Fld := ⟨pFP p + 0xC00 + 0x200 * b + 8 * k, 0, 17⟩
/-- EPOCH_STATE: epoch status (FP epoch page, 0x0010). -/
abbrev EPOCH_STATE : Fld := ⟨pEpoch + 0x10, 0, 64⟩
abbrev EPOCH_STATE_WRONG_EPOCH_ANY : Fld := ⟨pEpoch + 0x10, 2, 1⟩
abbrev EPOCH_STATE_DECIDED : Fld := ⟨pEpoch + 0x10, 1, 1⟩
abbrev EPOCH_STATE_PENDING : Fld := ⟨pEpoch + 0x10, 0, 1⟩
/-- FP_EPOCH_NEXT: requested epoch (FP epoch page, 0x0080). -/
abbrev FP_EPOCH_NEXT : Fld := ⟨pEpoch + 0x80, 0, 64⟩
abbrev FP_EPOCH_NEXT_LEAD : Fld := ⟨pEpoch + 0x80, 32, 16⟩
abbrev FP_EPOCH_NEXT_EPOCH : Fld := ⟨pEpoch + 0x80, 0, 16⟩
/-- FP_EPOCH_CMD: epoch command (FP epoch page, 0x0088). -/
abbrev FP_EPOCH_CMD : Fld := ⟨pEpoch + 0x88, 0, 64⟩
abbrev FP_EPOCH_CMD_OP : Fld := ⟨pEpoch + 0x88, 0, 2⟩
/-- FP_EPOCH_STATE: epoch state (FP epoch page, 0x0090). -/
abbrev FP_EPOCH_STATE : Fld := ⟨pEpoch + 0x90, 0, 64⟩
abbrev FP_EPOCH_STATE_ACT_CYCLE : Fld := ⟨pEpoch + 0x90, 32, 32⟩
abbrev FP_EPOCH_STATE_CURRENT : Fld := ⟨pEpoch + 0x90, 16, 16⟩
abbrev FP_EPOCH_STATE_LAST : Fld := ⟨pEpoch + 0x90, 8, 2⟩
/-- FP_EPOCH_DIAG: epoch diagnosis (FP epoch page, 0x0098). -/
abbrev FP_EPOCH_DIAG : Fld := ⟨pEpoch + 0x98, 0, 64⟩
abbrev FP_EPOCH_DIAG_SEG : Fld := ⟨pEpoch + 0x98, 40, 3⟩
abbrev FP_EPOCH_DIAG_NODE : Fld := ⟨pEpoch + 0x98, 32, 5⟩
abbrev FP_EPOCH_DIAG_AXIS : Fld := ⟨pEpoch + 0x98, 0, 9⟩
/-- CH_CFG: channel configuration (channel table, offset 0x0). -/
abbrev CH_CFG : Fld := ⟨0x0, 0, 64⟩
abbrev CH_CFG_KIND : Fld := ⟨0x0, 61, 3⟩
abbrev CH_CFG_STREAM : Fld := ⟨0x0, 53, 8⟩
abbrev CH_CFG_RED_EN : Fld := ⟨0x0, 49, 4⟩
abbrev CH_CFG_RED_KIND : Fld := ⟨0x0, 41, 8⟩
abbrev CH_CFG_SOURCE : Fld := ⟨0x0, 0, 32⟩
/-- CH_FACTORS: reduction factors (channel table, offset 0x8). -/
abbrev CH_FACTORS : Fld := ⟨0x8, 0, 64⟩
abbrev CH_FACTORS_FACTOR4 : Fld := ⟨0x8, 48, 16⟩
abbrev CH_FACTORS_FACTOR3 : Fld := ⟨0x8, 32, 16⟩
abbrev CH_FACTORS_FACTOR2 : Fld := ⟨0x8, 16, 16⟩
abbrev CH_FACTORS_FACTOR1 : Fld := ⟨0x8, 0, 16⟩
/-- CH_INTERVAL: sensor interval (channel table, offset 0x10). -/
abbrev CH_INTERVAL : Fld := ⟨0x10, 0, 64⟩
/-- ST_CFG: stream configuration (stream table, offset 0x0). -/
abbrev ST_CFG : Fld := ⟨0x0, 0, 64⟩
abbrev ST_CFG_MODE : Fld := ⟨0x0, 63, 1⟩
abbrev ST_CFG_RAW_EN : Fld := ⟨0x0, 62, 1⟩
abbrev ST_CFG_AT_DT : Fld := ⟨0x0, 61, 1⟩
abbrev ST_CFG_AUTO_RESTART : Fld := ⟨0x0, 60, 1⟩
abbrev ST_CFG_RESTART_LEVEL : Fld := ⟨0x0, 56, 4⟩
abbrev ST_CFG_PACKET : Fld := ⟨0x0, 50, 6⟩
abbrev ST_CFG_FLUSH : Fld := ⟨0x0, 0, 32⟩
/-- ST_STATUS: stream status (stream table, offset 0x40). -/
abbrev ST_STATUS : Fld := ⟨0x40, 0, 64⟩
abbrev ST_STATUS_STATE : Fld := ⟨0x40, 61, 3⟩
abbrev ST_STATUS_CAUSE : Fld := ⟨0x40, 59, 2⟩
abbrev ST_STATUS_MARKS_LOST : Fld := ⟨0x40, 32, 16⟩
abbrev ST_STATUS_TRIG_IGNORED : Fld := ⟨0x40, 0, 32⟩
/-- CH_STATUS: channel counts (channel table, offset 0x18). -/
abbrev CH_STATUS : Fld := ⟨0x18, 0, 64⟩
abbrev CH_STATUS_RATE_ERR : Fld := ⟨0x18, 32, 32⟩
abbrev CH_STATUS_DROPPED : Fld := ⟨0x18, 0, 32⟩
/-- AE_STATE: acquisition status (AE page, 0x0010). -/
abbrev AE_STATE : Fld := ⟨pAE + 0x10, 0, 64⟩
abbrev AE_STATE_CHANNELS : Fld := ⟨pAE + 0x10, 32, 13⟩
abbrev AE_STATE_STREAMS : Fld := ⟨pAE + 0x10, 16, 9⟩
abbrev AE_STATE_PATH_HIGH : Fld := ⟨pAE + 0x10, 1, 1⟩
abbrev AE_STATE_OVERFLOW_ANY : Fld := ⟨pAE + 0x10, 0, 1⟩
/-- AE_CFG: acquisition configuration (AE page, 0x0080). -/
abbrev AE_CFG : Fld := ⟨pAE + 0x80, 0, 64⟩
abbrev AE_CFG_MAP_INTERVAL : Fld := ⟨pAE + 0x80, 0, 16⟩
/-- AE_CH_CTL: channel enable (AE page, 0x0088). -/
abbrev AE_CH_CTL : Fld := ⟨pAE + 0x88, 0, 64⟩
abbrev AE_CH_CTL_OP : Fld := ⟨pAE + 0x88, 62, 2⟩
abbrev AE_CH_CTL_CHANNEL : Fld := ⟨pAE + 0x88, 0, 12⟩
/-- AE_ST_CTL: stream command (AE page, 0x0090). -/
abbrev AE_ST_CTL : Fld := ⟨pAE + 0x90, 0, 64⟩
abbrev AE_ST_CTL_OP : Fld := ⟨pAE + 0x90, 62, 2⟩
abbrev AE_ST_CTL_STREAM : Fld := ⟨pAE + 0x90, 0, 8⟩
/-- AE_SNAP: totals snapshot trigger (AE page, 0x0098). -/
abbrev AE_SNAP : Fld := ⟨pAE + 0x98, 0, 64⟩
abbrev AE_SNAP_TAKE : Fld := ⟨pAE + 0x98, 0, 1⟩
/-- AE_SNAP_SAMPLES: totals (AE page, 0x00A0, 0x00A8, 0x00B0, 0x00B8). -/
abbrev AE_SNAP_SAMPLES : Fld := ⟨pAE + 0xa0, 0, 64⟩
/-- AE_SNAP_PACKETS: totals (AE page, 0x00A0, 0x00A8, 0x00B0, 0x00B8). -/
abbrev AE_SNAP_PACKETS : Fld := ⟨pAE + 0xa8, 0, 64⟩
/-- AE_SNAP_BYTES: totals (AE page, 0x00A0, 0x00A8, 0x00B0, 0x00B8). -/
abbrev AE_SNAP_BYTES : Fld := ⟨pAE + 0xb0, 0, 64⟩
/-- AE_SNAP_DISCARD: totals (AE page, 0x00A0, 0x00A8, 0x00B0, 0x00B8). -/
abbrev AE_SNAP_DISCARD : Fld := ⟨pAE + 0xb8, 0, 64⟩
/-- AE_SNAP_DT: snapshot time (AE page, 0x00C0). -/
abbrev AE_SNAP_DT : Fld := ⟨pAE + 0xc0, 0, 64⟩
/-- AE_RUNMAP: stream maps (AE page, 0x0100 + 8 × n and 0x0120 + 8 × n, n = 0–3). -/
abbrev AE_RUNMAP (n : Nat) : Fld := ⟨pAE + 0x100 + 8 * n, 0, 64⟩
/-- AE_OVFMAP: stream maps (AE page, 0x0100 + 8 × n and 0x0120 + 8 × n, n = 0–3). -/
abbrev AE_OVFMAP (n : Nat) : Fld := ⟨pAE + 0x120 + 8 * n, 0, 64⟩
/-- AE_CHMAP: enabled channels (AE page, 0x0200 + 8 × n, n = 0–63). -/
abbrev AE_CHMAP (n : Nat) : Fld := ⟨pAE + 0x200 + 8 * n, 0, 64⟩
/-- AE_TRG_CFG: trigger unit configuration (AE page, 0x0800 + 0x20 × u, u = 0–63). -/
abbrev AE_TRG_CFG (n : Nat) : Fld := ⟨pAE + 0x800 + 0x20 * n, 0, 64⟩
abbrev AE_TRG_CFG_EN (n : Nat) : Fld := ⟨pAE + 0x800 + 0x20 * n, 63, 1⟩
abbrev AE_TRG_CFG_COND (n : Nat) : Fld := ⟨pAE + 0x800 + 0x20 * n, 60, 3⟩
abbrev AE_TRG_CFG_CHANNEL (n : Nat) : Fld := ⟨pAE + 0x800 + 0x20 * n, 44, 12⟩
abbrev AE_TRG_CFG_MARK_STREAM (n : Nat) : Fld := ⟨pAE + 0x800 + 0x20 * n, 32, 8⟩
abbrev AE_TRG_CFG_MARK_EN (n : Nat) : Fld := ⟨pAE + 0x800 + 0x20 * n, 31, 1⟩
abbrev AE_TRG_CFG_OUT_EN (n : Nat) : Fld := ⟨pAE + 0x800 + 0x20 * n, 30, 1⟩
abbrev AE_TRG_CFG_OUT_PIN (n : Nat) : Fld := ⟨pAE + 0x800 + 0x20 * n, 27, 3⟩
abbrev AE_TRG_CFG_DISCARD_LATE (n : Nat) : Fld := ⟨pAE + 0x800 + 0x20 * n, 26, 1⟩
abbrev AE_TRG_CFG_EVT_EN (n : Nat) : Fld := ⟨pAE + 0x800 + 0x20 * n, 25, 1⟩
abbrev AE_TRG_CFG_HOLDOFF (n : Nat) : Fld := ⟨pAE + 0x800 + 0x20 * n, 0, 25⟩
/-- AE_TRG_LEVEL: trigger levels (AE page, 0x0808 + 0x20 × u). -/
abbrev AE_TRG_LEVEL (n : Nat) : Fld := ⟨pAE + 0x808 + 0x20 * n, 0, 64⟩
abbrev AE_TRG_LEVEL_LEVEL (n : Nat) : Fld := ⟨pAE + 0x808 + 0x20 * n, 32, 32⟩
abbrev AE_TRG_LEVEL_ALT (n : Nat) : Fld := ⟨pAE + 0x808 + 0x20 * n, 0, 32⟩
/-- AE_TRG_OUT: trigger output (AE page, 0x0810 + 0x20 × u). -/
abbrev AE_TRG_OUT (n : Nat) : Fld := ⟨pAE + 0x810 + 0x20 * n, 0, 64⟩
abbrev AE_TRG_OUT_OUT_DELAY (n : Nat) : Fld := ⟨pAE + 0x810 + 0x20 * n, 32, 32⟩
abbrev AE_TRG_OUT_OUT_WIDTH (n : Nat) : Fld := ⟨pAE + 0x810 + 0x20 * n, 0, 32⟩
/-- AE_TRG_STATE: trigger state (AE page, 0x0818 + 0x20 × u). -/
abbrev AE_TRG_STATE (n : Nat) : Fld := ⟨pAE + 0x818 + 0x20 * n, 0, 64⟩
abbrev AE_TRG_STATE_COUNT (n : Nat) : Fld := ⟨pAE + 0x818 + 0x20 * n, 32, 32⟩
abbrev AE_TRG_STATE_LATE (n : Nat) : Fld := ⟨pAE + 0x818 + 0x20 * n, 16, 16⟩
abbrev AE_TRG_STATE_ARMED (n : Nat) : Fld := ⟨pAE + 0x818 + 0x20 * n, 0, 1⟩
/-- ANG_CFG: angle channel configuration (angle descriptor, offset 0x0). -/
abbrev ANG_CFG : Fld := ⟨0x0, 0, 64⟩
abbrev ANG_CFG_M_LOG2 : Fld := ⟨0x0, 60, 4⟩
abbrev ANG_CFG_STRICT : Fld := ⟨0x0, 59, 1⟩
abbrev ANG_CFG_REQUIRE_REF : Fld := ⟨0x0, 58, 1⟩
abbrev ANG_CFG_OUT_MODE : Fld := ⟨0x0, 56, 2⟩
abbrev ANG_CFG_N_AVG : Fld := ⟨0x0, 44, 11⟩
abbrev ANG_CFG_ANGLE_AXIS : Fld := ⟨0x0, 32, 9⟩
abbrev ANG_CFG_SOURCE : Fld := ⟨0x0, 0, 12⟩
/-- ANG_ORDER: order, comparison and wake (angle descriptor, offset 0x8). -/
abbrev ANG_ORDER : Fld := ⟨0x8, 0, 64⟩
abbrev ANG_ORDER_COMPARE_EN : Fld := ⟨0x8, 63, 1⟩
abbrev ANG_ORDER_WAKE_EN : Fld := ⟨0x8, 62, 1⟩
abbrev ANG_ORDER_WAKE_CTX : Fld := ⟨0x8, 48, 10⟩
abbrev ANG_ORDER_COMPARE_AXIS : Fld := ⟨0x8, 32, 9⟩
abbrev ANG_ORDER_ORDER : Fld := ⟨0x8, 0, 12⟩
/-- ANG_MAP: persistence maps (angle descriptor, offset 0x20). -/
abbrev ANG_MAP : Fld := ⟨0x20, 0, 64⟩
abbrev ANG_MAP_AMP_LOW : Fld := ⟨0x20, 32, 32⟩
abbrev ANG_MAP_MAP_EN : Fld := ⟨0x20, 30, 2⟩
abbrev ANG_MAP_AMP_SHIFT : Fld := ⟨0x20, 25, 5⟩
abbrev ANG_MAP_DECAY_LOG2 : Fld := ⟨0x20, 21, 4⟩
abbrev ANG_MAP_MAP_INDEX : Fld := ⟨0x20, 0, 10⟩
/-- ANG_STATUS: angle channel status (angle descriptor, offset 0x48). -/
abbrev ANG_STATUS : Fld := ⟨0x48, 0, 64⟩
abbrev ANG_STATUS_STATE : Fld := ⟨0x48, 62, 2⟩
abbrev ANG_STATUS_RING_OVF : Fld := ⟨0x48, 61, 1⟩
abbrev ANG_STATUS_LAST_ABANDON : Fld := ⟨0x48, 48, 8⟩
abbrev ANG_STATUS_AVG_COUNT : Fld := ⟨0x48, 32, 11⟩
abbrev ANG_STATUS_SPARSE : Fld := ⟨0x48, 0, 1⟩
/-- MON_HIST: histogram configuration (monitor table, offset 0x0). -/
abbrev MON_HIST : Fld := ⟨0x0, 0, 64⟩
abbrev MON_HIST_LOW : Fld := ⟨0x0, 32, 32⟩
abbrev MON_HIST_SHIFT : Fld := ⟨0x0, 8, 5⟩
abbrev MON_HIST_SLOT : Fld := ⟨0x0, 0, 3⟩
/-- ANG_STATE: monitoring status (angle page, 0x0010). -/
abbrev ANG_STATE : Fld := ⟨pANG + 0x10, 0, 64⟩
abbrev ANG_STATE_ANG_ON : Fld := ⟨pANG + 0x10, 32, 10⟩
abbrev ANG_STATE_COPY_BUSY : Fld := ⟨pANG + 0x10, 2, 1⟩
abbrev ANG_STATE_STALL_ANY : Fld := ⟨pANG + 0x10, 1, 1⟩
abbrev ANG_STATE_OVERFLOW_ANY : Fld := ⟨pANG + 0x10, 0, 1⟩
/-- AE_ANG_CTL: angle channel enable (angle page, 0x0080). -/
abbrev AE_ANG_CTL : Fld := ⟨pANG + 0x80, 0, 64⟩
abbrev AE_ANG_CTL_OP : Fld := ⟨pANG + 0x80, 62, 2⟩
abbrev AE_ANG_CTL_CHANNEL : Fld := ⟨pANG + 0x80, 0, 9⟩
/-- AE_HIST_CTL: histogram enable (angle page, 0x0088). -/
abbrev AE_HIST_CTL : Fld := ⟨pANG + 0x88, 0, 64⟩
abbrev AE_HIST_CTL_OP : Fld := ⟨pANG + 0x88, 62, 2⟩
abbrev AE_HIST_CTL_CHANNEL : Fld := ⟨pANG + 0x88, 0, 12⟩
/-- ANG_COPY: copy command (angle page, 0x0090). -/
abbrev ANG_COPY : Fld := ⟨pANG + 0x90, 0, 64⟩
abbrev ANG_COPY_OP : Fld := ⟨pANG + 0x90, 62, 2⟩
abbrev ANG_COPY_CLEAR : Fld := ⟨pANG + 0x90, 61, 1⟩
abbrev ANG_COPY_INDEX : Fld := ⟨pANG + 0x90, 0, 12⟩
/-- ANG_COPY_DEST: copy destination (angle page, 0x0098). -/
abbrev ANG_COPY_DEST : Fld := ⟨pANG + 0x98, 0, 64⟩
/-- ANG_COPY_STATE: copy state (angle page, 0x00A0). -/
abbrev ANG_COPY_STATE : Fld := ⟨pANG + 0xa0, 0, 64⟩
abbrev ANG_COPY_STATE_DONE : Fld := ⟨pANG + 0xa0, 1, 1⟩
abbrev ANG_COPY_STATE_BUSY : Fld := ⟨pANG + 0xa0, 0, 1⟩
/-- ANG_COPY_DT: copy instant (angle page, 0x00A8). -/
abbrev ANG_COPY_DT : Fld := ⟨pANG + 0xa8, 0, 64⟩
/-- ANG_RUNMAP: angle channel maps (angle page, 0x0100 + 8 × n and 0x0140 + 8 × n, n = 0–7). -/
abbrev ANG_RUNMAP (n : Nat) : Fld := ⟨pANG + 0x100 + 8 * n, 0, 64⟩
/-- ANG_OVFMAP: angle channel maps (angle page, 0x0100 + 8 × n and 0x0140 + 8 × n, n = 0–7). -/
abbrev ANG_OVFMAP (n : Nat) : Fld := ⟨pANG + 0x140 + 8 * n, 0, 64⟩
/-- HIST_MAP: histogram channels (angle page, 0x0200 + 8 × n, n = 0–63). -/
abbrev HIST_MAP (n : Nat) : Fld := ⟨pANG + 0x200 + 8 * n, 0, 64⟩
/-- SC_STATE: core status (SCn page, 0x0010). -/
abbrev SC_STATE (p : Nat) : Fld := ⟨pSC p + 0x10, 0, 64⟩
abbrev SC_STATE_CONTEXT (p : Nat) : Fld := ⟨pSC p + 0x10, 32, 10⟩
abbrev SC_STATE_PREFETCHED (p : Nat) : Fld := ⟨pSC p + 0x10, 4, 1⟩
abbrev SC_STATE_DORMANT (p : Nat) : Fld := ⟨pSC p + 0x10, 3, 1⟩
abbrev SC_STATE_REMOTE_WAIT (p : Nat) : Fld := ⟨pSC p + 0x10, 2, 1⟩
abbrev SC_STATE_RUNNING (p : Nat) : Fld := ⟨pSC p + 0x10, 1, 1⟩
abbrev SC_STATE_IN_SERVICE (p : Nat) : Fld := ⟨pSC p + 0x10, 0, 1⟩
/-- SC_CFG: core configuration (SCn page, 0x0080). -/
abbrev SC_CFG (p : Nat) : Fld := ⟨pSC p + 0x80, 0, 64⟩
abbrev SC_CFG_DORMANT_EN (p : Nat) : Fld := ⟨pSC p + 0x80, 16, 1⟩
abbrev SC_CFG_REMOTE_TIMEOUT (p : Nat) : Fld := ⟨pSC p + 0x80, 0, 9⟩
/-- SC_BRK: breakpoint (SCn page, 0x0088). -/
abbrev SC_BRK (p : Nat) : Fld := ⟨pSC p + 0x88, 0, 64⟩
abbrev SC_BRK_EN (p : Nat) : Fld := ⟨pSC p + 0x88, 63, 1⟩
abbrev SC_BRK_PC (p : Nat) : Fld := ⟨pSC p + 0x88, 0, 14⟩
/-- SC_PC: issue point (SCn page, 0x0090). -/
abbrev SC_PC (p : Nat) : Fld := ⟨pSC p + 0x90, 0, 64⟩
abbrev SC_PC_CONTEXT (p : Nat) : Fld := ⟨pSC p + 0x90, 44, 10⟩
abbrev SC_PC_PC (p : Nat) : Fld := ⟨pSC p + 0x90, 0, 14⟩
/-- SC_SNAP: totals snapshot trigger (SCn page, 0x0098). -/
abbrev SC_SNAP (p : Nat) : Fld := ⟨pSC p + 0x98, 0, 64⟩
abbrev SC_SNAP_TAKE (p : Nat) : Fld := ⟨pSC p + 0x98, 0, 1⟩
/-- SC_SNAP_RETIRED: totals (SCn page, 0x00A0, 0x00A8, 0x00B0, 0x00B8). -/
abbrev SC_SNAP_RETIRED (p : Nat) : Fld := ⟨pSC p + 0xa0, 0, 64⟩
/-- SC_SNAP_STALLS: totals (SCn page, 0x00A0, 0x00A8, 0x00B0, 0x00B8). -/
abbrev SC_SNAP_STALLS (p : Nat) : Fld := ⟨pSC p + 0xa8, 0, 64⟩
/-- SC_SNAP_REMOTE: totals (SCn page, 0x00A0, 0x00A8, 0x00B0, 0x00B8). -/
abbrev SC_SNAP_REMOTE (p : Nat) : Fld := ⟨pSC p + 0xb0, 0, 64⟩
/-- SC_SNAP_SWITCHES: totals (SCn page, 0x00A0, 0x00A8, 0x00B0, 0x00B8). -/
abbrev SC_SNAP_SWITCHES (p : Nat) : Fld := ⟨pSC p + 0xb8, 0, 64⟩
/-- SC_SNAP_DT: snapshot time (SCn page, 0x00C0). -/
abbrev SC_SNAP_DT (p : Nat) : Fld := ⟨pSC p + 0xc0, 0, 64⟩
/-- CX_CFG: context configuration (context record, offset 0x0). -/
abbrev CX_CFG : Fld := ⟨0x0, 0, 64⟩
abbrev CX_CFG_PRIORITY : Fld := ⟨0x0, 61, 3⟩
abbrev CX_CFG_CORES : Fld := ⟨0x0, 52, 8⟩
abbrev CX_CFG_FLOW : Fld := ⟨0x0, 40, 6⟩
/-- CX_QUOTA: credit quota (context record, offset 0x10). -/
abbrev CX_QUOTA : Fld := ⟨0x10, 0, 64⟩
abbrev CX_QUOTA_USE : Fld := ⟨0x10, 32, 16⟩
abbrev CX_QUOTA_QUOTA : Fld := ⟨0x10, 0, 16⟩
/-- CX_STATE: context state (context record, offset 0x18). -/
abbrev CX_STATE : Fld := ⟨0x18, 0, 64⟩
abbrev CX_STATE_CAUSE : Fld := ⟨0x18, 56, 8⟩
abbrev CX_STATE_LOCKS : Fld := ⟨0x18, 47, 9⟩
abbrev CX_STATE_ON_CORE : Fld := ⟨0x18, 35, 1⟩
abbrev CX_STATE_CORE : Fld := ⟨0x18, 32, 3⟩
abbrev CX_STATE_OVER_QUOTA : Fld := ⟨0x18, 5, 1⟩
abbrev CX_STATE_PENDING : Fld := ⟨0x18, 4, 1⟩
abbrev CX_STATE_STATE : Fld := ⟨0x18, 0, 4⟩
/-- CX_WAKE: last timed notice (context record, offset 0x20). -/
abbrev CX_WAKE : Fld := ⟨0x20, 0, 64⟩
abbrev CX_WAKE_LATE : Fld := ⟨0x20, 63, 1⟩
abbrev CX_WAKE_TAG : Fld := ⟨0x20, 32, 16⟩
abbrev CX_WAKE_LATENESS : Fld := ⟨0x20, 0, 32⟩
/-- CX_ITEM: current flow item (context record, offset 0x28). -/
abbrev CX_ITEM : Fld := ⟨0x28, 0, 64⟩
abbrev CX_ITEM_VALID : Fld := ⟨0x28, 63, 1⟩
abbrev CX_ITEM_FLOW : Fld := ⟨0x28, 32, 6⟩
abbrev CX_ITEM_SEQ : Fld := ⟨0x28, 0, 32⟩
/-- KS_STATE: scheduler status (KS page, 0x0010). -/
abbrev KS_STATE : Fld := ⟨pKS + 0x10, 0, 64⟩
abbrev KS_STATE_DL_USED : Fld := ⟨pKS + 0x10, 32, 14⟩
abbrev KS_STATE_READY : Fld := ⟨pKS + 0x10, 16, 11⟩
abbrev KS_STATE_FLOW_FULL_ANY : Fld := ⟨pKS + 0x10, 2, 1⟩
abbrev KS_STATE_DL_FULL : Fld := ⟨pKS + 0x10, 1, 1⟩
abbrev KS_STATE_OVER_QUOTA_ANY : Fld := ⟨pKS + 0x10, 0, 1⟩
/-- KS_TICK: tick period (KS page, 0x0080). -/
abbrev KS_TICK : Fld := ⟨pKS + 0x80, 0, 64⟩
abbrev KS_TICK_PERIOD : Fld := ⟨pKS + 0x80, 0, 15⟩
/-- KS_POOL: shared credits (KS page, 0x0088). -/
abbrev KS_POOL : Fld := ⟨pKS + 0x88, 0, 64⟩
abbrev KS_POOL_USE : Fld := ⟨pKS + 0x88, 32, 16⟩
abbrev KS_POOL_SIZE : Fld := ⟨pKS + 0x88, 0, 16⟩
/-- KS_CXCTL: context command (KS page, 0x0090). -/
abbrev KS_CXCTL : Fld := ⟨pKS + 0x90, 0, 64⟩
abbrev KS_CXCTL_OP : Fld := ⟨pKS + 0x90, 61, 3⟩
abbrev KS_CXCTL_CONTEXT : Fld := ⟨pKS + 0x90, 0, 10⟩
/-- KS_LOCK_CMD: lock command (KS page, 0x0098). -/
abbrev KS_LOCK_CMD : Fld := ⟨pKS + 0x98, 0, 64⟩
abbrev KS_LOCK_CMD_OP : Fld := ⟨pKS + 0x98, 62, 2⟩
abbrev KS_LOCK_CMD_OWNER : Fld := ⟨pKS + 0x98, 16, 10⟩
abbrev KS_LOCK_CMD_LOCK : Fld := ⟨pKS + 0x98, 0, 8⟩
/-- KS_LOCK_RESULT: lock result (KS page, 0x00A0). -/
abbrev KS_LOCK_RESULT : Fld := ⟨pKS + 0xa0, 0, 64⟩
abbrev KS_LOCK_RESULT_STATUS : Fld := ⟨pKS + 0xa0, 61, 3⟩
/-- KS_DL_DT: entry staging (KS page, 0x00A8, 0x00B0, 0x00B8). -/
abbrev KS_DL_DT : Fld := ⟨pKS + 0xa8, 0, 64⟩
/-- KS_DL_ARG: entry staging (KS page, 0x00A8, 0x00B0, 0x00B8). -/
abbrev KS_DL_ARG : Fld := ⟨pKS + 0xb0, 0, 64⟩
/-- KS_DL_VAL: entry staging (KS page, 0x00A8, 0x00B0, 0x00B8). -/
abbrev KS_DL_VAL : Fld := ⟨pKS + 0xb8, 0, 64⟩
/-- KS_DL_CTL: delay-list command (KS page, 0x00C0). -/
abbrev KS_DL_CTL : Fld := ⟨pKS + 0xc0, 0, 64⟩
abbrev KS_DL_CTL_OP : Fld := ⟨pKS + 0xc0, 62, 2⟩
abbrev KS_DL_CTL_KIND : Fld := ⟨pKS + 0xc0, 61, 1⟩
abbrev KS_DL_CTL_DISCARD_IF_LATE : Fld := ⟨pKS + 0xc0, 60, 1⟩
abbrev KS_DL_CTL_TAG : Fld := ⟨pKS + 0xc0, 0, 16⟩
/-- KS_DL_RESULT: delay-list result (KS page, 0x00C8). -/
abbrev KS_DL_RESULT : Fld := ⟨pKS + 0xc8, 0, 64⟩
abbrev KS_DL_RESULT_STATUS : Fld := ⟨pKS + 0xc8, 61, 3⟩
abbrev KS_DL_RESULT_CANCELLED : Fld := ⟨pKS + 0xc8, 32, 14⟩
abbrev KS_DL_RESULT_LATENESS : Fld := ⟨pKS + 0xc8, 0, 32⟩
/-- KS_POST_ARG: item argument (KS page, 0x00D0). -/
abbrev KS_POST_ARG : Fld := ⟨pKS + 0xd0, 0, 64⟩
/-- KS_FLOW_POST: post an item (KS page, 0x00D8). -/
abbrev KS_FLOW_POST : Fld := ⟨pKS + 0xd8, 0, 64⟩
abbrev KS_FLOW_POST_FLOW : Fld := ⟨pKS + 0xd8, 0, 6⟩
/-- KS_POST_RESULT: post result (KS page, 0x00E0). -/
abbrev KS_POST_RESULT : Fld := ⟨pKS + 0xe0, 0, 64⟩
abbrev KS_POST_RESULT_STATUS : Fld := ⟨pKS + 0xe0, 62, 2⟩
abbrev KS_POST_RESULT_SEQ : Fld := ⟨pKS + 0xe0, 0, 32⟩
/-- KS_LATE_LAST: last late entry (KS page, 0x00E8). -/
abbrev KS_LATE_LAST : Fld := ⟨pKS + 0xe8, 0, 64⟩
abbrev KS_LATE_LAST_TAG : Fld := ⟨pKS + 0xe8, 32, 16⟩
abbrev KS_LATE_LAST_LATENESS : Fld := ⟨pKS + 0xe8, 0, 32⟩
/-- KS_FLOWCTL: flow enable (KS page, 0x00F0). -/
abbrev KS_FLOWCTL : Fld := ⟨pKS + 0xf0, 0, 64⟩
abbrev KS_FLOWCTL_OP : Fld := ⟨pKS + 0xf0, 62, 2⟩
abbrev KS_FLOWCTL_FLOW : Fld := ⟨pKS + 0xf0, 0, 6⟩
/-- KS_SNAP: totals snapshot trigger (KS page, 0x0100). -/
abbrev KS_SNAP : Fld := ⟨pKS + 0x100, 0, 64⟩
abbrev KS_SNAP_TAKE : Fld := ⟨pKS + 0x100, 0, 1⟩
/-- KS_SNAP_TICKS: totals (KS page, 0x0108, 0x0110, 0x0118, 0x0120, 0x0128). -/
abbrev KS_SNAP_TICKS : Fld := ⟨pKS + 0x108, 0, 64⟩
/-- KS_SNAP_LATE: totals (KS page, 0x0108, 0x0110, 0x0118, 0x0120, 0x0128). -/
abbrev KS_SNAP_LATE : Fld := ⟨pKS + 0x110, 0, 64⟩
/-- KS_SNAP_DISCARDED: totals (KS page, 0x0108, 0x0110, 0x0118, 0x0120, 0x0128). -/
abbrev KS_SNAP_DISCARDED : Fld := ⟨pKS + 0x118, 0, 64⟩
/-- KS_SNAP_NOTICES_LOST: totals (KS page, 0x0108, 0x0110, 0x0118, 0x0120, 0x0128). -/
abbrev KS_SNAP_NOTICES_LOST : Fld := ⟨pKS + 0x120, 0, 64⟩
/-- KS_SNAP_PREEMPT: totals (KS page, 0x0108, 0x0110, 0x0118, 0x0120, 0x0128). -/
abbrev KS_SNAP_PREEMPT : Fld := ⟨pKS + 0x128, 0, 64⟩
/-- KS_SNAP_DT: snapshot time (KS page, 0x0130). -/
abbrev KS_SNAP_DT : Fld := ⟨pKS + 0x130, 0, 64⟩
/-- KS_LOCK: lock state (KS page, 0x0800 + 8 × n, n = 0–255). -/
abbrev KS_LOCK (n : Nat) : Fld := ⟨pKS + 0x800 + 8 * n, 0, 64⟩
abbrev KS_LOCK_HELD (n : Nat) : Fld := ⟨pKS + 0x800 + 8 * n, 63, 1⟩
abbrev KS_LOCK_ABANDONED (n : Nat) : Fld := ⟨pKS + 0x800 + 8 * n, 62, 1⟩
abbrev KS_LOCK_WAITERS (n : Nat) : Fld := ⟨pKS + 0x800 + 8 * n, 48, 11⟩
abbrev KS_LOCK_OWNER (n : Nat) : Fld := ⟨pKS + 0x800 + 8 * n, 0, 10⟩
/-- XU_STATE: translation status (XU page, 0x0010). -/
abbrev XU_STATE : Fld := ⟨pXU + 0x10, 0, 64⟩
abbrev XU_STATE_INVALIDATING : Fld := ⟨pXU + 0x10, 0, 1⟩
/-- XU_ROOT: level-0 table (XU page, 0x0080). -/
abbrev XU_ROOT : Fld := ⟨pXU + 0x80, 0, 64⟩
/-- XU_HOSTWIN: host window (XU page, 0x0088). -/
abbrev XU_HOSTWIN : Fld := ⟨pXU + 0x88, 0, 64⟩
abbrev XU_HOSTWIN_BASE : Fld := ⟨pXU + 0x88, 12, 52⟩
/-- XU_INVAL: invalidation (XU page, 0x0090). -/
abbrev XU_INVAL : Fld := ⟨pXU + 0x90, 0, 64⟩
abbrev XU_INVAL_OP : Fld := ⟨pXU + 0x90, 62, 2⟩
abbrev XU_INVAL_ADDR : Fld := ⟨pXU + 0x90, 12, 36⟩
abbrev XU_INVAL_PAGES : Fld := ⟨pXU + 0x90, 0, 12⟩
/-- XU_FAULT_ADDR: last fault (XU page, 0x0098, 0x00A0). -/
abbrev XU_FAULT_ADDR : Fld := ⟨pXU + 0x98, 0, 64⟩
/-- XU_FAULT_INFO: last fault (XU page, 0x0098, 0x00A0). -/
abbrev XU_FAULT_INFO : Fld := ⟨pXU + 0xa0, 0, 64⟩
abbrev XU_FAULT_INFO_MASTER : Fld := ⟨pXU + 0xa0, 48, 16⟩
abbrev XU_FAULT_INFO_LEVEL : Fld := ⟨pXU + 0xa0, 8, 2⟩
abbrev XU_FAULT_INFO_KIND : Fld := ⟨pXU + 0xa0, 0, 8⟩
/-- DMA_STATE: DMA status (DMA page, 0x0010). -/
abbrev DMA_STATE : Fld := ⟨pDMA + 0x10, 0, 64⟩
abbrev DMA_STATE_HALTED : Fld := ⟨pDMA + 0x10, 16, 16⟩
abbrev DMA_STATE_SUSPENDED : Fld := ⟨pDMA + 0x10, 0, 16⟩
/-- DM_CFG: engine configuration (DMA page, 0x0100 + 0x80 × n). -/
abbrev DM_CFG (n : Nat) : Fld := ⟨pDMA + 0x100 + 0x80 * n, 0, 64⟩
abbrev DM_CFG_CONTEXT (n : Nat) : Fld := ⟨pDMA + 0x100 + 0x80 * n, 48, 10⟩
abbrev DM_CFG_SIZE_LOG2_1 (n : Nat) : Fld := ⟨pDMA + 0x100 + 0x80 * n, 4, 4⟩
abbrev DM_CFG_SIZE_LOG2_0 (n : Nat) : Fld := ⟨pDMA + 0x100 + 0x80 * n, 0, 4⟩
/-- DM_BASE0: rings (DMA page, 0x0108, 0x0110, 0x0118, 0x0120 + 0x80 × n). -/
abbrev DM_BASE0 (n : Nat) : Fld := ⟨pDMA + 0x108 + 0x80 * n, 0, 64⟩
/-- DM_BASE1: rings (DMA page, 0x0108, 0x0110, 0x0118, 0x0120 + 0x80 × n). -/
abbrev DM_BASE1 (n : Nat) : Fld := ⟨pDMA + 0x110 + 0x80 * n, 0, 64⟩
/-- DM_WR0: rings (DMA page, 0x0108, 0x0110, 0x0118, 0x0120 + 0x80 × n). -/
abbrev DM_WR0 (n : Nat) : Fld := ⟨pDMA + 0x118 + 0x80 * n, 0, 64⟩
/-- DM_WR1: rings (DMA page, 0x0108, 0x0110, 0x0118, 0x0120 + 0x80 × n). -/
abbrev DM_WR1 (n : Nat) : Fld := ⟨pDMA + 0x120 + 0x80 * n, 0, 64⟩
/-- DM_RD: descriptors completed (DMA page, 0x0128 + 0x80 × n). -/
abbrev DM_RD (n : Nat) : Fld := ⟨pDMA + 0x128 + 0x80 * n, 0, 64⟩
abbrev DM_RD_RD1 (n : Nat) : Fld := ⟨pDMA + 0x128 + 0x80 * n, 32, 32⟩
abbrev DM_RD_RD0 (n : Nat) : Fld := ⟨pDMA + 0x128 + 0x80 * n, 0, 32⟩
/-- DM_CTL: ring command (DMA page, 0x0130 + 0x80 × n). -/
abbrev DM_CTL (n : Nat) : Fld := ⟨pDMA + 0x130 + 0x80 * n, 0, 64⟩
abbrev DM_CTL_OP (n : Nat) : Fld := ⟨pDMA + 0x130 + 0x80 * n, 61, 3⟩
abbrev DM_CTL_RING (n : Nat) : Fld := ⟨pDMA + 0x130 + 0x80 * n, 60, 1⟩
/-- DM_STATE: ring states (DMA page, 0x0138 + 0x80 × n). -/
abbrev DM_STATE (n : Nat) : Fld := ⟨pDMA + 0x138 + 0x80 * n, 0, 64⟩
abbrev DM_STATE_HELD1 (n : Nat) : Fld := ⟨pDMA + 0x138 + 0x80 * n, 32, 10⟩
abbrev DM_STATE_HELD0 (n : Nat) : Fld := ⟨pDMA + 0x138 + 0x80 * n, 16, 10⟩
abbrev DM_STATE_FAULT_RING (n : Nat) : Fld := ⟨pDMA + 0x138 + 0x80 * n, 6, 1⟩
abbrev DM_STATE_STATE1 (n : Nat) : Fld := ⟨pDMA + 0x138 + 0x80 * n, 3, 3⟩
abbrev DM_STATE_STATE0 (n : Nat) : Fld := ⟨pDMA + 0x138 + 0x80 * n, 0, 3⟩
/-- DM_FAULT: fault and progress (DMA page, 0x0140, 0x0148, 0x0150 + 0x80 × n). -/
abbrev DM_FAULT (n : Nat) : Fld := ⟨pDMA + 0x140 + 0x80 * n, 0, 64⟩
/-- DM_PROGRESS0: fault and progress (DMA page, 0x0140, 0x0148, 0x0150 + 0x80 × n). -/
abbrev DM_PROGRESS0 (n : Nat) : Fld := ⟨pDMA + 0x148 + 0x80 * n, 0, 64⟩
abbrev DM_PROGRESS0_INDEX (n : Nat) : Fld := ⟨pDMA + 0x148 + 0x80 * n, 32, 32⟩
abbrev DM_PROGRESS0_BYTES (n : Nat) : Fld := ⟨pDMA + 0x148 + 0x80 * n, 0, 32⟩
/-- DM_PROGRESS1: fault and progress (DMA page, 0x0140, 0x0148, 0x0150 + 0x80 × n). -/
abbrev DM_PROGRESS1 (n : Nat) : Fld := ⟨pDMA + 0x150 + 0x80 * n, 0, 64⟩
abbrev DM_PROGRESS1_INDEX (n : Nat) : Fld := ⟨pDMA + 0x150 + 0x80 * n, 32, 32⟩
abbrev DM_PROGRESS1_BYTES (n : Nat) : Fld := ⟨pDMA + 0x150 + 0x80 * n, 0, 32⟩
/-- QP_STATE: queue status (queue page, 0x0010). -/
abbrev QP_STATE : Fld := ⟨pQ + 0x10, 0, 64⟩
/-- Q_CTL: queue enable (queue page, 0x0080). -/
abbrev Q_CTL : Fld := ⟨pQ + 0x80, 0, 64⟩
abbrev Q_CTL_OP : Fld := ⟨pQ + 0x80, 62, 2⟩
abbrev Q_CTL_QUEUE : Fld := ⟨pQ + 0x80, 0, 6⟩
/-- Q_POPSTAT: last pop (queue page, 0x0088). -/
abbrev Q_POPSTAT : Fld := ⟨pQ + 0x88, 0, 64⟩
abbrev Q_POPSTAT_VALID : Fld := ⟨pQ + 0x88, 63, 1⟩
abbrev Q_POPSTAT_LAST : Fld := ⟨pQ + 0x88, 62, 1⟩
abbrev Q_POPSTAT_TIMED_OUT : Fld := ⟨pQ + 0x88, 61, 1⟩
abbrev Q_POPSTAT_QUEUE : Fld := ⟨pQ + 0x88, 0, 6⟩
/-- Q_PUSH: data (queue page, 0x0800 and 0x0808 + 0x20 × q). -/
abbrev Q_PUSH (n : Nat) : Fld := ⟨pQ + 0x800 + 0x20 * n, 0, 64⟩
/-- Q_POP: data (queue page, 0x0800 and 0x0808 + 0x20 × q). -/
abbrev Q_POP (n : Nat) : Fld := ⟨pQ + 0x808 + 0x20 * n, 0, 64⟩
/-- Q_CMD: queue command (queue page, 0x0810 + 0x20 × q). -/
abbrev Q_CMD (n : Nat) : Fld := ⟨pQ + 0x810 + 0x20 * n, 0, 64⟩
abbrev Q_CMD_OP (n : Nat) : Fld := ⟨pQ + 0x810 + 0x20 * n, 61, 3⟩
abbrev Q_CMD_FORCE (n : Nat) : Fld := ⟨pQ + 0x810 + 0x20 * n, 60, 1⟩
/-- Q_STATE: queue state (queue page, 0x0818 + 0x20 × q). -/
abbrev Q_STATE (n : Nat) : Fld := ⟨pQ + 0x818 + 0x20 * n, 0, 64⟩
abbrev Q_STATE_ON (n : Nat) : Fld := ⟨pQ + 0x818 + 0x20 * n, 63, 1⟩
abbrev Q_STATE_OPEN (n : Nat) : Fld := ⟨pQ + 0x818 + 0x20 * n, 62, 1⟩
abbrev Q_STATE_BROKEN (n : Nat) : Fld := ⟨pQ + 0x818 + 0x20 * n, 61, 1⟩
abbrev Q_STATE_FREE (n : Nat) : Fld := ⟨pQ + 0x818 + 0x20 * n, 32, 19⟩
abbrev Q_STATE_READABLE (n : Nat) : Fld := ⟨pQ + 0x818 + 0x20 * n, 0, 19⟩
/-- MEM_STATE: memory status (memory page, 0x0010). -/
abbrev MEM_STATE : Fld := ⟨pMEM + 0x10, 0, 64⟩
abbrev MEM_STATE_POISON_LOGGED : Fld := ⟨pMEM + 0x10, 2, 1⟩
abbrev MEM_STATE_SCRUB_DRAM : Fld := ⟨pMEM + 0x10, 1, 1⟩
abbrev MEM_STATE_SCRUB_SRAM : Fld := ⟨pMEM + 0x10, 0, 1⟩
/-- MEM_SCRUB: scrub periods (memory page, 0x0080). -/
abbrev MEM_SCRUB : Fld := ⟨pMEM + 0x80, 0, 64⟩
abbrev MEM_SCRUB_DRAM_H : Fld := ⟨pMEM + 0x80, 32, 8⟩
abbrev MEM_SCRUB_SRAM_S : Fld := ⟨pMEM + 0x80, 0, 16⟩
/-- MEM_SNAP: count snapshot trigger (memory page, 0x0088). -/
abbrev MEM_SNAP : Fld := ⟨pMEM + 0x88, 0, 64⟩
abbrev MEM_SNAP_TAKE : Fld := ⟨pMEM + 0x88, 0, 1⟩
/-- MEM_SNAP_CE_SRAM: error totals (memory page, 0x0090, 0x0098, 0x00A0, 0x00A8). -/
abbrev MEM_SNAP_CE_SRAM : Fld := ⟨pMEM + 0x90, 0, 64⟩
/-- MEM_SNAP_UE_SRAM: error totals (memory page, 0x0090, 0x0098, 0x00A0, 0x00A8). -/
abbrev MEM_SNAP_UE_SRAM : Fld := ⟨pMEM + 0x98, 0, 64⟩
/-- MEM_SNAP_CE_DRAM: error totals (memory page, 0x0090, 0x0098, 0x00A0, 0x00A8). -/
abbrev MEM_SNAP_CE_DRAM : Fld := ⟨pMEM + 0xa0, 0, 64⟩
/-- MEM_SNAP_UE_DRAM: error totals (memory page, 0x0090, 0x0098, 0x00A0, 0x00A8). -/
abbrev MEM_SNAP_UE_DRAM : Fld := ⟨pMEM + 0xa8, 0, 64⟩
/-- MEM_POISON: poisoned words (memory page, 0x0100 + 8 × k, k = 0–15). -/
abbrev MEM_POISON (n : Nat) : Fld := ⟨pMEM + 0x100 + 8 * n, 0, 64⟩
abbrev MEM_POISON_VALID (n : Nat) : Fld := ⟨pMEM + 0x100 + 8 * n, 63, 1⟩
abbrev MEM_POISON_ADDR (n : Nat) : Fld := ⟨pMEM + 0x100 + 8 * n, 0, 48⟩
/-- PW_STATE: twin status (PW page, 0x0010). -/
abbrev PW_STATE : Fld := ⟨pPW + 0x10, 0, 64⟩
abbrev PW_STATE_LANES : Fld := ⟨pPW + 0x10, 36, 4⟩
abbrev PW_STATE_ROLE : Fld := ⟨pPW + 0x10, 29, 3⟩
abbrev PW_STATE_CMP_FAULTY : Fld := ⟨pPW + 0x10, 7, 1⟩
abbrev PW_STATE_ISOLATED : Fld := ⟨pPW + 0x10, 6, 1⟩
abbrev PW_STATE_RECOVERING : Fld := ⟨pPW + 0x10, 5, 1⟩
abbrev PW_STATE_LANE_LOST : Fld := ⟨pPW + 0x10, 4, 1⟩
abbrev PW_STATE_PROT_RESOLVING : Fld := ⟨pPW + 0x10, 3, 1⟩
abbrev PW_STATE_PARTNER_READY : Fld := ⟨pPW + 0x10, 2, 1⟩
abbrev PW_STATE_COPY_CURRENT : Fld := ⟨pPW + 0x10, 1, 1⟩
abbrev PW_STATE_LINK_UP : Fld := ⟨pPW + 0x10, 0, 1⟩
/-- TW_CFG: twin configuration (PW page, 0x0080). -/
abbrev TW_CFG : Fld := ⟨pPW + 0x80, 0, 64⟩
abbrev TW_CFG_CMP_LIMIT : Fld := ⟨pPW + 0x80, 24, 8⟩
abbrev TW_CFG_MIN_ENGINES : Fld := ⟨pPW + 0x80, 16, 5⟩
abbrev TW_CFG_CMP_ACTION : Fld := ⟨pPW + 0x80, 2, 1⟩
abbrev TW_CFG_TWIN_ID : Fld := ⟨pPW + 0x80, 1, 1⟩
abbrev TW_CFG_MODE : Fld := ⟨pPW + 0x80, 0, 1⟩
/-- TW_ROLE: role command (PW page, 0x0088). -/
abbrev TW_ROLE : Fld := ⟨pPW + 0x88, 0, 64⟩
abbrev TW_ROLE_OP : Fld := ⟨pPW + 0x88, 0, 2⟩
/-- TW_PEER: partner identity (PW page, 0x0090). -/
abbrev TW_PEER : Fld := ⟨pPW + 0x90, 0, 64⟩
abbrev TW_PEER_SERIAL : Fld := ⟨pPW + 0x90, 32, 32⟩
abbrev TW_PEER_REVISION : Fld := ⟨pPW + 0x90, 16, 16⟩
abbrev TW_PEER_ROLE : Fld := ⟨pPW + 0x90, 5, 3⟩
abbrev TW_PEER_TWIN_ID : Fld := ⟨pPW + 0x90, 0, 1⟩
/-- TW_DTMAP: time mapping (PW page, 0x0098, 0x00A0). -/
abbrev TW_DTMAP : Fld := ⟨pPW + 0x98, 0, 64⟩
/-- TW_DTRATE: time mapping (PW page, 0x0098, 0x00A0). -/
abbrev TW_DTRATE : Fld := ⟨pPW + 0xa0, 0, 64⟩
abbrev TW_DTRATE_RATE : Fld := ⟨pPW + 0xa0, 0, 32⟩
/-- TW_FAULT: first core fault (PW page, 0x00A8, 0x00B0). -/
abbrev TW_FAULT : Fld := ⟨pPW + 0xa8, 0, 64⟩
abbrev TW_FAULT_CAUSE : Fld := ⟨pPW + 0xa8, 56, 8⟩
abbrev TW_FAULT_PARTNER : Fld := ⟨pPW + 0xa8, 55, 1⟩
abbrev TW_FAULT_CYCLE : Fld := ⟨pPW + 0xa8, 0, 32⟩
/-- TW_FAULT_DT: first core fault (PW page, 0x00A8, 0x00B0). -/
abbrev TW_FAULT_DT : Fld := ⟨pPW + 0xb0, 0, 64⟩
/-- TW_CMP: last mismatch (PW page, 0x00B8). -/
abbrev TW_CMP : Fld := ⟨pPW + 0xb8, 0, 64⟩
abbrev TW_CMP_CYCLE : Fld := ⟨pPW + 0xb8, 32, 32⟩
abbrev TW_CMP_RUN : Fld := ⟨pPW + 0xb8, 24, 8⟩
abbrev TW_CMP_AXIS : Fld := ⟨pPW + 0xb8, 0, 9⟩
/-- TW_SNAP: totals snapshot trigger (PW page, 0x00C0). -/
abbrev TW_SNAP : Fld := ⟨pPW + 0xc0, 0, 64⟩
abbrev TW_SNAP_TAKE : Fld := ⟨pPW + 0xc0, 0, 1⟩
/-- TW_SNAP_COPIES: totals (PW page, 0x00C8, 0x00D0, 0x00D8, 0x00E0, 0x00E8). -/
abbrev TW_SNAP_COPIES : Fld := ⟨pPW + 0xc8, 0, 64⟩
/-- TW_SNAP_MISSED: totals (PW page, 0x00C8, 0x00D0, 0x00D8, 0x00E0, 0x00E8). -/
abbrev TW_SNAP_MISSED : Fld := ⟨pPW + 0xd0, 0, 64⟩
/-- TW_SNAP_COMPARES: totals (PW page, 0x00C8, 0x00D0, 0x00D8, 0x00E0, 0x00E8). -/
abbrev TW_SNAP_COMPARES : Fld := ⟨pPW + 0xd8, 0, 64⟩
/-- TW_SNAP_MISMATCHES: totals (PW page, 0x00C8, 0x00D0, 0x00D8, 0x00E0, 0x00E8). -/
abbrev TW_SNAP_MISMATCHES : Fld := ⟨pPW + 0xe0, 0, 64⟩
/-- TW_SNAP_SWITCHES: totals (PW page, 0x00C8, 0x00D0, 0x00D8, 0x00E0, 0x00E8). -/
abbrev TW_SNAP_SWITCHES : Fld := ⟨pPW + 0xe8, 0, 64⟩
/-- FS_STATE: feed status (FS page, 0x0010). -/
abbrev FS_STATE : Fld := ⟨pFS + 0x10, 0, 64⟩
abbrev FS_STATE_OVERTEMP : Fld := ⟨pFS + 0x10, 11, 1⟩
abbrev FS_STATE_REG_FAULT : Fld := ⟨pFS + 0x10, 10, 1⟩
abbrev FS_STATE_POWER_FAIL : Fld := ⟨pFS + 0x10, 9, 1⟩
abbrev FS_STATE_ONE_FEED : Fld := ⟨pFS + 0x10, 8, 1⟩
abbrev FS_STATE_FEED_B : Fld := ⟨pFS + 0x10, 2, 2⟩
abbrev FS_STATE_FEED_A : Fld := ⟨pFS + 0x10, 0, 2⟩
/-- FS_FEED_DIS: feed disable (FS page, 0x0080). -/
abbrev FS_FEED_DIS : Fld := ⟨pFS + 0x80, 0, 64⟩
abbrev FS_FEED_DIS_DIS_B : Fld := ⟨pFS + 0x80, 1, 1⟩
abbrev FS_FEED_DIS_DIS_A : Fld := ⟨pFS + 0x80, 0, 1⟩
/-- FS_MEAS_A: feed measurements (FS page, 0x0088, 0x0098). -/
abbrev FS_MEAS_A : Fld := ⟨pFS + 0x88, 0, 64⟩
abbrev FS_MEAS_A_VOLTS : Fld := ⟨pFS + 0x88, 16, 16⟩
abbrev FS_MEAS_A_CURRENT : Fld := ⟨pFS + 0x88, 0, 16⟩
/-- FS_MEAS_B: feed measurements (FS page, 0x0088, 0x0098). -/
abbrev FS_MEAS_B : Fld := ⟨pFS + 0x98, 0, 64⟩
abbrev FS_MEAS_B_VOLTS : Fld := ⟨pFS + 0x98, 16, 16⟩
abbrev FS_MEAS_B_CURRENT : Fld := ⟨pFS + 0x98, 0, 16⟩
/-- FS_MEAS_A_DT: refresh times (FS page, 0x0090, 0x00A0). -/
abbrev FS_MEAS_A_DT : Fld := ⟨pFS + 0x90, 0, 64⟩
/-- FS_MEAS_B_DT: refresh times (FS page, 0x0090, 0x00A0). -/
abbrev FS_MEAS_B_DT : Fld := ⟨pFS + 0xa0, 0, 64⟩
/-- FS_AUX: hold-up and temperature (FS page, 0x00A8). -/
abbrev FS_AUX : Fld := ⟨pFS + 0xa8, 0, 64⟩
abbrev FS_AUX_HOLDUP : Fld := ⟨pFS + 0xa8, 32, 16⟩
abbrev FS_AUX_TJ : Fld := ⟨pFS + 0xa8, 0, 16⟩
/-- FS_AUX_DT: refresh time (FS page, 0x00B0). -/
abbrev FS_AUX_DT : Fld := ⟨pFS + 0xb0, 0, 64⟩
/-- EH_STATE: hub status (EH page, 0x0010). -/
abbrev EH_STATE : Fld := ⟨pEH + 0x10, 0, 64⟩
abbrev EH_STATE_LOSING : Fld := ⟨pEH + 0x10, 16, 16⟩
abbrev EH_STATE_NONEMPTY : Fld := ⟨pEH + 0x10, 0, 16⟩
/-- EH_QCFG: queue configuration (EH page, 0x0100 + 0x40 × q). -/
abbrev EH_QCFG (n : Nat) : Fld := ⟨pEH + 0x100 + 0x40 * n, 0, 64⟩
abbrev EH_QCFG_EN (n : Nat) : Fld := ⟨pEH + 0x100 + 0x40 * n, 63, 1⟩
abbrev EH_QCFG_CTX_EN (n : Nat) : Fld := ⟨pEH + 0x100 + 0x40 * n, 62, 1⟩
abbrev EH_QCFG_CTX (n : Nat) : Fld := ⟨pEH + 0x100 + 0x40 * n, 48, 10⟩
abbrev EH_QCFG_VECTOR (n : Nat) : Fld := ⟨pEH + 0x100 + 0x40 * n, 40, 6⟩
abbrev EH_QCFG_SIZE_LOG2 (n : Nat) : Fld := ⟨pEH + 0x100 + 0x40 * n, 32, 4⟩
abbrev EH_QCFG_WINDOW (n : Nat) : Fld := ⟨pEH + 0x100 + 0x40 * n, 0, 14⟩
/-- EH_QBASE: ring (EH page, 0x0108, 0x0110, 0x0118 + 0x40 × q). -/
abbrev EH_QBASE (n : Nat) : Fld := ⟨pEH + 0x108 + 0x40 * n, 0, 64⟩
abbrev EH_QBASE_COUNT (n : Nat) : Fld := ⟨pEH + 0x108 + 0x40 * n, 0, 32⟩
/-- EH_QWR: ring (EH page, 0x0108, 0x0110, 0x0118 + 0x40 × q). -/
abbrev EH_QWR (n : Nat) : Fld := ⟨pEH + 0x110 + 0x40 * n, 0, 64⟩
abbrev EH_QWR_COUNT (n : Nat) : Fld := ⟨pEH + 0x110 + 0x40 * n, 0, 32⟩
/-- EH_QRD: ring (EH page, 0x0108, 0x0110, 0x0118 + 0x40 × q). -/
abbrev EH_QRD (n : Nat) : Fld := ⟨pEH + 0x118 + 0x40 * n, 0, 64⟩
abbrev EH_QRD_COUNT (n : Nat) : Fld := ⟨pEH + 0x118 + 0x40 * n, 0, 32⟩
/-- EH_QSTATE: queue state (EH page, 0x0120 + 0x40 × q). -/
abbrev EH_QSTATE (n : Nat) : Fld := ⟨pEH + 0x120 + 0x40 * n, 0, 64⟩
abbrev EH_QSTATE_ARMED (n : Nat) : Fld := ⟨pEH + 0x120 + 0x40 * n, 63, 1⟩
abbrev EH_QSTATE_OPEN_GROUPS (n : Nat) : Fld := ⟨pEH + 0x120 + 0x40 * n, 56, 4⟩
abbrev EH_QSTATE_LOST (n : Nat) : Fld := ⟨pEH + 0x120 + 0x40 * n, 0, 32⟩
/-- BOOT_SEL: boot image select (boot page, 0x0080). -/
abbrev BOOT_SEL : Fld := ⟨pBoot + 0x80, 0, 64⟩
abbrev BOOT_SEL_IMAGE : Fld := ⟨pBoot + 0x80, 0, 1⟩
/-- BOOT_STATUS: boot result (boot page, 0x0088). -/
abbrev BOOT_STATUS : Fld := ⟨pBoot + 0x88, 0, 64⟩
abbrev BOOT_STATUS_VERSION : Fld := ⟨pBoot + 0x88, 32, 32⟩
abbrev BOOT_STATUS_REASON : Fld := ⟨pBoot + 0x88, 16, 16⟩
abbrev BOOT_STATUS_ENTRY : Fld := ⟨pBoot + 0x88, 4, 12⟩
abbrev BOOT_STATUS_CFG_COPY : Fld := ⟨pBoot + 0x88, 3, 1⟩
abbrev BOOT_STATUS_CFG_STOPPED : Fld := ⟨pBoot + 0x88, 2, 1⟩
abbrev BOOT_STATUS_FALLBACK : Fld := ⟨pBoot + 0x88, 1, 1⟩
abbrev BOOT_STATUS_RUNNING : Fld := ⟨pBoot + 0x88, 0, 1⟩
/-- TRC_CFG: trace configuration (TRC page, 0x0080). -/
abbrev TRC_CFG : Fld := ⟨pTRC + 0x80, 0, 64⟩
abbrev TRC_CFG_CORES : Fld := ⟨pTRC + 0x80, 56, 8⟩
abbrev TRC_CFG_SIZE_LOG2 : Fld := ⟨pTRC + 0x80, 32, 5⟩
abbrev TRC_CFG_SYNC_EVERY : Fld := ⟨pTRC + 0x80, 0, 16⟩
/-- TRC_BASE: trace ring (TRC page, 0x0088, 0x0090, 0x0098). -/
abbrev TRC_BASE : Fld := ⟨pTRC + 0x88, 0, 64⟩
/-- TRC_WR: trace ring (TRC page, 0x0088, 0x0090, 0x0098). -/
abbrev TRC_WR : Fld := ⟨pTRC + 0x90, 0, 64⟩
abbrev TRC_WR_COUNT : Fld := ⟨pTRC + 0x90, 0, 32⟩
/-- TRC_RD: trace ring (TRC page, 0x0088, 0x0090, 0x0098). -/
abbrev TRC_RD : Fld := ⟨pTRC + 0x98, 0, 64⟩
abbrev TRC_RD_COUNT : Fld := ⟨pTRC + 0x98, 0, 32⟩
/-- HE_LINKCFG: port configuration (HEn page, 0x0080). -/
abbrev HE_LINKCFG (p : Nat) : Fld := ⟨pHE p + 0x80, 0, 64⟩
abbrev HE_LINKCFG_MODE (p : Nat) : Fld := ⟨pHE p + 0x80, 48, 1⟩
abbrev HE_LINKCFG_MAC (p : Nat) : Fld := ⟨pHE p + 0x80, 0, 48⟩
/-- HE_IP: port IPv4 address (HEn page, 0x0088). -/
abbrev HE_IP (p : Nat) : Fld := ⟨pHE p + 0x88, 0, 64⟩
abbrev HE_IP_IP (p : Nat) : Fld := ⟨pHE p + 0x88, 0, 32⟩
/-- HE_RACFG: register access (HEn page, 0x0090). -/
abbrev HE_RACFG (p : Nat) : Fld := ⟨pHE p + 0x90, 0, 64⟩
abbrev HE_RACFG_EN (p : Nat) : Fld := ⟨pHE p + 0x90, 16, 1⟩
abbrev HE_RACFG_PORT (p : Nat) : Fld := ⟨pHE p + 0x90, 0, 16⟩
/-- CHIP_STATE: chip status (chip page, 0x0010). -/
abbrev CHIP_STATE : Fld := ⟨pChip + 0x10, 0, 64⟩
abbrev CHIP_STATE_CORE_POWER : Fld := ⟨pChip + 0x10, 0, 1⟩
/-- CHIP_ID: die identity (chip page, 0x0080). -/
abbrev CHIP_ID : Fld := ⟨pChip + 0x80, 0, 64⟩
abbrev CHIP_ID_IDCODE : Fld := ⟨pChip + 0x80, 32, 32⟩
abbrev CHIP_ID_DIE_REV : Fld := ⟨pChip + 0x80, 24, 8⟩
/-- CHIP_SERIAL: module serial number (chip page, 0x0088). -/
abbrev CHIP_SERIAL : Fld := ⟨pChip + 0x88, 0, 64⟩
abbrev CHIP_SERIAL_SERIAL : Fld := ⟨pChip + 0x88, 0, 32⟩
/-- CHIP_GRADE: ordering code (chip page, 0x0090). -/
abbrev CHIP_GRADE : Fld := ⟨pChip + 0x90, 0, 64⟩
abbrev CHIP_GRADE_CASE_MAX : Fld := ⟨pChip + 0x90, 8, 8⟩
abbrev CHIP_GRADE_GRADE : Fld := ⟨pChip + 0x90, 0, 8⟩
/-- HP_STATE: endpoint status (HP page, 0x0010). -/
abbrev HP_STATE : Fld := ⟨pHP + 0x10, 0, 64⟩
abbrev HP_STATE_D3HOT : Fld := ⟨pHP + 0x10, 2, 1⟩
abbrev HP_STATE_BUS_MASTER : Fld := ⟨pHP + 0x10, 1, 1⟩
abbrev HP_STATE_LINK_UP : Fld := ⟨pHP + 0x10, 0, 1⟩
/-- HP_LINK: negotiated link (HP page, 0x0080). -/
abbrev HP_LINK : Fld := ⟨pHP + 0x80, 0, 64⟩
abbrev HP_LINK_WIDTH : Fld := ⟨pHP + 0x80, 8, 8⟩
abbrev HP_LINK_SPEED : Fld := ⟨pHP + 0x80, 0, 8⟩
/-- MP_STATE: management status (MP page, 0x0010). -/
abbrev MP_STATE : Fld := ⟨pMP + 0x10, 0, 64⟩
abbrev MP_STATE_CORE_REACH : Fld := ⟨pMP + 0x10, 0, 1⟩
/-- MP_ADDR: target address (MP page, 0x0080). -/
abbrev MP_ADDR : Fld := ⟨pMP + 0x80, 0, 64⟩
abbrev MP_ADDR_ADDRESS : Fld := ⟨pMP + 0x80, 0, 7⟩
/-- HK_STATE: start status (HK page, 0x0010). -/
abbrev HK_STATE : Fld := ⟨pHK + 0x10, 0, 64⟩
abbrev HK_STATE_MINIMAL : Fld := ⟨pHK + 0x10, 3, 1⟩
abbrev HK_STATE_PARTIAL : Fld := ⟨pHK + 0x10, 2, 1⟩
abbrev HK_STATE_STARTED : Fld := ⟨pHK + 0x10, 1, 1⟩
abbrev HK_STATE_STARTING : Fld := ⟨pHK + 0x10, 0, 1⟩
/-- HK_START: automatic start (HK page, 0x0080). -/
abbrev HK_START : Fld := ⟨pHK + 0x80, 0, 64⟩
abbrev HK_START_AUTO : Fld := ⟨pHK + 0x80, 63, 1⟩
abbrev HK_START_PARTIAL : Fld := ⟨pHK + 0x80, 62, 1⟩
abbrev HK_START_PAIR_WAIT : Fld := ⟨pHK + 0x80, 48, 8⟩
abbrev HK_START_SEGMENTS : Fld := ⟨pHK + 0x80, 40, 8⟩
abbrev HK_START_PORT_WAIT : Fld := ⟨pHK + 0x80, 16, 16⟩
abbrev HK_START_SETTLE_WAIT : Fld := ⟨pHK + 0x80, 0, 16⟩
/-- HK_START_STATE: stage progress (HK page, 0x0088). -/
abbrev HK_START_STATE : Fld := ⟨pHK + 0x88, 0, 64⟩
abbrev HK_START_STATE_STAGE : Fld := ⟨pHK + 0x88, 56, 8⟩
abbrev HK_START_STATE_FAILED_STAGE : Fld := ⟨pHK + 0x88, 48, 8⟩
abbrev HK_START_STATE_SKIPPED : Fld := ⟨pHK + 0x88, 40, 8⟩
abbrev HK_START_STATE_REASON : Fld := ⟨pHK + 0x88, 16, 16⟩
abbrev HK_START_STATE_ITEM : Fld := ⟨pHK + 0x88, 0, 16⟩
/-- HK_FAILCNT: failed-start count (HK page, 0x0090). -/
abbrev HK_FAILCNT : Fld := ⟨pHK + 0x90, 0, 64⟩
abbrev HK_FAILCNT_TOTAL : Fld := ⟨pHK + 0x90, 16, 16⟩
abbrev HK_FAILCNT_COUNT : Fld := ⟨pHK + 0x90, 0, 2⟩
/-- HK_FAILLOG: failed starts (HK page, 0x0098 + 8 × k, k = 0–2). -/
abbrev HK_FAILLOG (n : Nat) : Fld := ⟨pHK + 0x98 + 8 * n, 0, 64⟩
abbrev HK_FAILLOG_CAUSE (n : Nat) : Fld := ⟨pHK + 0x98 + 8 * n, 56, 8⟩
abbrev HK_FAILLOG_STAGE (n : Nat) : Fld := ⟨pHK + 0x98 + 8 * n, 48, 8⟩
abbrev HK_FAILLOG_IMAGE (n : Nat) : Fld := ⟨pHK + 0x98 + 8 * n, 47, 1⟩
abbrev HK_FAILLOG_REASON (n : Nat) : Fld := ⟨pHK + 0x98 + 8 * n, 16, 16⟩
abbrev HK_FAILLOG_ITEM (n : Nat) : Fld := ⟨pHK + 0x98 + 8 * n, 0, 16⟩
/-- HK_RESTART: restart (HK page, 0x00B0). -/
abbrev HK_RESTART : Fld := ⟨pHK + 0xb0, 0, 64⟩
abbrev HK_RESTART_OP : Fld := ⟨pHK + 0xb0, 0, 2⟩
/-- HK_AXMAP: axes to start (HK page, 0x0100 + 8 × n, n = 0–7). -/
abbrev HK_AXMAP (n : Nat) : Fld := ⟨pHK + 0x100 + 8 * n, 0, 64⟩
/-- EH_SRCs: configuration of event source s (R424). -/
abbrev EH_SRC (s : Nat) : Fld := ⟨pEH + 0x1000 + 0x1000 * (s / 384) + 0x400 + 8 * (s % 384), 0, 64⟩
abbrev EH_SRC_EN (s : Nat) : Fld := ⟨pEH + 0x1000 + 0x1000 * (s / 384) + 0x400 + 8 * (s % 384), 63, 1⟩
abbrev EH_SRC_GROUP_EN (s : Nat) : Fld := ⟨pEH + 0x1000 + 0x1000 * (s / 384) + 0x400 + 8 * (s % 384), 62, 1⟩
abbrev EH_SRC_AUTO (s : Nat) : Fld := ⟨pEH + 0x1000 + 0x1000 * (s / 384) + 0x400 + 8 * (s % 384), 61, 1⟩
abbrev EH_SRC_GROUP (s : Nat) : Fld := ⟨pEH + 0x1000 + 0x1000 * (s / 384) + 0x400 + 8 * (s % 384), 48, 6⟩
abbrev EH_SRC_QUEUE (s : Nat) : Fld := ⟨pEH + 0x1000 + 0x1000 * (s / 384) + 0x400 + 8 * (s % 384), 0, 4⟩
/-- PG_GRP_VTARGET: gear-group word (Table 7.10). -/
abbrev PG_GRP_VTARGET (n : Nat) : Fld := ⟨pPG + 0x800 + 0x8 + 0x40 * n, 0, 64⟩
/-- PG_GRP_VACC: gear-group word (Table 7.10). -/
abbrev PG_GRP_VACC (n : Nat) : Fld := ⟨pPG + 0x800 + 0x10 + 0x40 * n, 0, 64⟩
/-- PG_GRP_VJERK: gear-group word (Table 7.10). -/
abbrev PG_GRP_VJERK (n : Nat) : Fld := ⟨pPG + 0x800 + 0x18 + 0x40 * n, 0, 64⟩
/-- PG_GRP_STOP_DEC: gear-group word (Table 7.10). -/
abbrev PG_GRP_STOP_DEC (n : Nat) : Fld := ⟨pPG + 0x800 + 0x20 + 0x40 * n, 0, 64⟩
/-- PG_GRP_VEL: gear-group word (Table 7.10). -/
abbrev PG_GRP_VEL (n : Nat) : Fld := ⟨pPG + 0x800 + 0x28 + 0x40 * n, 0, 64⟩
/-- PAGE_ID of the page at p (R412). -/
abbrev PAGE_ID (p : Nat) : Fld := ⟨p + 0x0, 0, 64⟩
/-- CTRL of the page at p (R412, R413). -/
abbrev CTRL (p : Nat) : Fld := ⟨p + 0x8, 0, 64⟩
abbrev CTRL_ENABLE (p : Nat) : Fld := ⟨p + 0x8, 0, 1⟩
/-- STATE of the page at p (R416). -/
abbrev STATE (p : Nat) : Fld := ⟨p + 0x10, 0, 64⟩
/-- CHECK of the page at p (R414). -/
abbrev CHECK (p : Nat) : Fld := ⟨p + 0x18, 0, 64⟩
abbrev CHECK_REFUSED (p : Nat) : Fld := ⟨p + 0x18, 63, 1⟩
abbrev CHECK_BUSY (p : Nat) : Fld := ⟨p + 0x18, 62, 1⟩
abbrev CHECK_MASTER (p : Nat) : Fld := ⟨p + 0x18, 32, 16⟩
abbrev CHECK_SEQ (p : Nat) : Fld := ⟨p + 0x18, 16, 16⟩
abbrev CHECK_REASON (p : Nat) : Fld := ⟨p + 0x18, 0, 16⟩
/-- EVT_MASK of the page at p (R416). -/
abbrev EVT_MASK (p : Nat) : Fld := ⟨p + 0x20, 0, 64⟩
/-- EVT_LEVEL of the page at p (R416). -/
abbrev EVT_LEVEL (p : Nat) : Fld := ⟨p + 0x28, 0, 64⟩
/-- GUARD_SEL of the page at p (R417). -/
abbrev GUARD_SEL (p : Nat) : Fld := ⟨p + 0x30, 0, 64⟩
abbrev GUARD_SEL_OFFSET (p : Nat) : Fld := ⟨p + 0x30, 0, 12⟩
/-- GUARD_A of the page at p (R417). -/
abbrev GUARD_A (p : Nat) : Fld := ⟨p + 0x38, 0, 64⟩
/-- GUARD_B of the page at p (R417). -/
abbrev GUARD_B (p : Nat) : Fld := ⟨p + 0x40, 0, 64⟩
/-- GUARD_STATE of the page at p (R418). -/
abbrev GUARD_STATE (p : Nat) : Fld := ⟨p + 0x48, 0, 64⟩
abbrev GUARD_STATE_MASTER (p : Nat) : Fld := ⟨p + 0x48, 48, 16⟩
abbrev GUARD_STATE_OFFSET (p : Nat) : Fld := ⟨p + 0x48, 32, 12⟩
abbrev GUARD_STATE_PENDING (p : Nat) : Fld := ⟨p + 0x48, 9, 1⟩
abbrev GUARD_STATE_OPEN (p : Nat) : Fld := ⟨p + 0x48, 8, 1⟩
abbrev GUARD_STATE_RESULT (p : Nat) : Fld := ⟨p + 0x48, 0, 8⟩

end F

/-- One register, or one family of registers at even distances: its first BAR0 offset, the inner and
the outer distance and how many of each, the bits that a plain write sets (type RW), the bits that only
a guarded write sets (type GW), and the reset value (Table 0.2, R7, R10). -/
structure AccessRow where
  base : Nat
  step : Nat
  count : Nat
  outerStep : Nat
  outerCount : Nat
  rw : Nat
  gw : Nat
  reset : Nat
deriving DecidableEq, Repr

/-- Whether the row covers the register at offset `a`. -/
def accessRowHas (r : AccessRow) (a : Nat) : Bool :=
  let rel := a - r.base
  let outer := if r.outerStep = 0 then 0 else min (rel / r.outerStep) (r.outerCount - 1)
  let inner := rel - outer * r.outerStep
  r.base ≤ a &&
    (if r.step = 0 then inner = 0 else inner % r.step = 0 && inner / r.step < r.count)

/-- Part 0 of the access catalogue. -/
def accessRows0 : List AccessRow :=
  [⟨0x61010, 0x0, 1, 0x0, 1, 0x0, 0x0, 0x0⟩,
   ⟨0x61080, 0x0, 1, 0x0, 1, 0x1fff1fff, 0x0, 0xf000fa⟩,
   ⟨0x61088, 0x0, 1, 0x0, 1, 0x1fff1fff1fff1fff, 0x0, 0xc800c000400040⟩,
   ⟨0x61090, 0x0, 1, 0x0, 1, 0xffffffffffffffff, 0x0, 0x0⟩,
   ⟨0x61098, 0x0, 1, 0x0, 1, 0x0, 0x0, 0xf000fa⟩,
   ⟨0x610a0, 0x0, 1, 0x0, 1, 0x0, 0x0, 0xc800c000400040⟩,
   ⟨0x610a8, 0x0, 1, 0x0, 1, 0x0, 0x0, 0x0⟩,
   ⟨0x610b0, 0x0, 1, 0x0, 1, 0x0, 0x0, 0x0⟩,
   ⟨0x610b8, 0x0, 1, 0x0, 1, 0x0, 0x0, 0x0⟩,
   ⟨0x610c0, 0x0, 1, 0x0, 1, 0x0, 0x0, 0x0⟩,
   ⟨0x610c8, 0x0, 1, 0x0, 1, 0x0, 0x0, 0x0⟩,
   ⟨0x4010, 0x0, 1, 0x0, 1, 0x0, 0x0, 0x0⟩,
   ⟨0x4080, 0x0, 1, 0x0, 1, 0xffff01ffffffffff, 0x0, 0x400001003e807d0⟩,
   ⟨0x4088, 0x0, 1, 0x0, 1, 0x1ffff, 0x0, 0x3e8⟩,
   ⟨0x4090, 0x0, 1, 0x0, 1, 0x3f3f3f, 0x0, 0xe2400⟩,
   ⟨0x4098, 0x0, 1, 0x0, 1, 0x0, 0x0, 0x80000000⟩,
   ⟨0x40a0, 0x0, 1, 0x0, 1, 0x0, 0x0, 0x7fffffff⟩,
   ⟨0x40a8, 0x0, 1, 0x0, 1, 0x0, 0x0, 0x0⟩,
   ⟨0x40b0, 0x0, 1, 0x0, 1, 0x0, 0x0, 0xe⟩,
   ⟨0x40c0, 0x0, 1, 0x0, 1, 0x0, 0x0, 0x0⟩,
   ⟨0x40c8, 0x0, 1, 0x0, 1, 0x0, 0x0, 0x0⟩,
   ⟨0x40d0, 0x0, 1, 0x0, 1, 0x0, 0x0, 0x0⟩,
   ⟨0x4100, 0x8, 8, 0x0, 1, 0x0, 0x0, 0x0⟩,
   ⟨0x60010, 0x0, 1, 0x0, 1, 0x0, 0x0, 0x0⟩,
   ⟨0x60080, 0x0, 1, 0x0, 1, 0x0, 0x0, 0x0⟩,
   ⟨0x60088, 0x0, 1, 0x0, 1, 0x0, 0x0, 0x0⟩,
   ⟨0x60090, 0x0, 1, 0x0, 1, 0x0, 0x0, 0x0⟩,
   ⟨0x60098, 0x0, 1, 0x0, 1, 0x0, 0x0, 0x0⟩,
   ⟨0x600a0, 0x0, 1, 0x0, 1, 0x0, 0x0, 0x0⟩,
   ⟨0x600a8, 0x0, 1, 0x0, 1, 0x0, 0x0, 0x0⟩,
   ⟨0x600b0, 0x0, 1, 0x0, 1, 0x0, 0x0, 0x0⟩,
   ⟨0x60100, 0x8, 10, 0x0, 1, 0xffffffffffffffff, 0x0, 0x0⟩,
   ⟨0x60180, 0x0, 1, 0x0, 1, 0xffff0000ffff003f, 0x0, 0x3e8000000640000⟩,
   ⟨0x60188, 0x0, 1, 0x0, 1, 0x0, 0x0, 0x0⟩,
   ⟨0x60190, 0x0, 1, 0x0, 1, 0x0, 0x0, 0x0⟩,
   ⟨0x62010, 0x0, 1, 0x0, 1, 0x0, 0x0, 0x30⟩,
   ⟨0x62080, 0x20, 2, 0x0, 1, 0xffe07f, 0x0, 0x840000⟩,
   ⟨0x62088, 0x20, 2, 0x0, 1, 0x0, 0x0, 0x0⟩,
   ⟨0x62090, 0x20, 2, 0x0, 1, 0x0, 0x0, 0x0⟩,
   ⟨0x62098, 0x20, 2, 0x0, 1, 0x0, 0x0, 0x0⟩]

/-- Part 1 of the access catalogue. -/
def accessRows1 : List AccessRow :=
  [⟨0x620c0, 0x0, 1, 0x0, 1, 0x7, 0x0, 0x0⟩,
   ⟨0x620c8, 0x0, 1, 0x0, 1, 0xfffffffffffff, 0x0, 0x3006400640064⟩,
   ⟨0x30010, 0x0, 1, 0x0, 1, 0x0, 0x0, 0x0⟩,
   ⟨0x30080, 0x0, 1, 0x0, 1, 0xff0000ffff, 0x0, 0x3000001f4⟩,
   ⟨0x30088, 0x0, 1, 0x0, 1, 0x0, 0x0, 0x0⟩,
   ⟨0x30090, 0x0, 1, 0x0, 1, 0x0, 0x0, 0x0⟩,
   ⟨0x30098, 0x0, 1, 0x0, 1, 0x0, 0x0, 0x0⟩,
   ⟨0x300a0, 0x0, 1, 0x0, 1, 0x0, 0x0, 0x0⟩,
   ⟨0x300a8, 0x0, 1, 0x0, 1, 0x0, 0x0, 0x0⟩,
   ⟨0x300b0, 0x0, 1, 0x0, 1, 0x0, 0x0, 0x0⟩,
   ⟨0x31010, 0x0, 1, 0x0, 1, 0x0, 0x0, 0x0⟩,
   ⟨0x31080, 0x0, 1, 0x0, 1, 0x0, 0x0, 0x0⟩,
   ⟨0x31088, 0x0, 1, 0x0, 1, 0x0, 0x0, 0x0⟩,
   ⟨0x31090, 0x0, 1, 0x0, 1, 0x0, 0x0, 0x0⟩,
   ⟨0x310a0, 0x0, 1, 0x0, 1, 0x0, 0x0, 0x0⟩,
   ⟨0x31098, 0x0, 1, 0x0, 1, 0x0, 0x0, 0x0⟩,
   ⟨0x31100, 0x10, 32, 0x0, 1, 0xffffffffffff073d, 0x0, 0x1000040004200020⟩,
   ⟨0x31108, 0x10, 32, 0x0, 1, 0x0, 0x0, 0x0⟩,
   ⟨0x20010, 0x0, 1, 0x0, 1, 0x0, 0x0, 0x0⟩,
   ⟨0x20080, 0x0, 1, 0x0, 1, 0x0, 0x3ff, 0x0⟩,
   ⟨0x20100, 0x8, 8, 0x0, 1, 0x0, 0x0, 0x0⟩,
   ⟨0x20140, 0x8, 8, 0x0, 1, 0x0, 0x0, 0x0⟩,
   ⟨0x20200, 0x8, 16, 0x0, 1, 0x0, 0x0, 0x0⟩,
   ⟨0x20300, 0x0, 1, 0x0, 1, 0x0, 0x0, 0x0⟩,
   ⟨0x20308, 0x0, 1, 0x0, 1, 0x0, 0x0, 0x0⟩,
   ⟨0x20310, 0x0, 1, 0x0, 1, 0x0, 0x0, 0x0⟩,
   ⟨0x20318, 0x0, 1, 0x0, 1, 0x0, 0x0, 0x0⟩,
   ⟨0x40010, 0x0, 1, 0x0, 1, 0x0, 0x0, 0x0⟩,
   ⟨0x40080, 0x0, 1, 0x0, 1, 0xffff, 0x0, 0x40⟩,
   ⟨0x40088, 0x0, 1, 0x0, 1, 0x0, 0x0, 0x0⟩,
   ⟨0x40800, 0x40, 32, 0x0, 1, 0xb80001ff00000000, 0x0, 0x2000000000000000⟩,
   ⟨0x40830, 0x40, 32, 0x0, 1, 0x0, 0x0, 0x0⟩,
   ⟨0x50010, 0x0, 1, 0x1000, 8, 0x0, 0x0, 0xffff0000000000⟩,
   ⟨0x50080, 0x0, 1, 0x1000, 8, 0xffffff00ffff0003, 0x0, 0x88b5080000140002⟩,
   ⟨0x50088, 0x0, 1, 0x1000, 8, 0xffffffffffff, 0x0, 0x0⟩,
   ⟨0x50090, 0x0, 1, 0x1000, 8, 0xffffffffffff, 0x0, 0x3534c000000⟩,
   ⟨0x50098, 0x0, 1, 0x1000, 8, 0x1, 0x0, 0x1⟩,
   ⟨0x500a0, 0x0, 1, 0x1000, 8, 0x0, 0x0, 0x0⟩,
   ⟨0x500a8, 0x0, 1, 0x1000, 8, 0x0, 0x0, 0x0⟩,
   ⟨0x500b0, 0x0, 1, 0x1000, 8, 0x0, 0x0, 0x0⟩]

/-- Part 2 of the access catalogue. -/
def accessRows2 : List AccessRow :=
  [⟨0x500b8, 0x0, 1, 0x1000, 8, 0x0, 0x0, 0x0⟩,
   ⟨0x500c0, 0x0, 1, 0x1000, 8, 0x0, 0x0, 0x0⟩,
   ⟨0x500c8, 0x0, 1, 0x1000, 8, 0x0, 0x0, 0x0⟩,
   ⟨0x500d0, 0x0, 1, 0x1000, 8, 0x0, 0x0, 0x0⟩,
   ⟨0x500d8, 0x0, 1, 0x1000, 8, 0x0, 0x0, 0x0⟩,
   ⟨0x50800, 0x20, 32, 0x1000, 8, 0x0, 0x0, 0x0⟩,
   ⟨0x50808, 0x20, 32, 0x1000, 8, 0x0, 0x0, 0x0⟩,
   ⟨0x50810, 0x20, 32, 0x1000, 8, 0x0, 0x0, 0x0⟩,
   ⟨0x50818, 0x20, 32, 0x1000, 8, 0x0, 0x0, 0x0⟩,
   ⟨0x500e0, 0x0, 1, 0x1000, 8, 0x0, 0x0, 0x0⟩,
   ⟨0x500e8, 0x0, 1, 0x1000, 8, 0x0, 0x0, 0x0⟩,
   ⟨0x500f0, 0x0, 1, 0x1000, 8, 0x0, 0x0, 0x0⟩,
   ⟨0x500f8, 0x0, 1, 0x1000, 8, 0x0, 0x0, 0x0⟩,
   ⟨0x50100, 0x0, 1, 0x1000, 8, 0x0, 0x0, 0x0⟩,
   ⟨0x50108, 0x0, 1, 0x1000, 8, 0x0, 0x0, 0x0⟩,
   ⟨0x50110, 0x0, 1, 0x1000, 8, 0x0, 0x0, 0x0⟩,
   ⟨0x50118, 0x0, 1, 0x1000, 8, 0x0, 0x0, 0x0⟩,
   ⟨0x50120, 0x0, 1, 0x1000, 8, 0x0, 0x0, 0x0⟩,
   ⟨0x50128, 0x0, 1, 0x1000, 8, 0x0, 0x0, 0x0⟩,
   ⟨0x50130, 0x0, 1, 0x1000, 8, 0x0, 0x0, 0x0⟩,
   ⟨0x50138, 0x0, 1, 0x1000, 8, 0x0, 0x0, 0x0⟩,
   ⟨0x50140, 0x0, 1, 0x1000, 8, 0xffffffffffffff, 0x0, 0x8040013880040⟩,
   ⟨0x50148, 0x0, 1, 0x1000, 8, 0x0, 0x3, 0x0⟩,
   ⟨0x50150, 0x0, 1, 0x1000, 8, 0x0, 0x0, 0x0⟩,
   ⟨0x50158, 0x0, 1, 0x1000, 8, 0x0, 0x0, 0xff00000000000000⟩,
   ⟨0x50400, 0x20, 32, 0x1000, 8, 0xffffffffffffffff, 0x0, 0x0⟩,
   ⟨0x50408, 0x20, 32, 0x1000, 8, 0xffffffffffffffff, 0x0, 0x0⟩,
   ⟨0x50410, 0x20, 32, 0x1000, 8, 0x0, 0x0, 0x0⟩,
   ⟨0x50c00, 0x8, 128, 0x1000, 8, 0xc01f1fff0001ffff, 0x0, 0x0⟩,
   ⟨0x58010, 0x0, 1, 0x0, 1, 0x0, 0x0, 0x0⟩,
   ⟨0x58080, 0x0, 1, 0x0, 1, 0xffff0000ffff, 0x0, 0x10000000000⟩,
   ⟨0x58088, 0x0, 1, 0x0, 1, 0x0, 0x3, 0x0⟩,
   ⟨0x58090, 0x0, 1, 0x0, 1, 0x0, 0x0, 0x0⟩,
   ⟨0x58098, 0x0, 1, 0x0, 1, 0x0, 0x0, 0x0⟩,
   ⟨0x70010, 0x0, 1, 0x0, 1, 0x0, 0x0, 0x0⟩,
   ⟨0x70080, 0x0, 1, 0x0, 1, 0xffff, 0x0, 0x1⟩,
   ⟨0x70088, 0x0, 1, 0x0, 1, 0x0, 0x0, 0x0⟩,
   ⟨0x70090, 0x0, 1, 0x0, 1, 0x0, 0x0, 0x0⟩,
   ⟨0x70098, 0x0, 1, 0x0, 1, 0x0, 0x0, 0x0⟩,
   ⟨0x700a0, 0x0, 1, 0x0, 1, 0x0, 0x0, 0x0⟩]

/-- Part 3 of the access catalogue. -/
def accessRows3 : List AccessRow :=
  [⟨0x700a8, 0x0, 1, 0x0, 1, 0x0, 0x0, 0x0⟩,
   ⟨0x700b0, 0x0, 1, 0x0, 1, 0x0, 0x0, 0x0⟩,
   ⟨0x700b8, 0x0, 1, 0x0, 1, 0x0, 0x0, 0x0⟩,
   ⟨0x700c0, 0x0, 1, 0x0, 1, 0x0, 0x0, 0x0⟩,
   ⟨0x70100, 0x8, 4, 0x0, 1, 0x0, 0x0, 0x0⟩,
   ⟨0x70120, 0x8, 4, 0x0, 1, 0x0, 0x0, 0x0⟩,
   ⟨0x70200, 0x8, 64, 0x0, 1, 0x0, 0x0, 0x0⟩,
   ⟨0x70800, 0x20, 64, 0x0, 1, 0xf0fff0ffffffffff, 0x0, 0x0⟩,
   ⟨0x70808, 0x20, 64, 0x0, 1, 0xffffffffffffffff, 0x0, 0x0⟩,
   ⟨0x70810, 0x20, 64, 0x0, 1, 0xffffffffffffffff, 0x0, 0x3e8⟩,
   ⟨0x70818, 0x20, 64, 0x0, 1, 0x0, 0x0, 0x0⟩,
   ⟨0x71010, 0x0, 1, 0x0, 1, 0x0, 0x0, 0x0⟩,
   ⟨0x71080, 0x0, 1, 0x0, 1, 0x0, 0x0, 0x0⟩,
   ⟨0x71088, 0x0, 1, 0x0, 1, 0x0, 0x0, 0x0⟩,
   ⟨0x71090, 0x0, 1, 0x0, 1, 0x0, 0x0, 0x0⟩,
   ⟨0x71098, 0x0, 1, 0x0, 1, 0xffffffffffffffff, 0x0, 0x0⟩,
   ⟨0x710a0, 0x0, 1, 0x0, 1, 0x0, 0x0, 0x0⟩,
   ⟨0x710a8, 0x0, 1, 0x0, 1, 0x0, 0x0, 0x0⟩,
   ⟨0x71100, 0x8, 8, 0x0, 1, 0x0, 0x0, 0x0⟩,
   ⟨0x71140, 0x8, 8, 0x0, 1, 0x0, 0x0, 0x0⟩,
   ⟨0x71200, 0x8, 64, 0x0, 1, 0x0, 0x0, 0x0⟩,
   ⟨0x80010, 0x0, 1, 0x1000, 8, 0x0, 0x0, 0x0⟩,
   ⟨0x80080, 0x0, 1, 0x1000, 8, 0x101ff, 0x0, 0x10014⟩,
   ⟨0x80088, 0x0, 1, 0x1000, 8, 0x8000000000003fff, 0x0, 0x0⟩,
   ⟨0x80090, 0x0, 1, 0x1000, 8, 0x0, 0x0, 0x0⟩,
   ⟨0x80098, 0x0, 1, 0x1000, 8, 0x0, 0x0, 0x0⟩,
   ⟨0x800a0, 0x0, 1, 0x1000, 8, 0x0, 0x0, 0x0⟩,
   ⟨0x800a8, 0x0, 1, 0x1000, 8, 0x0, 0x0, 0x0⟩,
   ⟨0x800b0, 0x0, 1, 0x1000, 8, 0x0, 0x0, 0x0⟩,
   ⟨0x800b8, 0x0, 1, 0x1000, 8, 0x0, 0x0, 0x0⟩,
   ⟨0x800c0, 0x0, 1, 0x1000, 8, 0x0, 0x0, 0x0⟩,
   ⟨0x10010, 0x0, 1, 0x0, 1, 0x0, 0x0, 0x0⟩,
   ⟨0x10080, 0x0, 1, 0x0, 1, 0x7fff, 0x0, 0x3e8⟩,
   ⟨0x10088, 0x0, 1, 0x0, 1, 0x0, 0x0, 0x3000⟩,
   ⟨0x10090, 0x0, 1, 0x0, 1, 0x0, 0x0, 0x0⟩,
   ⟨0x10098, 0x0, 1, 0x0, 1, 0x0, 0x0, 0x0⟩,
   ⟨0x100a0, 0x0, 1, 0x0, 1, 0x0, 0x0, 0x0⟩,
   ⟨0x100a8, 0x0, 1, 0x0, 1, 0xffffffffffffffff, 0x0, 0x0⟩,
   ⟨0x100b0, 0x0, 1, 0x0, 1, 0xffffffffffffffff, 0x0, 0x0⟩,
   ⟨0x100b8, 0x0, 1, 0x0, 1, 0xffffffffffffffff, 0x0, 0x0⟩]

/-- Part 4 of the access catalogue. -/
def accessRows4 : List AccessRow :=
  [⟨0x100c0, 0x0, 1, 0x0, 1, 0x0, 0x0, 0x0⟩,
   ⟨0x100c8, 0x0, 1, 0x0, 1, 0x0, 0x0, 0x0⟩,
   ⟨0x100d0, 0x0, 1, 0x0, 1, 0xffffffffffffffff, 0x0, 0x0⟩,
   ⟨0x100d8, 0x0, 1, 0x0, 1, 0x0, 0x0, 0x0⟩,
   ⟨0x100e0, 0x0, 1, 0x0, 1, 0x0, 0x0, 0x0⟩,
   ⟨0x100e8, 0x0, 1, 0x0, 1, 0x0, 0x0, 0x0⟩,
   ⟨0x100f0, 0x0, 1, 0x0, 1, 0x0, 0x0, 0x0⟩,
   ⟨0x10100, 0x0, 1, 0x0, 1, 0x0, 0x0, 0x0⟩,
   ⟨0x10108, 0x0, 1, 0x0, 1, 0x0, 0x0, 0x0⟩,
   ⟨0x10110, 0x0, 1, 0x0, 1, 0x0, 0x0, 0x0⟩,
   ⟨0x10118, 0x0, 1, 0x0, 1, 0x0, 0x0, 0x0⟩,
   ⟨0x10120, 0x0, 1, 0x0, 1, 0x0, 0x0, 0x0⟩,
   ⟨0x10128, 0x0, 1, 0x0, 1, 0x0, 0x0, 0x0⟩,
   ⟨0x10130, 0x0, 1, 0x0, 1, 0x0, 0x0, 0x0⟩,
   ⟨0x10800, 0x8, 256, 0x0, 1, 0x0, 0x0, 0x0⟩,
   ⟨0x90010, 0x0, 1, 0x0, 1, 0x0, 0x0, 0x0⟩,
   ⟨0x90080, 0x0, 1, 0x0, 1, 0xffffffffffffffff, 0x0, 0x0⟩,
   ⟨0x90088, 0x0, 1, 0x0, 1, 0xfffffffffffff000, 0x0, 0x0⟩,
   ⟨0x90090, 0x0, 1, 0x0, 1, 0x0, 0x0, 0x0⟩,
   ⟨0x90098, 0x0, 1, 0x0, 1, 0x0, 0x0, 0x0⟩,
   ⟨0x900a0, 0x0, 1, 0x0, 1, 0x0, 0x0, 0x0⟩,
   ⟨0x91010, 0x0, 1, 0x0, 1, 0x0, 0x0, 0x0⟩,
   ⟨0x91100, 0x80, 16, 0x0, 1, 0x3ff0000000000ff, 0x0, 0x48⟩,
   ⟨0x91108, 0x80, 16, 0x0, 1, 0xffffffffffffffff, 0x0, 0x0⟩,
   ⟨0x91110, 0x80, 16, 0x0, 1, 0xffffffffffffffff, 0x0, 0x0⟩,
   ⟨0x91118, 0x80, 16, 0x0, 1, 0xffffffffffffffff, 0x0, 0x0⟩,
   ⟨0x91120, 0x80, 16, 0x0, 1, 0xffffffffffffffff, 0x0, 0x0⟩,
   ⟨0x91128, 0x80, 16, 0x0, 1, 0x0, 0x0, 0x0⟩,
   ⟨0x91130, 0x80, 16, 0x0, 1, 0x0, 0x0, 0x0⟩,
   ⟨0x91138, 0x80, 16, 0x0, 1, 0x0, 0x0, 0x0⟩,
   ⟨0x91140, 0x80, 16, 0x0, 1, 0x0, 0x0, 0x0⟩,
   ⟨0x91148, 0x80, 16, 0x0, 1, 0x0, 0x0, 0x0⟩,
   ⟨0x91150, 0x80, 16, 0x0, 1, 0x0, 0x0, 0x0⟩,
   ⟨0x92010, 0x0, 1, 0x0, 1, 0x0, 0x0, 0x0⟩,
   ⟨0x92080, 0x0, 1, 0x0, 1, 0x0, 0x0, 0x0⟩,
   ⟨0x92088, 0x0, 1, 0x0, 1, 0x0, 0x0, 0x0⟩,
   ⟨0x92800, 0x20, 64, 0x0, 1, 0x0, 0x0, 0x0⟩,
   ⟨0x92808, 0x20, 64, 0x0, 1, 0x0, 0x0, 0x0⟩,
   ⟨0x92810, 0x20, 64, 0x0, 1, 0x0, 0x0, 0x0⟩,
   ⟨0x92818, 0x20, 64, 0x0, 1, 0x0, 0x0, 0x0⟩]

/-- Part 5 of the access catalogue. -/
def accessRows5 : List AccessRow :=
  [⟨0x93010, 0x0, 1, 0x0, 1, 0x0, 0x0, 0x0⟩,
   ⟨0x93080, 0x0, 1, 0x0, 1, 0xff0000ffff, 0x0, 0xc00000008⟩,
   ⟨0x93088, 0x0, 1, 0x0, 1, 0x0, 0x0, 0x0⟩,
   ⟨0x93090, 0x0, 1, 0x0, 1, 0x0, 0x0, 0x0⟩,
   ⟨0x93098, 0x0, 1, 0x0, 1, 0x0, 0x0, 0x0⟩,
   ⟨0x930a0, 0x0, 1, 0x0, 1, 0x0, 0x0, 0x0⟩,
   ⟨0x930a8, 0x0, 1, 0x0, 1, 0x0, 0x0, 0x0⟩,
   ⟨0x93100, 0x8, 16, 0x0, 1, 0x0, 0x0, 0x0⟩,
   ⟨0xa0010, 0x0, 1, 0x0, 1, 0x0, 0x0, 0x0⟩,
   ⟨0xa0080, 0x0, 1, 0x0, 1, 0xff1f0005, 0x0, 0x30c0005⟩,
   ⟨0xa0088, 0x0, 1, 0x0, 1, 0x0, 0x3, 0x0⟩,
   ⟨0xa0090, 0x0, 1, 0x0, 1, 0x0, 0x0, 0x0⟩,
   ⟨0xa0098, 0x0, 1, 0x0, 1, 0x0, 0x0, 0x0⟩,
   ⟨0xa00a0, 0x0, 1, 0x0, 1, 0x0, 0x0, 0x0⟩,
   ⟨0xa00a8, 0x0, 1, 0x0, 1, 0x0, 0x0, 0x0⟩,
   ⟨0xa00b0, 0x0, 1, 0x0, 1, 0x0, 0x0, 0x0⟩,
   ⟨0xa00b8, 0x0, 1, 0x0, 1, 0x0, 0x0, 0x0⟩,
   ⟨0xa00c0, 0x0, 1, 0x0, 1, 0x0, 0x0, 0x0⟩,
   ⟨0xa00c8, 0x0, 1, 0x0, 1, 0x0, 0x0, 0x0⟩,
   ⟨0xa00d0, 0x0, 1, 0x0, 1, 0x0, 0x0, 0x0⟩,
   ⟨0xa00d8, 0x0, 1, 0x0, 1, 0x0, 0x0, 0x0⟩,
   ⟨0xa00e0, 0x0, 1, 0x0, 1, 0x0, 0x0, 0x0⟩,
   ⟨0xa00e8, 0x0, 1, 0x0, 1, 0x0, 0x0, 0x0⟩,
   ⟨0x3010, 0x0, 1, 0x0, 1, 0x0, 0x0, 0x0⟩,
   ⟨0x3080, 0x0, 1, 0x0, 1, 0x0, 0x3, 0x0⟩,
   ⟨0x3088, 0x0, 1, 0x0, 1, 0x0, 0x0, 0x0⟩,
   ⟨0x3098, 0x0, 1, 0x0, 1, 0x0, 0x0, 0x0⟩,
   ⟨0x3090, 0x0, 1, 0x0, 1, 0x0, 0x0, 0x0⟩,
   ⟨0x30a0, 0x0, 1, 0x0, 1, 0x0, 0x0, 0x0⟩,
   ⟨0x30a8, 0x0, 1, 0x0, 1, 0x0, 0x0, 0x0⟩,
   ⟨0x30b0, 0x0, 1, 0x0, 1, 0x0, 0x0, 0x0⟩,
   ⟨0xb0010, 0x0, 1, 0x0, 1, 0x0, 0x0, 0x0⟩,
   ⟨0xb0100, 0x40, 16, 0x0, 1, 0xc3ff3f0f00003fff, 0x0, 0xa00000064⟩,
   ⟨0xb0108, 0x40, 16, 0x0, 1, 0xffffffffffffffff, 0x0, 0x0⟩,
   ⟨0xb0110, 0x40, 16, 0x0, 1, 0x0, 0x0, 0x0⟩,
   ⟨0xb0118, 0x40, 16, 0x0, 1, 0xffffffff, 0x0, 0x0⟩,
   ⟨0xb0120, 0x40, 16, 0x0, 1, 0x0, 0x0, 0x8000000000000000⟩,
   ⟨0x2080, 0x0, 1, 0x0, 1, 0x0, 0x1, 0x0⟩,
   ⟨0x2088, 0x0, 1, 0x0, 1, 0x0, 0x0, 0x0⟩,
   ⟨0xd0080, 0x0, 1, 0x0, 1, 0xff00001f0000ffff, 0x0, 0xc00000100⟩]

/-- Part 6 of the access catalogue. -/
def accessRows6 : List AccessRow :=
  [⟨0xd0088, 0x0, 1, 0x0, 1, 0xffffffffffffffff, 0x0, 0x0⟩,
   ⟨0xd0090, 0x0, 1, 0x0, 1, 0x0, 0x0, 0x0⟩,
   ⟨0xd0098, 0x0, 1, 0x0, 1, 0xffffffff, 0x0, 0x0⟩,
   ⟨0xc1080, 0x0, 1, 0x1000, 2, 0x1ffffffffffff, 0x0, 0x1000000000000⟩,
   ⟨0xc1088, 0x0, 1, 0x1000, 2, 0xffffffff, 0x0, 0x0⟩,
   ⟨0xc1090, 0x0, 1, 0x1000, 2, 0x1ffff, 0x0, 0x5dc0⟩,
   ⟨0x10, 0x0, 1, 0x0, 1, 0x0, 0x0, 0x0⟩,
   ⟨0x80, 0x0, 1, 0x0, 1, 0x0, 0x0, 0x1e512c3d00000000⟩,
   ⟨0x88, 0x0, 1, 0x0, 1, 0x0, 0x0, 0x0⟩,
   ⟨0x90, 0x0, 1, 0x0, 1, 0x0, 0x0, 0x0⟩,
   ⟨0xc0010, 0x0, 1, 0x0, 1, 0x0, 0x0, 0x0⟩,
   ⟨0xc0080, 0x0, 1, 0x0, 1, 0x0, 0x0, 0x0⟩,
   ⟨0xc3010, 0x0, 1, 0x0, 1, 0x0, 0x0, 0x0⟩,
   ⟨0xc3080, 0x0, 1, 0x0, 1, 0x0, 0x0, 0x0⟩,
   ⟨0x1010, 0x0, 1, 0x0, 1, 0x0, 0x0, 0x0⟩,
   ⟨0x1080, 0x0, 1, 0x0, 1, 0xc0ffff00ffffffff, 0x0, 0x6400000190012c⟩,
   ⟨0x1088, 0x0, 1, 0x0, 1, 0x0, 0x0, 0x0⟩,
   ⟨0x1090, 0x0, 1, 0x0, 1, 0x0, 0x0, 0x0⟩,
   ⟨0x1098, 0x8, 3, 0x0, 1, 0x0, 0x0, 0x0⟩,
   ⟨0x10b0, 0x0, 1, 0x0, 1, 0x0, 0x3, 0x0⟩,
   ⟨0x1100, 0x8, 8, 0x0, 1, 0xffffffffffffffff, 0x0, 0x0⟩,
   ⟨0xb1400, 0x8, 384, 0x1000, 2, 0xe03f00000000000f, 0x0, 0xe000000000000000⟩,
   ⟨0x40808, 0x40, 32, 0x0, 1, 0xffffffffffffffff, 0x0, 0x0⟩,
   ⟨0x40810, 0x40, 32, 0x0, 1, 0xffffffffffffffff, 0x0, 0x0⟩,
   ⟨0x40818, 0x40, 32, 0x0, 1, 0xffffffffffffffff, 0x0, 0x0⟩,
   ⟨0x40820, 0x40, 32, 0x0, 1, 0xffffffffffffffff, 0x0, 0x0⟩,
   ⟨0x40828, 0x40, 32, 0x0, 1, 0x0, 0x0, 0x0⟩]

/-- The access catalogue of the block registers of every page. -/
def accessRows : List AccessRow :=
  accessRows0 ++ accessRows1 ++ accessRows2 ++ accessRows3 ++ accessRows4 ++ accessRows5 ++ accessRows6

/-- The registers whose reset value is not zero (the Reset columns of the spec's tables). -/
def resetRows : List AccessRow :=
  [⟨0x61080, 0x0, 1, 0x0, 1, 0x1fff1fff, 0x0, 0xf000fa⟩,
   ⟨0x61088, 0x0, 1, 0x0, 1, 0x1fff1fff1fff1fff, 0x0, 0xc800c000400040⟩,
   ⟨0x61098, 0x0, 1, 0x0, 1, 0x0, 0x0, 0xf000fa⟩,
   ⟨0x610a0, 0x0, 1, 0x0, 1, 0x0, 0x0, 0xc800c000400040⟩,
   ⟨0x4080, 0x0, 1, 0x0, 1, 0xffff01ffffffffff, 0x0, 0x400001003e807d0⟩,
   ⟨0x4088, 0x0, 1, 0x0, 1, 0x1ffff, 0x0, 0x3e8⟩,
   ⟨0x4090, 0x0, 1, 0x0, 1, 0x3f3f3f, 0x0, 0xe2400⟩,
   ⟨0x4098, 0x0, 1, 0x0, 1, 0x0, 0x0, 0x80000000⟩,
   ⟨0x40a0, 0x0, 1, 0x0, 1, 0x0, 0x0, 0x7fffffff⟩,
   ⟨0x40b0, 0x0, 1, 0x0, 1, 0x0, 0x0, 0xe⟩,
   ⟨0x60180, 0x0, 1, 0x0, 1, 0xffff0000ffff003f, 0x0, 0x3e8000000640000⟩,
   ⟨0x62010, 0x0, 1, 0x0, 1, 0x0, 0x0, 0x30⟩,
   ⟨0x62080, 0x20, 2, 0x0, 1, 0xffe07f, 0x0, 0x840000⟩,
   ⟨0x620c8, 0x0, 1, 0x0, 1, 0xfffffffffffff, 0x0, 0x3006400640064⟩,
   ⟨0x30080, 0x0, 1, 0x0, 1, 0xff0000ffff, 0x0, 0x3000001f4⟩,
   ⟨0x31100, 0x10, 32, 0x0, 1, 0xffffffffffff073d, 0x0, 0x1000040004200020⟩,
   ⟨0x40080, 0x0, 1, 0x0, 1, 0xffff, 0x0, 0x40⟩,
   ⟨0x40800, 0x40, 32, 0x0, 1, 0xb80001ff00000000, 0x0, 0x2000000000000000⟩,
   ⟨0x50010, 0x0, 1, 0x1000, 8, 0x0, 0x0, 0xffff0000000000⟩,
   ⟨0x50080, 0x0, 1, 0x1000, 8, 0xffffff00ffff0003, 0x0, 0x88b5080000140002⟩,
   ⟨0x50090, 0x0, 1, 0x1000, 8, 0xffffffffffff, 0x0, 0x3534c000000⟩,
   ⟨0x50098, 0x0, 1, 0x1000, 8, 0x1, 0x0, 0x1⟩,
   ⟨0x50140, 0x0, 1, 0x1000, 8, 0xffffffffffffff, 0x0, 0x8040013880040⟩,
   ⟨0x50158, 0x0, 1, 0x1000, 8, 0x0, 0x0, 0xff00000000000000⟩,
   ⟨0x58080, 0x0, 1, 0x0, 1, 0xffff0000ffff, 0x0, 0x10000000000⟩,
   ⟨0x70080, 0x0, 1, 0x0, 1, 0xffff, 0x0, 0x1⟩,
   ⟨0x70810, 0x20, 64, 0x0, 1, 0xffffffffffffffff, 0x0, 0x3e8⟩,
   ⟨0x80080, 0x0, 1, 0x1000, 8, 0x101ff, 0x0, 0x10014⟩,
   ⟨0x10080, 0x0, 1, 0x0, 1, 0x7fff, 0x0, 0x3e8⟩,
   ⟨0x10088, 0x0, 1, 0x0, 1, 0x0, 0x0, 0x3000⟩,
   ⟨0x91100, 0x80, 16, 0x0, 1, 0x3ff0000000000ff, 0x0, 0x48⟩,
   ⟨0x93080, 0x0, 1, 0x0, 1, 0xff0000ffff, 0x0, 0xc00000008⟩,
   ⟨0xa0080, 0x0, 1, 0x0, 1, 0xff1f0005, 0x0, 0x30c0005⟩,
   ⟨0xb0100, 0x40, 16, 0x0, 1, 0xc3ff3f0f00003fff, 0x0, 0xa00000064⟩,
   ⟨0xb0120, 0x40, 16, 0x0, 1, 0x0, 0x0, 0x8000000000000000⟩,
   ⟨0xd0080, 0x0, 1, 0x0, 1, 0xff00001f0000ffff, 0x0, 0xc00000100⟩,
   ⟨0xc1080, 0x0, 1, 0x1000, 2, 0x1ffffffffffff, 0x0, 0x1000000000000⟩,
   ⟨0xc1090, 0x0, 1, 0x1000, 2, 0x1ffff, 0x0, 0x5dc0⟩,
   ⟨0x80, 0x0, 1, 0x0, 1, 0x0, 0x0, 0x1e512c3d00000000⟩,
   ⟨0x1080, 0x0, 1, 0x0, 1, 0xc0ffff00ffffffff, 0x0, 0x6400000190012c⟩,
   ⟨0xb1400, 0x8, 384, 0x1000, 2, 0xe03f00000000000f, 0x0, 0xe000000000000000⟩]

end Sys2Proof.Machine
end

