-- ==== Sys2Proof/Machine/Store.lean ====
section
/-! DEFINITION. Sparse tables: a list of (key, value) pairs in which a key that is not listed reads as a
default. `put` keeps the keys strictly rising and never lists a default, so that a table built from the
empty one has exactly one form. Memory, the register file and the tables of per-axis, per-channel and
per-node state are all held in this form. -/

namespace Sys2Proof.Machine

/-- What key `k` reads as: its listed value, or the default of `k`. -/
def tget {β : Type} (d : Nat → β) : List (Nat × β) → Nat → β
  | [], k => d k
  | (a, v) :: r, k => if a = k then v else tget d r k

/-- The table without key `k`. -/
def terase {β : Type} : List (Nat × β) → Nat → List (Nat × β)
  | [], _ => []
  | (a, v) :: r, k => if a = k then terase r k else (a, v) :: terase r k

/-- The table with `(k, v)` placed before the first larger key. -/
def tins {β : Type} : List (Nat × β) → Nat → β → List (Nat × β)
  | [], k, v => [(k, v)]
  | (a, w) :: r, k, v => if k < a then (k, v) :: (a, w) :: r else (a, w) :: tins r k v

/-- The table in which key `k` reads as `v`. -/
def tput {β : Type} [DecidableEq β] (d : Nat → β) (m : List (Nat × β)) (k : Nat) (v : β) :
    List (Nat × β) :=
  if v = d k then terase m k else tins (terase m k) k v

/-- The canonical form: keys strictly rising and no value equal to its key's default. -/
def twf {β : Type} [DecidableEq β] (d : Nat → β) : List (Nat × β) → Bool
  | [] => true
  | [(a, v)] => decide (v ≠ d a)
  | (a, v) :: (b, w) :: r => decide (a < b) && decide (v ≠ d a) && twf d ((b, w) :: r)

/-- A table whose unlisted keys read as the type's default value. -/
abbrev Tab (β : Type) := List (Nat × β)

/-- Reads a table whose unlisted keys read as `default`. -/
def Tab.look {β : Type} [Inhabited β] (m : Tab β) (k : Nat) : β := tget (fun _ => default) m k

/-- Writes a table whose unlisted keys read as `default`. -/
def Tab.set {β : Type} [Inhabited β] [DecidableEq β] (m : Tab β) (k : Nat) (v : β) : Tab β :=
  tput (fun _ => default) m k v

/-- Membership of a set of numbers kept as a rising list. -/
def nsHas (l : List Nat) (n : Nat) : Bool := l.contains n

/-- The set with `n`, kept rising. -/
def nsAdd : List Nat → Nat → List Nat
  | [], n => [n]
  | a :: r, n => if n < a then n :: a :: r else if n = a then a :: r else a :: nsAdd r n

/-- The set without `n`. -/
def nsDel (l : List Nat) (n : Nat) : List Nat := l.filter (fun a => a != n)

/-- Folds a state over a list. -/
def forEach {σ α : Type} (f : α → σ → σ) : List α → σ → σ
  | [], s => s
  | a :: r, s => forEach f r (f a s)

end Sys2Proof.Machine
end

