-- ==== Sys2Proof/Machine/State.lean ====
section
/-! DEFINITION. The state of the Ecalesk as plain data. Registers of the BAR0 pages stand in `regs`,
bytes of SRAM, DRAM and the signal-core memories in `mem`; what the chapters name outside registers
(progress of a cycle, plans, windows, queues, links) stands in the structures below, one per block.
A key that is not listed in a table reads as the reset value. -/

namespace Sys2Proof.Machine

/-- Who raises a fault: no command of this model does. The spec gives every command an effect in every
state, so a step never faults; the type has one constructor because the interface asks for a type.
Safe: nothing raises it. -/
inductive Fault where
  | none_given
deriving DecidableEq, Repr

/-- Why a command has no meaning. -/
inductive Refusal where
  /-- Raised by the arm of a command that is not modelled yet. Safe: the run stops. -/
  | notModelled (mnemonic : String)
deriving DecidableEq, Repr

/-! ### Pages: checks, guarded writes, events (chapter 16) -/

/-- The actions that a page can hold while its check runs (R413). -/
inductive ActKind where
  | pageEnable | pageDisable
  | feedbackStart | feedbackStop | qeChannelEnable
  | axisEnable | axisDisable | restore | withdraw
  | groupEnable | groupDisable | groupRestart
  | discoveryStart | commit | release | epochRequest | epochCancel
  | channelEnable | channelDisable | triggerEnable | streamStart | streamStop | streamRestart
  | angleEnable | angleDisable | histEnable | histDisable | copyHist | copyMap
  | cxStart | cxResume | cxReset | cxNotify | flowEnable | flowDisable
  | dmaEnable | dmaDisable | dmaResume | dmaAbort | dmaContinue | queueEnable | queueDisable
  | twSwitch | twSilence | disA | disB | ehQueueEnable
  /-- Clearings of an EN or DIS bit, and a guarded write whose value names no operation; `idx` 1 where it is an operation field. -/
  | qeChannelDisable | triggerDisable | ehQueueDisable | onA | onB | nothing
  | bootSel | restartWarm | restartClear
deriving DecidableEq, Repr, Inhabited

/-- One action on a page: what it does, to which item, the value written, by which master, and the
target offset when a guarded write asked for it. -/
structure Action where
  kind : ActKind
  page : Nat
  idx : Nat
  val : Nat
  master : Nat
  guarded : Option Nat
  /-- DT at which the write reached the page. -/
  at_ : DT
deriving DecidableEq, Repr, Inhabited

/-- The check of a page: the action whose check runs, and the held actions in arrival order (R413). -/
structure PageCheck where
  running : Option Action
  held : List Action
deriving DecidableEq, Repr, Inhabited

/-- An open guarded sequence: its opener, its target offset, the DT of its last step and the value once
GUARD_A has given it (R417). -/
structure GuardSeq where
  opener : Nat
  offset : Nat
  last : DT
  value : Option Word
deriving DecidableEq, Repr, Inhabited

/-- One open event group (R429): `map` has bit a for axis a. -/
structure EhGroup where
  event : Nat
  info : Nat
  group : Nat
  first : DT
  last : DT
  count : Nat
  map : Nat
deriving DecidableEq, Repr, Inhabited

/-- What an event queue holds beside its registers: open groups, oldest first, and the loss that no
LOST record has reported yet (R428): how many, and the DT of the first. -/
structure EhQueue where
  groups : List EhGroup
  lostCount : Nat
  lostFirst : DT
deriving DecidableEq, Repr, Inhabited

/-! ### Time and the servo cycle (chapters 2 and 3) -/

/-- A cycle schedule, in steps of 125 ns (R31). -/
structure Sched where
  period : Nat
  ulEnd : Nat
  cwStart : Nat
  cwEnd : Nat
  tr : Nat
  dlEnd : Nat
deriving DecidableEq, Repr, Inhabited

/-- Device time and the schedule of the servo cycle: what only the time unit's own steps change. -/
structure Time where
  /-- DT of the last step (R60). -/
  dt : DT
  /-- Wraps of DT since power-on (R61). -/
  era : BitVec 16
  /-- T0 of the current cycle. -/
  t0 : DT
  /-- The cycle number (R63). -/
  cycle : BitVec 32
  starting : Bool
  running : Bool
  /-- ENABLE was cleared while running: no further T0 (R35). -/
  stopping : Bool
  /-- T0 of the first cycle while STARTING: the CYC_START_DT read at the enable (R30, R34). -/
  startDt : DT
  /-- CYC_PERIOD_LIVE and CYC_PHASE_LIVE. -/
  live : Sched
deriving DecidableEq, Repr, Inhabited

/-- What a command asks of the cycle: a start with its schedule and first T0 (R34), the clearing of ENABLE before the DL_END
of the cycle in progress and after it (R35), the live schedule of the active that a bulk copy brings (R405), an end of the cycle by a restart of the module (R466), the end of all time at a
shutdown (R409). -/
inductive TimeAsk where
  | start (c : Sched) (d : DT)
  | follow (c : Sched)
  | stop
  | over
  | halt
  | off
deriving DecidableEq, Repr

/-- The hold counts of the cycle page (R47, R58) and the progress of the cycle. -/
structure CycleSt where
  holds : Nat
  heldCycles : Nat
  /-- Substitute records formed in the current cycle. -/
  heldNow : Nat
  heldLast : Nat
  holdsLast : Bool
  /-- HOLDS and HELD_CYCLES up to the last completed cycle. -/
  holdsDone : Nat
  heldCyclesDone : Nat
  /-- Axes standing at the head of the dispatch order after LATE_HOLD (R48), rising. -/
  headAxes : List Nat
  /-- Axes enabled while this cycle computes (R42). -/
  enabledNow : List Nat
  /-- T0s since power-on: what a history kept by cycles counts in (the model's own count). -/
  t0s : Nat
  /-- The last phase instant passed: 1 T0, 2 UL_END, 3 CW_START, 4 CW_END, 5 TR, 6 DL_END (R31). -/
  phase : Nat
  /-- What the present command asks of the cycle; the step carries it out. -/
  ask : List TimeAsk
deriving DecidableEq, Repr, Inhabited

/-- What SG_CFG, SG_MODE and SG_VLIMIT held when the governor was last enabled (R54). -/
structure SgCfg where
  target : Nat
  band : Nat
  window : Nat
  freeze : Nat
  warn : Nat
  fixed : Bool
  vfixed : Nat
  vmax : Nat
  vmin : Nat
deriving DecidableEq, Repr, Inhabited

/-- The slack governor (R51 to R56). -/
structure SgSt where
  cfg : SgCfg
  quiet : Nat
  frozen : Bool
  /-- The last measurements, newest first: `none` is incomplete. -/
  history : List (Option Int)
  /-- SG_SLACK holds a measurement (R55). -/
  measured : Bool
  /-- When the last walk step fell, or the walk began, or the cycle stopped (R53). -/
  walkFrom : DT
  /-- When the last commanded step was taken. -/
  stepAt : Option DT
  /-- Slack histogram bins 0 to 15 (R56). -/
  bins : Tab Nat
  /-- Completion times of this cycle: (axis, DT) (R51). -/
  done : List (Nat × DT)
deriving DecidableEq, Repr, Inhabited

/-- One foreign master of a PTP domain (R70): its port identity, its dataset in the order of the comparison, the
Announces counted and the last one's DT. -/
structure ForeignMaster where
  src : Nat
  rank : List Nat
  gm : Nat
  utc : Int
  log : Int
  seen : Nat
  last : DT
deriving DecidableEq, Repr, Inhabited

/-- A PTP domain slot (R71 to R79). Offsets are in units of 2^-16 ns, rates in 1/256 ppb. -/
structure PtpDom where
  state : Nat
  gm : Nat
  utc : Int
  /-- Port identity of the chosen master, its announced Sync and Announce intervals (log2 s), the DT of its last valid
  Sync. -/
  src : Nat
  syncLog : Int
  annLog : Int
  syncAt : DT
  masters : List ForeignMaster
  /-- Consecutive valid offset measurements. -/
  valid : Nat
  /-- The last measurements, newest first: DT and domain time minus DT. -/
  hist : List (DT × Int)
  /-- Signed offset from the published mapping at the last Sync, ns. -/
  offset : Int
  servo : Int
  /-- Offsets beyond STEP_LIMIT in a row (R76), newest first. -/
  stepRun : List Int
  delay : Int
  /-- A delay measurement has been completed with the present master. -/
  delayOk : Bool
  /-- Origin time and ingress stamp of the last Sync; egress stamp of a request that awaits its answer. -/
  syncOrigin : Int
  syncIn : DT
  /-- A Sync of the present master has come. -/
  syncSeen : Bool
  reqOut : Option DT
  /-- Sum and number of the measurements of the present second. -/
  secSum : Int
  secCount : Nat
  /-- Second averages, newest first: `none` for a second without a measurement. The 64 s rate last formed, and whether the
  last evaluation formed it. -/
  secs : List (Option Int)
  window : Option Int
  winNow : Bool
  /-- Evaluations in a row with the slot QUALIFIED and no outlier (R74). -/
  clean : Nat
deriving DecidableEq, Repr, Inhabited

/-- The wall-time mapping and the reference inputs and outputs (R73 to R84). -/
structure TuSt where
  refLost : Bool
  /-- The time-clock PLL is not locked (R15, R64). -/
  unlocked : Bool
  ppsInError : Bool
  ppsPresent : Bool
  ref10Present : Bool
  ppsInSeen : Bool
  /-- W, in 2^-16 ns, at the anchor D. -/
  mapW : Int
  mapD : DT
  /-- Cycle number current at D. -/
  mapCycle : BitVec 32
  /-- RATE in 2^-48, slew included, and the target's own rate. -/
  rate : Int
  baseRate : Int
  /-- The DT at which a slew has removed its offset. -/
  slewEnd : Option DT
  gen : BitVec 16
  /-- 0 FREE, 1 LOCKED, 2 SLEWING, 3 HOLDOVER. -/
  tstate : Nat
  /-- The selected slot. -/
  selected : Option Nat
  disagree : Bool
  dom0 : PtpDom
  dom1 : PtpDom
  /-- The holdover rate and whether it has been learned; rates waiting 64 s: DT of the evaluation, rate, clean, newest first. -/
  rhoH : Int
  rhoLearned : Bool
  rhoWait : List (DT × Int × Bool)
  /-- DT of the last evaluation (R78). -/
  evalAt : DT
  /-- The mapping steps to its target at the next servo update (R75); DT of the last step, and of the page's ENABLE (R83). -/
  stepDue : Bool
  stepAt : Option DT
  onAt : DT
  /-- DT of the last PPS_OUT rising edge and whether it was one of wall mode (R83); the phase of REF10_OUT in wall mode, less
  wall time (R84). -/
  ppsLast : Option DT
  ppsWall : Bool
  ref10Off : Int
  /-- INGRESS corrections replaced, by port: the DT of the write and the value before it, oldest first (R68). -/
  corrOld : Tab (List (DT × Nat))
deriving DecidableEq, Repr, Inhabited

/-! ### Position feedback (chapter 4) -/

/-- The FBE's own state for one axis (R88 to R116). Positions are pos64 numbers, velocities and
accelerations Q40.24, gains 2^-48. -/
structure FbAx where
  active : Bool
  /-- A START accepted and a STOP written, both for the next T0; the START with the BW, CPR and JUMP_LIMIT
  read at it. -/
  pendStart : Option FbCfg
  pendStop : Bool
  cfg : FbCfg
  bw : Nat
  cpr : Nat
  jump : Nat
  tol : Nat
  indexAngle : Nat
  /-- The raw count of the last sample used as a measurement, and its position (R90). -/
  raw : Option Nat
  y : Int
  /-- Observer position, velocity and acceleration; measurements since its start (R112, R114). -/
  x : Int
  v : Int
  acc : Int
  nmeas : Nat
  /-- DT of the last update, and of the observer's first measurement. -/
  upd : DT
  firstDt : DT
  k1 : Int
  k2 : Int
  k3 : Int
  settleAt : Nat
  /-- The observer restarts at the next measurement (R116). -/
  restart : Bool
  /-- The angle has started; c in Q40.24, the revolution count, FB_POS at the last update (R105). -/
  angOn : Bool
  c : Int
  rev : Nat
  lastPos : Int
  /-- The index position before (R102), and the index position that references the axis at the next T0 (R103). -/
  prevIdx : Option Int
  refPos : Option Int
  /-- The axis has been updated in this cycle; a sample has been taken for it. -/
  done : Bool
  got : Bool
  cycle : BitVec 32
  missRun : Nat
  /-- MISS_RUN has reached MISS_LIMIT at the last update, and FB_LOST has not come yet. -/
  lossDue : Bool
  ignored : Bool
  rebased : Bool
  /-- The words have been rebased and the update of the cycle has not followed (R111). -/
  updating : Bool
  angStep : Bool
  lost : Bool
  mismatch : Bool
  referenced : Bool
  settled : Bool
  reject : Nat
  suspect : Bool
  extrap : Bool
  measured : Bool
deriving DecidableEq, Repr, Inhabited

/-- A sample of a quadrature channel that is not yet accepted: its DT, which of A, B and Z changed, and
their new levels (R97). -/
structure QePend where
  ts : DT
  cA : Bool
  cB : Bool
  cZ : Bool
  a : Bool
  b : Bool
  z : Bool
deriving DecidableEq, Repr, Inhabited

/-- A quadrature channel (R92 to R101). -/
structure QeCh where
  /-- Confirmed levels, and the levels with the samples still pending. -/
  a : Bool
  b : Bool
  z : Bool
  ra : Bool
  rb : Bool
  rz : Bool
  pend : List QePend
  count : BitVec 32
  edgeDt : DT
  idxDt : DT
  illegal : Nat
  spacing : Nat
  tripped : Bool
  /-- In the guarded phase of policy 2 (R99). -/
  phase : Bool
  /-- Faults of completed cycles: (T0 that ended the cycle, number), newest first; faults of this cycle; fault-free
  cycles in a row; the channel has been in its present phase since the T0 that began the present cycle (R99). -/
  hist : List (Nat × Nat)
  now : Nat
  clean : Nat
  whole : Bool
  /-- The T0 whose latch is still to be formed (R95), and when an injected transition falls (R100). -/
  due : Option DT
  injAt : Option DT
  /-- QE_ILLEGAL has been raised in this cycle (R96). -/
  told : Bool
  inject : Bool
  clr : Bool
  reguard : Bool
  /-- QE_CFGn, CLR_FAULTS and REGUARD as the T0 whose latch is due has found them (R98, R99, R118). -/
  cfgAt : Nat
  clrAt : Bool
  reguardAt : Bool
  /-- Illegal transitions, glitches and faults dated after the T0 whose latch is due, and QE_ILLEGAL raised for one: they
  belong to the cycle that has begun (R96, R118). -/
  lateIllegal : Nat
  lateSpacing : Nat
  lateNow : Nat
  lateTold : Bool
  /-- POLICY and MIN_SPACING before the T0 whose latch is due, by which the edges up to it are judged (R99, R421). -/
  was : Option (Nat × Nat)
  /-- Configuration in force (taken at T0). -/
  policy : Nat
  minSpacing : Nat
  limit : Nat
  window : Nat
  cleanCycles : Nat
deriving DecidableEq, Repr, Inhabited

/-- The feedback engine and the quadrature channels. -/
structure FbSt where
  ax : Tab FbAx
  qe : Tab QeCh
  missLimit : Nat
  dtTol : Nat
  /-- Feedback is open: T0 has passed and the close has not. -/
  isOpen : Bool
  /-- The cycle has been restarted and its first T0 has not passed (R116). -/
  fresh : Bool
  accepted : Nat
  extrapolated : Nat
  rejected : Nat
  closeCycle : Nat
  /-- The sampling-clock PLL is not locked. -/
  noSampling : Bool
deriving DecidableEq, Repr, Inhabited

/-! ### Loop engines (chapters 5 and 6) -/

/-- The LE's own state for one axis. What the axis record holds (AX_STATUS, the integrators, OUT_MAIN as the
previous set-point of R43) is read from the record; ENABLED and FAULT are LE_AXMAPn and LE_FAULTMAPn. -/
structure LeAx where
  cfg : LawCfg
  /-- An LE_AXEN operation that awaits T0: an enable with its configuration, or a disable (R141). -/
  pend : Option (Option LawCfg)
  /-- No step has committed since the enable (R137); the PG has not yet taken up the enable (R176). -/
  fresh : Bool
  pgFresh : Bool
  /-- MANUAL of the last record sent since the enable (R43). -/
  sentManual : Bool
  /-- The record that frame assembly holds from its release on (R22, R42, R43): MAIN, AUX and FLAGS bits 4:0. -/
  recMain : Int
  recAux : Int
  recFlags : Nat
  /-- LATE_HOLD has been raised since the enable (R48). -/
  lateTold : Bool
  /-- The last LE_ECC (R145), by the T0s since power-on. -/
  eccCycle : Option Nat
  /-- A bank switch with WHEN = 2 has met its activation cycle (R140). -/
  switchDue : Bool
  /-- The correction has been applied since REP_ANGLE_LOST was last raised (R162). -/
  angleArmed : Bool
  /-- The correction was clamped in the last committed step (Table 6.1). -/
  corrClamped : Bool
deriving DecidableEq, Repr, Inhabited

/-- A result of an axis step with its state update (R44). -/
structure LeRes where
  axis : Nat
  cycle : BitVec 32
  main : Int
  aux : Int
  manual : Bool
  /-- Words of the axis record to write: offset and signed value. -/
  words : List (Nat × Int)
  /-- Bits to set in SATWORD; AX_STATUS bits 11:6. -/
  sat : Nat
  flags : Nat
  /-- The SAT_NEW mask as it stood when the engine read the record (R23, R135). -/
  satSel : Nat
  /-- MAN_OUT under R138. -/
  manOut : Option Int
  /-- A bank switch taken in this step: its reason code's low byte, 0 when it passed (R140). -/
  bank : Option Nat
  /-- Changed bins of the table and their 32-bit values (R160), and the pool entry at which the table begins. -/
  table : List (Nat × Nat)
  tableBase : Nat
  /-- REP_COUNTS: bin updates, and one more frozen step (R160, R161). -/
  updates : Nat
  frozen : Bool
  /-- REP_ANGLE_LOST is due (R162); the correction was applied; it was clamped. -/
  angleLost : Bool
  applied : Bool
  corrClamped : Bool
  /-- The step meets REP_CMD.UNSTALE (R168). -/
  unstale : Bool
  /-- The step ends without a result: the uncorrectable word that it met (R145). -/
  ecc : Option Nat
  stepDt : DT
deriving DecidableEq, Repr, Inhabited

/-- A place in the reorder window of flow 0, oldest first (R45). -/
structure WinEntry where
  axis : Nat
  res : Option LeRes
deriving DecidableEq, Repr, Inhabited

/-- A loop engine: the item it executes and the item in its prefetch slot. -/
structure LeEng where
  inService : Bool
  faulted : Bool
  withdraw : Bool
  restore : Bool
  late : Bool
  /-- ENGINE_FAULT has been raised for the item it executes (R46). -/
  told : Bool
  /-- It executed a late item at the last CW_START: it is given nothing in this cycle (R46). -/
  barred : Bool
  exe : Option LeRes
  slot : Option LeRes
deriving DecidableEq, Repr, Inhabited

/-- The loop engines and flow 0. -/
structure LeSt where
  ax : Tab LeAx
  eng : Tab LeEng
  /-- Axes of the dispatch order not yet in a slot (R339). -/
  order : List Nat
  win : List WinEntry
  windowOpen : Bool
  /-- Axes whose record of this cycle has been released. -/
  released : List Nat
  /-- Axes that an enable put into service at the last T0. -/
  begun : List Nat
  steps : Nat
  discards : Nat
  cwCycle : Nat
  /-- Cycle of the last committed activation T0 (R140). -/
  actCycle : Option (BitVec 32)
  /-- The last axis enabled with each downlink record, by 256 × segment + 8 × node + record: axis + 1 and
  STRUCT (R202). -/
  remembered : Tab (Nat × Nat)
  /-- Table copies to the standby: axis and entries still to copy (R168). -/
  syncs : List (Nat × Nat)
  /-- Bins updated by the steps committed in this cycle: axis, bin and 32-bit value (R167). -/
  deltas : List (Nat × Nat × Nat)
deriving DecidableEq, Repr, Inhabited

/-! ### Profile generator (chapter 7) -/

/-- The profile generator. -/
structure PgSt where
  ax : Tab PgAx
  grp : Tab PgGrp
  /-- ENABLE has been set and no TR has followed; ENABLE has been cleared and one last set-point is due (R173). -/
  starting : Bool
  ending : Bool
deriving DecidableEq, Repr, Inhabited

/-! ### Field links, slots, guardians, epochs (chapters 8 and 9) -/

/-- A discovery in progress (R212): the node number reached; what is awaited (0 the ANNOUNCE of a numbering or a
probe, 1 a measurement of node k, 2 one of the far head); tries or exchanges so far; the round trips gathered,
their sum and number; and the DT at which the last DISCOVER left. -/
structure FpDisc where
  k : Nat
  phase : Nat
  tries : Nat
  sum : Int
  cnt : Nat
  tx : DT
deriving DecidableEq, Repr, Inhabited

/-- What a port keeps of one node beside its registers. -/
structure FpNode where
  /-- Twice the last delay values, newest first, at most 64 (R208, R209). -/
  rts : List Int
  /-- The last evaluation found the mean further than DELAY_TOL from DELAY (R208). -/
  drift : Bool
  /-- Faults of completed cycles: (T0s before the one that ended the cycle, number), newest first; faults of this cycle
  (R233). -/
  hist : List (Nat × Nat)
  now : Nat
  /-- Cycles in a row without an accepted UPLINK (R215). -/
  missRun : Nat
  /-- STATUS of an accepted UPLINK has been seen, P_UP and Q_UP of the last one (R215). -/
  pUp : Bool
  qUp : Bool
  /-- ACK_EPOCH of the latest UPLINK accepted since the pending change was accepted (R243). -/
  ack : Option Nat
  /-- In this cycle a frame passed, and failed, the epoch test; the outcome at this end in the last completed cycle (R246). -/
  epochOk : Bool
  epochBad : Bool
  epochLast : Option Bool
  /-- NODE_EPOCH_STOP has been raised for this stay in the wrong epoch (R247). -/
  stopTold : Bool
  /-- A mute (true) or unmute (false) asked for the next TR, and whether a fault count asked (R233, R234). -/
  muteReq : Option Bool
  /-- An automatic mute was due in a recovery (R404). -/
  muteLater : Bool
  /-- One-way delays of the ANNOUNCEs that reached end B before a schedule is committed (R457). -/
  anns : List Int
deriving DecidableEq, Repr, Inhabited

/-- A record that the active relays beyond a break (R217): node, record, AXIS word, flags, MAIN, AUX, arrival. -/
structure FpRelay where
  node : Nat
  record : Nat
  axisWord : Nat
  flags : Nat
  main : Int
  aux : Int
  at_ : DT
deriving DecidableEq, Repr, Inhabited

/-- A field port. SEG_STATE, TOPO, NODES, END, ALONE, OVERFULL, DELAY_DRIFT and LINK_UP stand in its STATE register. -/
structure FpSt where
  /-- The SerDes PLL is not locked. -/
  noClock : Bool
  disc : Option FpDisc
  /-- FP_DISC.START was written with the link down (FP_DISC). -/
  discAtUp : Bool
  nodes : Tab FpNode
  /-- Values that T0 takes up: TIMEOUT, DELAY_TOL, MUTE_LIMIT, MUTE_WINDOW. -/
  timeout : Nat
  delayTol : Nat
  muteLimit : Nat
  muteWindow : Nat
  /-- A COMMIT, and a RELEASE, await T0 (R228). -/
  commit : Bool
  release : Bool
  /-- Frames accepted in this cycle: TYPE, SRC, slot (64 for a relayed one) and SEQ. -/
  accepted : List (Nat × Nat × Nat × Nat)
  /-- Those of the cycle before, for frames relayed after its end (R206, R216). -/
  acceptedLast : List (Nat × Nat × Nat × Nat)
  /-- The link was up at the last T0 (R213). -/
  upT0 : Bool
  /-- The break was declared in this cycle: nothing is relayed yet (R218). -/
  brokeNow : Bool
  /-- At end B, twice the last delays from end A to end B, newest first, at most 64 (R208, R209). -/
  ringRts : List Int
  /-- Bitmaps of the bound nodes accepted at this end and at the other in the last completed cycle. -/
  seenOwn : Nat
  seenOther : Nat
  /-- The bound nodes accepted at the other end by the last exchange of the two units (R216). -/
  farSeen : Nat
  /-- P_UP or Q_UP has fallen since the last exchange; cycles in a row with a one-sided node; cycles in a row in
  which every bound node was accepted; the cycle in which that count reached 64 (R215, R218). -/
  fell : Bool
  oneSided : Nat
  healRun : Nat
  healCycle : Option (BitVec 32)
  /-- The cycle at whose T0 the segment healed (R218). -/
  healedIn : Option (BitVec 32)
  /-- The epoch fields that this unit relayed, or was relayed: cycle, NEXT_EPOCH, EPOCH_CMD, ACT_CYCLE (R217). -/
  epochRel : Option (BitVec 32 × Nat × Nat × Nat)
  claims : List FpClaim
  grants : List FpClaim
  /-- Spare entries that return to the pool at the next T0 (R239). -/
  revert : List Nat
  /-- DT of the previous beacon or ALONE DISCOVER (R214). -/
  beacon : Option DT
  /-- Cycle and TR_DT of the last DOWNLINK sent (R208). -/
  lastTr : Option (BitVec 32 × DT)
  relays : List FpRelay
  /-- SLOT_FAULT has been raised in this cycle (R249). -/
  faultTold : Bool
  missedAny : Bool
  rx : Nat
  bad : Nat
  other : Nat
  fullCount : Nat
  relayed : Nat
  relayHolds : Nat
  accept : Nat
  window : Nat
  noslot : Nat
  oversize : Nat
  epoch : Nat
  muted : Nat
  missed : Nat
  empty : Nat
  lost : Nat
  refused : Nat
  ulCycle : Nat
deriving DecidableEq, Repr, Inhabited

/-! ### Acquisition (chapters 10 and 11) -/

/-- One sample: its DT, its value, GAP before it and OVERRANGE. -/
structure AeSmp where
  dt : DT
  x : Int
  gap : Bool
  ovr : Bool
  /-- It begins a block (R255); INTERVAL with which it came. -/
  fresh : Bool
  step : Nat
deriving DecidableEq, Repr, Inhabited

/-- A reduction group being formed (R263, R264): its number, sums, extremes and samples; and whether a group
without samples came before. -/
structure AeRed where
  group : Option Int
  sum : Int
  sumsq : Int
  min : Int
  max : Int
  count : Nat
  /-- Positions sampled, and the last of them (R264). -/
  places : Nat
  lastPos : Int
  gap : Bool
  ovr : Bool
  /-- The group's value begins a block: the first since the origin was taken, or after a group without samples. -/
  fresh : Bool
deriving DecidableEq, Repr, Inhabited

/-- An enabled channel: CH_CFG, CH_FACTORS and CH_INTERVAL as read at enable (R251), the present INTERVAL, the
expected DT e (R255), the origin of positions (R263), the last sample and the four reduction slots. -/
structure AeCh where
  cfg : Nat
  factors : Nat
  expect : Nat
  interval : Nat
  next : Option DT
  origin : Option DT
  last : Option AeSmp
  red : Tab AeRed
deriving DecidableEq, Repr, Inhabited

/-- A channel block under assembly (Table 10.3). -/
structure AeBlk where
  chan : Nat
  slot : Nat
  kind : Nat
  flags : Nat
  first : DT
  interval : Nat
  data : List Int
  /-- The stamps of the samples, held for the blocks of a record alone, which may be split (R270). -/
  dts : List DT := []
deriving DecidableEq, Repr, Inhabited

/-- A mark entry (Table 10.4). -/
structure AeMark where
  kind : Nat
  flags : Nat
  source : Nat
  info : Nat
  dt : DT
deriving DecidableEq, Repr, Inhabited

/-- The open packet of a stream (R260): when it opened, its blocks in order, its marks, and the DT of its first
sample. -/
structure AePkt where
  opened : DT
  blocks : List AeBlk
  marks : List AeMark
deriving DecidableEq, Repr, Inhabited

/-- A packet that is closed and not yet handed to DMA (R259, R272): its type, CLOSE_DT, GEN and ERA at close, the numbers of
its blocks and marks, what follows its header, the DT of its first sample, and for an overflow's own packet its cause. -/
structure AeOut where
  ptype : Nat
  close : DT
  gen : Nat
  era : Nat
  blocks : Nat
  marks : Nat
  body : List Nat
  first : DT
  cause : Nat
deriving DecidableEq, Repr, Inhabited

/-- A record that collects (R269): dt, for each member the samples before dt and from dt on, and the members closed late. -/
structure AeRec where
  dt : DT
  pre : Tab (List AeSmp)
  post : Tab (List AeSmp)
  shut : List Nat
deriving DecidableEq, Repr, Inhabited

/-- A stream: what START read (R258), its state (0 IDLE, 1 WAITING, 2 RUNNING, 3 OVERFLOWED) and what it assembles. -/
structure AeStr where
  state : Nat
  cfg : Nat
  base : Nat
  size : Nat
  unit : Nat
  pre : Nat
  post : Nat
  start : DT
  /-- Bytes of the assembly pool in use (Table 10.8). -/
  pool : Nat
  pkt : Option AePkt
  mapped : DT
  records : Nat
  rcd : Option AeRec
  hist : Tab (List AeSmp)
  /-- A RESTART mark is due with so many lost marks, and the (channel × 8 + slot) that have had their first block
  since (R273). -/
  restart : Option Nat
  seen : Option (List Nat)
  /-- Packets closed that wait for room in the stream-packet queue, the oldest first (R20, R272). -/
  held : List AeOut
deriving DecidableEq, Repr, Inhabited

/-- A trigger unit beside its registers (R265). -/
structure AeTrg where
  armR : Bool
  armF : Bool
  fired : Option DT
deriving DecidableEq, Repr, Inhabited

/-- A scheduled pulse (R268): pin, start and width in ns. -/
structure AePulse where
  pin : Nat
  start : DT
  width : Nat
deriving DecidableEq, Repr, Inhabited

/-- The acquisition engine. -/
structure AeSt where
  ch : Tab AeCh
  str : Tab AeStr
  trg : Tab AeTrg
  pulses : List AePulse
  /-- The instant until which each TRIG_OUT pin is high by the pulses that have begun (R268). -/
  high : Tab (Option DT)
  /-- Confirmed level of each trigger pin, its level at T0, and rising edges since T0; the cycle in progress: its T0, number
  and period (R253). -/
  level : Nat
  level0 : Nat
  edges : Tab Nat
  pinCycle : Option (DT × Nat × Nat)
  /-- Flits in the stream-packet queue (Table 1.3). -/
  path : Nat
  /-- Time state and selected slot of which the streams' last MAPPING packets told (R262). -/
  told : Nat × Option Nat
  samples : Nat
  packets : Nat
  bytes : Nat
  discard : Nat
deriving DecidableEq, Repr, Inhabited

/-- A grid waveform that is complete and waits to be written (R291): 1 REVOLUTION or 2 AVERAGE. -/
structure AngRec where
  kind : Nat
  flags : Nat
  startDt : DT
  endDt : DT
  rev : Nat
  revs : Nat
  y : List Int
deriving DecidableEq, Repr, Inhabited

/-- A source sample taken up: DT, value, angle, and the number of the latch entry used (R284, R285). -/
structure AngPt where
  dt : DT
  x : Int
  theta : Int
  entry : Nat
deriving DecidableEq, Repr, Inhabited

/-- An enabled angle channel: the descriptor words as read at enable, the queue of source samples not yet taken
up, and the revolution in progress (R281 to R295). -/
structure AngCh where
  cfg : Nat
  order : Nat
  offset : Nat
  speed : Nat
  map : Nat
  base : Nat
  size : Nat
  queue : List AeSmp
  /-- A source sample was dropped since the last that joined the queue (R255, R286). -/
  lossDue : Bool
  prev : Option AngPt
  /-- COLLECTING: the revolution, the next point, the values so far, DT of points 0 and of the last one, flags. -/
  coll : Bool
  rev : Int
  j : Nat
  y : List Int
  firstDt : DT
  lastDt : DT
  flags : Nat
  /-- Of the partial average: flags, DT of its first point 0 and its first revolution. -/
  avgFlags : Nat
  avgDt : DT
  avgRev : Nat
  /-- The next average record, and the next record written, carry RESTARTED (R288, R292). -/
  avgRestart : Bool
  ringRestart : Bool
  stallTold : Bool
  lastBad : Bool
  contribR : Nat
  contribA : Nat
deriving DecidableEq, Repr, Inhabited

/-- The angle page (chapter 11). -/
structure AngSt where
  ch : Tab AngCh
  /-- Records complete and not yet written, in the order in which they completed: channel and record. -/
  due : List (Nat × AngRec)
  /-- Entries recorded in each axis's latch history (R283); 0 before the first. -/
  latch : Tab Nat
  /-- Axes whose updates are recorded. -/
  axes : List Nat
  /-- Histograms enabled: channel and MON_HIST as read (R294). -/
  hist : Tab (Option Nat)
  /-- Table entries that may still be read before the next CW_END, and whether a table may be read now (R290). -/
  tableLeft : Nat
  tableOpen : Bool
  /-- The copy in progress: operation, index, when it was taken (R296). -/
  copy : Option (Nat × Nat)
deriving DecidableEq, Repr, Inhabited

/-! ### Signal cores (chapter 12) -/

/-- The architectural state of a context (Table 12.2). Registers that are not listed hold 0. -/
structure Arch where
  g : Tab (BitVec 64)
  a : Tab (BitVec 136)
  p : Tab (BitVec 32)
  m : Tab (BitVec 32)
  b : Tab (BitVec 32)
  l : Tab (BitVec 32)
  csr : BitVec 64
  pc : BitVec 14
  /-- Delay slots still to run, 0 to 2, and where execution continues after the last (R305). -/
  slots : Nat
  target : BitVec 14
  /-- Repeat state (R307): active, remaining count, body start and body length. -/
  repOn : Bool
  repCount : Nat
  repStart : BitVec 14
  repLen : Nat
  /-- Delayed general-register results, oldest first, and the delayed accumulator result (R304). -/
  delG : List (Nat × BitVec 64)
  delA : Option (Nat × BitVec 136)
deriving DecidableEq, Repr, Inhabited

/-- A delayed pointer write (R304): which of pN, mN, or the circular pair bN and lN. -/
inductive DelPtr where
  | ptr (n : Nat) (v : BitVec 32)
  | modifier (n : Nat) (v : BitVec 32)
  | circ (n : Nat) (base len : BitVec 32)
deriving DecidableEq, Repr

/-- An entry of the store buffer (R315): address, size in bytes and data. -/
structure StoreEntry where
  addr : Nat
  size : Nat
  data : Nat
deriving DecidableEq, Repr, Inhabited

/-- What the resident context waits for (R318, R319). -/
inductive CoreWait where
  | running
  /-- An LDR: destination, size in bytes, sign extension, address, when it was requested, data, whether they are
  uncorrectable, and whether the target has answered. -/
  | ldr (d size : Nat) (sign : Bool) (addr : Nat) (since : DT) (data : Nat) (poisoned arrived : Bool)
  | fence
  /-- A WAIT with a notice pending, until the remote stores are acknowledged (R319, R324). -/
  | note
  /-- An STR that waits for a credit. -/
  | str
  /-- The context leaves in the state of Table 13.1 given, with the cause given, once its remote stores
  are acknowledged and the save area is written (R320, R323). `head`: it returns to the head of its
  ready list (pre-emption); `lock`: the lock it blocks on. -/
  | leaving (st cause : Nat) (head : Bool) (lock : Option Nat)
deriving DecidableEq, Repr, Inhabited

/-- One signal core. -/
structure CoreSt where
  inService : Bool
  dormant : Bool
  resident : Option Nat
  arch : Arch
  prefetch : Option Nat
  preArch : Arch
  delP : List DelPtr
  stores : List StoreEntry
  /-- Outstanding remote stores: address and DT of issue (R319), oldest first. -/
  remote : List (Nat × DT)
  wait : CoreWait
  /-- Keystone requests a pre-emption (R321). -/
  preempt : Bool
  /-- Keystone resets the resident context when it has left (R333). -/
  resetting : Bool
  /-- The core leaves service when its context has left (R330). -/
  closing : Bool
  /-- The repeat cache: word index and word (R307). -/
  cache : List (Nat × Nat)
  faultPc : BitVec 14
  faultAddr : Nat
  lastCtx : Nat
  lastPc : BitVec 14
  retired : Nat
  stalls : Nat
  remoteSteps : Nat
  switches : Nat
  /-- Since when the core has held no context (R327). -/
  idleSince : DT
  /-- Trace: pending branch outcomes, records since the last SYNC, tracing (R447, R448). -/
  trcBits : List Bool
  trcSince : Nat
  trcOn : Bool
deriving DecidableEq, Repr, Inhabited

/-! ### Keystone (chapter 13) -/

/-- CX_CFG as last read (R333). -/
structure CxRead where
  prio : Nat
  cores : Nat
  flow : Nat
deriving DecidableEq, Repr, Inhabited

/-- An item of an ordered flow (R341, R342). -/
structure FlowItem where
  seq : Nat
  arg : Word
  worker : Option Nat
  done : Bool
  failed : Bool
  result : Word
deriving DecidableEq, Repr, Inhabited

/-- An ordered flow: state of Table 13.4 (0 OFF, 1 ENABLED, 2 DRAINING), next sequence number, ring, and
the items posted and not yet released, in order. -/
structure FlowSt where
  state : Nat
  next : Nat
  base : Nat
  sizeLog2 : Nat
  items : List FlowItem
deriving DecidableEq, Repr, Inhabited

/-- A delay-list entry (R344). -/
structure DlEntry where
  dt : DT
  write : Bool
  arg : Word
  val : Word
  tag : Nat
  discard : Bool
  /-- It was past due when inserted, by so many ns (R345). -/
  late : Bool
deriving DecidableEq, Repr, Inhabited

/-- Keystone (chapter 13). -/
structure KsSt where
  cfg : Tab CxRead
  /-- Ready lists by priority (R335). -/
  ready : Tab (List Nat)
  /-- Contexts blocked on a lock, in the order in which they will be granted (R347). -/
  lockQ : Tab (List Nat)
  /-- The lock that a context was granted while away, plus one, and whether it was abandoned (R325). -/
  granted : Tab (Nat × Bool)
  /-- The master that took a lock through KS_LOCK_CMD, plus one (R348). -/
  lockMaster : Tab Nat
  flows : Tab FlowSt
  /-- The delay list in the order in which its entries fire (R344). -/
  delay : List DlEntry
  lastTick : DT
  /-- The period that separates the last tick from the next (R343). -/
  period : Nat
  ticked : Bool
  ticks : Nat
  late : Nat
  discarded : Nat
  noticesLost : Nat
  preempts : Nat
  /-- Credits granted from the pool (KS_POOL.USE). -/
  poolUse : Nat
  /-- The delayed pointer writes of a context that has left a core (R304): Table 12.5 gives them no place in the save area. -/
  heldPtr : Tab (List DelPtr)
deriving DecidableEq, Repr, Inhabited

/-! ### Memory, translation, DMA and queues (chapter 14) -/

/-- A cached translation or, with `ptr`, a cached table pointer: the number of the page or of the range that the
pointer's entry covers, its size in bits, the frame, and the HOST bit (R366). -/
structure XuEntry where
  page : Nat
  sizeLog2 : Nat
  frame : Nat
  host : Bool
  ptr : Bool
deriving DecidableEq, Repr, Inhabited

/-- An invalidation in progress or waiting (R366): none for all, else first page and number of pages. -/
structure XuInval where
  range : Option (Nat × Nat)
deriving DecidableEq, Repr, Inhabited

/-- One ring of a DMA engine (R368 to R373). `state`: 0 OFF, 1 IDLE, 2 ACTIVE, 3 PREEMPTED, 4 SUSPENDED,
5 HALTED. `desc` is the descriptor in progress as 64 bytes read; `written` the bytes written; `held` the bytes read
and not yet written; `finish`: all bytes are written, the completion is due, with its error code; 8: the status is written back, the
completion write is due; 9: the status is due; 10: the ring goes OFF when the status of its aborted descriptor is written back. -/
structure DmaRing where
  state : Nat
  base : Nat
  sizeLog2 : Nat
  rd : Nat
  fetched : Bool
  desc : List Nat
  written : Nat
  held : List Byte
  finish : Option Nat
  /-- It waits for a word of a queue (R379). -/
  waiting : Bool
  /-- The flit last charged for the fetch (0), the source (1), the destination (2), the status (3) and the completion write (4) of
  the descriptor in progress, plus one (R350, R374). -/
  paid : Tab Nat
  faultAddr : Nat
  /-- Of ring 0, for its engine: 1 while the engine carries out a step, 2 when something has told it in the meantime to go on. What
  its own writes bring about waits for the end of the step (R369). -/
  turn : Nat
deriving DecidableEq, Repr, Inhabited

/-- A waiting read of a queue: the master and its deadline (R379). -/
structure QWait where
  master : Nat
  owner : Nat
  deadline : DT
deriving DecidableEq, Repr, Inhabited

/-- A committed or open packet of a hardware queue: position of its header and its number of data words. -/
structure QPacket where
  head : Nat
  count : Nat
deriving DecidableEq, Repr, Inhabited

/-- A hardware queue (R376 to R380). Positions are free-running word counts. -/
structure QueueSt where
  on : Bool
  base : Nat
  sizeLog2 : Nat
  timeout : Nat
  autoMark : Bool
  notifyAddr : Nat
  notifyVal : Nat
  /-- Producer position P, read point R and mark M. -/
  p : Nat
  r : Nat
  m : Nat
  /-- The open packet and its owner; BROKEN. -/
  openPkt : Option QPacket
  owner : Nat
  broken : Bool
  /-- Committed packets at or after M, oldest first. -/
  packets : List QPacket
  waits : List QWait
deriving DecidableEq, Repr, Inhabited

/-- A 64-bit write that a block of the device is to make as any master does: its master number, the XU address, the value (R26, R363). -/
structure DevWrite where
  master : Nat
  addr : Nat
  val : Word
deriving DecidableEq, Repr, Inhabited

/-- An access of a master, as it waits behind an earlier read of a queue by the same master (R27, R379), or for the boundary at whose
very instant it came (R421). -/
inductive HeldAccess where
  /-- A write of the register at BAR0 offset `a`. -/
  | reg (m a : Nat) (v : Word)
  /-- A guarded write of the register at offset `off` of the page at `p`, by its three writes (R417). -/
  | guarded (m p off : Nat) (v : Word)
  /-- A write of `n` bytes at XU address `a`. -/
  | bus (m a n : Nat) (v : Word)
  /-- A read of Q_POP of queue `q`. -/
  | pop (m q : Nat)
  /-- REP_CMD.SYNC of axis `a` is set. -/
  | sync (m a : Nat)
  /-- An access of HP: a write with its data and whether it came as a poisoned TLP, or a read. -/
  | host (sp off n : Nat) (write : Option (Word × Bool))
  | mpWrite (addr v : Word)
  | mpRead (addr : Word)
  | jtag (sp off : Nat) (write : Option Word)
deriving DecidableEq, Repr

/-- The master of a held access (Table 16.8). -/
def HeldAccess.master : HeldAccess → Nat
  | .reg m .. => m
  | .guarded m .. => m
  | .bus m .. => m
  | .pop m _ => m
  | .sync m _ => m
  | .host .. => 0
  | .mpWrite .. => 3
  | .mpRead _ => 3
  | .jtag .. => 4

/-- Whether a held access is a write. -/
def HeldAccess.writes : HeldAccess → Bool
  | .pop .. => false
  | .host _ _ _ w => w.isSome
  | .mpRead _ => false
  | .jtag _ _ w => w.isSome
  | _ => true

/-- Error counts, scrubbing, translation (R358 to R366). -/
structure MemSt where
  ceSram : Nat
  ueSram : Nat
  ceDram : Nat
  ueDram : Nat
  ceEvtSram : Option DT
  ceEvtDram : Option DT
  scrubSram : Bool
  scrubDram : Bool
  cache : List XuEntry
  invals : List XuInval
  /-- The LPDDR5 is in self-refresh (Table 15.7). -/
  selfRefresh : Bool
deriving DecidableEq, Repr, Inhabited

/-! ### Host interfaces, boot, trace and bring-up (chapters 17 and 18) -/

/-- PCIe endpoint (R433 to R437). -/
structure HpSt where
  link : Bool
  width : Nat
  speed : Nat
  busMaster : Bool
  d3hot : Bool
  /-- MSI-X Enable and Function Mask of the configuration space (R433). -/
  msixOn : Bool
  msixMask : Bool
  /-- Uncorrectable errors that Advanced Error Reporting shows, by their PCI Express bit (R433). -/
  aer : Nat
  /-- A host read of a queue waits for its completion (R379). -/
  reading : Bool
  /-- Vectors whose message waits for the host to unmask them (R435), rising. -/
  msixPending : List Nat
  /-- Posted writes discarded because the ingress buffer was full (R21). -/
  discards : Nat
deriving DecidableEq, Repr, Inhabited

/-- A cached register-access reply: its operations, two words each (Table 17.3, R441). -/
structure RaReply where
  ip : Nat
  port : Nat
  seq : Nat
  reply : List (Nat × Nat)
deriving DecidableEq, Repr, Inhabited

/-- A register-access request in progress or waiting (R439): its source, SEQ, the outcome of the self-checks that it runs into,
all its operations, those still to be made and the results so far; `waits`: its read of a queue waits (R379), `answer` the word it got. -/
structure RaReq where
  ip : Nat
  port : Nat
  seq : Nat
  pass : Nat
  all : List (Nat × Nat × Nat × Word)
  ops : List (Nat × Nat × Nat × Word)
  done : List (Nat × Nat)
  waits : Bool
  answer : Option Nat
deriving DecidableEq, Repr, Inhabited

/-- A host Ethernet port: link, SerDes PLL lock (as its complement) and cached replies, the least
recently served first. -/
structure HeSt where
  link : Bool
  noClock : Bool
  /-- Frames discarded because the ingress buffer was full (R21). -/
  discards : Nat
  replies : List RaReply
  /-- Requests in arrival order, the one in progress first. -/
  reqs : List RaReq
deriving DecidableEq, Repr, Inhabited

/-- Trace unit (R447 to R449). -/
structure TrcSt where
  lost : Nat
  lostFirst : DT
deriving DecidableEq, Repr, Inhabited

/-- Housekeeping controller (chapter 18). -/
structure HkSt where
  /-- The core supplies are up (CORE_POWER). -/
  corePower : Bool
  booted : Bool
  starting : Bool
  started : Bool
  minimal : Bool
  /-- The start stages begun and done (R454). -/
  begun : List Nat
  stagesDone : List Nat
  /-- AUTO was cleared: the sequence ends after the current stage (R461). -/
  ending : Bool
  /-- An image failure stands for this start (R446, R463). -/
  imageFail : Bool
  /-- When the PW page was enabled (R455). -/
  pairSince : DT
  /-- A restart of the module is due from this DT on (R464, R466). -/
  restartAt : Option DT
  /-- The unit became ACTIVE alone by its TWIN_ID strap, and its start goes on as SINGLE would (R455). -/
  single : Bool
  /-- The HK start log of the flash, the latest entry first (Table 17.4, R463): 0 a start begins, 1 it is complete, 2 it has failed, 3 it
  is complete after a fallback of its image, 4 RESTART_CLEAR; of a failed start the word of HK_FAILLOG, else 0. -/
  log : List (Nat × Word)
  /-- The feeds became GOOD, and stage 10 ended, at these DTs (R460). -/
  feedsAt : DT
  stage10At : DT
deriving DecidableEq, Repr, Inhabited

/-- JTAG port (R450): the instruction in force (0 BYPASS, 1 IDCODE, 2 SAMPLE/PRELOAD, 3 EXTEST, 4 DEBUG),
the preloaded boundary values, which EXTEST drives onto the pins where `extestDrives`, and whether a DEBUG read of a queue waits. -/
structure JtagSt where
  ir : Nat
  boundary : Word
  reading : Bool
deriving DecidableEq, Repr, Inhabited

/-! ### Twin and feeds (chapter 15) -/

/-- The twin state of the unit (R384 to R406). -/
structure TwSt where
  /-- Role of Table 15.2. -/
  role : Nat
  link : Bool
  /-- Lanes up, one bit each, and lanes cabled. -/
  lanes : Nat
  /-- The party-wall SerDes PLL is not locked. -/
  noClock : Bool
  partnerRole : Nat
  /-- Pairing over the present link was refused (R387). -/
  refused : Bool
  /-- Own DT minus the active's DT at own DT `dtAt`, its rate (TW_DTMAP, TW_DTRATE) and the correction still to be slewed from
  then on; the exchange of R388 is locked. -/
  dtOff : Int
  dtRate : Int
  dtAt : DT
  dtSlew : Int
  locked : Bool
  /-- The active's last T0 that this standby has mapped: its cycle and its instant in the active's DT (R388, R389). -/
  mapT0 : Option (BitVec 32 × DT)
  /-- The last copy was applied (R391), and in which cycle. -/
  copyCurrent : Bool
  copyCycle : Option (BitVec 32)
  /-- Cycles whose copy has been applied in a row (R405), and whether the bulk copy is done. -/
  consecutive : Nat
  /-- What the words that the last copy changed held before it: address and value; the cycle of the copy before (R394). -/
  prior : List (Nat × Nat)
  priorCycle : Option (BitVec 32)
  /-- What the LE held of the axes of the last copy before it (R394). -/
  priorLe : List (Nat × LeCarry)
  /-- A complete copy that has come before the T0 after its cycle (R391). -/
  early : Option (BitVec 32 × CopyBody)
  /-- The last cycle whose copy is settled, applied or dropped; the cycle whose copy the new active of a planned switch still
  takes (R400). -/
  copyClosed : Option (BitVec 32)
  awaitCopy : Option (BitVec 32)
  /-- Mirrored writes that wait for a copy: cycle, BAR0 offset and value, in their order (R390). -/
  mirrors : List (BitVec 32 × Nat × Word)
  /-- Messages discarded because the party-wall ingress buffer was full (R21). -/
  discards : Nat
  bulkDone : Bool
  copies : Nat
  missed : Nat
  compares : Nat
  mismatches : Nat
  switches : Nat
  /-- Cycles of the mismatches of the last 1,024 cycles (R394). -/
  mismCycles : List (BitVec 32)
  /-- The bit of the next injected comparison (R395). -/
  injectBit : Nat
  cmpFaulty : Bool
  /-- The protected set: image of the HK, the live set that it last followed, and partner copy, by BAR0 offset (R396). -/
  image : List (Nat × Word)
  followed : List (Nat × Word)
  partnerSet : List (Nat × Word)
  protResolving : Bool
  /-- A recovery runs (R403); its first instant d; the first computed cycle s; it ended and the first UL_END has
  not been handled yet (R406). -/
  recovering : Bool
  recStart : DT
  firstCycle : BitVec 32
  recEnded : Bool
  recTr : Bool
  /-- Cause of a takeover that takes effect at the next T0, plus one (R402). -/
  takeover : Nat
  /-- A planned switch is accepted for this handover cycle (R400). -/
  switchCycle : Option (BitVec 32)
  isolated : Bool
  /-- The cross-check of R397 was deferred by a recovery (R404). -/
  crossDue : Bool
  /-- Causes of Table 15.5 that have been detected and not yet declared; causes whose condition has been declared
  and still stands. -/
  standing : List Nat
  told : List Nat
  /-- The set-points of the last DOWNLINK received at end B: axis, MAIN, AUX, MANUAL (R402). -/
  dlRecs : List (Nat × Int × Int × Bool)
  /-- The downlink record last sampled for shadow evaluation, by its key (R393). -/
  lastSample : Option Nat
  /-- Cycle of the last heartbeat, of the last DOWNLINK received at end B, and of the last one there of a RING segment with a
  bound node (R401). -/
  hbCycle : Option (BitVec 32)
  dlCycle : Option (BitVec 32)
  dlRing : Option (BitVec 32)
  /-- A controlled stop begins at the next TR (R403). -/
  stopPending : Bool
deriving DecidableEq, Repr, Inhabited

/-- One feed (R407): 0 ABSENT, 1 GOOD, 2 OVER, 3 DISABLED; since when the voltage has stood in the range that
makes it GOOD. -/
structure FeedSt where
  state : Nat
  volts : Nat
  since : Option DT
deriving DecidableEq, Repr, Inhabited

/-- The feed supervisor (R407 to R409, R398). -/
structure FsSt where
  a : FeedSt
  b : FeedSt
  powerFail : Bool
  shutdown : Bool
  regFault : Bool
  /-- The fault is in the VCORE conversion stage (Table 2.6). -/
  regVcore : Bool
  overtemp : Bool
  tjSince : Option DT
  /-- HOLDUP has been charged to 47.0 V, and the charger holds it (R472). -/
  charged : Bool
deriving DecidableEq, Repr, Inhabited

/-! ### What the last command sent to the outside -/

/-- A frame, message or reply that left the device in the last command. -/
inductive Out where
  /-- An MSI-X message (R435). -/
  | msix (vector : Nat)
  /-- A Seluth frame on field port `port`: its bytes before the FCS (R199). -/
  | frame (port : Nat) (bytes : List Nat)
  /-- A PTP message: HE port, domain slot, 0 Delay_Req, 1 Pdelay_Req, 2 Pdelay_Resp, 3 Pdelay_Resp_Follow_Up (R70), and the
  time that it carries: the receipt of the request, the egress of the response. -/
  | ptp (port slot kind : Nat) (time : DT)
  /-- REF10_OUT re-phases: a rising edge, and RATE (R84). -/
  | ref10 (edge : DT) (rate : Int)
  /-- Master `master` is told that the supply of its target is down (R26). -/
  | noPower (master : Nat)
  /-- A pulse on an output pin: 0 to 7 TRIG_OUT, 8 PPS_OUT; its start and width in ns. -/
  | pulse (pin : Nat) (start : DT) (width : Nat)
  /-- A reply to a register-access request: destination, the word of MAGIC, VERSION, OPS and SEQ, and two words for each operation:
  OP, STATUS, SPACE and OFFSET, and VALUE (Table 17.3, R439). -/
  | raReply (he ip port head : Nat) (ops : List (Nat × Nat))
  /-- An ARP reply: its destination, and the port's MAC address (R438). -/
  | arpReply (he ip mac : Nat)
  /-- The answer of MP: status byte, data and PEC byte (R442). -/
  | mpReply (status : Nat) (data : Word) (pec : Nat)
  /-- The completion of a host read: EP bit and data (R436). -/
  | hostReply (ep : Bool) (data : Word)
  /-- The value a JTAG instruction shifts out (R450). -/
  | jtag (data : Word)
  /-- DEBUG has read an uncorrectable word (Table 14.2). -/
  | jtagError
  /-- A word returned to a reader of a queue: master, value, VALID (R378, R379). -/
  | popped (master : Nat) (data : Word) (valid : Bool)
  /-- A mirrored write to the standby: cycle, BAR0 offset and value (R390). -/
  | mirror (cycle off : Nat) (data : Word)
  /-- A message on the party-wall link: 0 the notice of a planned switch with its handover cycle, 1 a declaration with its cause. -/
  | party (kind item : Nat)
  /-- The identity that the units exchange at link-up: serial number, firmware revision, role, TWIN_ID (R387). -/
  | identity (serial rev role twinId : Nat)
  /-- The digest of the live protected set, with its cycle (R397). -/
  | digest (cycle crc : Nat)
  /-- A heartbeat: cycle, role, the core fault of this unit or 0, the time stamp of the exchange, and what `HeartbeatBody` names
  but the protected words, which follow by themselves (R215, R243, R246, R385, R388). -/
  | heartbeat (cycle role fault : Nat) (stamp : DT) (b : HeartbeatBody)
  /-- The bulk copy: memory words, registers and the rest (R405). -/
  | bulk (words regs : List (Nat × Nat)) (rest : BulkRest)
  /-- A frame or a set-point record of segment `p` is relayed (R216, R217). -/
  | relay (p : Nat) (b : RelayBody)
  /-- A changed word of the protected set: BAR0 offset and value (R396). -/
  | prot (off : Nat) (v : Word)
  /-- Entries of the repetitive table of axis `axis` from entry `first` on, and REP_SUM, on the party-wall link (R168). -/
  | table (axis first : Nat) (entries : List Nat) (sum : Word)
  /-- The state copy of a cycle, with the shadow-evaluation inputs of the sampled axes (R391, R393). -/
  | copy (cycle : Nat) (body : CopyBody) (inputs : List (Nat × List Int))
deriving DecidableEq, Repr

/-! ### The whole machine -/

/-- The state of the Ecalesk. -/
structure State where
  /-- The commands that wait, first in, first out. -/
  pending : List Instr
  time : Time
  /-- Registers of the BAR0 pages by BAR0 offset; unlisted ones hold their reset value. -/
  regs : List (Nat × Word)
  /-- SRAM, DRAM and signal-core memories by XU address; unlisted bytes read as `memDefault`. -/
  mem : List Host.Cell
  /-- Addresses of the poisoned words (R358), rising. -/
  poison : List Nat
  /-- Per-master copies of snapshot registers, by master x 2^26 + BAR0 offset (R420). -/
  snaps : List (Nat × Word)
  /-- Bytes that the device has written to host memory, by host address. -/
  hostMem : List (Nat × Byte)
  /-- The model's own counter of the free values used so far. -/
  free : Nat
  /-- What the last command sent outside (the model's own field). -/
  out : List Out
  checks : Tab PageCheck
  guards : Tab (Option GuardSeq)
  eh : Tab EhQueue
  cyc : CycleSt
  sg : SgSt
  fb : FbSt
  le : LeSt
  pg : PgSt
  fp : Tab FpSt
  ep : EpochSt
  ae : AeSt
  ang : AngSt
  tu : TuSt
  cores : Tab CoreSt
  ks : KsSt
  ms : MemSt
  /-- DMA rings by 2 x engine + ring. -/
  dma : Tab DmaRing
  queues : Tab QueueSt
  /-- Register writes of the event hub and the trace unit that are still to be made, the oldest first (R363). -/
  devQ : List DevWrite
  /-- Writes of the other blocks to registers and to words that a block watches, made before the command ends (R27, R363). -/
  devNow : List DevWrite
  /-- Translation faults met on reading a save area, still to be reported: kind, level and XU address (R365). -/
  saveFaults : List (Nat × Nat × Nat)
  /-- Poisoned words that a block has read, still to be reported: the reader and the address (R359). -/
  ueDue : List (Nat × Nat)
  /-- Accesses that wait behind a read of a queue, or for a boundary at whose instant they came, the oldest first (R379, R421). -/
  accHeld : List HeldAccess
  hp : HpSt
  he : Tab HeSt
  trc : TrcSt
  hk : HkSt
  jtag : JtagSt
  /-- Status of an MP write that failed, for the next read (R442); 0 for none. -/
  mpStatus : Nat
  /-- A read of MP waits for a queue (R379): the status that it returns, of a write that failed before it or 0. -/
  mpWait : Option Nat
  tw : TwSt
  fs : FsSt
  /-- Pages whose own check logic has failed its internal test (Table 16.2). -/
  selfFaults : List Nat
deriving DecidableEq, Repr, Inhabited

/-- The 32 kHz schedule that the live registers hold after reset (R32). -/
def Sched.reset : Sched := ⟨250, 64, 64, 192, 200, 240⟩

/-- The governor configuration after reset: the Reset columns of SG_CFG, SG_MODE and SG_VLIMIT. -/
def SgCfg.reset : SgCfg := ⟨2000, 1000, 16, 1024, 1000, false, 14, 36, 0⟩

/-- The machine right after power-on reset: every field at the value the spec gives for reset, no command
waiting. The fields to which the spec gives no reset value hold 0 or are empty (DESIGN CHOICE, notes/assumptions/4). -/
def State.reset : State :=
  { (default : State) with
    time := { (default : Time) with live := Sched.reset }
    sg := { (default : SgSt) with cfg := SgCfg.reset } }

end Sys2Proof.Machine
end

