-- ==== Sys2Proof/Machine/Mem.lean ====
section
/-! DEFINITION. Reading and writing of registers and of memory, the contents they have after reset, ECC
poison, and the translation of XU addresses (R356 to R366). -/

namespace Sys2Proof.Machine

/-! ### Registers -/

/-- Block type and instance of the page at BAR0 offset `p` (Table 16.9); `none` where no page lies. -/
def pageTypeInst (p : Nat) : Option (Nat × Nat) :=
  let hi := p / 0x10000
  let k := (p / 0x1000) % 16
  if hi = 0 then (if k ≤ 4 then some (0x10 + k, 0) else none)
  else if hi = 1 then (if k = 0 then some (1, 0) else none)
  else if hi = 2 then (if k = 0 then some (2, 0) else none)
  else if hi = 3 then (if k ≤ 1 then some (3, k) else none)
  else if hi = 4 then (if k = 0 then some (4, 0) else none)
  else if hi = 5 then (if k ≤ 8 then some (5, k) else none)
  else if hi = 6 then (if k ≤ 2 then some (6, k) else none)
  else if hi = 7 then (if k ≤ 1 then some (7, k) else none)
  else if hi = 8 then (if k ≤ 7 then some (8, k) else none)
  else if hi = 9 then (if k ≤ 3 then some (9, k) else none)
  else if hi = 10 then (if k = 0 then some (0xA, 0) else none)
  else if hi = 11 then (if k ≤ 2 then some (0xB, k) else none)
  else if hi = 12 then (if k ≤ 3 then some (0xC, k) else none)
  else if hi = 13 then (if k = 0 then some (0xD, 0) else none)
  else none

/-- The block event source of the page at `p` (Table 16.9). -/
def pageSource (p : Nat) : Nat :=
  let hi := p / 0x10000
  let k := (p / 0x1000) % 16
  if hi = 0 then 512 + k
  else if hi = 1 then 517 else if hi = 2 then 518
  else if hi = 3 then 519 + k else if hi = 4 then 521
  else if hi = 5 then 522 + k else if hi = 6 then 531 + k
  else if hi = 7 then 534 + k else if hi = 8 then 536 + k
  else if hi = 9 then 544 + k else if hi = 10 then 548
  else if hi = 11 then 549 else if hi = 12 then 550 + k
  else 554

/-- The reset value of the register at BAR0 offset `a` (the Reset columns; PAGE_ID by R412). -/
def regReset (a : Nat) : Nat :=
  if a % 0x1000 = 0 then
    match pageTypeInst a with
    | some (t, i) => (1 <<< 24) + (t <<< 8) + i
    | none => 0
  else if pHP + 0x800 ≤ a && a < pHP + 0xC00 then
    -- Vector Control of the MSI-X table: masked after reset, as PCI Express has it (notes/assumptions/5)
    (if a % 16 = 8 then 1 <<< 32 else 0)
  else
    match resetRows.find? (fun r => accessRowHas r a) with
    | some r => r.reset
    | none => 0

/-- The default of the register file. -/
def regDefault (a : Nat) : Word := BitVec.ofNat 64 (regReset a)

/-- The 64-bit value of the register at BAR0 offset `a`. -/
def State.reg (s : State) (a : Nat) : Nat := (tget regDefault s.regs a).toNat

/-- The state with the register at `a` holding `v`. -/
def State.setReg (s : State) (a v : Nat) : State :=
  { s with regs := tput regDefault s.regs a (BitVec.ofNat 64 v) }

/-- A field of a page register. -/
def State.g (s : State) (f : Fld) : Nat := getBits (s.reg f.adr) f.lo f.w

/-- A one-bit field of a page register. -/
def State.gb (s : State) (f : Fld) : Bool := s.g f != 0

/-- A signed field of a page register. -/
def State.gi (s : State) (f : Fld) : Int := toS f.w (s.g f)

/-- The state with a field of a page register replaced. -/
def State.put (s : State) (f : Fld) (v : Nat) : State :=
  s.setReg f.adr (setBits (s.reg f.adr) f.lo f.w v)

/-- The state with a signed field of a page register replaced (wrapping). -/
def State.puti (s : State) (f : Fld) (v : Int) : State := s.put f (ofS f.w v)

/-- CTRL.ENABLE of the page at `p`. -/
def State.enabled (s : State) (p : Nat) : Bool := s.gb (F.CTRL_ENABLE p)

/-- The present DT. -/
def State.dt (s : State) : DT := s.time.dt

/-- The present DT as hardware captures it, to one period of the time clock (R60). -/
def State.stamp (s : State) : DT := dtCount s.time.dt

/-- The DT of an edge of a pin that the present sample confirms: that of the first of its three samples, 2.5 ns apart, as hardware
captures it, less 3.0 ns (R92). -/
def State.edgeStamp (s : State) : DT := dtAdd (dtCount (dtAdd s.time.dt (-(5 * 65536)))) (-(3 * 65536))

/-- The captured DT as a number. -/
def State.dtN (s : State) : Nat := s.stamp.toNat

/-- The cycle number as a number. -/
def State.cycN (s : State) : Nat := s.time.cycle.toNat

/-! ### Addresses of the records -/

/-- Direct XU address of SRAM offset 0 (Table 14.3). -/
def sramBase : Nat := 0x10000000
/-- Direct XU address of DRAM offset 0 (Table 14.3). -/
def dramBase : Nat := 0x400000000
/-- Record of axis `a` (R150). -/
def axisBase (a : Nat) : Nat := sramBase + 0x800 * a
/-- Record of context `c` (R332). -/
def cxBase (c : Nat) : Nat := sramBase + 0x100000 + 0x100 * c
/-- Descriptor of acquisition channel `c` (R250). -/
def chBase (c : Nat) : Nat := sramBase + 0x1F00000 + 0x20 * c
/-- Descriptor of stream `n` (R250). -/
def stBase (n : Nat) : Nat := sramBase + 0x1F20000 + 0x80 * n
/-- Descriptor of angle channel `n` (R280). -/
def angBase (n : Nat) : Nat := sramBase + 0x1F28000 + 0x80 * n
/-- MON_HIST of acquisition channel `c` (R280). -/
def monBase (c : Nat) : Nat := sramBase + 0x1F38000 + 8 * c
/-- Descriptor of flow `f` (Table 13.4). -/
def flowBase (f : Nat) : Nat := sramBase + 0x1F40000 + 0x40 * f
/-- Descriptor of hardware queue `q` (Table 14.8). -/
def queueBase (q : Nat) : Nat := sramBase + 0x1F41000 + 0x20 * q

/-- The reset words of an axis record that are not 0: the Reset columns of Tables 4.5, 5.9, 6.4 and 7.9,
and the values that chapter 7 says the HK writes. -/
def axisWordReset (off : Nat) : Nat :=
  if off = 0x000 then 1 <<< 62
  else if off = 0x008 then (1 <<< 61) + (1 <<< 59)
  else if off = 0x158 then 32 <<< 48
  else if off = 0x160 then (2000 <<< 44) + 65536
  else if off = 0x168 then (4 <<< 48) + 4096
  else if off = 0x1C0 then 1000000 <<< 24
  else if off = 0x1C8 then 1000000 <<< 24
  else if off = 0x1D0 then 100000000 <<< 24
  else if off = 0x1D8 then 1000000 <<< 24
  else if off = 0x1F8 then 4
  else if off = 0x200 then (11 <<< 60) + (16 <<< 50) + (1 <<< 44) + (1 <<< 43)
  else if off = 0x208 then 0x7FFFFFFF
  else 0

/-- The word at SRAM offset `o` after reset. -/
def sramWordReset (o : Nat) : Nat :=
  if o < 0x100000 then axisWordReset (o % 0x800)
  else if o < 0x140000 then
    (if o % 0x100 = 0 then 7 <<< 61 else if o % 0x100 = 0x10 then 64 else 0)
  else if o < 0x1F20000 then 0
  else if o < 0x1F28000 then
    (if o % 0x80 = 0 then (1 <<< 62) + (8 <<< 56) + (15 <<< 50) + 1000 else 0)
  else if o < 0x1F38000 then
    (if o % 0x80 = 0 then (10 <<< 60) + (1 <<< 59) + (1 <<< 58) + (3 <<< 56) + (16 <<< 44)
     else if o % 0x80 = 8 then 1 else if o % 0x80 = 0x20 then 16 <<< 25 else 0)
  else if o < 0x1F40000 then 16 <<< 8
  else 0

/-- What a byte of memory that nothing has written reads as: the reset contents of the axis, context,
channel and descriptor words (Table 17.5), 0 elsewhere. DESIGN CHOICE (notes/assumptions/3): the spec
gives no contents for the rest of memory after power-on. -/
def memDefault (a : Nat) : Byte :=
  if sramBase ≤ a && a < sramBase + 0x2000000 then
    byteOf (sramWordReset ((a - sramBase) / 8 * 8)) (a % 8)
  else 0

/-! ### Bytes and words of memory -/

/-- The one form of a memory: addresses strictly rising, and no entry equal to what an unlisted address reads as. -/
def Memory.wf (m : List Host.Cell) : Bool := twf memDefault m

/-- The byte at direct address `a`. -/
def State.byte (s : State) (a : Nat) : Byte := tget memDefault s.mem a

/-- `n` bytes from `a`, as a little-endian number (R6). -/
def State.bytesAt (s : State) (a : Nat) : Nat → Nat
  | 0 => 0
  | n + 1 => (s.byte a).toNat + 256 * s.bytesAt (a + 1) n

/-- The state with the byte at `a` replaced. -/
def State.setByte (s : State) (a : Nat) (v : Byte) : State :=
  { s with mem := tput memDefault s.mem a v }

/-- The state with `n` bytes from `a` replaced by the little-endian bytes of `v` (R6). -/
def State.setBytes (s : State) (a v : Nat) : Nat → State
  | 0 => s
  | n + 1 => (s.setByte a (byteOf v 0)).setBytes (a + 1) (v >>> 8) n

/-- Whether the word that holds `a` is poisoned (R358). -/
def State.poisoned (s : State) (a : Nat) : Bool := nsHas s.poison (a / 8 * 8)

/-- The 64-bit word at `a` as any device block reads it: 0 where it is poisoned (Table 14.2). -/
def State.word (s : State) (a : Nat) : Nat :=
  if s.poisoned a then 0 else s.bytesAt (a / 8 * 8) 8

/-- Clears the poison of the word at `a`, and its entries in MEM_POISONk (R358, R361). -/
def State.heal (s : State) (a : Nat) : State :=
  if s.poisoned a then
    let s := { s with poison := nsDel s.poison (a / 8 * 8) }
    forEach (fun k s =>
      if s.gb (F.MEM_POISON_VALID k) && s.g (F.MEM_POISON_ADDR k) = a / 8 * 8
      then s.put (F.MEM_POISON_VALID k) 0 else s) (List.range 16) s
  else s

/-- A full 64-bit write of memory: it replaces a poisoned word (R358). -/
def State.setWord (s : State) (a v : Nat) : State :=
  (s.heal a).setBytes (a / 8 * 8) v 8

/-- A field of a record in memory. -/
def State.mg (s : State) (base : Nat) (f : Fld) : Nat := getBits (s.word (base + f.adr)) f.lo f.w

/-- A one-bit field of a record. -/
def State.mgb (s : State) (base : Nat) (f : Fld) : Bool := s.mg base f != 0

/-- The block whose records hold the SRAM word at `a`, by its master number (Table 16.8): the LE for axis records, Keystone for
contexts and flows, the AE for channels, streams and angle channels, the queues. -/
def recordBlock (a : Nat) : Nat :=
  if a < sramBase + 0x100000 then 0x42 else if a < sramBase + 0x140000 then 0x41 else if a < sramBase + 0x1F40000 then 0x47
  else if a < sramBase + 0x1F41000 then 0x41 else 0x49

/-- The state with a field of a record replaced. The block reads the word and writes it whole: of a poisoned word it takes the value 0,
and the read is to be reported (Table 14.2, R358, R359). -/
def State.mput (s : State) (base : Nat) (f : Fld) (v : Nat) : State :=
  let u := s.setWord (base + f.adr) (setBits (s.word (base + f.adr)) f.lo f.w v)
  if s.poisoned (base + f.adr) then
    { u with ueDue := u.ueDue ++ [(recordBlock (base + f.adr), (base + f.adr) / 8 * 8)] }
  else u

/-- The state in which the block of master number `m` has read the words at `l`: of a poisoned one it takes the value 0, and the
read is to be reported (Table 14.2, R359). -/
def State.noteReadsBy (s : State) (m : Nat) (l : List Nat) : State :=
  if s.poison = [] then s else { s with ueDue := s.ueDue ++ (l.filter s.poisoned).map (fun a => (m, a / 8 * 8)) }

/-- The block whose records hold the word at `a` has read it. -/
def State.noteRead (s : State) (a : Nat) : State := s.noteReadsBy (recordBlock a) [a]

/-- The block of master number `m` has read the `n` words from `a` on. -/
def State.noteReads (s : State) (m a n : Nat) : State := s.noteReadsBy m ((List.range n).map (fun i => a + 8 * i))

/-- A block writes the fields of `mask` of the word at `w`; the other bits, reserved or software's, stay as they stand (R9). -/
def State.setFields (s : State) (w v mask : Nat) : State := (s.noteRead w).setWord w (blend (s.word w) v mask)

/-- A 64-bit word of the record of axis `a`, signed. -/
def State.axi (s : State) (a off : Nat) : Int := toS 64 (s.word (axisBase a + off))

/-- The state with a signed word of the record of axis `a` replaced. -/
def State.axiPut (s : State) (a off : Nat) (v : Int) : State :=
  s.setWord (axisBase a + off) (ofS 64 v)

/-- A field of the record of axis `a`. -/
def State.ax (s : State) (a : Nat) (f : Fld) : Nat := s.mg (axisBase a) f

/-- A one-bit field of the record of axis `a`. -/
def State.axb (s : State) (a : Nat) (f : Fld) : Bool := s.mgb (axisBase a) f

/-- The state with a field of the record of axis `a` replaced. -/
def State.axPut (s : State) (a : Nat) (f : Fld) (v : Nat) : State := s.mput (axisBase a) f v

/-- A field of the record of context `c`. -/
def State.cx (s : State) (c : Nat) (f : Fld) : Nat := s.mg (cxBase c) f

/-- The state with a field of the record of context `c` replaced. -/
def State.cxPut (s : State) (c : Nat) (f : Fld) (v : Nat) : State := s.mput (cxBase c) f v

/-! ### Translation (R362 to R366) -/

/-- What an XU address names (Table 14.3), or a translation fault of kind and level (Table 14.5). -/
inductive Target where
  | reg (off : Nat)
  | mem (a : Nat)
  | host (h : Nat)
  | fault (kind level : Nat)
deriving DecidableEq, Repr

/-- Whether a direct XU address lies in SRAM or DRAM. -/
def inMemory (a : Nat) : Bool :=
  (sramBase ≤ a && a < sramBase + 0x2000000) || (dramBase ≤ a && a < dramBase + 0x400000000)

/-- Whether HP can carry an outbound request (R437). -/
def State.hpReach (s : State) : Bool := s.hp.link && s.hp.busMaster && !s.hp.d3hot

/-- The host address `h`, unless HP reports the request as a fault of kind RANGE (R437). -/
def hostTarget (s : State) (h : Nat) : Target :=
  if s.hpReach then .host (h % 2 ^ 64) else .fault 1 0

/-- A direct address (one outside the translated range) (Table 14.3). -/
def directTarget (s : State) (a : Nat) : Target :=
  if a < 0x4000000 then
    -- the record windows of BAR0 name the SRAM words (Table 14.1)
    (if 0x100000 ≤ a && a < 0x200000 then .mem (sramBase + (a - 0x100000))
     else if 0x200000 ≤ a && a < 0x240000 then .mem (sramBase + 0x100000 + (a - 0x200000))
     else if 0x1000000 ≤ a && a < 0x1400000 then .mem a
     else .reg a)
  else if inMemory a then .mem a
  else if 0x400000000000 ≤ a && a < 0x800000000000 then
    hostTarget s ((s.g F.XU_HOSTWIN_BASE <<< 12) + (a - 0x400000000000))
  else .fault 1 0

/-- The index bits of a walk level: lowest bit and width (R364). -/
def walkBits (level : Nat) : Nat × Nat :=
  if level = 0 then (39, 8) else if level = 1 then (30, 9) else if level = 2 then (21, 9) else (12, 9)

/-- The entry for `a` in the table at `tbl`, of the given level, or the fault kind and the level (R364, Table 14.5). -/
def walkEntry (s : State) (a level tbl : Nat) : Except (Nat × Nat) XuEntry :=
  let (lo, w) := walkBits level
  let ea := tbl + 8 * getBits a lo w
  if !inMemory ea then .error (3, level)
  else if s.poisoned ea then .error (4, level)
  else
    let e := s.bytesAt ea 8
    let kind := getBits e 1 2
    let frame := getBits e 12 52 <<< 12
    if !bit e 0 then .error (2, level)
    else if getBits e 4 8 ≠ 0 then .error (3, level)
    else if kind = 0 then
      (if level = 3 || bit e 3 || !inMemory frame then .error (3, level)
       else .ok { page := a >>> lo, sizeLog2 := lo, frame := frame, host := false, ptr := true })
    else if kind = 1 then
      (if level = 0 || frame % 2 ^ lo ≠ 0 then .error (3, level)
       else .ok { page := a >>> lo, sizeLog2 := lo, frame := frame, host := bit e 3, ptr := false })
    else .error (3, level)

/-- The walk from the table at `tbl`, `fuel` levels left (R364). The result is the page found, or the fault kind and
the level. -/
def walk (s : State) (a : Nat) : Nat → Nat → Nat → Except (Nat × Nat) XuEntry
  | 0, level, _ => .error (3, level)
  | fuel + 1, level, tbl =>
    match walkEntry s a level tbl with
    | .error f => .error f
    | .ok e => if e.ptr then walk s a fuel (level + 1) e.frame else .ok e

/-- The table pointers that the same walk passes, the deepest first (R366). -/
def walkPtrs (s : State) (a : Nat) : Nat → Nat → Nat → List XuEntry
  | 0, _, _ => []
  | fuel + 1, level, tbl =>
    match walkEntry s a level tbl with
    | .error _ => []
    | .ok e => if e.ptr then walkPtrs s a fuel (level + 1) e.frame ++ [e] else []

/-- The level whose entries cover 2^`lg` bytes (R364). -/
def walkLevel (lg : Nat) : Nat := (39 - lg) / 9

/-- The cached translation of `a`, if one is held (R366). -/
def xuCached (s : State) (a : Nat) : Option XuEntry :=
  s.ms.cache.find? (fun e => !e.ptr && e.page = a >>> e.sizeLog2)

/-- Where the walk for `a` starts, as level and table: after the deepest table pointer that is cached for it, else at
XU_ROOT (R366). -/
def walkStart (s : State) (a : Nat) : Nat × Nat :=
  (s.ms.cache.filter (fun e => e.ptr && e.page = a >>> e.sizeLog2)).foldl
    (fun b e => if b.1 ≤ walkLevel e.sizeLog2 then (walkLevel e.sizeLog2 + 1, e.frame) else b) (0, s.reg F.XU_ROOT.adr)

/-- The poisoned table word that stops the walk from the table at `tbl`. -/
def walkPoisonFrom (s : State) (a : Nat) : Nat → Nat → Nat → Option Nat
  | 0, _, _ => none
  | fuel + 1, level, tbl =>
    let (lo, w) := walkBits level
    match walkEntry s a level tbl with
    | .error (k, _) => if k = 4 then some ((tbl + 8 * getBits a lo w) / 8 * 8) else none
    | .ok e => if e.ptr then walkPoisonFrom s a fuel (level + 1) e.frame else none

/-- The poisoned table word that stops the walk for `a` (R359, R364). -/
def walkPoison (s : State) (a : Nat) : Option Nat :=
  let b := walkStart s a
  walkPoisonFrom s a (4 - b.1) b.1 b.2

/-- The translation of `a` in the translated range: the cached one, else the one the tables give. With the
XU page not enabled no table is in use: kind INVALID at level 0 (DESIGN CHOICE, notes/assumptions/9). -/
def xuLookup (s : State) (a : Nat) : Except (Nat × Nat) XuEntry :=
  match xuCached s a with
  | some e => .ok e
  | none =>
    if s.enabled pXU then
      let b := walkStart s a
      walk s a (4 - b.1) b.1 b.2
    else .error (2, 0)

/-- What the XU address `a` names (R362, R364). -/
def xlate (s : State) (a : Nat) : Target :=
  if a ≥ 2 ^ 48 then .fault 1 0
  else if a < 0x800000000000 then directTarget s a
  else match xuLookup s a with
    | .error (k, l) => .fault k l
    | .ok e =>
      let t := e.frame + a % 2 ^ e.sizeLog2
      if e.host then hostTarget s t
      else if t < 0x800000000000 then directTarget s t else .fault 3 (walkLevel e.sizeLog2)

/-- The state after a translation of `a`: a translation newly found is cached with the table pointers of its walk, at
most 1,024 of both; the oldest go first (DESIGN CHOICE, notes/assumptions/9). -/
def xuTouch (s : State) (a : Nat) : State :=
  if a < 0x800000000000 || a ≥ 2 ^ 48 then s
  else match xuCached s a, xuLookup s a with
    | none, .ok e =>
      let b := walkStart s a
      { s with ms := { s.ms with cache := (e :: walkPtrs s a (4 - b.1) b.1 b.2 ++ s.ms.cache).take 1024 } }
    | _, _ => s

/-! ### Host memory and local memories -/

/-- The byte that the device has written at host address `h`, or a free value: what the host keeps there
is outside the device. -/
def State.hostByte (s : State) (h : Nat) : Byte :=
  tget (fun k => BitVec.ofNat 8 (Config.hostByte s.free k).toNat) s.hostMem h

/-- Writes a byte of host memory. -/
def State.setHostByte (s : State) (h : Nat) (v : Byte) : State :=
  { s with hostMem := tins (terase s.hostMem h) h v }

/-- Writes `n` bytes of host memory from `h`. -/
def State.setHostBytes (s : State) (h v : Nat) : Nat → State
  | 0 => s
  | n + 1 => (s.setHostByte h (byteOf v 0)).setHostBytes (h + 1) (v >>> 8) n

/-- Reads `n` bytes of host memory from `h`. -/
def State.hostBytes (s : State) (h : Nat) : Nat → Nat
  | 0 => 0
  | n + 1 => (s.hostByte h).toNat + 256 * s.hostBytes (h + 1) n

/-- The next free value counted. -/
def State.nextFree (s : State) : State := { s with free := s.free + 1 }

/-- The next free value, as a 64-bit pattern, and the state that has used it. -/
def State.freeWord (s : State) : Nat × State := ((Config.freeValue s.free).toNat, s.nextFree)

/-- Bits of the next free value, as a field shows that the spec calls valid only at other times. -/
def State.openBits (s : State) (lo w : Nat) : Nat := getBits (Config.freeValue s.free).toNat lo w

/-- Context `c` is on no core: ON_CORE clears, and CORE, which is valid while it is 1, is open. -/
def State.cxOffCore (s : State) (c : Nat) : State :=
  if s.cx c F.CX_STATE_ON_CORE = 0 then s
  else ((s.cxPut c F.CX_STATE_ON_CORE 0).cxPut c F.CX_STATE_CORE (s.openBits 0 3)).nextFree

/-- BAR0 offset of word `w` of core `n`'s program memory (Table 12.1). -/
def progAddr (n w : Nat) : Nat := 0x1000000 + 0x80000 * n + 4 * w
/-- BAR0 offset of byte `a` of core `n`'s data memory (Table 12.1). -/
def dataAddr (n a : Nat) : Nat := 0x1000000 + 0x80000 * n + 0x40000 + a

end Sys2Proof.Machine
end

