-- ==== Sys2Proof/Machine/Numeric.lean ====
section
/-! DEFINITION. The arithmetic of the servo path (R122, R123), extrapolation (R110), and the observer gains
(R112, R114). Every operation is formed exactly; saturation is a separate step, so that a caller can see
whether it changed the value. -/

namespace Sys2Proof.Machine

/-- A 64-bit sum or product that saturates. -/
def sat64 (i : Int) : Int := satS 64 i

/-- Whether saturation to 64 bits changes the value. -/
def over64 (i : Int) : Bool := decide (sat64 i ≠ i)

/-- The product of a Q40.24 operand and a gain64, before saturation (R123). -/
def mulGRaw (q g : Int) : Int := shr (q * g) 48

/-- The product of a Q40.24 operand and a gain64 (R123). -/
def mulG (q g : Int) : Int := sat64 (mulGRaw q g)

/-- A saturating sum. -/
def addS (a b : Int) : Int := sat64 (a + b)

/-- A wrapping 64-bit number (a pos64 wraps, R104). -/
def wrap64 (i : Int) : Int := toS 64 (ofS 64 i)

/-- The quotient of a Q40.24 dividend by a gain64, before saturation (R123). -/
def divGRaw (q g : Int) : Int := fdiv (shl q 48) g

/-- The quotient of a Q40.24 dividend by a gain64 (R123). -/
def divG (q g : Int) : Int := sat64 (divGRaw q g)

/-- The period as a gain64 in seconds (R123). -/
def gainT (period : Nat) : Int := fdiv ((period * 125 * 2 ^ 48 : Nat) : Int) 1000000000

/-- A signed DT difference as a gain64 in seconds (R110). -/
def tauOf (d : Int) : Int := sat64 (fdiv (shl d 32) 1000000000)

/-- The displacement over `tau` from velocity, acceleration and jerk (R110), added to `p`; `wrap` where the
base is a position that wraps. -/
def extrap3 (p v a j tau : Int) : Int :=
  let t2 := mulG tau tau
  let t3 := mulG t2 tau
  addS (addS (addS p (mulG v tau)) (shr (mulG a t2) 1)) (fdiv (mulG j t3) 6)

/-- p(t) of R110. -/
def extrap2 (p v a tau : Int) : Int :=
  addS (addS p (mulG v tau)) (shr (mulG a (mulG tau tau)) 1)

/-- The angle word advanced by a Q40.24 displacement (R110): Turn fraction and revolution count. -/
def turnAdd (turn : Nat) (disp : Int) (cpr : Nat) : Nat :=
  let adv := fdiv (shl disp 32) (((cpr * 2 ^ 24 : Nat)) : Int)
  ofS 64 (toS 64 turn + adv)

/-! ### Observer gains -/

/-- Fractional bits of the intermediate numbers. -/
def fxBits : Nat := 200

/-- π × 2^200, rounded toward minus infinity. -/
def fxPi : Nat := 5048344754617993871973410141242436836214643421488662971535368

/-- x = 2π × BW/10 × T in units of 2^-200, rounded toward minus infinity (R112). -/
def fxX (bw period : Nat) : Nat := fxPi * bw * period * 25 / 1000000000

/-- The Taylor terms of exp(-x), `k` further ones, the last one having been `term` = x^n/n!. -/
def fxExpGo (x : Nat) : Nat → Nat → Int → Int → Int
  | 0, _, _, acc => acc
  | k + 1, n, term, acc =>
    let t := fdiv (shr (term * (-(x : Int))) fxBits) ((n + 1 : Nat) : Int)
    fxExpGo x k (n + 1) t (acc + t)

/-- exp(-x) in units of 2^-200; 64 terms leave an error below 2^-190 for x below 2. -/
def fxExp (x : Nat) : Int := fxExpGo x 64 0 ((2 ^ fxBits : Nat) : Int) ((2 ^ fxBits : Nat) : Int)

/-- The gains k1, k2, k3 as gain64 numbers (R112; notes/assumptions/11). -/
def obsGains (bw period : Nat) : Int × Int × Int :=
  let one : Int := ((2 ^ fxBits : Nat) : Int)
  let th := fxExp (fxX bw period)
  let mul (a b : Int) : Int := shr (a * b) fxBits
  let q := one - th
  let k1 := one - mul (mul th th) th
  let k2 := fdiv (3 * mul (mul q q) (one + th)) 2
  let k3 := mul (mul q q) q
  (shr k1 (fxBits - 48), shr k2 (fxBits - 48), shr k3 (fxBits - 48))

/-- ceil(8 / (2π × BW × T)) (R114); the quotient is never a whole number, since π is irrational. -/
def settleCount (bw period : Nat) : Nat :=
  if bw = 0 || period = 0 then 0
  else 8 * 1000000000 * 2 ^ fxBits / (fxPi * bw * period * 25) + 1

/-- The limit on BW (R113). -/
def bwOk (bw period : Nat) : Bool := 100 ≤ bw && bw * period ≤ 20000000

/-! ### Free values -/

end Sys2Proof.Machine
end

