-- ==== Sys2Proof/Machine/Ready.lean ====
section
/-! DEFINITION. Keystone's ready lists, notices, prefetch slots and pre-emption (R333 to R337), and the
save area of a context (Table 12.5). -/

namespace Sys2Proof.Machine

/-! ### The save area (R320, Table 12.5) -/

/-- A 64-bit word at an XU address as Keystone reads it; 0 where it cannot be read. -/
def xuWord (s : State) (a : Nat) : Nat :=
  match xlate s a with
  | .mem m => s.word m
  | .reg r => s.reg r
  | .host h => s.hostBytes h 8
  | .fault _ _ => 0

/-- A table of the values `f 0` to `f (n - 1)`. -/
def tabOf {β : Type} [Inhabited β] [DecidableEq β] (f : Nat → β) : Nat → Tab β
  | 0 => []
  | n + 1 => (tabOf f n).set n (f n)

/-- The accumulator held in three words. -/
def accOf (w0 w1 w2 : Nat) : BitVec 136 := BitVec.ofNat 136 (w0 + (w1 <<< 64) + (w2 <<< 128))

/-- The three words of an accumulator: bits 63:0, bits 127:64, guard bits sign-extended (Table 12.5). -/
def accWords (a : BitVec 136) : List Nat :=
  [getBits a.toNat 0 64, getBits a.toNat 64 64, ofS 64 (toS 8 (getBits a.toNat 128 8))]

/-- The architectural state that a save area's words spell; `w i` is the word at offset 8 × i. -/
def archOfWords (w : Nat → Nat) : Arch :=
  let bs := w 61
  let rp := w 62
  let dl := w 63
  { g := tabOf (fun i => BitVec.ofNat 64 (w i)) 32
    a := tabOf (fun i => accOf (w (32 + 3 * i)) (w (33 + 3 * i)) (w (34 + 3 * i))) 4
    p := tabOf (fun i => BitVec.ofNat 32 (getBits (w (44 + i)) 0 32)) 8
    m := tabOf (fun i => BitVec.ofNat 32 (getBits (w (44 + i)) 32 32)) 8
    b := tabOf (fun i => BitVec.ofNat 32 (getBits (w (52 + i)) 0 32)) 8
    l := tabOf (fun i => BitVec.ofNat 32 (getBits (w (52 + i)) 32 32)) 8
    csr := BitVec.ofNat 64 (w 60 % 4)
    pc := BitVec.ofNat 14 (getBits bs 0 14)
    slots := getBits bs 30 2
    target := BitVec.ofNat 14 (getBits bs 16 14)
    repOn := bit rp 63
    repCount := getBits rp 0 32
    repStart := BitVec.ofNat 14 (getBits rp 32 14)
    repLen := if bit rp 63 then getBits rp 48 4 + 1 else 0
    delG := (if bit dl 0 then [(getBits dl 1 5, BitVec.ofNat 64 (w 64))] else []) ++
            (if bit dl 8 then [(getBits dl 9 5, BitVec.ofNat 64 (w 65))] else [])
    delA := if bit dl 16 then some (getBits dl 17 2, accOf (w 66) (w 67) (w 68)) else none }

/-- The 72 words of the save area for an architectural state, the last fault cause, the PC of the faulting
instruction and FAULT_ADDR (Table 12.5). -/
def archWords (x : Arch) (cause faultPc faultAddr : Nat) : List Nat :=
  let d0 := x.delG.head?
  let d1 := x.delG.tail.head?
  (List.range 32).map (fun i => (x.g.look i).toNat) ++
  ((List.range 4).map (fun i => accWords (x.a.look i))).flatten ++
  (List.range 8).map (fun i => (x.p.look i).toNat + ((x.m.look i).toNat <<< 32)) ++
  (List.range 8).map (fun i => (x.b.look i).toNat + ((x.l.look i).toNat <<< 32)) ++
  [x.csr.toNat,
   x.pc.toNat + (x.target.toNat <<< 16) + (x.slots <<< 30),
   if x.repOn then (1 <<< 63) + ((x.repLen - 1) <<< 48) + (x.repStart.toNat <<< 32) + x.repCount else 0,
   (match d0 with | some (r, _) => 1 + (r <<< 1) | none => 0) +
   (match d1 with | some (r, _) => (1 <<< 8) + (r <<< 9) | none => 0) +
   (match x.delA with | some (n, _) => (1 <<< 16) + (n <<< 17) | none => 0),
   (match d0 with | some (_, v) => v.toNat | none => 0),
   (match d1 with | some (_, v) => v.toNat | none => 0)] ++
  (match x.delA with | some (_, v) => accWords v | none => [0, 0, 0]) ++
  [(cause <<< 56) + faultPc, faultAddr, 0]

/-- The save area of context `c` as it stands in memory. -/
def loadSave (s : State) (c : Nat) : Arch :=
  let base := s.word (cxBase c + 8)
  archOfWords (fun i => xuWord s (base + 8 * i))

/-! ### Context states and ready lists (Table 13.1, R335) -/

/-- The state of context `c`, read from its record. -/
def cxState (s : State) (c : Nat) : Nat := s.cx c F.CX_STATE_STATE

/-- Writes the state of context `c`. -/
def setCxState (s : State) (c st : Nat) : State := s.cxPut c F.CX_STATE_STATE st

/-- CX_CFG.PRIORITY of `c` as last read. -/
def cxPrio (s : State) (c : Nat) : Nat := (s.ks.cfg.look c).prio

/-- Whether context `c` may run on core `n`, as last read. -/
def cxAllows (s : State) (c n : Nat) : Bool := bit (s.ks.cfg.look c).cores n

/-- Takes context `c` out of every ready list. -/
def unready (s : State) (c : Nat) : State :=
  let drop (p : Nat) (r : Tab (List Nat)) : Tab (List Nat) := r.set p ((r.look p).filter (fun x => x != c))
  let r := forEach drop (List.range 8) s.ks.ready
  { s with ks := { s.ks with ready := r } }

/-- Puts context `c` on its ready list, at the head or the tail (R335), and writes its state READY. -/
def enqueueReady (s : State) (c : Nat) (head : Bool) : State :=
  let p := cxPrio s c
  let l := s.ks.ready.look p
  let s := setCxState s c 1
  let s := s.cxOffCore c
  { s with ks := { s.ks with ready := s.ks.ready.set p (if head then c :: l else l ++ [c]) } }

/-- Changes core `n`. -/
def State.onCore (s : State) (n : Nat) (f : CoreSt → CoreSt) : State :=
  { s with cores := s.cores.set n (f (s.cores.look n)) }

/-- The words of context `c`'s save area that do not translate: kind, level and address (R365). -/
def saveFault (s : State) (c : Nat) : List (Nat × Nat × Nat) :=
  let base := s.word (cxBase c + 8)
  (List.range 72).filterMap (fun i => match xlate s (base + 8 * i) with
    | .fault k l => some (k, l, base + 8 * i)
    | _ => none)

/-- The words of context `c`'s save area that are poisoned, as Keystone reads them (R359). -/
def savePoison (s : State) (c : Nat) : List (Nat × Nat) :=
  let base := s.word (cxBase c + 8)
  (List.range 72).filterMap (fun i => match xlate s (base + 8 * i) with
    | .mem d => if s.poisoned d then some (0x41, d / 8 * 8) else none
    | _ => none)

/-- Reads context `c`'s save area into core `n`'s prefetch slot (R336). -/
def fillSlot (s : State) (n c : Nat) : State :=
  let arch := loadSave s c
  let s := s.noteRead (cxBase c + 8)
  let s := { s with saveFaults := s.saveFaults ++ saveFault s c, ueDue := s.ueDue ++ savePoison s c }
  let s := unready s c
  let s := setCxState s c 2
  let s := (s.cxPut c F.CX_STATE_ON_CORE 1).cxPut c F.CX_STATE_CORE n
  s.onCore n (fun k => { k with prefetch := some c, preArch := arch })

/-- Takes the context in core `n`'s prefetch slot back to the head of its ready list (R335, R337). -/
def takeBack (s : State) (n : Nat) : State :=
  match (s.cores.look n).prefetch with
  | none => s
  | some c => enqueueReady (s.onCore n (fun k => { k with prefetch := none })) c true

/-- The in-service cores that context `c` allows, ascending. -/
def allowedCores (s : State) (c : Nat) : List Nat :=
  (List.range 8).filter (fun n => (s.cores.look n).inService && cxAllows s c n)

/-- The core whose resident ranks lowest among `l`: largest priority number, ties to the highest core (R337). -/
def lowestResident (s : State) : List Nat → Option (Nat × Nat)
  | [] => none
  | n :: r =>
    match (s.cores.look n).resident with
    | none => lowestResident s r
    | some c =>
      let p := cxPrio s c
      match lowestResident s r with
      | some (m, q) => if p > q then some (n, p) else some (m, q)
      | none => some (n, p)

/-- Pre-emption on behalf of a context that has become READY (R337). -/
def considerPreempt (s : State) (c : Nat) : State :=
  let cs := allowedCores s c
  if cs = [] || cs.any (fun n => (s.cores.look n).resident = none) then s
  else match lowestResident s cs with
    | none => s
    | some (n, q) =>
      if q > cxPrio s c then
        let s := fillSlot (takeBack s n) n c
        s.onCore n (fun k => { k with preempt := true })
      else s

/-- A context becomes READY (R335, R337). -/
def makeReady (s : State) (c : Nat) (head : Bool) : State :=
  considerPreempt (enqueueReady s c head) c

/-- A notice reaches context `c` (R334). -/
def sendNotice (s : State) (c : Nat) : State :=
  let st := cxState s c
  if st = 4 then makeReady s c false
  else if st = 1 || st = 2 || st = 3 || st = 5 then s.cxPut c F.CX_STATE_PENDING 1
  else { s with ks := { s.ks with noticesLost := s.ks.noticesLost + 1 } }

/-- Counts a context's LOCKS field up or down. -/
def addLocks (s : State) (c : Nat) (d : Int) : State :=
  s.cxPut c F.CX_STATE_LOCKS (((s.cx c F.CX_STATE_LOCKS : Int) + d).toNat)

end Sys2Proof.Machine
end

