-- ==== Sys2Proof/Machine/Events.lean ====
section
/-! DEFINITION. The event hub: occurrences, grouping, records in the event rings, and MSI-X messages
(R424 to R431, R435). -/

namespace Sys2Proof.Machine

/-! ### MSI-X (R434, R435) -/

/-- Whether the host has masked vector `v`: in the MSI-X table (HP page 0x0800, 16 B per vector), or with all vectors in the
configuration space, where MSI-X Enable is 0 or Function Mask is 1 (R433, R435; PRESUMED from PCI Express, notes/assumptions/5). -/
def msixMasked (s : State) (v : Nat) : Bool :=
  bit (s.reg (pHP + 0x800 + 16 * v + 8)) 32 || !s.hp.msixOn || s.hp.msixMask

/-- Sends the message of vector `v`: its data word to its address in host memory. -/
def msixWrite (s : State) (v : Nat) : State :=
  let addr := s.reg (pHP + 0x800 + 16 * v)
  let data := getBits (s.reg (pHP + 0x800 + 16 * v + 8)) 0 32
  let s := s.setHostBytes addr data 4
  { s with out := s.out ++ [.msix v] }

/-- A queue sends vector `v`; a masked vector, or one that HP cannot carry, stays pending (R435). -/
def msixSend (s : State) (v : Nat) : State :=
  if msixMasked s v || !s.hpReach then
    { s with hp := { s.hp with msixPending := nsAdd s.hp.msixPending v } }
  else msixWrite s v

/-! ### Writing to a ring -/

/-- Notes a translation fault in XU_FAULT_ADDR and XU_FAULT_INFO (R365). -/
def noteXuFault (s : State) (master kind level a : Nat) : State :=
  let s := s.setReg F.XU_FAULT_ADDR.adr a
  s.setReg F.XU_FAULT_INFO.adr ((master <<< 48) + (level <<< 8) + kind)

/-- The words of memory that a block watches or the twin mirrors: axis records, contexts, flows. -/
def watchedWord (d : Nat) : Bool :=
  sramBase ≤ d && (d < sramBase + 0x140000 || (sramBase + 0x1F40000 ≤ d && d < sramBase + 0x1F41000))

/-- A 64-bit write of device block `m` to XU address `a`; a fault writes nothing. A register, or a word that a block watches, is
reached as any master reaches it (R26, R363, R390), before the command ends; that of the event hub and the trace unit to a register
when the queue of commands is next empty (DESIGN CHOICE, notes/assumptions/42). -/
def devWrite (s : State) (m a v : Nat) : State :=
  let hub := m = 0x4B || m = 0x4D
  match xlate s a with
  | .mem d =>
    if !hub && watchedWord d then { s with devNow := s.devNow ++ [⟨m, d / 8 * 8, BitVec.ofNat 64 v⟩] } else s.setWord d v
  | .host h => s.setHostBytes h v 8
  | .reg o =>
    let w : DevWrite := ⟨m, o / 8 * 8, BitVec.ofNat 64 v⟩
    if hub then { s with devQ := s.devQ ++ [w] } else { s with devNow := s.devNow ++ [w] }
  | .fault _ _ => s

/-- Writes 64-bit words of block `m` from XU address `a`. -/
def devWrites (s : State) (m a : Nat) : List Nat → State
  | [] => s
  | v :: r => devWrites (devWrite s m a v) m (a + 8) r

/-- STATUS of Table 14.6. Whether DONE is set beside ERROR is not stated: a free bit. -/
def statusWord (s : State) (code bytes : Nat) : Nat :=
  let done := if code = 0 then 1 else (Config.freeValue s.free).toNat % 2
  (done <<< 63) + (b2n (code != 0) <<< 62) + (code <<< 56) + bytes % 2 ^ 32

/-- A device engine has carried a transfer of `len` bytes to `dst`, of which `bytes` were written; it ended with the error `code`, 0
for none. The descriptor of ring 0 of DM`n` is posted and completed, with its STATUS and DONE_DT (R367 to R369, R375); its source,
where the block keeps the data, is a free value (notes/assumptions/45). An engine that is not configured has no ring to write to. -/
def devCarried (s : State) (n dst len code bytes : Nat) : State :=
  let r := s.dma.look (2 * n)
  let a := r.base + 64 * (r.rd % 2 ^ r.sizeLog2)
  let rd := (r.rd + 1) % 2 ^ 32
  let s := if r.state = 0 then s else
    devWrites s.nextFree (0x20 + n) a
      [(Config.freeValue s.free).toNat, dst, len, 0, 0, 0, statusWord s.nextFree code bytes, s.dtN]
  ({ s with dma := s.dma.set (2 * n) { s.dma.look (2 * n) with rd := rd } }.setReg (F.DM_WR0 n).adr rd).put (F.DM_RD_RD0 n) rd

/-- A record: its 16-byte slots as pairs of words. -/
abbrev Slots := List (Nat × Nat)

/-- The words of slots. -/
def slotWords (l : Slots) : List Nat := (l.map (fun p => [p.1, p.2])).flatten

/-- The header of Table 16.5. -/
def header (dt : DT) (kind source event len info : Nat) : Nat × Nat :=
  (dt.toNat, (source + (kind <<< 12)) + (event <<< 16) + (len <<< 24) + ((info % 2 ^ 32) <<< 32))

/-- Slots of queue `q`'s ring (R428): 2^SIZE_LOG2, where 16 is written as 0. -/
def ringSlots (s : State) (q : Nat) : Nat :=
  let z := s.g (F.EH_QCFG_SIZE_LOG2 q)
  if z = 0 then 65536 else 2 ^ z

/-- Slots that a PAD record takes before a record of `len` slots at count `wr` of a ring of `n`. -/
def padOf (n wr len : Nat) : Nat :=
  let pos := wr % n
  if pos + len > n then n - pos else 0

/-- Writes `len` slots at count `wr`. -/
def writeSlots (s : State) (q wr : Nat) (l : Slots) : State :=
  let n := ringSlots s q
  devWrites s 0x4B (s.reg (F.EH_QBASE q).adr + 16 * (wr % n)) (slotWords l)

/-- Writes a record, and a PAD record before it where the ring's end requires one, and advances WR (R428). -/
def placeRecord (s : State) (q : Nat) (l : Slots) : State :=
  let n := ringSlots s q
  let wr := s.g (F.EH_QWR_COUNT q)
  let pad := padOf n wr l.length
  let s := if pad = 0 then s
    else writeSlots s q wr (header s.stamp 3 0 0 pad 0 :: List.replicate (pad - 1) (0, 0))
  let s := writeSlots s q (wr + pad) l
  s.put (F.EH_QWR_COUNT q) ((wr + pad + l.length) % 2 ^ 32)

/-- One more record of queue `q` lost, with its DT (R428). -/
def loseRecord (s : State) (q : Nat) (dt : DT) : State :=
  let e := s.eh.look q
  let e := { e with
    lostFirst := if e.lostCount = 0 then dt else e.lostFirst
    lostCount := satInc 32 e.lostCount }
  let s := s.put (F.EH_QSTATE_LOST q) (satInc 32 (s.g (F.EH_QSTATE_LOST q)))
  { s with eh := s.eh.set q e }

/-- The vector and the notice of a queue that is ARMED (R431). -/
def fireQueue (s : State) (q : Nat) : State :=
  let s := msixSend s (s.g (F.EH_QCFG_VECTOR q))
  let s := s.put (F.EH_QSTATE_ARMED q) 0
  if s.gb (F.EH_QCFG_CTX_EN q) then sendNotice s (s.g (F.EH_QCFG_CTX q)) else s

/-- The first of `len` slots from WR that cannot be written, with the fault. -/
def ringFault (s : State) (q len : Nat) : Option (Nat × Nat × Nat) :=
  (List.range len).findSome? (fun i =>
    let a := s.reg (F.EH_QBASE q).adr + 16 * ((s.g (F.EH_QWR_COUNT q) + i) % ringSlots s q)
    match xlate s a with
    | .fault k l => some (k, l, a)
    | _ => none)

/-- A record is written to queue `q`, or lost (R428, R431). `dt` is the record's own DT. A translation fault, which is
answered too, loses it (DEDUCED, notes/assumptions/42). -/
def tryRecord (s : State) (q : Nat) (dt : DT) (l : Slots) : State × Option (Nat × Nat × Nat) :=
  if !(s.enabled pEH && s.gb (F.EH_QCFG_EN q)) then (loseRecord s q dt, none)
  else
    let n := ringSlots s q
    let wr := s.g (F.EH_QWR_COUNT q)
    let used := (wr + 2 ^ 32 - s.g (F.EH_QRD_COUNT q)) % 2 ^ 32
    let e := s.eh.look q
    let first := if e.lostCount = 0 then 0 else 1 + padOf n wr 1
    let need := first + padOf n (wr + first) l.length + l.length
    if used + need + 1 ≤ n then
      match ringFault s q need with
      | some f => (loseRecord s q dt, some f)
      | none =>
        let s := if e.lostCount = 0 then s
          else
            let s := placeRecord s q [header e.lostFirst 2 0 0 1 e.lostCount]
            { s with eh := s.eh.set q { e with lostCount := 0, lostFirst := 0 } }
        let s := placeRecord s q l
        (if s.gb (F.EH_QSTATE_ARMED q) then fireQueue s q else s, none)
    else (loseRecord s q dt, none)

/-- A fault of kind TABLE_ECC is also an uncorrectable read of a table word by the XU, to be reported (R359). -/
def noteTableEcc (s : State) (kind a : Nat) : State :=
  match (if kind = 4 then walkPoison s a else none) with
  | some e => { s with ueDue := s.ueDue ++ [(0x49, e)] }
  | none => s

/-- XU_FAULT of a fault that the hub's own writing has met (R365). A fault that its record meets in turn is noted in XU_FAULT_ADDR and
XU_FAULT_INFO and raised once more; the same queue would lose every further record (notes/assumptions/42). -/
def hubFault (s : State) (f : Nat × Nat × Nat) : Nat → State
  | 0 => s
  | n + 1 =>
    let (k, lv, a) := f
    let src := pageSource pXU
    let s := noteTableEcc (noteXuFault s 0x4B k lv a) k a
    if !s.gb (F.EH_SRC_EN src) then s
    else
      match tryRecord s (s.g (F.EH_SRC_QUEUE src)) s.stamp [header s.stamp 0 src 1 2 (0x4B + (k <<< 16) + (lv <<< 24)), (a, 0)] with
      | (s, none) => s
      | (s, some g) => hubFault s g n

/-- A record is written to queue `q`, or lost; a translation fault is reported (R365, R428). -/
def emitRecord (s : State) (q : Nat) (dt : DT) (l : Slots) : State :=
  match tryRecord s q dt l with
  | (s, none) => s
  | (s, some f) => hubFault s f 2

/-! ### Groups (R429, R430) -/

/-- The record of a closed group: SINGLE for one occurrence, else GROUP. -/
def groupRecord (g : EhGroup) : Slots :=
  if g.count = 1 then [header g.first 0 (Nat.log2 g.map) g.event 1 g.info]
  else
    header g.first 1 g.group g.event 6 g.info ::
    (g.last.toNat, g.count) ::
    (List.range 4).map (fun j => (getBits g.map (128 * j) 64, getBits g.map (128 * j + 64) 64))

/-- Closes and writes the oldest group of queue `q`. -/
def closeOldest (s : State) (q : Nat) : State :=
  let e := s.eh.look q
  match e.groups with
  | [] => s
  | g :: r => emitRecord { s with eh := s.eh.set q { e with groups := r } } q g.first (groupRecord g)

/-- The end of a group's window (R429). -/
def groupEnd (s : State) (q : Nat) (g : EhGroup) : DT :=
  dtAdd g.first (nsUnits (s.g (F.EH_QCFG_WINDOW q) * 1000))

/-- Closes the groups of queue `q` whose window has ended, oldest first; at most eight are open. -/
def closeDue (s : State) (q : Nat) : Nat → State
  | 0 => s
  | k + 1 =>
    match (s.eh.look q).groups with
    | [] => s
    | g :: _ => if dtDiff s.dt (groupEnd s q g) ≥ 0 then closeDue (closeOldest s q) q k else s

/-- An occurrence of a grouping axis source (R429). -/
def groupOccurrence (s : State) (q axis event info group : Nat) : State :=
  let s := closeDue s q 8
  let same (g : EhGroup) : Bool := g.event = event && g.info = info && g.group = group
  let e := s.eh.look q
  if e.groups.any same then
    let upd (g : EhGroup) : EhGroup :=
      if same g then { g with last := s.stamp, count := satInc 32 g.count, map := g.map ||| (1 <<< axis) } else g
    { s with eh := s.eh.set q { e with groups := e.groups.map upd } }
  else
    let s := if e.groups.length ≥ 8 then closeOldest s q else s
    let e := s.eh.look q
    { s with eh := s.eh.set q { e with groups := e.groups ++
        [{ event, info, group, first := s.stamp, last := s.stamp, count := 1, map := 1 <<< axis }] } }

/-! ### Occurrences (R424) -/

/-- An occurrence of source `src` (R424). `more` is the second slot of Table 16.10. -/
def raiseWith (s : State) (src event info : Nat) (more : Option (Nat × Nat)) : State :=
  if !s.gb (F.EH_SRC_EN src) then s
  else
    let q := s.g (F.EH_SRC_QUEUE src)
    if src < 512 && s.gb (F.EH_SRC_GROUP_EN src) then
      (if !(s.enabled pEH && s.gb (F.EH_QCFG_EN q)) then loseRecord s q s.stamp
       else
         let group := if s.gb (F.EH_SRC_AUTO src) then s.ax src F.LAW_CFG_DL_SEGMENT else s.g (F.EH_SRC_GROUP src)
         groupOccurrence s q src event (info % 2 ^ 32) group)
    else
      match more with
      | none => emitRecord s q s.stamp [header s.stamp 0 src event 1 info]
      | some p => emitRecord s q s.stamp [header s.stamp 0 src event 2 info, p]

/-- An event of an axis source (Table 16.6). -/
def raiseAxis (s : State) (axis event info : Nat) : State := raiseWith s axis event info none

/-- An event of the page at `p` (R426). -/
def raisePage (s : State) (p event info : Nat) : State := raiseWith s (pageSource p) event info none

/-- A two-slot event of the page at `p` (R427). -/
def raisePage2 (s : State) (p event info x y : Nat) : State :=
  raiseWith s (pageSource p) event info (some (x, y))

/-- Whether a direct address lies in DRAM. -/
def inDram (a : Nat) : Bool := dramBase ≤ a

/-- A poisoned word is read, or a short write meets one: it is reported, and in SRAM and DRAM, the memories of the memory page, it
is logged and counted (R358, R359, R361). -/
def raiseUe (s : State) (reader a : Nat) : State :=
  let wa := a / 8 * 8
  if !inMemory wa then raisePage2 s pMEM 2 reader wa 0 else
  let logged := (List.range 16).any (fun k => s.gb (F.MEM_POISON_VALID k) && s.g (F.MEM_POISON_ADDR k) = wa)
  let s := if logged || !s.poisoned wa then s else
    match (List.range 16).find? (fun k => !s.gb (F.MEM_POISON_VALID k)) with
    | some k => s.setReg (F.MEM_POISON k).adr ((1 <<< 63) + wa)
    | none => s
  let s := if inDram wa then { s with ms := { s.ms with ueDram := s.ms.ueDram + 1 } }
    else { s with ms := { s.ms with ueSram := s.ms.ueSram + 1 } }
  raisePage2 s pMEM 2 reader wa 0

/-- A translation fault is reported (R365); one of kind TABLE_ECC is also an uncorrectable read of a table word, by the XU,
whose master number is that of block type 9 (R359). -/
def raiseXuFault (s : State) (master kind level a : Nat) : State :=
  let s := raisePage2 (noteXuFault s master kind level a) pXU 1 (master + (kind <<< 16) + (level <<< 24)) a 0
  match (if kind = 4 then walkPoison s a else none) with
  | some e => raiseUe s 0x49 e
  | none => s

/-- `n` bytes within a word as device block `m` reads them: 0 with a report where the word is poisoned (Table 14.2, R359). -/
def devRead (s : State) (m a n : Nat) : Nat × State :=
  if s.poisoned a then (0, raiseUe s m a) else (s.bytesAt a n, s)

/-- `k` values of `n` bytes from `a`, as device block `m` reads them. -/
def devReads (s : State) (m a n : Nat) : Nat → List Nat × State
  | 0 => ([], s)
  | k + 1 =>
    let (v, s) := devRead s m a n
    let (l, s) := devReads s m (a + n) n k
    (v :: l, s)

/-- Translation faults that reading save areas has met are reported, with Keystone as the master (R365). -/
def reportSaves (s : State) : State :=
  if s.saveFaults = [] then s
  else forEach (fun (f : Nat × Nat × Nat) s =>
    raisePage2 (noteTableEcc (noteXuFault s 0x41 f.1 f.2.1 f.2.2) f.1 f.2.2) pXU 1 (0x41 + (f.1 <<< 16) + (f.2.1 <<< 24)) f.2.2 0)
    s.saveFaults { s with saveFaults := [] }

/-- The first `n` uncorrectable reads that are still to be reported are (R359, R361). -/
def reportUe (n : Nat) (s : State) : State :=
  if n = 0 then s
  else forEach (fun (e : Nat × Nat) s => raiseUe s e.1 e.2) (s.ueDue.take n) { s with ueDue := s.ueDue.drop n }

/-- A write of `n` bytes at direct address `a` (R358): a full aligned word replaces a poisoned one, a shorter
write to a poisoned word is discarded and reported. -/
def memWrite (s : State) (master a v n : Nat) : State :=
  if n = 8 && a % 8 = 0 then s.setWord a v
  else if s.poisoned a then raiseUe s master a
  else s.setBytes a v n

end Sys2Proof.Machine
end

