-- ==== Sys2Proof/Machine/Pages.lean ====
section
/-! DEFINITION. What all pages share: consistency checks and held actions (R413 to R415), guarded writes
(R417, R418), snapshot copies (R420), and the ranges that a standby does not take (R390). -/

namespace Sys2Proof.Machine

/-! ### Supplies (R26) -/

/-- Something leaves the device. -/
def State.emit (s : State) (o : Out) : State := { s with out := s.out ++ [o] }

/-- Whether the supply of the target at XU address `a` is up: the chip, HK, boot and FS pages lie in the always-on domain,
every other target needs the core supplies (R26, R443). -/
def powered (s : State) (a : Nat) : Bool := a < pSG || s.hk.corePower

/-- An access by master `m` to the target at XU address `a`: made where its supply is up, else the master is told (R26). -/
def supplied (s : State) (m a : Nat) (f : State → State) : State := if powered s a then f s else s.emit (.noPower m)

/-- The same for a row that names no master: whom the failed access is reported to is not an operand (notes/assumptions/42). -/
def suppliedTo (s : State) (a : Nat) (f : State → State) : State := if powered s a then f s else s

/-! ### Mirrored ranges (Table 15.3) -/

/-- Whether BAR0 offset `a` lies in a mirrored range (Table 15.3). -/
def mirrored (a : Nat) : Bool :=
  (0x100000 ≤ a && a < 0x200000) ||
  (pCyc + 0x80 ≤ a && a < pCyc + 0x98) ||
  a / 8 * 8 = pFBE + 0x80 || a / 8 * 8 = pFBE + 0xB0 ||
  (pQE + 0x100 ≤ a && a < pQE + 0x300) ||
  a / 8 * 8 = pLE + 0x80 ||
  (pPG + 0x80 ≤ a && a < pPG + 0x90) || (pPG + 0x800 ≤ a && a < pPG + 0x1000) ||
  (pFP 0 ≤ a && a < pEpoch &&
    ((0x140 ≤ a % 0x1000 && a % 0x1000 < 0x158) || 0xC00 ≤ a % 0x1000)) ||
  (pEpoch + 0x80 ≤ a && a < pEpoch + 0x90)

/-- SYNCING or STANDBY: the unit holds the active's copy (R390). -/
def State.standby (s : State) : Bool := s.tw.role = 3 || s.tw.role = 4

/-- The estimate, at own DT `d`, of this unit's DT minus the active's (R388): it moves at TW_DTRATE, and a correction is slewed
evenly over one live period, so that it never steps (DESIGN CHOICE, notes/assumptions/44). -/
def mapOff (s : State) (d : DT) : Int :=
  if !s.standby then 0
  else
    let per : Int := ((max 1 (s.time.live.period * stepUnits) : Nat) : Int)
    let e := dtDiff d s.tw.dtAt
    s.tw.dtOff + fdiv (e * s.tw.dtRate) 256000000000 + fdiv (s.tw.dtSlew * clampI 0 per e) per

/-- Whether a write by `master` to BAR0 offset `a` is set aside (R26, R390). -/
def standbyRefuses (s : State) (master a : Nat) : Bool := s.standby && master != 6 && mirrored a

/-- The unit runs the cycle and heads the segments: it is SINGLE or ACTIVE (Table 15.2, R212). A unit that takes
over computes first the cycle of R402. -/
def State.active (s : State) : Bool :=
  s.tw.role = 0 ||
  (s.tw.role = 2 && !(s.tw.recovering && decide ((s.tw.firstCycle - s.time.cycle).toInt > 0))) ||
  (s.tw.takeover ≠ 0 && decide ((s.time.cycle - s.tw.firstCycle).toInt ≥ 0))

/-- WRITE_REFUSED: the sixth event of the PW page (Table 15.10). -/
def raiseWriteRefused (s : State) : State := raisePage s pPW 6 0

/-- The active sends a write of a mirrored range that it applied as a mirrored write (R390). -/
def mirrorOut (s : State) (a v : Nat) : State :=
  if s.tw.role = 2 && s.tw.link && mirrored a then
    { s with out := s.out ++ [.mirror s.cycN a (BitVec.ofNat 64 v)] } else s

/-! ### Checks (R413 to R415) -/

/-- Block type of the page at `p`. -/
def pageType (p : Nat) : Nat := match pageTypeInst p with | some (t, _) => t | none => 0

/-- A reason code: the page's block type in its high byte (R415). -/
def reason (p low : Nat) : Nat := (pageType p <<< 8) + low

/-- The reasons common to every page (Table 16.2); 0 when none applies. `a` is the offset of the register
whose write asked for the action. -/
def commonReason (s : State) (p a master : Nat) : Nat :=
  let t := pageType p
  if nsHas s.selfFaults p then reason p 0xFF
  else if s.hk.minimal && ((t = 5) || (t = 2) || (t = 8)) then reason p 0xF0
  else if standbyRefuses s master a then reason p 0xF1
  else 0

/-- Takes one of several tests: the first reason that is not 0. -/
def firstReason : List Nat → Nat
  | [] => 0
  | r :: l => if r ≠ 0 then r else firstReason l

/-- A test of a check table: its reason code when it refuses. -/
def test (refuse : Bool) (code : Nat) : Nat := if refuse then code else 0

/-- Writes GUARD_STATE when a sequence completes, is applied or is refused (R418). While a later sequence is held, MASTER, OFFSET and
PENDING stay those of that sequence. -/
def guardResult (s : State) (p master off result : Nat) (pending : Bool) : State :=
  let opened := s.g (F.GUARD_STATE_OPEN p)
  if !pending && (s.checks.look p).held.any (fun a => a.guarded.isSome) then s.put (F.GUARD_STATE_RESULT p) result
  else s.setReg (F.GUARD_STATE p).adr
    ((master <<< 48) + (off <<< 32) + (b2n pending <<< 9) + (opened <<< 8) + result)

/-- An action reaches its page: it runs its check, or is held while one runs (R413, R418). -/
def submit (s : State) (a : Action) : State :=
  let c := s.checks.look a.page
  match c.running with
  | some _ =>
    let s := { s with checks := s.checks.set a.page { c with held := c.held ++ [a] } }
    match a.guarded with
    | some off => guardResult s a.page a.master off (s.g (F.GUARD_STATE_RESULT a.page)) true
    | none => s
  | none =>
    let s := { s with checks := s.checks.set a.page { c with running := some a } }
    s.put (F.CHECK_BUSY a.page) 1

/-- An action that has no check: carried out now, or held while a check runs (R413). -/
def submitPlain (s : State) (a : Action) (apply : State → State) : State :=
  let c := s.checks.look a.page
  match c.running with
  | some _ => submit s a
  | none =>
    let s := apply s
    match a.guarded with
    | some off => guardResult s a.page a.master off 1 false
    | none => s

/-- The result of a check in CHECK (R413, R414). -/
def recordCheck (s : State) (p master code : Nat) : State :=
  let seq := (s.g (F.CHECK_SEQ p) + 1) % 65536
  s.setReg (F.CHECK p).adr ((b2n (code != 0) <<< 63) + (master <<< 32) + (seq <<< 16) + code)

/-- A check made and ended at once on software's behalf, with the HK's master number (R414). A check that runs on the page goes
on. -/
def autoCheck (s : State) (p code : Nat) : State :=
  (recordCheck s p 5 code).put (F.CHECK_BUSY p) (b2n (s.checks.look p).running.isSome)

/-- The check of the page's running action ends with `code` (R413, R418). -/
def endCheck (s : State) (a : Action) (code : Nat) : State :=
  let s := recordCheck s a.page a.master code
  let c := s.checks.look a.page
  let s := { s with checks := s.checks.set a.page { c with running := none } }
  match a.guarded with
  | some off => guardResult s a.page a.master off (if code = 0 then 1 else 2) false
  | none => s

/-! ### Guarded writes (R417, R418) -/

/-- Whether the register at offset `off` of the page at `p` has a GW field; CTRL of a field-port page has (R222). -/
def hasGw (p off : Nat) : Bool :=
  (off = 8 && pFP 0 ≤ p && p < pEpoch) ||
  (accessRows.any (fun r => r.gw != 0 && accessRowHas r (p + off)))

/-- GUARD_FAIL of the page (R418, R427). -/
def guardFail (s : State) (p master cause off : Nat) : State :=
  let inst := if p = pEH + 0x1000 then 1 else if p = pEH + 0x2000 then 2 else 0
  raisePage2 s p 0xF1 (master + (cause <<< 16) + (inst <<< 24)) off 0

/-- A sequence or a step is discarded (R418). `m` is the master that GUARD_STATE names, `w` the writer. -/
def guardDiscard (s : State) (p m w off result : Nat) : State :=
  let s := { s with guards := s.guards.set p none }
  let s := (s.setReg (F.GUARD_A p).adr 0).setReg (F.GUARD_B p).adr 0
  let pend := s.g (F.GUARD_STATE_PENDING p)
  let s := s.setReg (F.GUARD_STATE p).adr ((m <<< 48) + (off <<< 32) + (pend <<< 9) + result)
  guardFail s p w result (s.g (F.GUARD_SEL_OFFSET p))

/-- A GUARD_SEL write (R418). -/
def guardSel (s : State) (p master v : Nat) : State :=
  let off := getBits v 3 9 <<< 3
  let s := match s.guards.look p with
    | some q => guardDiscard s p q.opener master q.offset 7
    | none => s
  let s := s.setReg (F.GUARD_SEL p).adr (getBits v 0 12)
  if !hasGw p off then guardDiscard s p master master off 6
  else
    let s := { s with guards := s.guards.set p (some { opener := master, offset := off, last := s.dt, value := none }) }
    let r := s.g (F.GUARD_STATE_RESULT p)
    let pend := s.g (F.GUARD_STATE_PENDING p)
    s.setReg (F.GUARD_STATE p).adr ((master <<< 48) + (off <<< 32) + (pend <<< 9) + (1 <<< 8) + r)

/-- Whether a step comes later than 1 µs after the one before (R417). -/
def guardLate (s : State) (q : GuardSeq) : Bool := dtDiff s.dt q.last > (nsUnits 1000 : Int)

/-- A GUARD_A write (R418). -/
def guardA (s : State) (p master v : Nat) : State :=
  match s.guards.look p with
  | none => guardDiscard s p master master (getBits (s.g (F.GUARD_SEL_OFFSET p)) 3 9 <<< 3) 8
  | some q =>
    if master ≠ q.opener then guardDiscard s p q.opener master q.offset 5
    else if guardLate s q then guardDiscard s p master master q.offset 3
    else if q.value.isSome then guardDiscard s p master master q.offset 8
    else
      let s := s.setReg (F.GUARD_A p).adr v
      { s with guards := s.guards.set p (some { q with value := some (BitVec.ofNat 64 v), last := s.dt }) }

/-- What a GUARD_B write completes: the target offset and the value; or the state after a discard (R417, R418). -/
def guardB (s : State) (p master v : Nat) : Except State (State × Nat × Nat) :=
  match s.guards.look p with
  | none => .error (guardDiscard s p master master (getBits (s.g (F.GUARD_SEL_OFFSET p)) 3 9 <<< 3) 8)
  | some q =>
    if master ≠ q.opener then .error (guardDiscard s p q.opener master q.offset 5)
    else if guardLate s q then .error (guardDiscard s p master master q.offset 3)
    else match q.value with
      | none => .error (guardDiscard s p master master q.offset 8)
      | some a =>
        if BitVec.ofNat 64 v ≠ ~~~a then .error (guardDiscard s p master master q.offset 4)
        else if standbyRefuses s master (p + q.offset) then
          .error (guardDiscard (raiseWriteRefused s) p master master q.offset 9)
        else
          let s := { s with guards := s.guards.set p none }
          let s := (s.setReg (F.GUARD_A p).adr 0).setReg (F.GUARD_B p).adr 0
          let r := s.g (F.GUARD_STATE_RESULT p)
          let pend := s.g (F.GUARD_STATE_PENDING p)
          let s := s.setReg (F.GUARD_STATE p).adr ((master <<< 48) + (q.offset <<< 32) + (pend <<< 9) + r)
          .ok (s, q.offset, a.toNat)

/-- The three writes of a guarded write of `v` by one master, in time (R417), with what the sequence completes. -/
def guardSeq (s : State) (p master off v : Nat) : Except State (State × Nat × Nat) :=
  guardB (guardA (guardSel s p master off) p master v) p master (without (2 ^ 64 - 1) v)

/-- A plain write reached a register that holds a GW field (R418). -/
def guardPlain (s : State) (p master off : Nat) : State :=
  let pend := s.g (F.GUARD_STATE_PENDING p)
  let opened := s.g (F.GUARD_STATE_OPEN p)
  let s := s.setReg (F.GUARD_STATE p).adr
    ((master <<< 48) + (off <<< 32) + (pend <<< 9) + (opened <<< 8) + 10)
  guardFail s p master 10 off

/-! ### Snapshot copies (R58, R66, R119, R420) -/

/-- The key of a master's copy of the register at `a`. -/
def snapKey (master a : Nat) : Nat := master * 0x4000000 + a

/-- The context that a master's copies are tagged with: the resident context of a signal core (R420). -/
def snapTag (s : State) (master : Nat) : Nat :=
  if 0x10 ≤ master && master < 0x18 then
    match (s.cores.look (master - 0x10)).resident with | some c => c + 1 | none => 0
  else 0

/-- Writes a master's copies; `take` is the TAKE register that stands for the set. -/
def takeSnap (s : State) (master take : Nat) (l : List (Nat × Nat)) : State :=
  let put (m : List (Nat × Word)) (p : Nat × Nat) : List (Nat × Word) :=
    tput (fun _ => 0) m (snapKey master p.1) (BitVec.ofNat 64 p.2)
  let m := l.foldl put s.snaps
  { s with snaps := tput (fun _ => 0) m (snapKey master take) (BitVec.ofNat 64 (snapTag s master)) }

/-- A master's copy of the snapshot register at `a`: all ones for a context that did not take it (R420). -/
def readSnap (s : State) (master take a : Nat) : Nat :=
  let tag := (tget (fun _ => (0 : Word)) s.snaps (snapKey master take)).toNat
  if 0x10 ≤ master && master < 0x18 && tag ≠ snapTag s master then 2 ^ 64 - 1
  else (tget (fun _ => (0 : Word)) s.snaps (snapKey master a)).toNat

/-- A master's own copy of a register that is not a snapshot (R352, Q_POPSTAT). -/
def ownCopy (s : State) (master a : Nat) : Nat :=
  (tget (fun _ => (0 : Word)) s.snaps (snapKey master a)).toNat

/-- Writes a master's own copy. -/
def setOwn (s : State) (master a v : Nat) : State :=
  { s with snaps := tput (fun _ => 0) s.snaps (snapKey master a) (BitVec.ofNat 64 v) }

/-! ### Axes (used by several chapters) -/

/-- Whether axis `a` is enabled: its bit of LE_AXMAPn. -/
def axisEnabled (s : State) (a : Nat) : Bool := bit (s.reg (F.LE_AXMAP (a / 64)).adr) (a % 64)

/-- Whether axis `a` is in the fault state: its bit of LE_FAULTMAPn. -/
def axisFaulted (s : State) (a : Nat) : Bool := bit (s.reg (F.LE_FAULTMAP (a / 64)).adr) (a % 64)

/-- Sets or clears bit `i` of a run of map registers from `base`. -/
def mapBit (s : State) (base i : Nat) (v : Bool) : State :=
  s.put ⟨base + 8 * (i / 64), i % 64, 1⟩ (b2n v)

/-- The indexes below 64 × n whose bit is set in the `n` registers from `base`, rising. -/
def mapList (s : State) (base n : Nat) : List Nat :=
  (List.range n).flatMap (fun w =>
    let v := s.reg (base + 8 * w)
    if v = 0 then [] else ((List.range 64).filter (fun i => bit v i)).map (fun i => 64 * w + i))

/-- The enabled axes, rising. -/
def enabledAxes (s : State) : List Nat := mapList s (F.LE_AXMAP 0).adr 8

/-- An opened or closed field-port page counts as enabled by CTRL.ENABLE. -/
def portOn (s : State) (p : Nat) : Bool := s.enabled (pFP p)

end Sys2Proof.Machine
end

