-- ==== Sys2Proof/Machine/Feedback.lean ====
section
/-! DEFINITION. The feedback engine: unwrap, index, angle, observer, latch words (R87 to R117, R486). -/

namespace Sys2Proof.Machine

/-- The FBE's own state for axis `a`. -/
def State.fbAx (s : State) (a : Nat) : FbAx := s.fb.ax.look a

/-- Changes the FBE's own state for axis `a`. -/
def State.onFb (s : State) (a : Nat) (f : FbAx → FbAx) : State :=
  { s with fb := { s.fb with ax := s.fb.ax.set a (f (s.fbAx a)) } }

/-- The axes with feedback active, rising. -/
def fbActive (s : State) : List Nat := (s.fb.ax.filter (fun p => p.2.active)).map (fun p => p.1)

/-- FB_STATUS as the FBE writes it. -/
def fbStatusWord (f : FbAx) : Nat :=
  (f.cycle.toNat <<< 32) + (f.missRun <<< 24) + (b2n f.ignored <<< 15) + (b2n f.updating <<< 14) + (b2n f.rebased <<< 13) +
  (b2n f.angStep <<< 12) + (b2n f.lost <<< 11) + (b2n f.mismatch <<< 10) + (b2n f.referenced <<< 9) +
  (b2n f.settled <<< 8) + (f.reject <<< 4) + (b2n f.suspect <<< 3) + (b2n f.extrap <<< 2) +
  (b2n f.measured <<< 1) + b2n f.active

/-- The FBE reads its words of the record of axis `a`, and FB_STATUS as it stands, whoever wrote it last: MISS_RUN, SETTLED, REFERENCED, FB_LOST and INDEX_MISMATCH
(R7). -/
def fbSync (s : State) (a : Nat) : State :=
  let s := s.noteReads 0x43 (axisBase a + 0x100) 16
  let b (f : Fld) : Bool := s.axb a f
  s.onFb a (fun f => if !f.active then f else { f with
    missRun := s.ax a F.FB_STATUS_MISS_RUN, settled := b F.FB_STATUS_SETTLED, referenced := b F.FB_STATUS_REFERENCED
    lost := b F.FB_STATUS_FB_LOST, mismatch := b F.FB_STATUS_INDEX_MISMATCH })

/-- Writes FB_STATUS of axis `a`, its reserved bits as they stand (R9). -/
def fbPutStatus (s : State) (a : Nat) : State :=
  let w := axisBase a + F.FB_STATUS.adr
  s.setWord w (blend (s.word w) (fbStatusWord (s.fbAx a)) 0xFFFFFFFFFF00FF3F)

/-- One more in a half of FB_COUNTS: 0 REJECT_COUNT, 1 MISS_COUNT (R117). -/
def fbCount (s : State) (a half : Nat) : State :=
  let f : Fld := ⟨0x138, 32 * half, 32⟩
  s.axPut a f (satInc 32 (s.ax a f))

/-! ### Checks (Table 4.6) -/

/-- The FBE check at ENABLE. -/
def fbeCheck (s : State) : Nat :=
  test (s.g F.FBE_CFG_DT_TOL = 0 || s.g F.FBE_CFG_DT_TOL > 10000 || s.g F.FBE_CFG_MISS_LIMIT = 0) 0x0301

/-- The FBE page is enabled: totals count from here (R119). -/
def fbeEnable (s : State) : State :=
  { s with fb := { s.fb with accepted := 0, extrapolated := 0, rejected := 0
                             missLimit := s.g F.FBE_CFG_MISS_LIMIT, dtTol := s.g F.FBE_CFG_DT_TOL } }

/-- FB_CFG of axis `a` as it stands. -/
def fbReadCfg (s : State) (a : Nat) : FbCfg :=
  { source := s.ax a F.FB_CFG_SOURCE, dir := s.axb a F.FB_CFG_DIR, indexEn := s.axb a F.FB_CFG_INDEX_EN
    rawBits := s.ax a F.FB_CFG_RAW_BITS, seg := s.ax a F.FB_CFG_SEGMENT, node := s.ax a F.FB_CFG_NODE
    record := s.ax a F.FB_CFG_RECORD, qe := s.ax a F.FB_CFG_QE }

/-- CPR within its range. -/
def cprOk (cpr : Nat) : Bool := 2 ≤ cpr && cpr ≤ 2 ^ 40

/-- The checks at START (Table 4.6). -/
def fbStartCheck (s : State) (a : Nat) : Nat :=
  let c := fbReadCfg s a
  firstReason
    [test (!s.enabled pFBE) 0x0310,
     test (c.source = 0 || c.source = 3 || (c.source = 1 && (c.rawBits < 16 || c.rawBits > 48))) 0x0311,
     test (c.source = 2 && !s.gb (F.QE_CFG_EN c.qe)) 0x0312,
     test (!cprOk (s.ax a F.FB_CPR_CPR)) 0x0313,
     test (!bwOk (s.ax a F.FB_OBS_CFG_BW) s.time.live.period) 0x0314,
     test (s.axb a F.FB_STATUS_ACTIVE) 0x0315]

/-- A START that passed its checks: FB_CFG is read now, and updates begin at the next T0 (R88). -/
def fbStart (s : State) (a : Nat) : State :=
  let c := fbReadCfg s a
  let bw := s.ax a F.FB_OBS_CFG_BW
  let cpr := s.ax a F.FB_CPR_CPR
  s.onFb a (fun f => { f with pendStart := some c, pendStop := false, bw := bw, cpr := cpr })

/-- A STOP: updates end at the next T0 (R88). -/
def fbStop (s : State) (a : Nat) : State :=
  s.onFb a (fun f => { f with pendStart := none, pendStop := f.active })

/-- FB_STATUS.ACTIVE of axis `a`, as every block but the FBE reads it (R7). -/
def fbIsActive (s : State) (a : Nat) : Bool := s.axb a F.FB_STATUS_ACTIVE

/-- FB_STATUS.FB_LOST of axis `a`, as every block but the FBE reads it (R7). -/
def fbIsLost (s : State) (a : Nat) : Bool := s.axb a F.FB_STATUS_FB_LOST

/-- Whether axis `a` is feedback-active from the next T0 on (R88, R141). -/
def fbWill (s : State) (a : Nat) : Bool :=
  (s.fbAx a).pendStart.isSome || (fbIsActive s a && !(s.fbAx a).pendStop)

/-- Clearing the FBE page's ENABLE stops every axis at the next T0 (R88). -/
def fbeDisable (s : State) : State :=
  forEach (fun a s => fbStop s a) (s.fb.ax.map (fun p => p.1)) s

/-! ### Unwrap and index (R90, R101 to R103) -/

/-- The position of raw count `raw` of width `w` (R90, R486). -/
def fbUnwrap (f : FbAx) (w raw : Nat) : Int :=
  let sgn (d : Int) : Int := if f.cfg.dir then -d else d
  match f.raw with
  | none => wrap64 (shl (sgn (toS w raw)) 24)
  | some p => wrap64 (f.y + shl (sgn (toS w (ofS w ((raw : Int) - p)))) 24)

/-- Width of the raw count of an axis's source. -/
def fbWidth (f : FbAx) : Nat := if f.cfg.source = 1 then f.cfg.rawBits else 32

/-- An index at raw count `raw` and DT `ts` (R101 to R103). -/
def fbIndex (s : State) (a raw : Nat) (ts : DT) : State :=
  let s := fbSync s a
  let f := s.fbAx a
  let pos := fbUnwrap f (fbWidth f) raw
  let s := (s.axiPut a 0x140 pos).setWord (axisBase a + 0x148) ts.toNat
  let cq : Int := ((f.cpr * 2 ^ 24 : Nat) : Int)
  let (bad, good) := match f.prevIdx with
    | none => (false, false)
    | some p =>
      let d := wrap64 (pos - p)
      let n := fdiv (2 * d + cq) (2 * cq)
      if n = 0 then (false, false)
      else
        let off := d - n * cq
        let b := decide ((if off < 0 then -off else off) > shl (f.tol : Int) 24)
        (b, !b)
  let arm := s.axb a F.FB_CMD_REF_ARM
  let s := s.onFb a (fun f => { f with
    prevIdx := some pos
    mismatch := if bad then true else if good then false else f.mismatch
    refPos := if arm && f.refPos.isNone then some pos else f.refPos })
  let s := if bad || good then fbPutStatus s a else s
  if bad then raiseAxis s a 6 0 else s

/-! ### Angle (R105, R106) -/

/-- Advances the angle to position `pos` (R105). -/
def angleTo (f : FbAx) (pos : Int) : FbAx :=
  let cq : Int := ((f.cpr * 2 ^ 24 : Nat) : Int)
  if f.angOn then
    let c := f.c + wrap64 (pos - f.lastPos)
    let q := fdiv c cq
    { f with c := c - q * cq, rev := ofS 32 ((f.rev : Int) + q), lastPos := pos }
  else
    let q := fdiv pos cq
    { f with angOn := true, c := pos - q * cq, rev := ofS 32 q, lastPos := pos }

/-- FB_TURN of the angle (R105). -/
def fbTurn (f : FbAx) : Nat :=
  (f.rev <<< 32) + (fdiv (shl f.c 32) (((f.cpr * 2 ^ 24 : Nat)) : Int)).toNat % 2 ^ 32

/-- Records an update in the axis's latch history, where an angle channel has named the axis (R283). -/
def latchRecord (s : State) (a : Nat) (dt : DT) : State :=
  if !nsHas s.ang.axes a then s
  else
    let f := s.fbAx a
    let n := s.ang.latch.look a
    let base := sramBase + 0xC00000 + 0x2000 * a + 64 * (n % 128)
    let flags := b2n f.measured + 2 * b2n f.extrap + 4 * b2n f.angStep
    let l := [ofS 64 (s.axi a 0x100), dt.toNat, ofS 64 f.v, ofS 64 f.acc, s.word (axisBase a + 0x128), flags, 0, 0]
    let put (p : Nat × Nat) (s : State) : State := s.setWord (base + 8 * p.1) p.2
    let s := forEach put (List.range 8 |>.zip l) s
    { s with ang := { s.ang with latch := s.ang.latch.set a (n + 1) } }

/-- Writes the feedback words of an update; position words only where a position exists (R486). -/
def fbWrite (s : State) (a : Nat) (dt : DT) (resid : Option Int) : State :=
  let f := s.fbAx a
  let s := if f.angOn then
      ((s.axiPut a 0x100 f.lastPos).axiPut a 0x120 f.x).setWord (axisBase a + 0x128) (fbTurn f)
    else s
  let s := s.setWord (axisBase a + 0x108) dt.toNat
  let s := (s.axiPut a 0x110 f.v).axiPut a 0x118 f.acc
  let s := match resid with | some e => s.axiPut a 0x150 e | none => s
  latchRecord (fbPutStatus s a) a dt

/-! ### Observer (R112 to R116) -/

/-- The prediction of position and velocity over `tau` (R112). -/
def obsPredict (f : FbAx) (tau : Int) : Int × Int :=
  (wrap64 (f.x + mulG f.v tau + shr (mulG f.acc (mulG tau tau)) 1), addS f.v (mulG f.acc tau))

/-- The observer corrected with the residual `e` at the prediction (R112). -/
def obsCorrect (f : FbAx) (xp vp e : Int) (period : Nat) : Int × Int × Int :=
  let t := gainT period
  (wrap64 (xp + mulG e f.k1), addS vp (divG (mulG e f.k2) t),
   addS f.acc (sat64 (fdiv (shl (mulG e f.k3) 96) (t * t))))

/-- A rejected sample (R117): `why` is the REJECT code. -/
def fbReject (s : State) (a why : Nat) : State :=
  let s := s.onFb a (fun f => { f with reject := why })
  let s := { s with fb := { s.fb with rejected := s.fb.rejected + 1 } }
  fbCount s a 0

/-- A sample that passed the tests of its source: raw count and DT (R112 to R116, R486). -/
def fbMeasure (s : State) (a raw : Nat) (dt : DT) : State :=
  let s := fbSync s a
  let f := s.fbAx a
  let w := fbWidth f
  let y := fbUnwrap f w raw
  let again := f.restart || (f.nmeas > 0 && f.missRun ≥ s.fb.missLimit)
  let f := if again then { f with nmeas := 0, settled := false, referenced := false, restart := false } else f
  let tau := tauOf (dtDiff dt f.upd)
  let (xp, vp) := obsPredict f tau
  let e := wrap64 (y - xp)
  if f.nmeas ≥ 2 && f.settled && f.jump ≠ 0 &&
      decide ((if e < 0 then -e else e) > shl (f.jump : Int) 24) then
    fbReject s a 2
  else
    let span := tauOf (dtDiff dt f.firstDt)
    let (free, s) := if f.nmeas = 1 && span = 0 then s.freeWord else (0, s)
    let (x, v, acc) :=
      if f.nmeas = 0 then (y, 0, 0)
      else if f.nmeas = 1 then
        (y, (if span = 0 then toS 64 free else divG (wrap64 (y - f.x)) span), 0)
      else obsCorrect f xp vp e s.time.live.period
    let resid := if f.nmeas ≥ 2 then some e else none
    let f := angleTo { f with
      x := x, v := v, acc := acc, y := y, raw := some (raw % 2 ^ w), nmeas := f.nmeas + 1, upd := dt
      firstDt := if f.nmeas = 0 then dt else f.firstDt
      missRun := 0, lossDue := false, measured := true, extrap := false, done := true, updating := false
      cycle := s.time.cycle } y
    let s := s.onFb a (fun _ => f)
    let s := { s with fb := { s.fb with accepted := s.fb.accepted + 1 } }
    fbWrite s a dt resid

/-- An unmeasured update at T0 (R109, R486). Between a restart that no measurement brings and the first new measurement the prediction goes
on from the state before it: R116 names none (DESIGN CHOICE, notes/assumptions/43). -/
def fbUnmeasured (s : State) (a : Nat) : State :=
  let s := fbSync s a
  let f := s.fbAx a
  let t0 := s.time.t0
  let (xp, vp) := obsPredict f (tauOf (dtDiff t0 f.upd))
  let run := min 255 (f.missRun + 1)
  let f := { f with missRun := run, measured := false, extrap := true, done := true, cycle := s.time.cycle, updating := false
                    lossDue := f.lossDue || (run ≥ s.fb.missLimit && (f.missRun < s.fb.missLimit || !f.lost)) }
  let f := if f.angOn then angleTo { f with x := xp, v := vp, upd := t0 } xp
    else { f with v := 0, acc := 0, upd := t0 }
  let s := s.onFb a (fun _ => f)
  let s := { s with fb := { s.fb with extrapolated := s.fb.extrapolated + 1 } }
  fbWrite (fbCount s a 1) a t0 none

/-- The 64-bit DT nearest to `ref` whose low 48 bits are `d` (R89). -/
def extendDt (ref : DT) (d : Nat) : DT :=
  dtAdd ref (toS 48 (ofS 48 ((d : Int) - (ref.toNat : Int))))

/-- The unit's own DT nearest to T0 for a DT of 48 bits in a frame: nodes date by the active's DT, which a standby
reaches through its mapping (R91, R388). -/
def frameDt (s : State) (d : Nat) : DT :=
  let off := mapOff s s.time.t0
  dtAdd (extendDt (dtAdd s.time.t0 (-off)) d) off

/-- A record reaches an axis (R89). -/
def fbRemote (s : State) (a : Nat) (r : PosRec) : State :=
  let s := s.onFb a (fun f => { f with got := true })
  let f := s.fbAx a
  let dt := frameDt s r.dt
  let off := dtDiff dt s.time.t0
  let s :=
    if !r.valid then fbReject s a 3
    else if (if off < 0 then -off else off) > (nsUnits s.fb.dtTol : Int) then fbReject s a 1
    else fbMeasure s a (r.raw % 2 ^ f.cfg.rawBits) dt
  match r.index with -- also of a record that a test rejects (DESIGN CHOICE, notes/assumptions/43)
  | some (ir, idt) =>
    if r.valid && f.cfg.indexEn then fbIndex s a (ir % 2 ^ f.cfg.rawBits) (frameDt s idt) else s
  | none => s

/-- The position records of the first accepted copy of a node's UPLINK (R87, R89, R108). -/
def fbUplink (s : State) (seg node : Nat) (recs : List PosRec) : State :=
  if !s.fb.isOpen then s
  else
    let take (a : Nat) (s : State) : State :=
      let f := s.fbAx a
      if f.cfg.source = 1 && f.cfg.seg = seg && f.cfg.node = node && !f.got then
        match recs[f.cfg.record]? with
        | some r => fbRemote s a r
        | none => s
      else s
    forEach take (fbActive s) s

/-- Feedback close: every active axis without an update is updated from its prediction (R108, R109). -/
def fbClose (s : State) : State :=
  let miss (a : Nat) (s : State) : State := if (s.fbAx a).done then s else fbUnmeasured s a
  let s := forEach miss (fbActive s) s
  { s with fb := { s.fb with isOpen := false, closeCycle := s.cycN } }

/-! ### T0 (R88, R103, R106, R107, R113, R116) -/

/-- Starts and stops that take effect at T0 (R88, R486). -/
def fbBegin (s : State) (a : Nat) : State :=
  let f := s.fbAx a
  match f.pendStart with
  | some c =>
    let n : FbAx := { (default : FbAx) with active := true, cfg := c, bw := f.bw, cpr := f.cpr, cycle := f.cycle,
                                            upd := s.time.t0 }
    fbPutStatus (s.onFb a (fun _ => n)) a
  | none =>
    if f.pendStop then fbPutStatus (s.onFb a (fun f => { f with active := false, pendStop := false })) a else s

/-- The words read at each T0 (R106, R112, R113). -/
def fbReread (s : State) (a : Nat) : State :=
  let f := s.fbAx a
  let bw := s.ax a F.FB_OBS_CFG_BW
  let cpr := s.ax a F.FB_CPR_CPR
  let per := s.time.live.period
  let ign := !bwOk bw per || !cprOk cpr
  let bw' := if bwOk bw per then bw else f.bw
  let cpr' := if cprOk cpr then cpr else f.cpr
  let (k1, k2, k3) := obsGains bw' per
  let rose := ign && !f.ignored
  let s := s.onFb a (fun f => { f with
    bw := bw', cpr := cpr', k1 := k1, k2 := k2, k3 := k3, settleAt := settleCount bw' per
    c := if cpr' = f.cpr then f.c else fdiv (f.c * (cpr' : Int)) (f.cpr : Int)
    jump := s.ax a F.FB_OBS_CFG_JUMP_LIMIT, tol := s.ax a F.FB_CPR_INDEX_TOL
    indexAngle := getBits (s.word (axisBase a + 0x170)) 0 32, ignored := ign })
  if rose then raiseAxis s a 8 0 else s

/-- Referencing at the T0 after the index (R103). -/
def fbReference (s : State) (a : Nat) : State :=
  let f := s.fbAx a
  match f.refPos with
  | none => s
  | some p =>
    let cq : Int := ((f.cpr * 2 ^ 24 : Nat) : Int)
    let ci := shr ((f.indexAngle : Int) * cq) 32
    let c := (ci + wrap64 (f.lastPos - p)) % cq
    let s := s.onFb a (fun f => { f with c := c, refPos := none, referenced := true, angStep := true })
    raiseAxis (s.axPut a F.FB_CMD_REF_ARM 0) a 7 0

/-- A rebase at T0 (R107); the PG's share stands in Profile.lean. The words change here and CYCLE with the update that
follows, so UPDATING is 1 from here to that update (R111; notes/assumptions/36). -/
def fbRebase (s : State) (a : Nat) : State :=
  let n := shl (toS 40 (s.ax a F.FB_CMD_REBASE)) 24
  let sub (i : Int) : Int := wrap64 (i - n)
  let s := s.onFb a (fun f => { f with
    x := sub f.x, y := sub f.y, lastPos := sub f.lastPos
    prevIdx := f.prevIdx.map sub, refPos := f.refPos.map sub, rebased := true, updating := true })
  let word (o : Nat) (s : State) : State := s.axiPut a o (sub (s.axi a o))
  let s := word 0x140 (word 0x120 (word 0x100 s))
  s.axPut a F.FB_CMD_REBASE_REQ 0

/-- Whether the axis has a rebase to take at this T0 (R107). -/
def fbWantsRebase (s : State) (a : Nat) : Bool := (s.fbAx a).active && s.axb a F.FB_CMD_REBASE_REQ

/-- The starts and stops of every axis at T0. -/
def fbBegins (s : State) : State := forEach (fun a s => fbBegin s a) (s.fb.ax.map (fun p => p.1)) s

/-- The FBE's T0 for one axis: what the cycle before left is cleared, then the words are read again. -/
def fbT0Axis (s : State) (a : Nat) : State :=
  if !(s.fbAx a).active then s
  else
    let s := (fbSync s a).onFb a (fun f => { f with
      done := false, got := false, reject := 0, suspect := false, rebased := false, updating := false, angStep := false
      restart := f.restart || s.fb.fresh
      settled := f.settled && !s.fb.fresh, referenced := f.referenced && !s.fb.fresh })
    let s := fbReference (fbReread s a) a
    let s := if fbWantsRebase s a then fbRebase s a else s
    fbPutStatus s a

/-- The FBE's T0 (R88, R113, R116). -/
def fbT0 (s : State) : State :=
  let s := { s with fb := { s.fb with missLimit := s.g F.FBE_CFG_MISS_LIMIT, dtTol := s.g F.FBE_CFG_DT_TOL
                                      isOpen := true } }
  let s := forEach (fun a s => fbT0Axis s a) (s.fb.ax.map (fun p => p.1)) s
  { s with fb := { s.fb with fresh := false } }

/-- The observer of an axis restarts at its next measurement (R116). -/
def fbRestart (s : State) (a : Nat) : State :=
  fbPutStatus ((fbSync s a).onFb a (fun f => { f with restart := true, settled := false, referenced := false })) a

/-! ### FB_LOST and SETTLED (R109, R114) -/

/-- FB_LOST is due for the axis: MISS_RUN has just reached MISS_LIMIT (R109). -/
def fbLostDue (s : State) (a : Nat) : Bool :=
  let f := s.fbAx a
  f.active && f.lossDue

/-- SETTLED is due: the measured updates have reached the count of R114. -/
def settledDue (s : State) (a : Nat) : Bool :=
  let f := s.fbAx a
  f.active && !s.axb a F.FB_STATUS_SETTLED && !f.restart && f.nmeas ≥ f.settleAt && f.settleAt ≠ 0

/-- SETTLED of an axis (R114). -/
def fbSettled (s : State) (a : Nat) : State :=
  if settledDue s a then fbPutStatus ((fbSync s a).onFb a (fun f => { f with settled := true })) a else s

/-- The first active axis whose BW breaks R113 at `period` (R241). -/
def fbBwFail (s : State) (period : Nat) : Option Nat :=
  (fbActive s).find? (fun a => !bwOk (s.ax a F.FB_OBS_CFG_BW) period)

/-- STATE of the FBE page, from FB_STATUS as it stands (R7). -/
def fbeState (s : State) : Nat :=
  let l := fbActive s
  let lost := (l.filter (fbIsLost s)).length
  (lost <<< 16) + (b2n (l.any (fun a => !s.axb a F.FB_STATUS_SETTLED)) <<< 1) + b2n (lost > 0)

end Sys2Proof.Machine
end

