-- ==== Sys2Proof/Machine/Quad.lean ====
section
/-! DEFINITION. The local quadrature channels (R92 to R102, R118, R120). -/

namespace Sys2Proof.Machine

/-- Channel `n`. -/
def State.qe (s : State) (n : Nat) : QeCh := s.fb.qe.look n

/-- Changes channel `n`. -/
def State.onQe (s : State) (n : Nat) (f : QeCh → QeCh) : State :=
  { s with fb := { s.fb with qe := s.fb.qe.set n (f (s.qe n)) } }

/-- QE_CFGn.EN. -/
def qeOn (s : State) (n : Nat) : Bool := s.gb (F.QE_CFG_EN n)

/-- Whether a channel with policy `p` is guarded (Table 4.2). POLICY = 3, which the table does not list and no check refuses, is taken
as never guarded (DESIGN CHOICE, notes/assumptions/43). -/
def qePolicy (s : State) (n p : Nat) : Bool := qeOn s n && (p = 1 || (p = 2 && (s.qe n).phase))

/-- Whether channel `n` is guarded (Table 4.2). -/
def qeGuarded (s : State) (n : Nat) : Bool := qePolicy s n (s.qe n).policy

/-- An edge dated `ts` lies after the T0 whose latch is due: it belongs to the cycle that has begun (R118). -/
def qeLate (c : QeCh) (ts : DT) : Bool := match c.due with | some d => decide (dtDiff ts d > 0) | none => false

/-- POLICY and MIN_SPACING by which an edge dated `ts` is judged: what a T0 has changed holds for the edges after it (R99, R421). -/
def qeRule (c : QeCh) (ts : DT) : Nat × Nat :=
  match c.was with
  | some w => if qeLate c ts then (c.policy, c.minSpacing) else w
  | none => (c.policy, c.minSpacing)

/-- Whether channel `n` is guarded for an edge dated `ts`. -/
def qeGuardedAt (s : State) (n : Nat) (ts : DT) : Bool := qePolicy s n (qeRule (s.qe n) ts).1

/-- MIN_SPACING for an edge dated `ts`, in units of DT. -/
def qeSpacing (c : QeCh) (ts : DT) : Int := (((qeRule c ts).2 * 163840 : Nat) : Int)

/-- The active axes that use channel `n`. -/
def qeAxes (s : State) (n : Nat) : List Nat :=
  (fbActive s).filter (fun a => (s.fbAx a).cfg.source = 2 && (s.fbAx a).cfg.qe = n)

/-- STATE of the QE page. -/
def qeState (s : State) : Nat :=
  let bits (p : Nat → Bool) : Nat := ((List.range 32).map (fun n => b2n (p n) <<< n)).sum
  bits (fun n => (s.qe n).tripped) + (bits (qeGuarded s) <<< 32)

/-- The QE check at ENABLE (Table 4.6). -/
def qePageCheck (s : State) : Nat := test s.fb.noSampling 0x0324

/-- The channel check at EN; `v` is the value written to QE_CFGn (Table 4.6). -/
def qeChannelCheck (s : State) (v : Nat) : Nat :=
  let limit := getBits v 24 8
  let window := getBits v 32 16
  firstReason
    [test (!s.enabled pQE) 0x0320,
     test (getBits v 16 8 < 3) 0x0321,
     test (limit = 0 || window = 0 || limit > window) 0x0322,
     test (let g := getBits v 8 3; g = 1 || g = 2 || g = 3) 0x0323]

/-- The fields of QE_CFGn that take effect at T0 are those of the word `v`. -/
def qeTakeCfg (s : State) (n v : Nat) : State :=
  let f (x : Fld) : Nat := getBits v x.lo x.w
  s.onQe n (fun c => { c with
    policy := f (F.QE_CFG_POLICY n), minSpacing := f (F.QE_CFG_MIN_SPACING n)
    limit := f (F.QE_CFG_FAULT_LIMIT n), window := f (F.QE_CFG_FAULT_WINDOW n)
    cleanCycles := f (F.QE_CFG_CLEAN_CYCLES n) })

/-- Channel `n` is enabled (R99, R120). Its fault history begins empty (DESIGN CHOICE, notes/assumptions/43). -/
def qeEnable (s : State) (n : Nat) : State :=
  let s := s.put (F.QE_CFG_EN n) 1
  let s := qeTakeCfg s n (s.reg (F.QE_CFG n).adr)
  s.onQe n (fun c => { c with phase := true, hist := [], now := 0, lateNow := 0, clean := 0, whole := false, pend := [], told := false, was := none })

/-- QE_ILLEGAL and the SUSPECT bit of each axis of the channel (R96, R97). -/
def qeSuspect (s : State) (n : Nat) : State :=
  forEach (fun a s => fbPutStatus (s.onFb a (fun f => { f with suspect := true })) a) (qeAxes s n) s

/-- An illegal transition dated `ts` (R93, R96, R97). -/
def qeIllegal (s : State) (n : Nat) (ts : DT) : State :=
  let c := s.qe n
  let late := qeLate c ts
  let told := if late then c.lateTold else c.told
  let one := b2n (qeGuardedAt s n ts)
  let s := s.onQe n (fun c =>
    if late then { c with lateIllegal := c.lateIllegal + 1, lateTold := true, lateNow := c.lateNow + one }
    else { c with illegal := satInc 32 c.illegal, told := true, now := c.now + one })
  let s := qeSuspect s n
  if told then s else raisePage s pQE 1 n

/-- A glitch of a guarded channel (R97); `ts` dates the edge that makes it one. -/
def qeGlitch (s : State) (n : Nat) (ts : DT) : State :=
  let late := qeLate (s.qe n) ts
  qeSuspect (s.onQe n (fun c =>
    if late then { c with lateSpacing := c.lateSpacing + 1, lateNow := c.lateNow + 1 }
    else { c with spacing := satInc 32 c.spacing, now := c.now + 1 })) n

/-- The count's change for a legal sample (Table 4.1); levels `a`, `b` after it. -/
def qeDelta (mode : Nat) (cA cB a b : Bool) : Int :=
  if mode = 0 then
    (if cA then (if a != b then 1 else -1) else if cB then (if a == b then 1 else -1) else 0)
  else if mode = 3 then
    (if cA && a then 1 else 0) - (if cB && b then 1 else 0)
  else if cA && a then (if b then -1 else 1) else 0

/-- Whether a sample is an illegal transition (R93). -/
def qeIsIllegal (mode : Nat) (cA cB a b : Bool) : Bool :=
  cA && cB && (if mode = 3 then a && b else true)

/-- The faults of the last FAULT_WINDOW completed cycles (R98). -/
def qeFaults (s : State) (n : Nat) : Nat :=
  let c := s.qe n
  (((c.hist.filter (fun p => s.cyc.t0s < p.1 + c.window)).map (fun p => p.2))).sum

/-- Whether a trip is due (R98). -/
def qeTripDue (s : State) (n : Nat) : Bool :=
  qeGuarded s n && !(s.qe n).tripped && qeFaults s n ≥ (s.qe n).limit && (s.qe n).limit ≠ 0

/-- The channel is absent for the axes that use it: it is tripped, or its trip is due (R98). -/
def qeAbsent (s : State) (n : Nat) : Bool := (s.qe n).tripped || qeTripDue s n

/-- An accepted sample: levels, count, index (R93, R101). -/
def qeAccept (s : State) (n : Nat) (e : QePend) : State :=
  let c := s.qe n
  let a := if e.cA then e.a else c.a
  let b := if e.cB then e.b else c.b
  let z := if e.cZ then e.z else c.z
  let mode := s.g (F.QE_CFG_MODE n)
  let bad := qeIsIllegal mode e.cA e.cB a b
  let d := if bad then 0 else qeDelta mode e.cA e.cB a b
  let s := s.onQe n (fun c => { c with
    a := a, b := b, z := z, count := c.count + BitVec.ofInt 32 d
    edgeDt := if d = 0 then c.edgeDt else e.ts })
  let s := if bad then qeIllegal s n e.ts else s
  let gate := s.g (F.QE_CFG_INDEX_GATE n)
  if e.cZ && e.z && (gate < 4 || gate - 4 = 2 * b2n a + b2n b) then
    let s := s.onQe n (fun c => { c with idxDt := e.ts })
    let raw := (s.qe n).count.toNat
    if qeAbsent s n then s
    else forEach (fun x s => if (s.fbAx x).cfg.indexEn then fbIndex s x raw e.ts else s) (qeAxes s n) s
  else s

/-- Accepts the pending samples that `due` selects, oldest first; `k` bounds their number. -/
def qeDrain (s : State) (n : Nat) (due : QePend → Bool) : Nat → State
  | 0 => s
  | k + 1 =>
    match (s.qe n).pend with
    | [] => s
    | e :: r =>
      if due e then
        let s := s.onQe n (fun c => { c with pend := r })
        qeDrain (if e.cA || e.cB || e.cZ then qeAccept s n e else s) n due k
      else s

/-- A pending sample has stood for MIN_SPACING, so that no later edge can make it part of a glitch (R97). A later edge is
known only once it is confirmed; while the present ones lie before the T0 whose latch is due, later ones may be judged by the rule from
that T0 on. -/
def qeSafe (s : State) (n : Nat) (e : QePend) : Bool :=
  let c := s.qe n
  let gap := dtDiff s.edgeStamp e.ts
  decide (gap ≥ qeSpacing c s.edgeStamp) && (c.due.isNone || decide (gap ≥ ((c.minSpacing * 163840 : Nat) : Int)))

/-- Accepts every pending sample that no later edge can make a glitch. -/
def qeSettle (s : State) (n : Nat) : State := qeDrain s n (qeSafe s n) (s.qe n).pend.length

/-- Drops input `i` (0 A, 1 B, 2 Z) from the pending samples that are `near`, and says whether one held it. -/
def qeDrop (l : List QePend) (i : Nat) (near : QePend → Bool) : Bool × List QePend :=
  let has (e : QePend) : Bool := near e && if i = 0 then e.cA else if i = 1 then e.cB else e.cZ
  (l.any has, l.map (fun e =>
    if !near e then e
    else if i = 0 then { e with cA := false } else if i = 1 then { e with cB := false } else { e with cZ := false }))

/-- One glitch test for an input that changed at `ts` (R97): the edge left over, and the pending samples. -/
def qePair (s : State) (n i : Nat) (ts : DT) (changed : Bool) : Bool × State :=
  if !changed then (false, s)
  else
    let (hit, l) := qeDrop (s.qe n).pend i (fun e => decide (dtDiff ts e.ts < qeSpacing (s.qe n) ts))
    if hit then (false, qeGlitch (s.onQe n (fun c => { c with pend := l })) n ts) else (true, s)

/-- The confirmed level of an input whose last three samples, 2.5 ns apart, are the bits of `w`, the latest in bit 0: a new
level is accepted only after three samples at it (R92). A pulse shorter than 5 ns meets at most two samples, one of 7.5 ns or
longer at least three. -/
def qeLevel (old : Bool) (w : Nat) : Bool := if w % 8 = 7 then true else if w % 8 = 0 then false else old

/-- Samples of A, B and Z at the command's DT, each with the two samples before it, and the edges that they confirm (R92,
R93, R97). -/
def qeSample (s : State) (n a b z : Nat) : State :=
  let c := s.qe n
  let a := qeLevel c.ra a
  let b := qeLevel c.rb b
  let z := qeLevel c.rz z
  let cA := c.ra != a
  let cB := c.rb != b
  let cZ := c.rz != z
  let s := s.onQe n (fun c => { c with ra := a, rb := b, rz := z })
  let e : QePend := { ts := s.edgeStamp, cA := cA, cB := cB, cZ := cZ, a := a, b := b, z := z }
  if !(cA || cB || cZ) then s
  else if !qeOn s n then s.onQe n (fun c => { c with a := a, b := b, z := z, pend := [] })
  else if !qeGuardedAt s n e.ts then
    qeAccept (qeDrain s n (fun _ => true) (s.qe n).pend.length) n e
  else
    let s := qeSettle s n
    let (cA, s) := qePair s n 0 e.ts cA
    let (cB, s) := qePair s n 1 e.ts cB
    let (cZ, s) := qePair s n 2 e.ts cZ
    s.onQe n (fun c => { c with pend := c.pend ++ [{ e with cA := cA, cB := cB, cZ := cZ }] })

/-- The channel trips (R98). -/
def qeTrip (s : State) (n : Nat) : State :=
  if qeTripDue s n then raisePage (s.onQe n (fun c => { c with tripped := true })) pQE 2 n else s

/-- Whether the guarded phase of policy 2 ends (R99). -/
def qeCleanDue (s : State) (n : Nat) : Bool :=
  let c := s.qe n
  qeOn s n && c.policy = 2 && c.phase && c.clean ≥ c.cleanCycles

/-- The guarded phase ends (R99). -/
def qeClean (s : State) (n : Nat) : State :=
  if qeCleanDue s n then raisePage (s.onQe n (fun c => { c with phase := false })) pQE 3 n else s

/-- REGUARD at T0 (R98, R116). -/
def qeReguard (s : State) (n : Nat) : State :=
  let was := (s.qe n).tripped
  let s := s.onQe n (fun c => { c with
    tripped := false, hist := [], now := 0, clean := 0, whole := true, phase := true })
  forEach (fun a s =>
    if was then fbRestart s a
    else fbPutStatus (s.onFb a (fun f => { f with referenced := false })) a) (qeAxes s n) s

/-- The channel's latch feeds an axis at T0 (R89, R95, R98). -/
def qeFeed (s : State) (n a : Nat) : State :=
  if qeAbsent s n then fbReject (s.onFb a (fun f => { f with got := true })) a 3
  else if qeOn s n then
    fbMeasure (s.onFb a (fun f => { f with got := true })) a (s.qe n).count.toNat s.time.t0
  else s

/-- Runs `f` as if the DT were `d`: the record of what it raises carries `d`. -/
def atDt (s : State) (d : DT) (f : State → State) : State :=
  let now := s.time.dt
  let r := f { s with time := { s.time with dt := d } }
  { r with time := { r.time with dt := now } }

/-- When the latch of channel `n` for the T0 at `d` is formed (R95), by the rule for the edges up to that T0. -/
def qeLatchAt (s : State) (n : Nat) (d : DT) : DT :=
  dtAdd d (7 * 65536 + 32768 + (if qeGuardedAt s n d then qeSpacing (s.qe n) d else 0))

/-- T0 comes to channel `n`: its latch is due (R95), and an injected transition 1 µs later (R100). What QE_CFGn and QE_CTRLn ask
for at this instant is taken up with the latch, what they ask for later with the next (R98, R118); POLICY and MIN_SPACING hold for the
edges after this T0 (R99). The first T0 of a start ends no cycle: what was counted before it belongs to none (R98, R99). -/
def qeMark (s : State) (n : Nat) : State :=
  let fresh := s.fb.fresh
  let v := s.reg (F.QE_CFG n).adr
  let f (x : Fld) : Nat := getBits v x.lo x.w
  s.onQe n (fun c => { c with
    due := some s.time.t0, now := if fresh then 0 else c.now, whole := c.whole && !fresh
    injAt := if c.inject then some (dtAdd s.time.t0 (nsUnits 1000)) else c.injAt, inject := false
    was := some (c.policy, c.minSpacing), policy := f (F.QE_CFG_POLICY n), minSpacing := f (F.QE_CFG_MIN_SPACING n)
    cfgAt := v, clrAt := c.clr, clr := false, reguardAt := c.reguard, reguard := false })

/-- T0 of every channel. -/
def qeAllT0 (s : State) : State :=
  let busy (n : Nat) : Bool :=
    let c := s.qe n
    qeOn s n || c.inject || c.clr || c.reguard || !c.pend.isEmpty -- INJECT acts with EN = 0 too (notes/assumptions/43)
  forEach (fun n s => if busy n then qeMark s n else s) (List.range 32) s

/-- The latch of channel `n` for the T0 at `d` (R95): the edges up to T0 are counted, the cycle that ended there is booked, a
trip, CLR_FAULTS and REGUARD follow in that order (R118), and the axes are referenced (R103) and fed. What was counted of later
edges while the latch was due begins the new cycle. A trip that no REGUARD ends at this T0 stays due (QE_TRIP). -/
def qeLatch (s : State) (n : Nat) (d : DT) : State :=
  let s := qeDrain s n (fun e => dtDiff d e.ts ≥ 0) (s.qe n).pend.length
  let s := s.onQe n (fun c => { c with
    hist := (if c.now = 0 then c.hist else (s.cyc.t0s, c.now) :: c.hist).filter (fun p => s.cyc.t0s < p.1 + 65536)
    clean := if c.now = 0 then (if c.whole then c.clean + 1 else c.clean) else 0
    now := 0, told := c.lateTold, lateTold := false, whole := true, due := none, was := none })
  let s := qeTakeCfg s n (s.qe n).cfgAt
  let s := if (s.qe n).reguardAt then qeTrip s n else s
  let s := if (s.qe n).clrAt then s.onQe n (fun c => { c with illegal := 0, spacing := 0, clrAt := false }) else s
  let s := if (s.qe n).reguardAt then qeReguard (s.onQe n (fun c => { c with reguardAt := false })) n else s
  let s := s.onQe n (fun c => { c with
    illegal := satAdd 32 c.illegal c.lateIllegal, spacing := satAdd 32 c.spacing c.lateSpacing, now := c.lateNow
    lateIllegal := 0, lateSpacing := 0, lateNow := 0 })
  if d = s.time.t0 then forEach (fun a s => qeFeed (fbReference s a) n a) (qeAxes s n) s else s

/-- What is due on channel `n` at the command's DT: its latch, once its instant has passed (an edge that is confirmed at that
instant counts first), and an injected transition. `late`: a latch is formed even before its instant, when the T0 after it or
the feedback close comes. -/
def qeDueNow (s : State) (late : Bool) (n : Nat) : State :=
  let s := match (s.qe n).due with
    | some d => if late || dtDiff s.dt (qeLatchAt s n d) > 0 then qeLatch s n d else s
    | none => s
  match (s.qe n).injAt with
  | some d => if dtDiff s.dt d ≥ 0 then atDt (s.onQe n (fun c => { c with injAt := none })) d (fun s => qeIllegal s n d) else s
  | none => s

/-- The channels catch up with the command's DT (R95, R100; notes/assumptions/14). -/
def qeCatchUp (s : State) (late : Bool) : State :=
  forEach (fun n s => qeDueNow s late n) ((s.fb.qe.filter (fun p => p.2.due.isSome || p.2.injAt.isSome)).map (fun p => p.1)) s

/-- QE_EDGE (R92, R93, R95). An edge dated at or before the T0 whose latch is due counts in it. -/
def qeEdge (s : State) (n a b z : Nat) : State :=
  if (s.qe n).due.isSome && !qeLate (s.qe n) s.edgeStamp then qeCatchUp (qeSample s n a b z) false
  else qeSample (qeCatchUp s false) n a b z

/-- The words of QE_SNAP for channel `n` (R119): of a guarded channel with the pending edges that no later one can make a
glitch counted, and from the T0 of a CLR_FAULTS on without the faults up to it (R118). -/
def qeSnapWords (s : State) (n : Nat) : List (Nat × Nat) :=
  let c := (qeSettle s n).qe n
  let old (k : Nat) : Nat := if c.clrAt then 0 else k
  [(F.QE_SNAP_COUNT_COUNT.adr, c.count.toNat + (b2n c.ra <<< 32) + (b2n c.rb <<< 33) + (b2n c.rz <<< 34)),
   (pQE + 0x90, c.edgeDt.toNat), (pQE + 0x98, satAdd 32 (old c.illegal) c.lateIllegal + (satAdd 32 (old c.spacing) c.lateSpacing <<< 32)), (pQE + 0xA0, c.idxDt.toNat)]

end Sys2Proof.Machine
end

