-- ==== Sys2Proof/Machine/Governor.lean ====
section
/-! DEFINITION. The slack measurement and the slack governor (R51 to R57). -/

namespace Sys2Proof.Machine

/-- An instant of the current cycle: T0 plus `n` steps of 125 ns (R31). -/
def State.at (s : State) (n : Nat) : DT := dtAdd s.time.t0 ((n * stepUnits : Nat) : Int)

/-- What SG_CFG, SG_MODE and SG_VLIMIT hold now. -/
def sgRead (s : State) : SgCfg :=
  { target := s.g F.SG_CFG_TARGET, band := s.g F.SG_CFG_BAND, window := s.g F.SG_CFG_WINDOW
    freeze := s.g F.SG_CFG_FREEZE, warn := s.g F.SG_MODE_WARN, fixed := s.gb F.SG_MODE_MODE
    vfixed := s.g F.SG_VLIMIT_VFIXED, vmax := s.g F.SG_VLIMIT_VMAX, vmin := s.g F.SG_VLIMIT_VMIN }

/-- The SG check (Table 2.6). -/
def sgCheck (s : State) : Nat :=
  let c := sgRead s
  firstReason
    [test (c.vmin > 36 || c.vmax > 36 || c.vfixed > 36 || c.vmin > c.vmax || c.vfixed < c.vmin ||
       c.vfixed > c.vmax) 0x1401,
     test (c.window = 0 || c.window > 256) 0x1402,
     test (c.target < 500 || c.band = 0 || c.warn > c.target) 0x1403,
     test (s.fs.regFault && s.fs.regVcore) 0x1404]

/-- SG_SLACK_MIN returns to its reset value and the histogram restarts at 0 (R56). -/
def sgStatsRestart (s : State) : State :=
  let s := s.setReg F.SG_SLACK_MIN_SLACK.adr (regReset F.SG_SLACK_MIN_SLACK.adr)
  { s with sg := { s.sg with bins := [] } }

/-- SG_STATS_RESET.RESET: the step counts are cleared as well (R56). -/
def sgStatsReset (s : State) : State :=
  ((sgStatsRestart s).put F.SG_VCORE_DOWN_STEPS 0).put F.SG_VCORE_UP_STEPS 0

/-- The code commanded. -/
def sgCode (s : State) : Nat := s.g F.SG_VCORE_CODE

/-- The governor takes its configuration when its enable passes the check (R52, R54, R56). A walk in progress goes on, each
step 10 µs after the one before it; where the code stood at the old VFIXED, a new walk begins now (R53). -/
def sgEnable (s : State) : State :=
  let c := sgRead s
  let resting := sgCode s = s.sg.cfg.vfixed
  let s := sgStatsRestart s
  { s with sg := { s.sg with
    cfg := c, quiet := c.window, frozen := false, history := [], walkFrom := if resting then s.dt else s.sg.walkFrom } }

/-- One step of the code, up or down, counted (R52, R53). -/
def sgStep (s : State) (up : Bool) : State :=
  let s :=
    if up then (s.put F.SG_VCORE_CODE (sgCode s + 1)).put F.SG_VCORE_UP_STEPS (s.g F.SG_VCORE_UP_STEPS + 1)
    else (s.put F.SG_VCORE_CODE (sgCode s - 1)).put F.SG_VCORE_DOWN_STEPS (s.g F.SG_VCORE_DOWN_STEPS + 1)
  { s with sg := { s.sg with stepAt := some s.dt } }

/-- One step toward code `v`, if the code is not there (R53). -/
def sgToward (s : State) (v : Nat) : State :=
  if sgCode s < v then sgStep s true else if v < sgCode s then sgStep s false else s

/-- Stepping under R52, while the SG is enabled with MODE = 0 and the cycle runs. -/
def sgGoverning (s : State) : Bool := s.enabled pSG && !s.sg.cfg.fixed && s.time.running

/-- The slack of the cycle at measurement close: no measurement without an axis enabled; `some none` is
incomplete (R51). -/
def slackOf (s : State) : Option (Option Int) :=
  match s.cyc.enabledNow with
  | [] => none
  | l =>
    let find (a : Nat) : Option DT := (s.sg.done.find? (fun p => p.1 = a)).map (fun p => p.2)
    let stamp (a : Nat) : Int := match find a with | some d => dtDiff d s.time.t0 | none => 0
    if l.all (fun a => (find a).isSome) then
      let last := l.foldl (fun m a => max m (stamp a)) (stamp (l.headD 0))
      some (some (toNs (((s.time.live.tr * stepUnits : Nat) : Int) - last)))
    else some none

/-- The 32-bit slack number; incomplete is the least one (R51). -/
def slackNum : Option Int → Int
  | none => minS 32
  | some v => satS 32 v

/-- The bin of a slack (Table 2.5). -/
def slackBin : Option Int → Nat
  | none => 0
  | some v => if v < 0 then 0 else if v ≥ 7000 then 15 else (v / 500).toNat + 1

/-- The measurement reaches SG_SLACK, SG_SLACK_MIN and the histogram (R56). -/
def slackNote (s : State) (m : Option Int) : State :=
  let v := slackNum m
  let s := s.setReg F.SG_SLACK_SLACK.adr (ofS 32 v + (s.cycN <<< 32))
  let s := if v < s.gi F.SG_SLACK_MIN_SLACK then
      s.setReg F.SG_SLACK_MIN_SLACK.adr (ofS 32 v + (s.cycN <<< 32)) else s
  let b := slackBin m
  { s with sg := { s.sg with measured := true, bins := s.sg.bins.set b ((s.sg.bins.look b + 1) % 2 ^ 32) } }

/-- Whether the least of the history is at least `lim`; an incomplete one is below every limit. -/
def histAtLeast (l : List (Option Int)) (lim : Int) : Bool :=
  l.all (fun m => match m with | none => false | some v => decide (lim ≤ v))

/-- The algorithm of R52 at a measurement close with measurement `m`. -/
def sgAlgorithm (s : State) (m : Option Int) : State :=
  let c := s.sg.cfg
  let held := s.cyc.heldNow > 0
  let h := (m :: s.sg.history).take c.window
  let s := { s with sg := { s.sg with history := h } }
  let low := match m with | none => true | some v => decide (v < (c.target : Int))
  if low || held then
    let s := if sgCode s < c.vmax then sgStep s true else s
    let q := if held then c.freeze else c.window
    { s with sg := { s.sg with quiet := q, frozen := held && q > 0 } }
  else if s.sg.quiet > 0 then
    let q := s.sg.quiet - 1
    { s with sg := { s.sg with quiet := q, frozen := s.sg.frozen && q > 0 } }
  else if histAtLeast h ((c.target + c.band : Nat) : Int) && sgCode s > c.vmin then
    let s := sgStep s false
    { s with sg := { s.sg with quiet := c.window } }
  else s

/-- Measurement close at T0 + DL_END: the slack is recorded and the governor acts (R51 to R53). -/
def sgClose (s : State) : State :=
  let m := slackOf s
  let s := match m with | some x => slackNote s x | none => s
  let c := s.sg.cfg
  if !sgGoverning s then sgToward s c.vfixed
  else if sgCode s < c.vmin then sgStep s true
  else if sgCode s > c.vmax then sgStep s false
  else match m with | some x => sgAlgorithm s x | none => s

/-- A step of the walk while the cycle is not running, 10 µs after the step before (R53). -/
def sgWalk (s : State) : State :=
  if s.time.running || sgCode s = s.sg.cfg.vfixed || dtDiff s.dt s.sg.walkFrom < (nsUnits 10000 : Int) then s
  else
    let s := sgToward s s.sg.cfg.vfixed
    { s with sg := { s.sg with walkFrom := dtAdd s.sg.walkFrom (nsUnits 10000) } }

/-- STATE of the SG page (R55, R56). While the governor does not step under R52, FROZEN reads as the last step under it left it, until
the next enable or measurement (R56 does not say: DESIGN CHOICE, notes/assumptions/43). -/
def sgState (s : State) : Nat :=
  let c := s.sg.cfg
  let last := s.gi F.SG_SLACK_SLACK
  b2n (sgGoverning s) + (b2n (sgCode s = c.vmin) <<< 1) +
  (b2n (sgCode s = c.vmax && s.sg.measured && last < c.target) <<< 2) +
  (b2n (s.sg.measured && last < c.warn) <<< 3) + (b2n s.sg.frozen <<< 4)

/-- SG_VCORE.SETTLING: a step commanded less than 1 µs ago (R52; notes/assumptions/10). -/
def sgSettling (s : State) : Bool :=
  match s.sg.stepAt with | some d => dtDiff s.dt d < (nsUnits 1000 : Int) | none => false

/-- The words of SG_HIST0 to SG_HIST7 for a snapshot (R56). -/
def sgHistWords (s : State) : List (Nat × Nat) :=
  (List.range 8).map (fun n =>
    ((F.SG_HIST_BIN_EVEN n).adr, s.sg.bins.look (2 * n) + (s.sg.bins.look (2 * n + 1) <<< 32)))

end Sys2Proof.Machine
end

