-- ==== Sys2Proof/Machine/Repetitive.lean ====
section
/-! DEFINITION. The repetitive controller within an axis step (R153 to R166, R169), and the operations of
R123 that report their saturation as SATWORD bits. -/

namespace Sys2Proof.Machine

/-! ### Operations with their SATWORD bits (R123, R134) -/

/-- A value with the SATWORD bits that forming it sets. -/
abbrev VB := Int × Nat

/-- `2^n` when `c`. -/
def flagIf (c : Bool) (n : Nat) : Nat := if c then 2 ^ n else 0

/-- A value saturated to 64 bits; bit `n` when that changes it. -/
def satB (i : Int) (n : Nat) : VB := (sat64 i, flagIf (over64 i) n)

/-- The product of a Q40.24 operand and a gain64. Its saturation sets PRODUCT beside the bit `n` of the operation that it
belongs to (Table 5.4). -/
def mulB (q g : Int) (n : Nat) : VB :=
  let (v, f) := satB (mulGRaw q g) n
  (v, f ||| flagIf (f ≠ 0) 13)

/-- A sum of terms, saturating after each addition. -/
def sumB (n : Nat) : Int → List Int → VB
  | a, [] => (a, 0)
  | a, x :: r =>
    let (v, f) := satB (a + x) n
    let (w, g) := sumB n v r
    (w, f ||| g)

/-- A clamp; bit `n` when it changes the value. -/
def clampB (lo hi i : Int) (n : Nat) : VB :=
  let v := clampI lo hi i
  (v, flagIf (decide (v ≠ i)) n)

/-- p(t) of R110 with SATWORD.EXTRAP. -/
def extrapB (p v a tau : Int) : VB :=
  let (t2, b1) := mulB tau tau 14
  let (vt, b2) := mulB v tau 14
  let (at2, b3) := mulB a t2 14
  let (r, b4) := sumB 14 p [vt, shr at2 1]
  (r, b1 ||| b2 ||| b3 ||| b4)

/-- tau of R110 with SATWORD.EXTRAP. -/
def tauB (d : Int) : VB := satB (fdiv (shl d 32) 1000000000) 14

/-! ### The table -/

/-- Entry `i` of the pool's table at `base` (R153). -/
def repEntryAddr (base i : Nat) : Nat := sramBase + 0x400000 + 4 * (base + i)

/-- A signed pool entry. -/
def repEntry (s : State) (base i : Nat) : Int :=
  let a := repEntryAddr base i
  toS 32 (getBits (s.word a) (8 * (a % 8)) 32)

/-- Bins of the table that REP_CFG `cfg` names. -/
def repN (cfg : Nat) : Nat := 2 ^ getBits cfg 60 4

/-- The entries changed in a step so far, over those of the pool. -/
def repLook (s : State) (base : Nat) (l : List (Nat × Int)) (i : Nat) : Int :=
  match l.find? (fun p => p.1 = i) with
  | some p => p.2
  | none => repEntry s base i

/-! ### Checks (Table 6.3) -/

/-- The reason for which the repetitive words of axis `a` refuse an enable, 0 for none; `others` are the
other axes that will be enabled with REP_EN = 1, with their REP_CFG (R169). -/
def repCheck (s : State) (a struct : Nat) (others : List Nat) : Nat :=
  let cfg := s.word (axisBase a + 0x200)
  let nl := getBits cfg 60 4
  let n := 2 ^ nl
  let base := getBits cfg 0 20
  let esrc := getBits cfg 48 2
  let qw := s.axi a 0x218
  let fg := s.axi a 0x220
  let clash (o : Nat) : Bool :=
    let b := getBits o 0 20
    b < base + n && base < b + repN o
  firstReason
    [test (nl < 6 || nl > 13) 1,
     test (base % n ≠ 0 || base + n > 1048576) 2,
     test (others.any clash) 3,
     test (!fbWill s (getBits cfg 32 9)) 4,
     test (getBits cfg 50 6 > 40) 5,
     test (esrc = 3 || (esrc = 1 && struct ≠ 1) || (esrc = 2 && struct ≠ 3)) 6,
     test (qw < 0 || qw > 2 ^ 46 || fg < 2 ^ 47 || fg > 2 ^ 48) 7,
     test (s.axi a 0x230 < 0 || s.axi a 0x238 < 0 || s.axi a 0x240 < 0 || s.ax a F.REP_CTL_ENTRY_LIMIT = 0) 8]

/-! ### Angles and the correction (R155 to R157) -/

/-- The Turn fraction of axis `x` at `t` (R110, R155), with SATWORD bits. -/
def angleAt (s : State) (x : Nat) (t : DT) : Nat × Nat :=
  let pos := s.axi x 0x100
  let (tau, b1) := tauB (dtDiff t (BitVec.ofNat 64 (s.word (axisBase x + 0x108))))
  let (p, b2) := extrapB pos (s.axi x 0x110) (s.axi x 0x118) tau
  (turnAdd (s.word (axisBase x + 0x128)) (p - pos) (s.fbAx x).cpr % 2 ^ 32, b1 ||| b2)

/-- The learning angle (R155). The phase lead is one floor of the exact quotient, modulo a turn, its product neither rounded nor
saturated before the division by CPR (R123 and R155 do not say which: DESIGN CHOICE, notes/assumptions/43). -/
def learnAngle (s : State) (a src : Nat) (phi0 : Nat) : Nat :=
  let leadA := s.ax a F.REP_LEAD_LEAD_ANGLE
  let leadT := toS 32 (s.ax a F.REP_LEAD_LEAD_TIME)
  let adv := fdiv (leadT * s.axi src 0x110 * 256) (1000000000 * ((s.fbAx src).cpr : Int))
  ofS 32 ((phi0 : Int) - leadA - adv)

/-- What the repetitive controller gives a step before the law is formed. -/
structure RepIn where
  rep : Int
  sat : Nat
  applied : Bool
  /-- Forced to 0 by the angle source (R157). -/
  lost : Bool
  clamped : Bool
  phiOut : Nat
  phi0 : Nat
deriving DecidableEq, Repr, Inhabited

/-- STALE as the step sees it: REP_CMD.UNSTALE clears it (R168). -/
def repStale (s : State) (a : Nat) : Bool :=
  s.axb a F.REP_STATUS_STALE && !s.axb a F.REP_CMD_UNSTALE

/-- The correction of a step (R156, R157); `cfg` is REP_CFG as read at enable. -/
def repIn (s : State) (a cfg : Nat) (t0 t1 : DT) : RepIn :=
  let src := getBits cfg 32 9
  let nl := getBits cfg 60 4
  let n := 2 ^ nl
  let base := getBits cfg 0 20
  let (phiOut, b1) := angleAt s src t1
  let (phi0, b2) := angleAt s src t0
  let lost := !fbIsActive s src || fbIsLost s src || (bit cfg 44 && !s.axb src F.FB_STATUS_REFERENCED)
  let off := !s.axb a F.REP_CTL_APPLY_EN || lost || repStale s a
  if off then
    { rep := 0, sat := flagIf lost 23 ||| b1 ||| b2, applied := false, lost := lost, clamped := false
      phiOut := phiOut, phi0 := phi0 }
  else
    let sh := 32 - nl
    let j := phiOut >>> sh
    let fr := phiOut - (j <<< sh)
    let tj := repEntry s base j
    let c := tj + shr ((repEntry s base ((j + 1) % n) - tj) * fr) sh
    let (c, f1) := if bit cfg 43 then satB (c - shr (s.axi a 0x258) nl) 22 else (c, 0)
    let (c, f2) := satB (shl c (getBits cfg 50 6)) 22
    let lim := s.axi a 0x240
    let (r, f3) := clampB (-lim) lim c 17
    { rep := r, sat := f1 ||| f2 ||| f3 ||| b1 ||| b2, applied := true, lost := false, clamped := f3 ≠ 0
      phiOut := phiOut, phi0 := phi0 }

/-! ### Learning (R158 to R161) -/

/-- A bin update (R160): the changed entries, REP_SUM and the SATWORD bits, after updating bin `j`. -/
def repBin (s : State) (a cfg j : Nat) (avg : Int) (acc : List (Nat × Int) × Int × Nat) :
    List (Nat × Int) × Int × Nat :=
  let (l, sum, sat) := acc
  let n := repN cfg
  let base := getBits cfg 0 20
  let at_ (i : Nat) : Int := repLook s base l i
  let qw := s.axi a 0x218
  let tj := at_ j
  let (p1, f1) := mulB (at_ ((j + n - 1) % n)) qw 19
  let (mid, f2) := satB (2 ^ 48 - 2 * qw) 19
  let (p2, f3) := mulB tj mid 19
  let (p3, f4) := mulB (at_ ((j + 1) % n)) qw 19
  let (q, f5) := sumB 19 p1 [p2, p3]
  let (la, f6) := mulB avg (s.axi a 0x210) 18
  let inc := shr la (getBits cfg 50 6)
  let (inc, f7) := clampB (minS 32) (maxS 32) inc 18
  let (fq, f8) := mulB q (s.axi a 0x220) 13
  let lim : Int := s.ax a F.REP_CTL_ENTRY_LIMIT
  let (new, f9) := clampB (-lim) lim (fq + inc) 16
  let (sum, f10) := sumB 20 sum [new, -tj]
  ((j, new) :: l.filter (fun p => p.1 != j), sum,
    sat ||| f1 ||| f2 ||| f3 ||| f4 ||| f5 ||| f6 ||| f7 ||| f8 ||| f9 ||| f10)

/-- Updates `k` bins from `j` in steps of one up or down (R159). -/
def repBins (s : State) (a cfg : Nat) (up : Bool) (avg : Int) :
    Nat → Nat → List (Nat × Int) × Int × Nat → List (Nat × Int) × Int × Nat
  | 0, _, acc => acc
  | k + 1, j, acc =>
    let n := repN cfg
    repBins s a cfg up avg k ((if up then j + 1 else j + n - 1) % n) (repBin s a cfg j avg acc)

/-- What the law gives the repetitive controller. -/
structure RepLaw where
  manual : Bool
  preset : Bool
  ep : Int
  ev : Int
  et : Int
  slewed : Bool
  flags : Nat
deriving DecidableEq, Repr, Inhabited

/-- The repetitive controller's share of a step's state update (R159 to R163): words (REP_SUM among them only when bins were
updated, R164), SATWORD bits, changed bins with their values, number of bin updates, and whether the step is frozen. `held` are
AX_STATUS bits 11:6 of the last committed step. -/
def repLearn (s : State) (a cfg : Nat) (i : RepIn) (w : RepLaw) (held : Nat) (cycle : Nat) :
    List (Nat × Int) × Nat × List (Nat × Nat) × Nat × Bool :=
  let src := getBits cfg 32 9
  let nl := getBits cfg 60 4
  let stale := repStale s a
  let vel := s.axi src 0x110
  let acc := s.axi src 0x118
  let mag (x : Int) : Int := if x < 0 then -x else x
  let forced := !i.applied
  let frOff := !s.axb a F.REP_CTL_LEARN_EN
  let frMode := w.manual || axisFaulted s a || stale
  let frLimit := held ≠ 0 || s.axb a F.REP_STATUS_SLEWED || (s.le.ax.look a).corrClamped
  let frSpeed := decide (mag vel < s.axi a 0x230)
  let frAcc := decide (mag acc > s.axi a 0x238)
  let frAngle := !s.axb src F.FB_STATUS_MEASURED || !s.axb a F.FB_STATUS_MEASURED || s.axb src F.FB_STATUS_ANGLE_STEP ||
    (bit cfg 44 && !s.axb src F.FB_STATUS_REFERENCED) || forced
  let kprev := s.ax a F.REP_ANGLE_LEARN_BIN
  let k := learnAngle s a src i.phi0 >>> (32 - nl)
  let d := toS nl (ofS nl ((k : Int) - kprev))
  let far := decide (mag d > 4)
  let frozen := frOff || frMode || w.preset || frLimit || frSpeed || frAcc || frAngle
  let e := if getBits cfg 48 2 = 1 then w.ev else if getBits cfg 48 2 = 2 then w.et else w.ep
  let esum := s.axi a 0x250
  let ecnt := s.ax a F.REP_STATUS_ECNT
  let sum0 := s.axi a 0x258
  let learn := !(frozen || far)
  let upd := learn && decide (d ≠ 0) && decide (ecnt > 0)
  let (l, sum, sat) :=
    if upd then repBins s a cfg (decide (d > 0)) (fdiv esum ecnt) (mag d).toNat (kprev % repN cfg) ([], sum0, 0)
    else ([], sum0, 0)
  let esum1 := if learn && d = 0 then esum else 0
  let ecnt1 := if learn && d = 0 then ecnt else 0
  let (esum2, ecnt2) := if learn && ecnt1 < 4095 then (sat64 (esum1 + e), ecnt1 + 1) else (esum1, ecnt1)
  let status := (cycle <<< 32) + (s.ax a F.REP_STATUS_REASON <<< 24) + (b2n far <<< 23) + (b2n frAngle <<< 22) +
    (b2n frAcc <<< 21) + (b2n frSpeed <<< 20) + (b2n frLimit <<< 19) + (b2n w.preset <<< 18) +
    (b2n frMode <<< 17) + (b2n frOff <<< 16) + (b2n stale <<< 15) + (s.ax a F.REP_STATUS_SYNCING <<< 14) +
    (b2n i.applied <<< 13) + (b2n w.slewed <<< 12) + ecnt2
  ([(0x248, toS 64 status), (0x250, esum2), (0x260, i.rep), (0x268, toS 64 ((k <<< 48) + i.phiOut))] ++
     (if upd then [(0x258, sum)] else []),
   sat ||| flagIf far 21 ||| i.sat,
   l.map (fun p => (p.1, ofS 32 p.2)),
   if upd then (mag d).toNat else 0,
   frozen || far)

end Sys2Proof.Machine
end

