-- ==== Sys2Proof/Machine/Law.lean ====
section
/-! DEFINITION. One axis step: its inputs, the four law structures, filters, limits, manual operation,
preset and bank switch (R124 to R140). The step reads the state and gives a result; nothing is written
until the result is released (R44). -/

namespace Sys2Proof.Machine

/-! ### Parameter banks -/

/-- Word at `off` of bank `b` (false A, true B) of axis `a` (Table 5.10). -/
def bankI (s : State) (a : Nat) (b : Bool) (off : Nat) : Int := s.axi a (0x300 + 0x100 * b2n b + off)

/-- Bit `n` of BANK_FLAGS. -/
def bankFlag (s : State) (a : Nat) (b : Bool) (n : Nat) : Bool :=
  bit (s.word (axisBase a + 0x300 + 0x100 * b2n b + 0xF8)) n

/-- A biquad that is not stable (codes 0x0223, 0x0224): `off` is the offset of its B0. -/
def bqUnstable (s : State) (a : Nat) (b : Bool) (off : Nat) : Bool :=
  let a1 := bankI s a b (off + 0x18)
  let a2 := bankI s a b (off + 0x20)
  let one : Int := 2 ^ 48
  !(decide (-one < a2) && decide (a2 < one) && decide ((if a1 < 0 then -a1 else a1) < one + a2))

/-- The checks of a bank that becomes live (Table 5.7, codes 0x0220 to 0x0226). -/
def bankCheck (s : State) (a : Nat) (b : Bool) (struct : Nat) : Nat :=
  let w := bankI s a b
  firstReason
    [test (w 0x70 > w 0x68) 0x0220,
     test (w 0x60 < 0 || w 0x78 < 0 || w 0x90 < 0 || w 0x88 < 0 || w 0x58 < 0) 0x0221,
     test (struct ≤ 1 && decide (w 0x80 ≤ 0)) 0x0222,
     test (bankFlag s a b 0 && bqUnstable s a b 0xA8) 0x0223,
     test (bankFlag s a b 1 && bqUnstable s a b 0xD0) 0x0224,
     test (struct = 3 && (decide (w 0xA0 ≤ 0) || decide (w 0xA0 > 2 ^ 48))) 0x0225,
     test (s.word (axisBase a + 0x300 + 0x100 * b2n b + 0xF8) ≥ 16) 0x0226]

/-- Whether the step of cycle `c` is the switching step of a requested bank switch (R140). -/
def bankDue (s : State) (a : Nat) (c : BitVec 32) : Bool :=
  s.axb a F.BANK_CTL_REQ &&
  (let w := s.ax a F.BANK_CTL_WHEN
   if w = 1 then decide ((c - BitVec.ofNat 32 (s.ax a F.BANK_CTL_CYCLE)).toInt ≥ 0)
   else if w = 2 then (s.le.ax.look a).switchDue || s.le.actCycle = some c
   else true)

/-! ### Inputs (R124) -/

/-- The interpolated reference at `t`: position, velocity, acceleration, and SATWORD.EXTRAP. -/
def refAt (s : State) (a : Nat) (t : DT) : Int × Int × Int × Nat :=
  let p := s.axi a 0x180
  let v := s.axi a 0x188
  let ac := s.axi a 0x190
  let j := s.axi a 0x198
  let (tau, b0) := tauB (dtDiff t (BitVec.ofNat 64 (s.word (axisBase a + 0x1A0))))
  let (t2, b1) := mulB tau tau 14
  let (t3, b2) := mulB t2 tau 14
  let (vt, b3) := mulB v tau 14
  let (at2, b4) := mulB ac t2 14
  let (jt3, b5) := mulB j t3 14
  let (aT, b6) := mulB ac tau 14
  let (jt2, b7) := mulB j t2 14
  let (jt, b8) := mulB j tau 14
  let (r, b9) := sumB 14 p [vt, shr at2 1, fdiv jt3 6]
  let (rv, b10) := sumB 14 v [aT, shr jt2 1]
  let (ra, b11) := sumB 14 ac [jt]
  (r, rv, ra, b0 ||| b1 ||| b2 ||| b3 ||| b4 ||| b5 ||| b6 ||| b7 ||| b8 ||| b9 ||| b10 ||| b11)

/-- Position of a feedback word extrapolated to `t` (R110): `off` is the offset of the position word. -/
def fbAt (s : State) (a off : Nat) (t : DT) : VB :=
  let (tau, b0) := tauB (dtDiff t (BitVec.ofNat 64 (s.word (axisBase a + 0x108))))
  let (x, b1) := extrapB (s.axi a off) (s.axi a 0x110) (s.axi a 0x118) tau
  (x, b0 ||| b1)

/-- Feedback velocity at `t` (R124). -/
def fbVelAt (s : State) (a : Nat) (t : DT) : VB :=
  let (tau, b0) := tauB (dtDiff t (BitVec.ofNat 64 (s.word (axisBase a + 0x108))))
  let (d, b1) := mulB (s.axi a 0x118) tau 14
  let (v, b2) := sumB 14 (s.axi a 0x110) [d]
  (v, b0 ||| b1 ||| b2)

/-! ### Filters and limits (R130 to R132) -/

/-- One biquad in transposed direct form II: output and the two states, bit `n` for a saturation. -/
def biquad (s : State) (a : Nat) (b : Bool) (off n : Nat) (x s1 s2 : Int) : Int × Int × Int × Nat :=
  let w := bankI s a b
  let (p, f1) := mulB x (w off) n
  let (y, f2) := sumB n p [s1]
  let (q, f3) := mulB x (w (off + 8)) n
  let (ay, f4) := mulB y (w (off + 0x18)) n
  let (n1, f5) := sumB n q [-ay, s2]
  let (q2, f6) := mulB x (w (off + 0x10)) n
  let (a2y, f7) := mulB y (w (off + 0x20)) n
  let (n2, f8) := sumB n q2 [-a2y]
  (y, n1, n2, f1 ||| f2 ||| f3 ||| f4 ||| f5 ||| f6 ||| f7 ||| f8)

/-- The four biquad state words. -/
structure BqSt where
  s1 : Int
  s2 : Int
  s3 : Int
  s4 : Int
deriving DecidableEq, Repr, Inhabited

/-- The biquad chain (R130): BQ1 feeds BQ2; a disabled one passes its input and keeps its state. -/
def bqChain (s : State) (a : Nat) (b : Bool) (x : Int) (q : BqSt) : Int × BqSt × Nat :=
  let (y, q, f) :=
    if bankFlag s a b 0 then
      let (y, n1, n2, f) := biquad s a b 0xA8 4 x q.s1 q.s2
      (y, { q with s1 := n1, s2 := n2 }, f)
    else (x, q, 0)
  if bankFlag s a b 1 then
    let (z, n1, n2, g) := biquad s a b 0xD0 5 y q.s3 q.s4
    (z, { q with s3 := n1, s4 := n2 }, f ||| g)
  else (y, q, f)

/-- The preset states of one biquad delivering `g` (R137). -/
def bqPreset1 (s : State) (a : Nat) (b : Bool) (off n : Nat) (g : Int) : Int × Int × Nat :=
  let (c1, f1) := satB (2 ^ 48 - bankI s a b off) n
  let (c2, f2) := satB (bankI s a b (off + 0x10) - bankI s a b (off + 0x20)) n
  let (x, f3) := mulB g c1 n
  let (y, f4) := mulB g c2 n
  (x, y, f1 ||| f2 ||| f3 ||| f4)

/-- The biquad states of a preset delivering `g` (R137); a disabled biquad keeps its state (R130). -/
def bqPreset (s : State) (a : Nat) (b : Bool) (g : Int) (q : BqSt) : BqSt × Nat :=
  let (q, f) :=
    if bankFlag s a b 0 then
      let (x, y, f) := bqPreset1 s a b 0xA8 4 g
      ({ q with s1 := x, s2 := y }, f)
    else (q, 0)
  if bankFlag s a b 1 then
    let (x, y, h) := bqPreset1 s a b 0xD0 5 g
    ({ q with s3 := x, s4 := y }, f ||| h)
  else (q, f)

/-- The torque feed-forward (R131). -/
def feedForward (s : State) (a : Nat) (b : Bool) (rv1 ra1 : Int) : VB :=
  let w := bankI s a b
  let (p, f1) := mulB ra1 (w 0x38) 11
  let (q, f2) := mulB rv1 (w 0x40) 11
  let fc := if rv1 > w 0x58 then w 0x48 else if rv1 < -(w 0x58) then -(w 0x48) else 0
  let (r, f3) := sumB 11 p [q, fc, w 0x50]
  (r, f1 ||| f2 ||| f3)

/-- What the output stage gives (R132). -/
structure OutSt where
  v : Int
  slewed : Bool
  hi : Bool
  lo : Bool
  sat : Nat
deriving DecidableEq, Repr, Inhabited

/-- Slew to within `slew` of `p`, then the limits, if any (R132). -/
def outStage (pre p slew : Int) (limits : Option (Int × Int)) (slewBit : Nat) : OutSt :=
  let v := if slew > 0 then clampI (addS p (-slew)) (addS p slew) pre else pre
  let sl := decide (v ≠ pre)
  match limits with
  | none => { v := v, slewed := sl, hi := false, lo := false, sat := flagIf sl slewBit }
  | some (lo, hi) =>
    let top := decide (v > hi)
    let bot := !top && decide (v < lo)
    { v := if top then hi else if bot then lo else v, slewed := sl, hi := top, lo := bot
      sat := flagIf sl slewBit ||| flagIf top 6 ||| flagIf bot 7 }

/-! ### The law structures (R126 to R129, R133, R136, R137) -/

/-- What a step reads before its structure is evaluated. -/
structure LawIn where
  /-- Bank B is used. -/
  b : Bool
  struct : Nat
  manual : Bool
  /-- The step presets the law, where its integrator's gain is not 0 (R137). -/
  preset : Bool
  held : Nat
  t : Int
  /-- The previous set-point (R43) and MAN_OUT. -/
  p : Int
  man : Int
  rep : Int
  x : Int
  v : Int
  r : Int
  r1 : Int
  rv1 : Int
  ra1 : Int
  pvRaw : Int
deriving DecidableEq, Repr, Inhabited

/-- What the law gives. -/
structure LawOut where
  main : Int
  aux : Int
  ep : Int
  ev : Int
  et : Int
  vc : Int
  pre : Int
  pv : Int
  trim : Int
  ff : Int
  ip : Int
  iv : Int
  it : Int
  bq : BqSt
  slewed : Bool
  flags : Nat
  sat : Nat
  preset : Bool
deriving DecidableEq, Repr, Inhabited

/-- An integrator increment: gain × error × T (R123). -/
def integ (gain err t : Int) : VB :=
  let (x, f1) := mulB err gain 13
  let (y, f2) := mulB x t 13
  (y, f1 ||| f2)

/-- An integrator stepped and clamped to ±lim; SUM_LAW for its sum, `n` for its clamp. -/
def integStep (i gain err t lim : Int) (n : Nat) : VB :=
  let (d, f1) := integ gain err t
  let (u, f2) := satB (i + d) 24
  let (w, f3) := clampB (-lim) lim u n
  (w, f1 ||| f2 ||| f3)

/-- Whether Table 5.3 stops an integrator: `hi` and `lo` are its limit's flags, `e` its error. -/
def condStop (cond hi lo : Bool) (e : Int) : Bool :=
  cond && ((hi && decide (e > 0)) || (lo && decide (e < 0)))

/-- A preset integrator value from its sum, clamped (R137). -/
def presetInt (sum : VB) (lim : Int) : VB :=
  let (v, f) := clampB (-lim) lim sum.1 12
  (v, sum.2 ||| f)

/-- The output stage of structures 0, 1 and 3 (R132, R136). -/
def lawOutStage (s : State) (a : Nat) (i : LawIn) (pre lo hi : Int) : OutSt :=
  let slew := bankI s a i.b 0x88
  if i.manual then outStage i.man i.p slew (some (lo, hi)) 15 else outStage pre i.p slew (some (lo, hi)) 8

/-- Structures 0 and 3 after their velocity command (R126, R129): biquads, output stage, aux. -/
def lawVelOut (s : State) (a : Nat) (i : LawIn) (o : LawOut) : LawOut :=
  let lim := bankI s a i.b 0x60
  let (pre, q, f1) := bqChain s a i.b o.vc o.bq
  let z := lawOutStage s a i pre (-lim) lim
  let (aux, f2) := clampB (bankI s a i.b 0x70) (bankI s a i.b 0x68) o.ff 25
  { o with
    main := z.v, aux := aux, pre := pre, bq := if i.manual then o.bq else q, slewed := z.slewed
    flags := o.flags ||| (b2n z.hi) ||| (b2n z.lo <<< 1) ||| (b2n z.hi <<< 2) ||| (b2n z.lo <<< 3)
    sat := o.sat ||| f1 ||| z.sat ||| f2 ||| flagIf (z.hi || z.lo) 2 }

/-- Structure 0 (R126). A step in which R137 makes no preset is no preset step for FRZ_PRESET (DESIGN CHOICE,
notes/assumptions/43). -/
def lawVelocity (s : State) (a : Nat) (i : LawIn) (o : LawOut) : LawOut :=
  let w := bankI s a i.b
  let lim := w 0x80
  let (ep, f1) := clampB (-lim) lim o.ep 0
  let vl := w 0x60
  let doPreset := i.preset && decide (w 0x08 ≠ 0)
  let (kp, f2) := mulB ep (w 0x00) 13
  let (ff, f3) := mulB i.rv1 (w 0x30) 13
  let stop := condStop (bankFlag s a i.b 2) (bit i.held 2) (bit i.held 3) ep
  let (ip, f4) :=
    if doPreset then presetInt (sumB 24 i.p [-kp, -ff, -i.rep]) vl
    else if i.manual || stop then (o.ip, 0)
    else integStep o.ip (w 0x08) ep i.t vl 1
  let (bq, f5) := if doPreset then bqPreset s a i.b i.p o.bq else (o.bq, 0)
  let (vc, f6) := sumB 24 kp [ip, ff, i.rep]
  lawVelOut s a i { o with
    vc := vc, ip := ip, bq := bq, preset := doPreset
    sat := o.sat ||| f1 ||| f2 ||| f3 ||| f4 ||| f5 ||| f6 }

/-- Structure 1 (R127). -/
def lawTorque (s : State) (a : Nat) (i : LawIn) (o : LawOut) : LawOut :=
  let w := bankI s a i.b
  let lim := w 0x80
  let (ep, f1) := clampB (-lim) lim o.ep 0
  let vl := w 0x60
  let il := w 0x78
  let cond := bankFlag s a i.b 2
  let doPreset := i.preset && decide (w 0x18 ≠ 0)
  let (ip, f2) :=
    if i.manual || doPreset || condStop cond (bit i.held 2) (bit i.held 3) ep then (o.ip, 0)
    else integStep o.ip (w 0x08) ep i.t vl 1
  let (kp, f3) := mulB ep (w 0x00) 13
  let (ff, f4) := mulB i.rv1 (w 0x30) 13
  let (sum, f5) := sumB 24 kp [ip, ff]
  let (vc, f6) := clampB (-vl) vl sum 2
  let (ev, f7) := satB (vc - i.v) 24
  let (kv, f8) := mulB ev (w 0x10) 13
  let (g, f9) := if doPreset then sumB 24 i.p [-o.ff, -i.rep] else (0, 0)
  let (iv, f10) :=
    if doPreset then presetInt (sumB 24 g [-kv]) il
    else if i.manual || condStop cond (bit i.held 0) (bit i.held 1) ev then (o.iv, 0)
    else integStep o.iv (w 0x18) ev i.t il 3
  let (bq, f11) := if doPreset then bqPreset s a i.b g o.bq else (o.bq, 0)
  let (inner, f12) := sumB 24 kv [iv]
  let (y, q, f13) := bqChain s a i.b inner bq
  let (u, f14) := sumB 24 y [o.ff, i.rep]
  let z := lawOutStage s a i u (w 0x70) (w 0x68)
  { o with
    main := z.v, aux := i.rv1, ev := ev, vc := vc, pre := u, ip := ip, iv := iv
    bq := if i.manual then bq else q, slewed := z.slewed, preset := doPreset
    flags := b2n z.hi ||| (b2n z.lo <<< 1) ||| (b2n (decide (sum > vl)) <<< 2) |||
      (b2n (decide (sum ≤ vl) && decide (sum < -vl)) <<< 3)
    sat := o.sat ||| f1 ||| f2 ||| f3 ||| f4 ||| f5 ||| f6 ||| f7 ||| f8 ||| f9 ||| f10 ||| f11 ||| f12 |||
      f13 ||| f14 ||| z.sat }

/-- Structure 2 (R128). It forms no feed-forward and no velocity command: FF_OUT and CMD_VEL are 0 (DESIGN CHOICE,
notes/assumptions/43). -/
def lawPosition (s : State) (a : Nat) (i : LawIn) (o : LawOut) : LawOut :=
  let slew := bankI s a i.b 0x88
  let (pre, f1) := sumB 24 i.r1 [i.rep]
  let (aux, f2) := mulB i.rv1 (bankI s a i.b 0x30) 13
  let z := if i.manual then outStage i.man i.p slew none 15 else outStage pre i.p slew none 8
  { o with main := z.v, aux := aux, pre := pre, slewed := z.slewed, ff := 0, sat := o.sat ||| f1 ||| f2 ||| z.sat }

/-- Structure 3 (R129). -/
def lawTrim (s : State) (a : Nat) (i : LawIn) (o : LawOut) : LawOut :=
  let w := bankI s a i.b
  let tl := w 0x90
  let (dpv, f1) := satB (i.pvRaw - o.pv) 24
  let (al, f2) := mulB dpv (w 0xA0) 13
  let (pv, f3) := satB (o.pv + al) 24
  let (et, f4) := satB (w 0x98 - pv) 24
  let doPreset := i.preset && decide (w 0x28 ≠ 0)
  let (kt, f5) := mulB et (w 0x20) 13
  let (ff, f6) := mulB i.rv1 (w 0x30) 13
  let stop := condStop (bankFlag s a i.b 2) (bit i.held 4) (bit i.held 5) et
  let (it, f7) :=
    if doPreset then presetInt (sumB 24 i.p [-ff, -kt, -i.rep]) tl
    else if i.manual || stop then (o.it, 0)
    else integStep o.it (w 0x28) et i.t tl 10
  let (bq, f8) := if doPreset then bqPreset s a i.b i.p o.bq else (o.bq, 0)
  let (sum, f9) := sumB 24 kt [it]
  let (trim, f10) := clampB (-tl) tl sum 9
  let (vc, f11) := sumB 24 ff [trim, i.rep]
  lawVelOut s a i { o with
    vc := vc, et := et, pv := pv, trim := trim, it := it, bq := bq, preset := doPreset
    flags := (b2n (decide (sum > tl)) <<< 4) ||| (b2n (decide (sum ≤ tl) && decide (sum < -tl)) <<< 5)
    sat := o.sat ||| f1 ||| f2 ||| f3 ||| f4 ||| f5 ||| f6 ||| f7 ||| f8 ||| f9 ||| f10 ||| f11 }

/-- The law of a step (R125 to R137). -/
def lawEval (s : State) (a : Nat) (i : LawIn) : LawOut :=
  let (ep, f0) := satB (i.r - i.x) 24
  let (ff, f1) := if i.struct = 2 then (0, 0) else feedForward s a i.b i.rv1 i.ra1
  let o : LawOut := { (default : LawOut) with
    ep := ep, ff := ff, pv := s.axi a 0x80, ip := s.axi a 0xA0, iv := s.axi a 0xA8, it := s.axi a 0xB0
    bq := ⟨s.axi a 0xB8, s.axi a 0xC0, s.axi a 0xC8, s.axi a 0xD0⟩, sat := f0 ||| f1 }
  if i.struct = 0 then lawVelocity s a i o
  else if i.struct = 1 then lawTorque s a i o
  else if i.struct = 2 then lawPosition s a i o
  else lawTrim s a i o

/-! ### One step -/

/-- Whether a step of an axis with configuration `c` reads the word at offset `o` of its own record (Tables 5.9, 5.10, 6.4):
what R124 to R140 and R156 to R161 name for its structure, the live bank `b`, and in a switching step the other bank too. -/
def stepReads (c : LawCfg) (b switching manual : Bool) (o : Nat) : Bool :=
  let bank (x : Bool) : Bool := 0x300 + 0x100 * b2n x ≤ o && o < 0x400 + 0x100 * b2n x
  o = 0x00 || o = 0x10 || o = 0x28 || (manual && o = 0x30) || o = 0x40 ||
  (c.struct = 3 && (o = 0x80 || o = 0xB0)) || (c.struct ≤ 1 && o = 0xA0) || (c.struct = 1 && o = 0xA8) ||
  (c.struct ≠ 2 && 0xB8 ≤ o && o ≤ 0xD0) || (0x100 ≤ o && o ≤ 0x120) || (0x180 ≤ o && o ≤ 0x1A0) ||
  (c.repEn && ((0x208 ≤ o && o ≤ 0x258) || o = 0x268 || o = 0x278 || o = 0x130)) ||
  bank b || (switching && bank (!b))

/-- The first poisoned word that the step meets on a read of an axis record (R145): of its own record, of the feedback words of
the axis of its process value and of its angle source. -/
def recordPoisoned (s : State) (a : Nat) (c : LawCfg) (b switching manual : Bool) : Option Nat :=
  let own (w : Nat) : Bool := axisBase a ≤ w && w < axisBase a + 0x800 && stepReads c b switching manual (w - axisBase a)
  let fb (x hi : Nat) (w : Nat) : Bool := axisBase x + 0x100 ≤ w && w < axisBase x + hi
  s.poison.find? (fun w =>
    own w || (c.struct = 3 && fb c.pvAxis 0x128 w) || (c.repEn && fb (getBits c.repCfg 32 9) 0x138 w))

/-- The SAT_NEW mask of axis `a` over SATWORD bits 25:0 (R135). -/
def satMask (s : State) (a : Nat) : Nat :=
  s.ax a F.AX_CTRL_SAT_EVT + (s.ax a F.REP_CTL_SAT_EVT <<< 16) + (s.ax a F.AX_CTRL_SAT_EVT_HI <<< 24)

/-- The whole step of axis `a` in the present cycle, from the words as they stand (R23, R124 to R140). -/
def axisStep (s : State) (a : Nat) : LeRes :=
  let ax := s.le.ax.look a
  let c := ax.cfg
  let t0 := s.time.t0
  let t1 := dtAdd t0 ((s.time.live.period * stepUnits : Nat) : Int)
  let live := s.axb a F.AX_STATUS_BANK_LIVE
  let switching := bankDue s a s.time.cycle
  let code := if switching then bankCheck s a (!live) c.struct else 0
  let b := if switching && code = 0 then !live else live
  let fault := axisFaulted s a
  let manual := s.axb a F.AX_CTRL_MANUAL && !fault
  let preset := !manual && (s.axb a F.AX_STATUS_MANUAL_LIVE || (ax.fresh && c.presetEn))
  let (x, f1) := fbAt s a (if bankFlag s a b 3 then 0x100 else 0x120) t0
  let (v, f2) := fbVelAt s a t0
  let (r, _, _, f3) := refAt s a t0
  let (r1, rv1, ra1, f4) := refAt s a t1
  let (pv, f5) := if c.struct = 3 then fbAt s c.pvAxis 0x120 t0 else (0, 0)
  let ri : RepIn := if c.repEn then repIn s a c.repCfg t0 t1 else default
  let held := getBits (s.ax a F.AX_STATUS) 6 6
  let i : LawIn :=
    { b := b, struct := c.struct, manual := manual, preset := preset, held := held
      t := gainT s.time.live.period, p := s.axi a 0x40, man := s.axi a 0x30, rep := ri.rep
      x := x, v := v, r := r, r1 := r1, rv1 := rv1, ra1 := ra1, pvRaw := pv }
  let o := lawEval s a i
  let (rw, rsat, tbl, upd, frz) :=
    if c.repEn then
      repLearn s a c.repCfg ri
        { manual := manual, preset := o.preset, ep := o.ep, ev := o.ev, et := o.et, slewed := o.slewed
          flags := o.flags } held s.cycN
    else ([], 0, [], 0, false)
  { axis := a, cycle := s.time.cycle, main := o.main, aux := o.aux, manual := manual
    words :=
      [(0x60, o.ep), (0x68, o.ev), (0x70, o.vc), (0x78, o.pre), (0x80, o.pv), (0x88, o.trim), (0x90, o.ff),
       (0xA0, o.ip), (0xA8, o.iv), (0xB0, o.it), (0xB8, o.bq.s1), (0xC0, o.bq.s2), (0xC8, o.bq.s3),
       (0xD0, o.bq.s4)] ++ rw
    sat := o.sat ||| rsat ||| f1 ||| f2 ||| f3 ||| f4 ||| f5
    flags := o.flags, satSel := satMask s a
    manOut := if s.axb a F.AX_CTRL_TRACK && !manual then some o.main else none
    bank := if switching then some (code % 256) else none
    table := tbl, tableBase := getBits c.repCfg 0 20, updates := upd, frozen := frz
    angleLost := c.repEn && ri.lost && s.axb a F.REP_CTL_APPLY_EN && !repStale s a && ax.angleArmed
    applied := ri.applied, corrClamped := ri.clamped
    unstale := c.repEn && s.axb a F.REP_CMD_UNSTALE
    ecc := recordPoisoned s a c live switching manual, stepDt := 0 }

end Sys2Proof.Machine
end

