-- ==== Sys2Proof/Machine/Engines.lean ====
section
/-! DEFINITION. The loop engines and flow 0: enabling of axes, dispatch, the reorder window, commit, holds,
engine service (R37 to R49, R140 to R151, R168, R202, R246). -/

namespace Sys2Proof.Machine

/-- The LE's own state for axis `a`. -/
def State.leAx (s : State) (a : Nat) : LeAx := s.le.ax.look a

/-- Changes the LE's own state for axis `a`. -/
def State.onLe (s : State) (a : Nat) (f : LeAx → LeAx) : State :=
  { s with le := { s.le with ax := s.le.ax.set a (f (s.leAx a)) } }

/-- Engine `n`. -/
def State.eng (s : State) (n : Nat) : LeEng := s.le.eng.look n

/-- Changes engine `n`. -/
def State.onEng (s : State) (n : Nat) (f : LeEng → LeEng) : State :=
  { s with le := { s.le with eng := s.le.eng.set n (f (s.eng n)) } }

/-! ### Tests on the number of axes (R38, R39) -/

/-- The compute-window test (R38). -/
def windowOk (n : Nat) (c : Sched) : Bool :=
  decide ((((c.cwEnd : Int) - c.cwStart) * 125) ≥ (((n + 15) / 16 * 290 + 400 : Nat) : Int))

/-- The axis-rate test (R39), in sixteenths of a nanosecond. -/
def rateOk (n : Nat) (c : Sched) : Bool := (n + 15) / 16 * 15625 ≤ c.period * 2000

/-- LE_AXMAPn and LE_FAULTMAPn show the AX_STATUS of axis `a` (R7). -/
def statusFollow (s : State) (a : Nat) : State :=
  mapBit (mapBit s (F.LE_AXMAP 0).adr a (s.axb a F.AX_STATUS_ENABLED)) (F.LE_FAULTMAP 0).adr a (s.axb a F.AX_STATUS_FAULT)

/-! ### The fault state (R144) -/

/-- Axis `a` enters the fault state with `cause` (R144); a later cause changes nothing. -/
def faultAxis (s : State) (a cause : Nat) : State :=
  if !axisEnabled s a || axisFaulted s a then s
  else
    let s := mapBit s (F.LE_FAULTMAP 0).adr a true
    let s := (s.axPut a F.AX_STATUS_CAUSE cause).axPut a F.AX_STATUS_FAULT 1
    raiseAxis s a 1 cause

/-- FB_LOST of an axis: the status, the event, and the fault state where the axis is enabled (R109, Table 5.6). -/
def fbLost (s : State) (a : Nat) : State :=
  if fbLostDue s a then
    faultAxis (raiseAxis (fbPutStatus ((fbSync s a).onFb a (fun f => { f with lost := true, lossDue := false })) a) a 5 0) a 2
  else s

/-! ### Enabling and disabling (R141 to R143, R202) -/

/-- LAW_CFG and REP_CFG of axis `a` as they stand (R125, R169). -/
def lawRead (s : State) (a : Nat) : LawCfg :=
  { struct := s.ax a F.LAW_CFG_STRUCT, repEn := s.axb a F.LAW_CFG_REP_EN
    presetEn := s.axb a F.LAW_CFG_PRESET_EN, seg := s.ax a F.LAW_CFG_DL_SEGMENT
    node := s.ax a F.LAW_CFG_DL_NODE, record := s.ax a F.LAW_CFG_DL_RECORD
    pvAxis := s.ax a F.LAW_CFG_PV_AXIS, repCfg := s.word (axisBase a + 0x200) }

/-- Whether axis `a` is enabled from the next T0 on (R141). -/
def willBeOn (s : State) (a : Nat) : Bool :=
  match (s.leAx a).pend with
  | some (some _) => true
  | some none => false
  | none => axisEnabled s a

/-- The configuration of an axis that is enabled from the next T0 on. -/
def willCfg (s : State) (a : Nat) : LawCfg :=
  match (s.leAx a).pend with
  | some (some c) => c
  | _ => (s.leAx a).cfg

/-- The axes enabled from the next T0 on, rising. -/
def axesToBe (s : State) : List Nat :=
  (List.range 512).filter (fun a => willBeOn s a)

/-- Key of a downlink record. -/
def recKey (c : LawCfg) : Nat := 256 * c.seg + 8 * c.node + c.record

/-- An accepted enable awaits T0, and no reason stands (R141, R169). LAW_CFG and REP_CFG are read now, as the check passes, and not at
that T0 (R125 says no more than 'when the axis is enabled': DESIGN CHOICE, notes/assumptions/43). -/
def leEnable (s : State) (a : Nat) : State :=
  let c := lawRead s a
  (s.axPut a F.REP_STATUS_REASON 0).onLe a (fun x => { x with pend := some (some c) })

/-- An accepted disable awaits T0; over the pending enable of a disabled axis it leaves it disabled (R143). -/
def leDisable (s : State) (a : Nat) : State :=
  let on := axisEnabled s a
  s.onLe a (fun x => { x with pend := if on then some none else none })

/-- An enable takes effect at T0 (R142). -/
def leOn (s : State) (a : Nat) (c : LawCfg) : State :=
  let hold := if c.struct = 2 then s.axi a 0x120 else s.axi a 0x38
  let s := (s.axiPut a 0x40 hold).axiPut a 0x48 0
  let s := forEach (fun o s => s.axiPut a o 0) [0xA0, 0xA8, 0xB0, 0xB8, 0xC0, 0xC8, 0xD0] s
  let s := if c.struct = 3 then s.axiPut a 0x80 (fbAt s c.pvAxis 0x120 s.time.t0).1 else s
  let s := mapBit (mapBit s (F.LE_AXMAP 0).adr a true) (F.LE_FAULTMAP 0).adr a false
  let s := ((s.axPut a F.AX_STATUS_HOLD_RUN 0).axPut a F.AX_STATUS_FAULT 0).axPut a F.AX_STATUS_CAUSE 0
  let s := s.axPut a F.AX_STATUS_ENABLED 1
  let s := s.onLe a (fun x => { x with
    cfg := c, pend := none, fresh := true, pgFresh := true, sentManual := false, lateTold := false
    switchDue := false })
  { s with
    cyc := { s.cyc with headAxes := nsDel s.cyc.headAxes a }
    le := { s.le with remembered := s.le.remembered.set (recKey c) (a + 1, c.struct % 4) } }

/-- Frame assembly takes the record of axis `a` as its OUT words hold it (R42). -/
def holdRecord (s : State) (a : Nat) : State :=
  s.onLe a (fun x => { x with
    recMain := s.axi a 0x40, recAux := s.axi a 0x48, recFlags := getBits (s.word (axisBase a + F.OUT_INFO.adr)) 0 5 })

/-- A disable takes effect at T0 (R143). -/
def leOff (s : State) (a : Nat) : State :=
  let s := mapBit s (F.LE_AXMAP 0).adr a false
  let s := s.axPut a F.AX_STATUS_ENABLED 0
  let s := s.onLe a (fun x => { x with pend := none, pgFresh := false })
  { s with cyc := { s.cyc with headAxes := nsDel s.cyc.headAxes a } }

/-- REP_CFG of axis `a` that counts: the one held since its enable, or the word of an axis that is not enabled (R169). -/
def repCfgOf (s : State) (a : Nat) : Nat :=
  if axisEnabled s a then (s.leAx a).cfg.repCfg else s.word (axisBase a + 0x200)

/-- The table copy of axis `p.1` with `p.2` entries left is served for one cycle (R168): a standby marks its table STALE from
the first cycle on; the active sends the next 256 entries. -/
def syncServe (s : State) (p : Nat × Nat) : State :=
  if s.standby then s.axPut p.1 F.REP_STATUS_STALE 1
  else if p.2 = 0 || !s.tw.link then s
  else
    let cfg := repCfgOf s p.1
    let first := repN cfg - p.2
    let base := getBits cfg 0 20
    let s := s.noteReadsBy 0x2F (((List.range (min 256 p.2)).map (fun i => repEntryAddr base (first + i) / 8 * 8)).foldl nsAdd [])
    let entries := (List.range (min 256 p.2)).map (fun i => ofS 32 (repEntry s base (first + i)))
    { s with out := s.out ++ [.table p.1 first entries (BitVec.ofNat 64 (s.word (axisBase p.1 + 0x258)))] }

/-- T0: the first eight table copies are served with 256 entries each (R168). -/
def syncsT0 (s : State) : State :=
  let s := forEach (fun p s => syncServe s p) (s.le.syncs.take 8) s
  { s with le := { s.le with syncs := (s.le.syncs.take 8).map (fun p => (p.1, p.2 - 256)) ++ s.le.syncs.drop 8 } }

/-- The LE_AXEN operations that await T0 take effect, and the axes of the new cycle are fixed (R141, R143). -/
def leT0 (s : State) : State :=
  let go (a : Nat) (s : State) : State :=
    match (s.leAx a).pend with
    | none => s
    | some none => leOff s a
    | some (some c) =>
      let s := holdRecord (leOn s a c) a
      { s with le := { s.le with begun := nsAdd s.le.begun a } }
  let s := forEach go (s.le.ax.map (fun p => p.1)) { s with le := { s.le with begun := [] } }
  syncsT0 { s with
    cyc := { s.cyc with enabledNow := enabledAxes s, heldNow := 0 }
    sg := { s.sg with done := [] }
    le := { s.le with released := [], deltas := [] } }

/-- At T0 of an activation cycle, a bank switch with WHEN = 2 is due (R140, R240). -/
def leActivation (s : State) : State :=
  let s := { s with le := { s.le with actCycle := some s.time.cycle } }
  forEach (fun a s =>
    if s.axb a F.BANK_CTL_REQ && s.ax a F.BANK_CTL_WHEN = 2 then
      s.onLe a (fun x => { x with switchDue := true }) else s) (enabledAxes s) s

/-! ### Records: commit and substitute (R42 to R47, R134, R135, R138, R140, R163, R185) -/

/-- STRONG of this cycle's set-point (R185). -/
def pgStrong (s : State) (a : Nat) : Bool := bit (s.word (axisBase a + 0x1B0)) 2

/-- Whether the axis's node is in the wrong epoch (R246). -/
def axisWrongEpoch (s : State) (a : Nat) : Bool :=
  let c := (s.leAx a).cfg
  s.gb (F.FP_GNODE_STATE_WRONG_EPOCH c.seg c.node)

/-- Writes OUT_INFO (OUT_INFO table), its reserved bits as they stand (R9). -/
def putOutInfo (s : State) (a : Nat) (manual hold : Bool) : State :=
  let w := axisBase a + F.OUT_INFO.adr
  s.setWord w (blend (s.word w)
    ((s.cycN <<< 32) + (b2n (pgStrong s a) <<< 4) + (b2n (axisFaulted s a) <<< 3) + (b2n manual <<< 2) +
     (b2n hold <<< 1) + 1) 0xFFFFFFFF0000001F)

/-- The record of axis `a` has been released in this cycle. -/
def markReleased (s : State) (a : Nat) : State :=
  { s with le := { s.le with released := nsAdd s.le.released a } }

/-- A substitute record (R42, R43, R185): the MAIN and AUX of the last one, whatever OUT_MAIN and OUT_AUX hold by now; `counted`
except under R246 (R47). -/
def substitute (s : State) (a : Nat) (counted : Bool) : State :=
  let s := markReleased (putOutInfo s a (s.leAx a).sentManual true) a
  let s := s.onLe a (fun x => { x with recFlags := getBits (s.word (axisBase a + F.OUT_INFO.adr)) 0 5 })
  if counted then
    let s := s.axPut a F.AX_STATUS_HOLD_RUN (min 3 (s.ax a F.AX_STATUS_HOLD_RUN + 1))
    let f : Fld := ⟨0x18, 0, 32⟩
    let s := s.axPut a f (satInc 32 (s.ax a f))
    { s with cyc := { s.cyc with heldNow := s.cyc.heldNow + 1 } }
  else s

/-- The bits are set in SATWORD as one OR; SAT_NEW with those newly set when the mask `sel` selects one of them (R134, R135). -/
def orSatword (s : State) (a bits sel : Nat) : State :=
  let old := s.word (axisBase a + 0x20)
  let new := (old ||| bits) ^^^ old
  let s := if new = 0 then s else s.setWord (axisBase a + 0x20) (old ||| bits)
  if new &&& sel = 0 then s else raiseAxis s a 2 (new % 2 ^ 26)

/-- The writes of a step to the repetitive words and the table (R160 to R163, R168). -/
def commitRep (s : State) (r : LeRes) : State :=
  let a := r.axis
  let s := forEach (fun p s =>
    memWrite s 0x42 (repEntryAddr r.tableBase p.1) p.2 4) r.table s
  let s := { s with le := { s.le with deltas := s.le.deltas ++ r.table.map (fun p => (a, p.1, p.2)) } }
  let up : Fld := ⟨0x270, 32, 32⟩
  let fr : Fld := ⟨0x270, 0, 32⟩
  let s := if r.updates = 0 then s else s.axPut a up (s.ax a up + r.updates)
  let s := if r.frozen then s.axPut a fr (satInc 32 (s.ax a fr)) else s
  let s := if r.unstale then (s.axPut a F.REP_CMD_UNSTALE 0).axPut a F.REP_STATUS_STALE 0 else s
  if r.angleLost then raiseAxis s a 14 0 else s

/-- A step writes the word at offset `o` of its record; the reserved bits of REP_ANGLE stay as they stand (R9). -/
def stepPut (s : State) (a o : Nat) (v : Int) : State :=
  if o = 0x268 then s.setFields (axisBase a + o) (ofS 64 v) 0x1FFF0000FFFFFFFF else s.axiPut a o v

/-- A result is released: OUT words, state, SATWORD, flags, bank switch (R44, R134 to R140). -/
def commit (s : State) (r : LeRes) : State :=
  let a := r.axis
  let stale := s.ax a F.REP_STATUS_STALE
  let syncing := s.ax a F.REP_STATUS_SYNCING
  let reason := s.ax a F.REP_STATUS_REASON
  let s := forEach (fun p s => stepPut s a p.1 p.2) r.words s
  -- STALE, SYNCING and REASON are not the step's to change (R168, R169)
  let s := if r.words.any (fun p => p.1 = 0x248) then
      ((s.axPut a F.REP_STATUS_STALE stale).axPut a F.REP_STATUS_SYNCING syncing).axPut a F.REP_STATUS_REASON reason else s
  let s := ((s.axiPut a 0x40 r.main).axiPut a 0x48 r.aux).setWord (axisBase a + 0x58) r.stepDt.toNat
  let s := putOutInfo s a r.manual false
  let s := match r.manOut with | some v => s.axiPut a 0x30 v | none => s
  let s := commitRep s r
  let st := s.ax a F.AX_STATUS
  let st := setBits (setBits (setBits (setBits st 32 32 r.cycle.toNat) 12 2 0) 6 6 r.flags) 4 1 (b2n r.manual)
  let st := match r.bank with
    | none => st
    | some 0 => setBits (setBits st 16 8 0) 5 1 (1 - getBits st 5 1)
    | some c => setBits st 16 8 c
  let s := s.axPut a F.AX_STATUS st
  let s := match r.bank with
    | none => s
    | some c =>
      let s := s.axPut a F.BANK_CTL_REQ 0
      if c = 0 then s else raiseAxis s a 3 c
  let s := s.onLe a (fun x => { x with
    fresh := false, sentManual := r.manual, corrClamped := r.corrClamped
    switchDue := if r.bank.isSome then false else x.switchDue
    angleArmed := if r.angleLost then false else x.angleArmed || r.applied })
  let s := holdRecord s a
  let s := orSatword s a r.sat r.satSel
  { markReleased s a with le := { (markReleased s a).le with steps := s.le.steps + 1 } }

/-- One result discarded (R44, R151). -/
def countDiscard (s : State) : State := { s with le := { s.le with discards := s.le.discards + 1 } }

/-- An item leaves the reorder window with its result (R42, R145, R246). -/
def releaseRes (s : State) (r : LeRes) : State :=
  if r.ecc.isSome then s
  else if axisWrongEpoch s r.axis then countDiscard (substitute s r.axis false)
  else commit s r

/-- Results leave the window in order while the oldest item is complete; `k` bounds their number. -/
def releaseHead (s : State) : Nat → State
  | 0 => s
  | k + 1 =>
    match s.le.win with
    | ⟨_, some r⟩ :: rest => releaseHead (releaseRes { s with le := { s.le with win := rest } } r) k
    | _ => s

/-! ### Dispatch (R37, R45, R46, R48, R339) -/

/-- Whether engine `n` may be given work in this cycle: none while it executes a late item (R45, R46, R339). -/
def engUsable (s : State) (n : Nat) : Bool :=
  (s.eng n).inService && !(s.eng n).barred && !(s.eng n).late &&
  (match (s.eng n).exe with | some r => r.cycle = s.time.cycle | none => true)

/-- The engine and whether it takes the item at once: an idle one first, else the lowest with an empty slot. -/
def pickEngine (s : State) : Option (Nat × Bool) :=
  match (List.range 16).find? (fun n => engUsable s n && (s.eng n).exe.isNone && (s.eng n).slot.isNone) with
  | some n => some (n, true)
  | none =>
    match (List.range 16).find? (fun n => engUsable s n && (s.eng n).slot.isNone) with
    | some n => some (n, false)
    | none => none

/-- The window is full, its oldest item not complete: that item is treated as late at once (R45). An engine that executes it
runs on with it. -/
def forceOldest (s : State) : State :=
  match s.le.win with
  | [] => s
  | e :: rest =>
    let s := { s with le := { s.le with win := rest } }
    let s := forEach (fun n s =>
      s.onEng n (fun g => { g with
        slot := match g.slot with
          | some r => if r.axis = e.axis then none else some r
          | none => none
        late := g.late || match g.exe with | some r => decide (r.axis = e.axis) | none => false })) (List.range 16) s
    let s := substitute s e.axis (!axisWrongEpoch s e.axis)
    releaseHead s 128

/-- The feedback-ready notice of an axis is present (R37, R108). -/
def fbReady (s : State) (a : Nat) : Bool := !s.fb.isOpen || (s.fbAx a).done || !(s.fbAx a).active

/-- The engine reads BANK_CTL of axis `a`: a requested switch with WHEN = 2 that its step has met stays due until a step
commits it; a request withdrawn is none (R140). -/
def noteSwitch (s : State) (a : Nat) : State :=
  let asked := s.axb a F.BANK_CTL_REQ && s.ax a F.BANK_CTL_WHEN = 2
  let due := asked && ((s.leAx a).switchDue || s.le.actCycle = some s.time.cycle)
  if (s.leAx a).switchDue = due then s else s.onLe a (fun x => { x with switchDue := due })

/-- Items go to the prefetch slots in order while the window is open (R339); `k` bounds their number. -/
def leDispatch (s : State) : Nat → State
  | 0 => s
  | k + 1 =>
    if !s.le.windowOpen then s
    else match s.le.order, pickEngine s with
      | a :: rest, some (n, now) =>
        if !fbReady s a then s
        else
          let r := axisStep s a
          let s := { s with le := { s.le with order := rest, win := s.le.win ++ [WinEntry.mk a none] } }
          let s := s.onEng n (fun g => if now then { g with exe := some r } else { g with slot := some r })
          let s := noteSwitch s a
          leDispatch (if s.le.win.length ≥ 128 then forceOldest s else s) k
      | _, _ => s

/-- Inserts an axis in downlink record order (R37). -/
def insByKey (s : State) (a : Nat) : List Nat → List Nat
  | [] => [a]
  | b :: r => if recKey (s.leAx a).cfg < recKey (s.leAx b).cfg then a :: b :: r else b :: insByKey s a r

/-- Axes in downlink record order (R37). -/
def byRecord (s : State) (l : List Nat) : List Nat := l.foldl (fun acc a => insByKey s a acc) []

/-- The dispatch order of flow 0 (R37, R48). -/
def flow0Order (s : State) : List Nat :=
  let on := s.cyc.enabledNow
  byRecord s (on.filter (fun a => s.cyc.headAxes.contains a)) ++
  byRecord s (on.filter (fun a => !s.cyc.headAxes.contains a))

/-- Engine `n` at CW_START: late items, withdrawal, return to service (R46, R148, R149). -/
def engineStart (s : State) (n : Nat) : State :=
  let g := s.eng n
  match g.exe with
  | some _ =>
    if g.told then
      let s := s.onEng n (fun g => { g with exe := none, late := false, told := false, inService := false
                                            faulted := true, withdraw := false, barred := true })
      raisePage (countDiscard s) pLE 2 n
    else raisePage (s.onEng n (fun g => { g with told := true, barred := true })) pLE 1 n
  | none =>
    let s := s.onEng n (fun g => { g with barred := false })
    if g.withdraw then
      raisePage (s.onEng n (fun g => { g with withdraw := false, inService := false })) pLE 2 n
    else if g.restore then
      raisePage (s.onEng n (fun g => { g with restore := false, inService := true, faulted := false })) pLE 3 n
    else s

/-- CW_START (R37, R46, R148, R149, R339). A standby computes nothing here (R392). -/
def leCwStart (s : State) : State :=
  let s := forEach (fun n s => engineStart s n) (List.range 16) s
  if s.standby && !s.active then s
  else
    let s := { s with le := { s.le with order := flow0Order s, win := [], windowOpen := true } }
    leDispatch s 600

/-! ### Completion (R44, R45, R51, R145) -/

/-- An uncorrectable error on a read by the step of axis `a`, of the word at `w` (R145, R359). 'Within 16
cycles' is a difference of less than 16 (DESIGN CHOICE, notes/assumptions/43). -/
def leEcc (s : State) (a w : Nat) : State :=
  let s := raiseUe s 0x42 w
  let again := match (s.leAx a).eccCycle with
    | some c => decide (s.cyc.t0s < c + 16)
    | none => false
  let s := s.onLe a (fun x => { x with eccCycle := some s.cyc.t0s })
  let s := raiseAxis s a 4 0
  if again then faultAxis s a 6 else s

/-- Engine `n` completes the item it executes at the present DT, and takes its next (R44, R51, R339). -/
def engineComplete (s : State) (n : Nat) : State :=
  match (s.eng n).exe with
  | none => s
  | some r =>
    let r := { r with stepDt := s.stamp }
    let s := s.onEng n (fun g => { g with exe := none, late := false, told := false })
    let s := if r.cycle = s.time.cycle then
        { s with sg := { s.sg with done := s.sg.done ++ [(r.axis, s.stamp)] } } else s
    let s := match r.ecc with | some w => leEcc s r.axis w | none => s
    let inWin := s.le.windowOpen && r.cycle = s.time.cycle &&
      s.le.win.any (fun e => e.axis = r.axis && e.res.isNone)
    let s :=
      if !inWin then (if r.ecc.isSome then s else countDiscard s)
      else
        let w := s.le.win.map (fun e => if e.axis = r.axis then { e with res := some r } else e)
        releaseHead { s with le := { s.le with win := w } } 128
    let s := s.onEng n (fun g => match g.exe, g.slot with
      | none, some q => { g with exe := some q, slot := none }
      | _, _ => g)
    leDispatch s 600

/-! ### CW_END (R42, R47) -/

/-- CW_END: the window closes (R42), and the holds of the cycle are counted (R47, R59). -/
def leCwEnd (s : State) : State :=
  if s.standby && !s.active then s
  else
    let present := s.le.win.filterMap (fun e => e.res)
    let order := byRecord s (present.map (fun r => r.axis))
    let s := { s with le := { s.le with win := [], windowOpen := false, order := [], cwCycle := s.cycN } }
    let s := forEach (fun a s => match present.find? (fun r => r.axis = a) with
      | some r => releaseRes s r
      | none => s) order s
    let s := forEach (fun n s => s.onEng n (fun g => { g with slot := none, late := g.exe.isSome })) (List.range 16) s
    let s := forEach (fun a s =>
      if s.le.released.contains a then s else substitute s a (!axisWrongEpoch s a)) (byRecord s s.cyc.enabledNow) s
    let n := s.cyc.heldNow
    if n = 0 then s
    else
      let s := { s with cyc := { s.cyc with holds := s.cyc.holds + n, heldCycles := s.cyc.heldCycles + 1 } }
      raisePage s pCyc 1 (n + ((s.cycN % 65536) <<< 16))

/-- LATE_HOLD is due for axis `a` (R48). -/
def lateHoldDue (s : State) (a : Nat) : Bool :=
  axisEnabled s a && s.ax a F.AX_STATUS_HOLD_RUN = 3 && !(s.leAx a).lateTold

/-- LATE_HOLD (R48). -/
def lateHold (s : State) (a : Nat) : State :=
  if lateHoldDue s a then
    let s := s.onLe a (fun x => { x with lateTold := true })
    let s := { s with cyc := { s.cyc with headAxes := nsAdd s.cyc.headAxes a } }
    faultAxis s a 1
  else s

/-! ### Engine service and page (R148, R149, R151) -/

/-- LE_SVCn.WITHDRAW (R148). -/
def leWithdraw (s : State) (n : Nat) : State :=
  if (s.eng n).inService then s.onEng n (fun g => { g with withdraw := true }) else s

/-- Whether a RESTORE of engine `n` runs its self-check (R149). -/
def restoreRuns (s : State) (n : Nat) : Bool := !(s.eng n).inService

/-- A self-check of engine `n` passed: it returns at the next CW_START (R149). -/
def leRestore (s : State) (n : Nat) : State := s.onEng n (fun g => { g with restore := true })

/-- The page's ENABLE with the engines that passed their self-check (R149). FAULTED stays as it is (DESIGN CHOICE,
notes/assumptions/43). -/
def leEnablePage (s : State) (pass : Nat) : State :=
  let s := forEach (fun n s => s.onEng n (fun g => { g with inService := bit pass n })) (List.range 16) s
  { s with le := { s.le with steps := 0, discards := 0 } }

/-- LE_SVCn as it reads. -/
def leSvc (s : State) (n : Nat) : Nat :=
  let g := s.eng n
  ((match g.exe with | some r => r.axis | none => s.openBits 0 10) <<< 16) + (b2n g.late <<< 3) + (b2n g.exe.isSome <<< 2) +
  (b2n g.faulted <<< 1) + b2n g.inService

/-- STATE of the LE page. WITHDRAWN is 1 while IN_SERVICE < 16, before the page's first ENABLE too (R148; its Reset column says 0:
DESIGN CHOICE, notes/assumptions/43). -/
def leState (s : State) : Nat :=
  let on := enabledAxes s
  let flt := (on.filter (fun a => axisFaulted s a)).length
  let eng := (List.range 16).map (fun n => s.eng n)
  let inS := (eng.filter (fun g => g.inService)).length
  (flt <<< 48) + (on.length <<< 32) + (inS <<< 16) + (b2n (flt > 0) <<< 2) +
  (b2n (eng.any (fun g => g.faulted)) <<< 1) + b2n (inS < 16)

/-- The words of LE_SNAP (R151). -/
def leSnapWords (s : State) : List (Nat × Nat) :=
  [(F.LE_SNAP_STEPS.adr, s.le.steps), (F.LE_SNAP_DISCARD.adr, s.le.discards), (F.LE_SNAP_CYCLE.adr, s.le.cwCycle)]

/-! ### Table copies to the standby (R168) -/

/-- Inserts a table copy in axis order behind the eight that are served (R168). -/
def syncInsert (l : List (Nat × Nat)) (p : Nat × Nat) : List (Nat × Nat) :=
  l.take 8 ++ ((l.drop 8).filter (fun q => q.1 < p.1) ++ p :: (l.drop 8).filter (fun q => q.1 > p.1))

/-- The words REP_CMD of axis `a` ask of a unit (R168). SYNC is accepted at once and its table copy joins the list, on both
units; with the party-wall link down, or on a SINGLE unit, it is a copy of no entries, SYNCING until REP_SYNC_DONE (DESIGN CHOICE,
notes/assumptions/43). On the unit that is active it ends STALE. UNSTALE ends STALE at the next step; a standby takes none, so that its
STALE ends at once where no copy runs (DEDUCED, notes/assumptions/38). -/
def repSync (s : State) (a : Nat) : State :=
  let s :=
    if s.standby && s.axb a F.REP_CMD_UNSTALE then
      let s := s.axPut a F.REP_CMD_UNSTALE 0
      if s.axb a F.REP_STATUS_SYNCING then s else s.axPut a F.REP_STATUS_STALE 0
    else s
  if s.axb a F.REP_CMD_SYNC then
    let s := (s.axPut a F.REP_CMD_SYNC 0).axPut a F.REP_STATUS_SYNCING 1
    let s := if s.standby then s else s.axPut a F.REP_STATUS_STALE 0
    let n := if s.tw.link then repN (repCfgOf s a) else 0
    if s.le.syncs.any (fun p => p.1 = a) then
      -- a copy under way begins again: the whole table follows the write
      { s with le := { s.le with syncs := s.le.syncs.map (fun p => if p.1 = a then (a, n) else p) } }
    else { s with le := { s.le with syncs := syncInsert s.le.syncs (a, n) } }
  else s

/-- The copy of axis `a`'s table is complete (R168): the standby holds `entries` and REP_SUM, and its table is current. The active
counts what is sent; a standby that paired while the copy ran takes it as it comes. -/
def repSyncDone (s : State) (a : Nat) (entries : List Nat) (sum : Word) : State :=
  if (s.le.syncs.take 8).any (fun p => p.1 = a && (p.2 = 0 || s.standby)) then
    let s := { s with le := { s.le with syncs := s.le.syncs.filter (fun p => p.1 != a) } }
    let s := s.axPut a F.REP_STATUS_SYNCING 0
    if !s.standby then s
    else
      let cfg := repCfgOf s a
      let s := forEach (fun p s => memWrite s 0x2E (repEntryAddr (getBits cfg 0 20) p.2) p.1 4)
        ((entries.take (repN cfg)).zipIdx) s
      (s.setWord (axisBase a + 0x258) sum.toNat).axPut a F.REP_STATUS_STALE 0
  else s

/-- A change of role ends the table copies under way: what a standby has of them stays STALE (R168). -/
def syncsEnd (s : State) : State :=
  let s := forEach (fun p s => s.axPut p.1 F.REP_STATUS_SYNCING 0) s.le.syncs s
  { s with le := { s.le with syncs := [] } }

/-- A unit becomes active: REP_STALE for every axis whose table is stale (R168). -/
def staleTell (s : State) : State :=
  forEach (fun a s => raiseAxis s a 15 0) ((List.range 512).filter (fun a => s.axb a F.REP_STATUS_STALE)) s

end Sys2Proof.Machine
end

