-- ==== Sys2Proof/Machine/Slots.lean ====
section
/-! DEFINITION. Field ports: their state, Seluth frames as sent, the slot banks and their checks, commits and
releases (R195 to R202, R206, R211, R222 to R229). -/

namespace Sys2Proof.Machine

/-! ### State of a port -/

/-- Field port `p`. -/
def State.port (s : State) (p : Nat) : FpSt := s.fp.look p

/-- Changes field port `p`. -/
def State.onPort (s : State) (p : Nat) (f : FpSt → FpSt) : State :=
  { s with fp := s.fp.set p (f (s.port p)) }

/-- What port `p` keeps of node `j`. -/
def State.node (s : State) (p j : Nat) : FpNode := (s.port p).nodes.look j

/-- Changes what port `p` keeps of node `j`. -/
def State.onNode (s : State) (p j : Nat) (f : FpNode → FpNode) : State :=
  s.onPort p (fun q => { q with nodes := q.nodes.set j (f (q.nodes.look j)) })

/-- SEG_STATE of segment `p`. -/
def segState (s : State) (p : Nat) : Nat := s.g (F.FP_STATE_SEG_STATE p)

/-- A schedule is committed on segment `p` (R228). -/
def scheduled (s : State) (p : Nat) : Bool := segState s p = 4

/-- The bound nodes of segment `p`, rising. -/
def boundNodes (s : State) (p : Nat) : List Nat :=
  (List.range 32).filter (fun j => s.gb (F.FP_GNODE_STATE_BOUND p j))

/-- The numbered nodes of segment `p`, rising. -/
def numberedNodes (s : State) (p : Nat) : List Nat :=
  (List.range 32).filter (fun j => s.gb (F.FP_NODE_STATE_NUMBERED p j))

/-- DELAY_A or DELAY_B of node `j`, for end 0 or 1. -/
def nodeDelayFld (p j e : Nat) : Fld := if e = 0 then F.FP_NODE_DELAY_DELAY_A p j else F.FP_NODE_DELAY_DELAY_B p j

/-- The delay of node `j` from end `e` (R207, R209). -/
def nodeDelay (s : State) (p j e : Nat) : Nat := s.g (nodeDelayFld p j e)

/-- The end of this unit on segment `p`. -/
def ownEnd (s : State) (p : Nat) : Nat := s.g (F.FP_STATE_END p)

/-- The enabled ports, rising. -/
def openPorts (s : State) : List Nat := (List.range 8).filter (fun p => portOn s p)

/-- The segments with a committed schedule, rising. -/
def scheduledSegs (s : State) : List Nat := (List.range 8).filter (fun p => scheduled s p)

/-! ### Frames as the head sends them (R199, Table 8.2) -/

/-- `n` bytes of `v`, the least significant first. -/
def leBytes (v : Nat) : Nat → List Nat
  | 0 => []
  | n + 1 => (v % 256) :: leBytes (v / 256) n

/-- `n` bytes of `v`, the most significant first (network byte order). -/
def beBytes (v n : Nat) : List Nat := (leBytes v n).reverse

/-- A list of bytes padded with zeros to `n` (R199). -/
def padTo (n : Nat) (l : List Nat) : List Nat := l ++ List.replicate (n - l.length) 0

/-- The bytes before the FCS of a head frame of `type` on segment `p` (R199, Table 8.2). -/
def headFrame (s : State) (p type e : Nat) (tx : DT) (payload : List Nat) : List Nat :=
  let cur := s.g F.FP_EPOCH_STATE_CURRENT
  padTo 60
    (beBytes (s.g (F.FP_GROUP_GROUP p)) 6 ++ beBytes (s.g (F.FP_MAC_MAC p)) 6 ++
     beBytes (s.g (F.FP_LINKCFG_ETHERTYPE p)) 2 ++
     [0x10 + type, p + 8 * e] ++ leBytes payload.length 2 ++ leBytes s.cycN 4 ++ [cur % 256, 0xFF] ++
     leBytes tx.toNat 6 ++ payload)

/-- The state after a Seluth frame has left port `p`. A unit whose pairing was refused drives no segment: it cannot tell one
that the other reaches from one that it does not (R387; DEDUCED, notes/assumptions/41). -/
def sendFrame (s : State) (p type e : Nat) (tx : DT) (payload : List Nat) : State :=
  if s.tw.refused then s else { s with out := s.out ++ [.frame p (headFrame s p type e tx payload)] }

/-- 41.6 ns in DT units, toward minus infinity (Table 3.2). -/
def phyEgress10 : Int := 2726297

/-- The egress stamp of a frame whose delimiter leaves field port `p` now (R60, R67). -/
def egressStamp (s : State) (p : Nat) : DT := dtAdd (dtCount s.dt) (phyEgress10 + toS 32 (s.g (F.TU_TSCORR_EGRESS p)))

/-- A DISCOVER leaves port `p` now (R205). -/
def sendDiscover (s : State) (p target mode : Nat) : State :=
  sendFrame s p 4 (ownEnd s p) (egressStamp s p) ([target, mode] ++ List.replicate 6 0)

/-! ### The downlink's size and need (R201, R211) -/

/-- Set-point records of the nodes `l`. -/
def recordsOf (s : State) (p : Nat) (l : List Nat) : Nat :=
  (l.map (fun j => s.g (F.FP_NODE_CAP_SP_RECORDS p j))).foldl (· + ·) 0

/-- Bytes of a DOWNLINK for the nodes `l`, FCS included (Table 8.4). -/
def downlinkBytes (s : State) (p : Nat) (l : List Nat) : Nat :=
  max 64 (14 + 16 + 32 + 8 * l.length + 24 * recordsOf s p l + 4)

/-- The greatest delay of the nodes `l` from end `e`. -/
def maxDelay (s : State) (p e : Nat) (l : List Nat) : Nat := maxNat 0 (l.map (fun j => nodeDelay s p j e))

/-- The greatest delay among the receivers of R211. -/
def receiverDelay (s : State) (p : Nat) (l : List Nat) : Nat :=
  let topo := s.g (F.FP_STATE_TOPO p)
  if topo = 3 then
    let hi := s.g (F.FP_STATE_BREAK_HI p)
    max (maxDelay s p 0 (l.filter (fun j => j < hi))) (maxDelay s p 1 (l.filter (fun j => j ≥ hi)))
  else
    let d := maxDelay s p (ownEnd s p) l
    if topo = 2 then max d (s.g (F.FP_RING_RING_DELAY p)) else d

/-- dl_need in fifths of a DT unit (R211): 0.8 ns is 262,144 of them. -/
def dlNeed5 (s : State) (p : Nat) (l : List Nat) : Nat :=
  let d := receiverDelay s p l
  (downlinkBytes s p l + 8) * 262144 + 5 * d

/-! ### Slot entries (R224 to R227) -/

/-- A slot entry. -/
structure Slot where
  k : Nat
  kind : Nat
  node : Nat
  len : Nat
  /-- START in fifths of a DT unit: 8 ns is 2,621,440 of them. -/
  start5 : Nat
deriving DecidableEq, Repr, Inhabited

/-- Entry `k` of bank `b`. -/
def slotOf (s : State) (p b k : Nat) : Slot :=
  { k, kind := s.g (F.FP_SLOT_KIND p b k), node := s.g (F.FP_SLOT_NODE p b k)
    len := s.g (F.FP_SLOT_LENGTH p b k), start5 := s.g (F.FP_SLOT_START p b k) * 2621440 }

/-- The used entries of bank `b`. -/
def slotsOf (s : State) (p b : Nat) : List Slot :=
  ((List.range 64).map (fun k => slotOf s p b k)).filter (fun e => e.kind ≠ 0)

/-- LIVE_BANK of segment `p`. -/
def liveBank (s : State) (p : Nat) : Nat := s.g (F.FP_SLOTCFG_LIVE_BANK p)

/-- The shadow bank of segment `p`. -/
def shadowBank (s : State) (p : Nat) : Nat := 1 - liveBank s p

/-- Nanoseconds in fifths of a DT unit. -/
def ns5 (ns : Nat) : Nat := ns * 327680

/-- occ of an entry, in fifths of a DT unit (R225). -/
def occ5 (s : State) (p : Nat) (e : Slot) : Nat := (e.len + 8) * 262144 + ns5 (s.g (F.FP_SLOTCFG_GUARD p))

/-- SPARE_REACH in fifths of a DT unit. -/
def reach5 (s : State) (p : Nat) : Nat := ns5 (s.g (F.FP_SLOTCFG_SPARE_REACH p))

/-- 125 ns steps in fifths of a DT unit. -/
def steps5 (n : Nat) : Nat := n * (5 * stepUnits)

/-- Whether two entries with START_a ≤ START_b are separated (R227). -/
def slotsApart (s : State) (p : Nat) (a b : Slot) : Bool :=
  let da := nodeDelay s p a.node 0
  let db := nodeDelay s p b.node 0
  let sep := if a.kind = 3 || b.kind = 3 then 2 * reach5 s p else 5 * (max da db - min da db)
  b.start5 ≥ a.start5 + occ5 s p a + sep

/-- The larger delay of a node in a RING, DELAY_A otherwise (R226). -/
def dMax (s : State) (p j : Nat) : Nat :=
  if s.g (F.FP_STATE_TOPO p) = 2 then max (nodeDelay s p j 0) (nodeDelay s p j 1) else nodeDelay s p j 0

/-- Whether an entry ends by UL_END (R226). -/
def slotUplinkOk (s : State) (p : Nat) (c : Sched) (e : Slot) : Bool :=
  if e.kind = 3 then e.start5 + 2 * reach5 s p + occ5 s p e ≤ steps5 c.ulEnd
  else e.start5 + 5 * dMax s p e.node + occ5 s p e ≤ steps5 c.ulEnd

/-- Whether an entry keeps to its part of the cycle (R226). -/
def slotPhaseOk (s : State) (p : Nat) (c : Sched) (e : Slot) : Bool :=
  let up := slotUplinkOk s p c e
  let tail := e.kind = 2 &&
    e.start5 * 10 ≥ (steps5 c.dlEnd) * 10 + 576 * 327680 + 50 * receiverDelay s p (numberedNodes s p) &&
    e.start5 + 5 * dMax s p e.node + occ5 s p e + ns5 500 ≤ steps5 c.period
  up || tail

/-- DOWNLINK_FIT: the downlink need fits from TR to DL_END (R211). -/
def downlinkFits (s : State) (p : Nat) (c : Sched) (l : List Nat) : Bool :=
  dlNeed5 s p l ≤ steps5 (c.dlEnd - c.tr)

/-- Every two used entries of a bank are separated (R227). -/
def allApart (s : State) (p : Nat) (l : List Slot) : Bool :=
  l.all (fun a => l.all (fun b => a.k = b.k || a.start5 > b.start5 || slotsApart s p a b))

/-- Checks 0x0524 to 0x052C on bank `b` for the phases `c` (Table 9.2). -/
def slotChecks (s : State) (p b : Nat) (c : Sched) : Nat :=
  let l := slotsOf s p b
  let nodes := numberedNodes s p
  let ofKind (k : Nat) : List Slot := l.filter (fun e => e.kind = k)
  let guardNs := s.g (F.FP_SLOTCFG_GUARD p)
  let count (k j : Nat) : Nat := ((ofKind k).filter (fun e => e.node = j)).length
  let short (e : Slot) : Bool :=
    e.len < 64 || e.len > 4096 ||
    (e.kind = 1 && e.len < max 64 (50 + 32 * s.g (F.FP_NODE_CAP_POS_RECORDS p e.node))) ||
    (e.kind = 2 && e.len < 78)
  let reserved (e : Slot) : Bool :=
    let w := s.reg (F.FP_SLOT p b e.k).adr
    getBits w 53 9 ≠ 0 || getBits w 45 3 ≠ 0 || getBits w 17 15 ≠ 0
  firstReason
    [test (l.any (fun e => ((e.kind = 1 || e.kind = 2) && !nodes.contains e.node) || reserved e)) 0x0524,
     test (nodes.any (fun j => count 1 j ≠ 1 || count 2 j > 4) || (ofKind 3).length > 8) 0x0525,
     test (l.any short) 0x0526,
     test (!allApart s p l) 0x0527,
     test (l.any (fun e => !slotPhaseOk s p c e)) 0x0528,
     test (!downlinkFits s p c nodes) 0x0529,
     test (recordsOf s p nodes > 128) 0x052A,
     test ((ofKind 3).length > 0 &&
       nsUnits (s.g (F.FP_SLOTCFG_SPARE_REACH p)) < maxNat 0 (nodes.map (fun j => dMax s p j))) 0x052B,
     test (guardNs < 56 || guardNs > 2000) 0x052C]

/-- SLOT_FIT of the cycle check, over the live banks of the enabled ports (Table 2.4): the uplink slots end by UL_END and the
downlink fits. A SENSOR slot that begins at or after DL_END is a tail slot, not an uplink slot (DEDUCED,
notes/assumptions/37). -/
def slotFit (s : State) (c : Sched) : Bool :=
  (openPorts s).all (fun p => !scheduled s p ||
    ((slotsOf s p (liveBank s p)).all (fun e => (e.kind = 2 && e.start5 ≥ steps5 c.dlEnd) || slotUplinkOk s p c e) &&
     downlinkFits s p c (boundNodes s p)))

/-- The schedule that CYC_PERIOD_NEXT and CYC_PHASE_NEXT hold (R33). -/
def nextWritten (s : State) : Sched :=
  { period := s.g F.CYC_PERIOD_NEXT_PERIOD, ulEnd := s.g F.CYC_PHASE_NEXT_UL_END
    cwStart := s.g F.CYC_PHASE_NEXT_CW_START, cwEnd := s.g F.CYC_PHASE_NEXT_CW_END
    tr := s.g F.CYC_PHASE_NEXT_TR, dlEnd := s.g F.CYC_PERIOD_NEXT_DL_END }

/-! ### Locks on slot entries (R228) -/

/-- An epoch change is pending (R241). -/
def epochPending (s : State) : Bool := s.gb F.EPOCH_STATE_PENDING

/-- The change has been decided as an abort. -/
def epochAborted (s : State) : Bool := s.gb F.EPOCH_STATE_DECIDED && !s.ep.commit

/-- Whether the entries of bank `b` ignore writes (R228). -/
def slotLocked (s : State) (p b : Nat) : Bool :=
  (scheduled s p && b = liveBank s p) ||
  ((s.port p).commit && b = shadowBank s p) ||
  (scheduled s p && epochPending s && !epochAborted s)

/-! ### Commit and release (R228, R229) -/

/-- An enabled axis names segment `p` (Table 9.2). -/
def segInUse (s : State) (p : Nat) : Bool := (enabledAxes s).any (fun a => (s.leAx a).cfg.seg = p)

/-- The checks of a COMMIT (Table 9.2). -/
def commitCheck (s : State) (p : Nat) : Nat :=
  firstReason
    [test (!portOn s p) 0x0520, test s.standby 0x0521, test (segState s p ≠ 3) 0x0522,
     test (epochPending s || (s.port p).grants ≠ []) 0x0523,
     slotChecks s p (shadowBank s p) (if s.time.running then s.time.live else nextWritten s)]

/-- The checks of a RELEASE (Table 9.2). -/
def releaseCheck (s : State) (p : Nat) : Nat :=
  firstReason
    [test (!portOn s p) 0x0520, test s.standby 0x0521, test (!scheduled s p) 0x0522,
     test (epochPending s || (s.port p).grants ≠ [] || segInUse s p) 0x0523]

/-- Forgets what R202 remembers of segment `p`. -/
def forgetRecords (s : State) (p : Nat) : State :=
  { s with le := { s.le with remembered := s.le.remembered.filter (fun e => e.1 / 256 ≠ p) } }

/-- Binds exactly the nodes with an UPLINK slot in the live bank. -/
def bindNodes (s : State) (p : Nat) : State :=
  let l := (slotsOf s p (liveBank s p)).filter (fun e => e.kind = 1)
  forEach (fun j s =>
    let on := l.any (fun e => e.node = j)
    let was := s.gb (F.FP_GNODE_STATE_BOUND p j)
    let s := s.put (F.FP_GNODE_STATE_BOUND p j) (b2n on)
    if on && !was then s.onNode p j (fun n => { n with rts := [], drift := false, missRun := 0, hist := [], now := 0, ack := none })
    else s) (List.range 32) s

/-- The shadow bank becomes live (R228). -/
def commitNow (s : State) (p : Nat) : State :=
  let s := s.put (F.FP_SLOTCFG_LIVE_BANK p) (shadowBank s p)
  let s := (s.put (F.FP_STATE_SEG_STATE p) 4).onPort p (fun q => { q with commit := false, beacon := none, fell := false })
  bindNodes (forgetRecords s p) p

/-- The live schedule is withdrawn (R228). -/
def releaseNow (s : State) (p : Nat) : State :=
  let s := (s.put (F.FP_STATE_SEG_STATE p) 3).onPort p (fun q => { q with release := false })
  let s := forEach (fun j s => s.put (F.FP_GNODE_STATE_BOUND p j) 0) (List.range 32) s
  forgetRecords s p

/-- An accepted COMMIT takes effect at the next T0 while the cycle runs, otherwise at once (R228). -/
def commitApply (s : State) (p : Nat) : State :=
  if s.time.running then s.onPort p (fun q => { q with commit := true }) else commitNow s p

/-- An accepted RELEASE takes effect at the next T0, whether or not a cycle runs now (R228). -/
def releaseApply (s : State) (p : Nat) : State := s.onPort p (fun q => { q with release := true })

/-- The cycle has ended: a COMMIT that awaits a T0 takes effect at once (R228; DEDUCED, notes/assumptions/39). -/
def segsIdle (s : State) : State :=
  forEach (fun p s => if (s.port p).commit then commitNow s p else s) (List.range 8) s

/-! ### Enabling a port (R222) -/

/-- The field-port checks (Table 8.10). -/
def fpCheck (s : State) (p : Nat) : Nat :=
  let et := s.g (F.FP_LINKCFG_ETHERTYPE p)
  let mac := s.g (F.FP_MAC_MAC p)
  firstReason
    [test (s.port p).noClock 0x0501,
     test (et < 0x0600 || [0x0800, 0x0806, 0x86DD, 0x8808, 0x8100, 0x88F7].contains et) 0x0502,
     test (mac = 0 || bit mac 40) 0x0503,
     test (!bit (s.g (F.FP_GROUP_GROUP p)) 40) 0x0504,
     test (s.g (F.FP_LINKCFG_TIMEOUT p) < 4) 0x0505]

/-- ENABLE of the page is set: its counters restart (FP_SNAP, FP_GSNAP). -/
def fpEnable (s : State) (p : Nat) : State :=
  s.onPort p (fun q => { q with
    timeout := s.g (F.FP_LINKCFG_TIMEOUT p), delayTol := s.g (F.FP_LINKCFG_DELAY_TOL p)
    muteLimit := s.g (F.FP_SLOTCFG_MUTE_LIMIT p), muteWindow := s.g (F.FP_SLOTCFG_MUTE_WINDOW p)
    rx := 0, bad := 0, other := 0, fullCount := 0, relayed := 0, relayHolds := 0, accept := 0, window := 0
    noslot := 0, oversize := 0, epoch := 0, muted := 0, missed := 0, empty := 0, lost := 0, refused := 0 })

/-- Words of FP_SNAP (the FPn page's counter snapshot). -/
def fpSnapWords (s : State) (p : Nat) : List (Nat × Nat) :=
  let q := s.port p
  [((F.FP_SNAP_RX p).adr, q.rx), ((F.FP_SNAP_BAD p).adr, q.bad), ((F.FP_SNAP_OTHER p).adr, q.other),
   ((F.FP_SNAP_FULL p).adr, q.fullCount), ((F.FP_SNAP_RELAYED p).adr, q.relayed),
   ((F.FP_SNAP_RELAYHOLD p).adr, q.relayHolds)]

/-- Words of FP_GSNAP. -/
def fpGsnapWords (s : State) (p : Nat) : List (Nat × Nat) :=
  let q := s.port p
  [((F.FP_GSNAP_ACCEPT p).adr, q.accept), ((F.FP_GSNAP_WINDOW p).adr, q.window),
   ((F.FP_GSNAP_NOSLOT p).adr, q.noslot), ((F.FP_GSNAP_OVERSIZE p).adr, q.oversize),
   ((F.FP_GSNAP_EPOCH p).adr, q.epoch), ((F.FP_GSNAP_MUTED p).adr, q.muted),
   ((F.FP_GSNAP_MISSED p).adr, q.missed), ((F.FP_GSNAP_EMPTY p).adr, q.empty),
   ((F.FP_GSNAP_CLAIMS p).adr, (q.lost <<< 32) + q.refused), ((F.FP_GSNAP_CYCLE p).adr, q.ulCycle)]

/-- The SPARE entries in the pool of segment `p` (R236). -/
def poolSlots (s : State) (p : Nat) : List Slot :=
  if scheduled s p then
    (slotsOf s p (liveBank s p)).filter (fun e => e.kind = 3 && !(s.port p).grants.any (fun g => g.slot = e.k))
  else []

/-- FP_GSTATE as it reads. -/
def fpGstate (s : State) (p : Nat) : Nat :=
  let m := ((List.range 32).filter (fun j => s.gb (F.FP_GNODE_STATE_MUTED p j))).foldl (fun a j => a + 2 ^ j) 0
  (m <<< 32) + (b2n ((s.port p).grants ≠ []) <<< 2) + (b2n (s.port p).missedAny <<< 1) + b2n (m ≠ 0)

/-- FP_SPARE as it reads. -/
def fpSpare (s : State) (p : Nat) : Nat :=
  setBits (s.reg (F.FP_SPARE p).adr) 0 4 (poolSlots s p).length

end Sys2Proof.Machine
end

