-- ==== Sys2Proof/Machine/Discovery.lean ====
section
/-! DEFINITION. Links of the field ports, discovery and numbering (R67, R207, R212 to R214). -/

namespace Sys2Proof.Machine

/-! ### Stamps (R67, R68) -/

/-- 52.8 ns in DT units, toward minus infinity (Table 3.2). -/
def phyIngress10 : Int := 3460300

/-- The INGRESS correction of port `n` in force at DT `d`: the oldest value replaced after `d`, else the present
one (R68). -/
def ingressCorr (s : State) (n : Nat) (d : DT) : Int :=
  match (s.tu.corrOld.look n).find? (fun e => dtDiff e.1 d > 0) with
  | some e => toS 32 e.2
  | none => toS 32 (s.g (F.TU_TSCORR_INGRESS n))

/-- The ingress stamp of a frame captured at `d` on field port `p` (R60, R67). -/
def ingressStamp (s : State) (p : Nat) (d : DT) : DT := dtAdd (dtCount d) (-(phyIngress10 + ingressCorr s p d))

/-- A write to TU_TSCORRn (R68): what it replaces is kept for the frames whose delimiter has crossed before it. -/
def tscorrWrite (s : State) (n v : Nat) : State :=
  let old := s.g (F.TU_TSCORR_INGRESS n)
  let s := { s with tu := { s.tu with
    corrOld := s.tu.corrOld.set n ((s.tu.corrOld.look n) ++ [(s.dt, old)]) } }
  s.setReg (F.TU_TSCORR n).adr v

/-! ### Discovery (R212) -/

/-- The discovery of segment `p` is replaced. -/
def setDisc (s : State) (p : Nat) (d : Option FpDisc) : State := s.onPort p (fun q => { q with disc := d })

/-- A DISCOVER leaves, and its egress stamp is kept (R67). -/
def discSend (s : State) (p : Nat) (d : FpDisc) (target mode : Nat) : State :=
  sendDiscover (setDisc s p (some { d with tx := egressStamp s p })) p target mode

/-- Clears what the port holds of node `j`. -/
def clearNode (s : State) (p j : Nat) : State :=
  let s := forEach (fun a s => s.setReg a 0)
    [(F.FP_NODE_MAC p j).adr, (F.FP_NODE_CAP p j).adr, (F.FP_NODE_DELAY p j).adr, (F.FP_NODE_STATE p j).adr] s
  s.onPort p (fun q => { q with nodes := q.nodes.set j default })

/-- Clears every number of the segment. -/
def clearNodes (s : State) (p : Nat) : State :=
  (forEach (fun j s => clearNode s p j) (List.range 32) s).put (F.FP_STATE_NODES p) 0

/-- Discovery starts: the first DISCOVER leaves. -/
def discStart (s : State) (p : Nat) : State :=
  let s := clearNodes s p
  let s := (((s.put (F.FP_STATE_SEG_STATE p) 1).put (F.FP_STATE_OVERFULL p) 0).put (F.FP_STATE_ALONE p) 0)
  let s := (s.put (F.FP_STATE_TOPO p) 0).put (F.FP_STATE_END p) 0
  let s := (s.put (F.FP_STATE_BREAK_HI p) 0xFF).put (F.FP_STATE_BREAK_LO p) 0xFF
  let s := (s.put (F.FP_STATE_BROKEN p) 0).put (F.FP_RING_RING_DELAY p) 0
  let s := s.onPort p (fun q => { q with discAtUp := false, fell := false })
  discSend s p { (default : FpDisc) with tries := 1 } 0 0

/-- FP_DISC.START after its checks: now, or at link-up when the link is down (FP_DISC). Only the active runs discovery: on a unit
that is PAIRING or SILENT, which no check of Table 8.10 refuses, nothing begins (R212, R386, R399). -/
def discApply (s : State) (p : Nat) : State :=
  if !s.active then s
  else if s.gb (F.FP_STATE_LINK_UP p) then discStart s p else s.onPort p (fun q => { q with discAtUp := true })

/-- The checks of FP_DISC.START (Table 8.10). -/
def discCheck (s : State) (p : Nat) : Nat :=
  firstReason [test (!portOn s p) 0x0510, test (scheduled s p || (s.port p).commit) 0x0511, test s.standby 0x0512]

/-- The search ends (R212, R214): `ring` when the far head was measured. -/
def discStop (s : State) (p : Nat) (ring : Bool) : State :=
  let n := (numberedNodes s p).length
  let s := setDisc s p none
  let s := (s.put (F.FP_STATE_NODES p) n).put (F.FP_STATE_TOPO p) (if ring then 2 else 1)
  if n = 0 then
    let s := (s.put (F.FP_STATE_SEG_STATE p) 2).put (F.FP_STATE_ALONE p) 1
    let s := s.onPort p (fun q => { q with beacon := some s.dt })
    raisePage s (pFP p) 4 0
  else raisePage (s.put (F.FP_STATE_SEG_STATE p) 3) (pFP p) 3 0

/-- The DISCOVER that numbers node `k`, or the probe after the 32nd. -/
def discNext (s : State) (p k : Nat) : State :=
  discSend s p { (default : FpDisc) with k, tries := 1 } (if k < 32 then k else 0xFF) (if k < 32 then 0 else 3)

/-- The mean of the round trips gathered, halved, toward minus infinity (R207). -/
def discMean (d : FpDisc) : Nat := ofS 32 (fdiv d.sum (2 * d.cnt))

/-- The 16 exchanges are over (R212). -/
def discMeasured (s : State) (p : Nat) (d : FpDisc) : State :=
  if d.phase = 2 then
    (if d.cnt = 0 then discStop s p false
     else discStop (s.put (F.FP_RING_RING_DELAY p) (discMean d)) p true)
  else if d.cnt = 0 then discStop (clearNode s p d.k) p false
  else
    let s := s.put (F.FP_NODE_DELAY_DELAY_A p d.k) (discMean d)
    let s := s.put (F.FP_NODE_STATE_NUMBERED p d.k) 1
    let s := s.put (F.FP_STATE_NODES p) (numberedNodes s p).length
    discNext s p (d.k + 1)

/-- One exchange is over, with its round trip where it was answered (R207, R212). -/
def discExchange (s : State) (p : Nat) (d : FpDisc) (rt : Option Int) : State :=
  let d := match rt with
    | some v => { d with sum := d.sum + v, cnt := d.cnt + 1 }
    | none => d
  if d.tries ≥ 16 then discMeasured s p d
  else discSend s p { d with tries := d.tries + 1 } (if d.phase = 2 then 0xFF else d.k) 1

/-- What an ANNOUNCE or CLAIM tells of a node goes to its words. -/
def noteNode (s : State) (p j mac vendor sensor sp pos maxUl fwd : Nat) : State :=
  let s := s.setReg (F.FP_NODE_MAC p j).adr (mac % 2 ^ 48)
  let s := s.setReg (F.FP_NODE_CAP p j).adr
    (((vendor % 2 ^ 32) <<< 32) + ((sensor % 256) <<< 24) + ((sp % 16) <<< 20) + ((pos % 16) <<< 16) + maxUl % 65536)
  s.put (F.FP_NODE_STATE_FWD_LAT p j) fwd

/-- An ANNOUNCE that passed the guardian reaches the discovery logic; `rx` is its ingress stamp (R207, R212,
R214). An ANNOUNCE that answers nothing awaited changes nothing. -/
def discAnnounce (s : State) (p : Nat) (h : FrameHdr) (b : AnnounceBody) (rx : DT) : State :=
  let num (k : Nat) (s : State) : State :=
    let s := noteNode s p k h.srcMac b.vendor b.sensorCh b.spRecords b.posRecords b.maxUl b.fwdLat
    discSend s p { (default : FpDisc) with k, phase := 1, tries := 1 } k 1
  let headFound (k : Nat) (s : State) : State :=
    discSend s p { (default : FpDisc) with k, phase := 2, tries := 1 } 0xFF 1
  if !s.active then s
  else match (s.port p).disc with
  | none =>
    if segState s p = 2 then
      let s := (s.put (F.FP_STATE_SEG_STATE p) 1).put (F.FP_STATE_ALONE p) 0
      if b.head then headFound 0 s else num 0 s
    else s
  | some d =>
    let rt := toS 48 (ofS 48 ((rx.toNat : Int) - d.tx.toNat)) - toS 48 (ofS 48 ((h.txDt : Int) - b.rxDt))
    if d.phase = 0 then
      (if b.head then headFound d.k s
       else if d.k = 32 then discStop (s.put (F.FP_STATE_OVERFULL p) 1) p false
       else if b.number = d.k then num d.k s else s)
    else if d.phase = 1 then (if !b.head && h.src = d.k then discExchange s p d (some rt) else s)
    else (if b.head then discExchange s p d (some rt) else s)

/-- 100 µs have passed since the last DISCOVER without its ANNOUNCE (R212). -/
def discTimeout (s : State) (p : Nat) : State :=
  if !s.active then s
  else match (s.port p).disc with
  | none => s
  | some d =>
    if dtDiff s.dt d.tx < (nsUnits 100000 : Int) then s
    else if d.phase = 0 then
      (if d.tries < 3 then
        discSend s p { d with tries := d.tries + 1 } (if d.k < 32 then d.k else 0xFF) (if d.k < 32 then 0 else 3)
       else discStop s p false)
    else discExchange s p d none

/-- The search of an ALONE segment, every 1 ms (R214). -/
def aloneDiscover (s : State) (p : Nat) : State :=
  let due := match (s.port p).beacon with
    | some b => decide (dtDiff s.dt b ≥ (nsUnits 1000000 : Int))
    | none => true
  if s.active && segState s p = 2 && s.gb (F.FP_STATE_LINK_UP p) && portOn s p && due then
    sendDiscover (s.onPort p (fun q => { q with beacon := some s.dt })) p 0 0
  else s

/-- Whether a head's frame comes from the far head (R230): its END is not that of this unit. A DISCOVER that reaches a standby
while no schedule is committed comes from a discovery, whose head is end A (R195). -/
def fromFarHead (s : State) (p : Nat) (h : FrameHdr) : Bool :=
  if h.type = 4 && s.standby && !scheduled s p then !h.headEnd else h.headEnd = decide (ownEnd s p = 0)

/-- The standby answers a DISCOVER with an ANNOUNCE that carries HEAD = 1 (R212, Table 8.8); one of a discovery makes its end
end B (R195). -/
def standbyAnswer (s : State) (p : Nat) (h : FrameHdr) : State :=
  if s.standby && portOn s p && s.gb (F.FP_STATE_LINK_UP p) then
    let rx := ingressStamp s p h.capture
    let s := if scheduled s p then s else s.put (F.FP_STATE_END p) 1
    sendFrame s p 5 (ownEnd s p) (egressStamp s p)
      ([0xFC, 0, 0, 0, 0, 0, 0, 1] ++ leBytes rx.toNat 6 ++ [0, 0] ++ List.replicate 16 0)
  else s

/-! ### Link up and down (R213, R214) -/

/-- The link of port `p` comes up. -/
def linkUp (s : State) (p : Nat) : State :=
  if s.gb (F.FP_STATE_LINK_UP p) then s
  else
    let s := raisePage (s.put (F.FP_STATE_LINK_UP p) 1) (pFP p) 1 0
    let wanted := (s.gb (F.FP_DISC_AUTO p) && segState s p = 0) || ((s.port p).discAtUp && !scheduled s p)
    if wanted && portOn s p && s.active then discStart s p else s

/-- A discovery or the search of an ALONE segment is abandoned (R213). -/
def searchEnd (s : State) (p : Nat) : State :=
  let s := clearNodes (setDisc s p none) p
  ((s.put (F.FP_STATE_SEG_STATE p) 0).put (F.FP_STATE_ALONE p) 0).put (F.FP_STATE_TOPO p) 0

/-- The link of port `p` goes down. -/
def linkDown (s : State) (p : Nat) : State :=
  if !s.gb (F.FP_STATE_LINK_UP p) then s
  else
    let s := raisePage (s.put (F.FP_STATE_LINK_UP p) 0) (pFP p) 2 0
    if segState s p = 1 || segState s p = 2 then searchEnd s p else s

/-- ENABLE of the page is cleared: the port isolates its segment (R235). A discovery or an ALONE search ends as it
does when the link goes down. -/
def fpDisable (s : State) (p : Nat) : State :=
  if segState s p = 1 || segState s p = 2 then searchEnd s p else s

/-- A change of role abandons the discoveries in progress, which only the active runs (R212; DEDUCED, notes/assumptions/39). -/
def searchesEnd (s : State) : State :=
  forEach (fun p s => if segState s p = 1 then searchEnd s p else s) (List.range 8) s

end Sys2Proof.Machine
end

