-- ==== Sys2Proof/Machine/Planner.lean ====
section
/-! DEFINITION. Jerk-limited plans in whole cycles (R172, R177, R178, R187). The spec bounds a plan and says
where it ends; the plan chosen within those bounds is the model's (notes/assumptions/16). -/

namespace Sys2Proof.Machine

/-! ### Units -/

/-- A Q40.24 jerk in the PG's units. -/
def toJ (q : Int) : Int := shl q 40
/-- A Q40.24 acceleration in the PG's units. -/
def toA (q : Int) : Int := shl q 40 * 8000000
/-- A Q40.24 velocity in the PG's units. -/
def toV (q : Int) : Int := shl q 40 * 128000000000000
/-- A Q40.24 position in the PG's units. -/
def toP (q : Int) : Int := shl q 90 * 3072000000000000000000
/-- The SP_JERK word of a jerk. -/
def ofJ (x : Int) : Int := sat64 (shr x 40)
/-- The SP_ACC word of an acceleration. -/
def ofA (x : Int) : Int := sat64 (fdiv x (toA 1))
/-- The SP_VEL word of a velocity. -/
def ofV (x : Int) : Int := sat64 (fdiv x (toV 1))
/-- The SP_POS word of a position (R104). -/
def ofP (x : Int) : Int := wrap64 (fdiv x (toP 1))

/-- A position reduced to its signed range (R104). -/
def wrapP (x : Int) : Int :=
  let m := toP (2 ^ 64)
  let h := toP (2 ^ 63)
  (x + h) % m - h

/-- The motion over `d` steps of 125 ns at constant jerk. -/
def PgRef.advance (r : PgRef) (d : Nat) : PgRef :=
  let t : Int := d
  { p := wrapP (r.p + shl (3 * r.v * t + 3 * r.a * t * t + r.j * t * t * t) 50)
    v := r.v + 2 * r.a * t + r.j * t * t
    a := r.a + r.j * t
    j := r.j }

/-! ### A change of velocity -/

/-- Cycles of the three phases of a change of velocity: jerk, constant acceleration, jerk. -/
structure Phases where
  n1 : Nat
  n2 : Nat
  n3 : Nat
deriving DecidableEq, Repr, Inhabited

/-- Magnitude. -/
def mag (x : Int) : Int := if x < 0 then -x else x

/-- Cycles that cover `x` at `y` per cycle, rounded up. -/
def cyclesFor (x y : Int) : Nat := if y ≤ 0 || x ≤ 0 then 0 else (-(fdiv (-x) y)).toNat

/-- The time-optimal phases from (v0, a0) to (vt, 0), rounded up to whole cycles of `per` steps, for an
upward change; a downward one is this one mirrored. -/
def phasesUp (v0 a0 vt amax jmax : Int) (per : Nat) : Phases :=
  let full : Int := (isqrt (fdiv (jmax * (vt - v0) + a0 * a0) 2).toNat : Int)
  let ap := min full amax
  let jp := jmax * per
  let n1 := max (cyclesFor (mag (ap - a0)) jp) (if a0 = 0 then 0 else 1)
  let n3 := cyclesFor ap jp
  { n1 := n1, n3 := n3
    n2 := if full ≤ amax then 0
      else cyclesFor (vt - v0 - (a0 + ap) * (n1 * per : Nat) - ap * (n3 * per : Nat)) (2 * ap * per) }

/-- The phases from (v0, a0) to (vt, 0). -/
def phasesOf (v0 a0 vt amax jmax : Int) (per : Nat) : Phases :=
  if jmax ≤ 0 || amax ≤ 0 then ⟨0, 0, 0⟩
  else
    let vz := v0 + fdiv (a0 * mag a0) jmax
    let c := if vt ≥ vz then phasesUp v0 a0 vt amax jmax per else phasesUp (-v0) (-a0) (-vt) amax jmax per
    if v0 = vt && a0 = 0 then ⟨0, 0, 0⟩ else { c with n1 := max 1 c.n1, n3 := max 1 c.n3 }

/-- The acceleration of the middle phase that the phases need to end at `vt`. -/
def peakOf (c : Phases) (v0 a0 vt : Int) (per : Nat) : Int :=
  let d1 : Int := c.n1 * per
  let den : Int := d1 + 2 * (c.n2 * per) + c.n3 * per
  if den = 0 then 0 else Int.tdiv (vt - v0 - a0 * d1) den

/-- The segments of the phases. -/
def segsOf (c : Phases) (v0 a0 vt : Int) (per : Nat) : List (Nat × Int) :=
  let ap := peakOf c v0 a0 vt per
  ([(c.n1, Int.tdiv (ap - a0) (c.n1 * per)), (c.n2, 0), (c.n3, Int.tdiv (-ap) (c.n3 * per))]).filter
    (fun x => x.1 != 0)

/-- The phases with one more cycle where a limit is broken; `none` where none is. -/
def phasesFix (c : Phases) (v0 a0 vt amax jmax : Int) (per : Nat) : Option Phases :=
  let ap := peakOf c v0 a0 vt per
  if decide (mag (ap - a0) > jmax * (c.n1 * per : Nat)) then some { c with n1 := c.n1 + 1 }
  else if decide (mag ap > jmax * (c.n3 * per : Nat)) then some { c with n3 := c.n3 + 1 }
  else if decide (mag ap > amax) then some { c with n2 := c.n2 + 1 }
  else none

/-- Phases that keep the limits, within `k` corrections. -/
def phasesKeep (v0 a0 vt amax jmax : Int) (per : Nat) : Nat → Phases → Option Phases
  | 0, _ => none
  | k + 1, c =>
    match phasesFix c v0 a0 vt amax jmax per with
    | none => some c
    | some c' => phasesKeep v0 a0 vt amax jmax per k c'

/-- Segments that bring the acceleration to 0. -/
def accelDown (a0 jmax : Int) (per : Nat) : Nat × Int :=
  let n := max 1 (cyclesFor (mag a0) (jmax * per))
  (n, Int.tdiv (-a0) (n * per))

/-- The state after segments. -/
def runSegs (r : PgRef) (per : Nat) : List (Nat × Int) → PgRef
  | [] => r
  | (n, j) :: rest => runSegs ({ r with j := j }.advance (n * per)) per rest

/-- The segments of a change of velocity from `r` to `vt` (R178, R187). -/
def velSegs (r : PgRef) (vt amax jmax : Int) (per : Nat) : List (Nat × Int) :=
  match phasesKeep r.v r.a vt amax jmax per 64 (phasesOf r.v r.a vt amax jmax per) with
  | some c => segsOf c r.v r.a vt per
  | none =>
    let d := accelDown r.a jmax per
    let r1 := runSegs r per [d]
    d :: segsOf (phasesOf r1.v 0 vt amax jmax per) r1.v 0 vt per

/-! ### A move -/

/-- The phases of a move: to a peak velocity, at it, and to rest. -/
structure MovePhases where
  up : Phases
  cruise : Nat
  down : Phases
deriving DecidableEq, Repr, Inhabited

/-- The segments of a move with peak velocity `vp`. -/
def moveSegs (c : MovePhases) (r : PgRef) (vp : Int) (per : Nat) : List (Nat × Int) :=
  segsOf c.up r.v r.a vp per ++ (if c.cruise = 0 then [] else [(c.cruise, 0)]) ++ segsOf c.down vp 0 0 per

/-- The displacement of those segments, unreduced. -/
def moveDisp (c : MovePhases) (r : PgRef) (vp : Int) (per : Nat) : Int :=
  let go (acc : Int × PgRef) (s : Nat × Int) : Int × PgRef :=
    let x := { acc.2 with p := 0, j := s.2 }
    let t : Int := ((s.1 * per : Nat) : Int)
    let y := x.advance (s.1 * per)
    (acc.1 + shl (3 * x.v * t + 3 * x.a * t * t + x.j * t * t * t) 50, y)
  ((moveSegs c r vp per).foldl go (0, r)).1

/-- The phases for peak velocity `vp`, without cruise. -/
def movePhases (r : PgRef) (vp amax jmax : Int) (per : Nat) : MovePhases :=
  { up := phasesOf r.v r.a vp amax jmax per, cruise := 0, down := phasesOf vp 0 0 amax jmax per }

/-- Bisection for the peak velocity at which the move covers `d`. -/
def bisectPeak (r : PgRef) (d amax jmax : Int) (per : Nat) : Nat → Int → Int → Int × Int
  | 0, lo, hi => (lo, hi)
  | k + 1, lo, hi =>
    let m := fdiv (lo + hi) 2
    if moveDisp (movePhases r m amax jmax per) r m per ≤ d then bisectPeak r d amax jmax per k m hi
    else bisectPeak r d amax jmax per k lo m

/-- The peak velocity with which the phases cover `d`: the displacement is affine in it. -/
def peakFor (c : MovePhases) (r : PgRef) (d : Int) (per : Nat) : Int :=
  let big : Int := 2 ^ 120
  let d0 := moveDisp c r 0 per
  let d1 := moveDisp c r big per
  if d1 = d0 then 0 else fdiv ((d - d0) * big) (d1 - d0)

/-- Phases corrected, a cycle at a time, until the move keeps its limits. -/
def moveKeep (r : PgRef) (d vmax amax jmax : Int) (per : Nat) : Nat → MovePhases → Option MovePhases
  | 0, _ => none
  | k + 1, c =>
    let vp := peakFor c r d per
    match phasesFix c.up r.v r.a vp amax jmax per with
    | some u => moveKeep r d vmax amax jmax per k { c with up := u }
    | none =>
      match phasesFix c.down vp 0 0 amax jmax per with
      | some w => moveKeep r d vmax amax jmax per k { c with down := w }
      | none =>
        if decide (mag vp > vmax) then moveKeep r d vmax amax jmax per k { c with cruise := c.cruise + 1 }
        else some c

/-- The phases of a move over `d` before correction. -/
def moveFirst (r : PgRef) (d vmax amax jmax : Int) (per : Nat) : MovePhases :=
  let top := movePhases r vmax amax jmax per
  let bot := movePhases r (-vmax) amax jmax per
  let dTop := moveDisp top r vmax per
  let dBot := moveDisp bot r (-vmax) per
  let perCycle := shl (3 * vmax * per) 50
  if d ≥ dTop then { top with cruise := cyclesFor (d - dTop) perCycle }
  else if d ≤ dBot then { bot with cruise := cyclesFor (dBot - d) perCycle }
  else
    let (lo, hi) := bisectPeak r d amax jmax per 100 (-vmax) vmax
    movePhases r (if mag lo > mag hi then lo else hi) amax jmax per

/-- Phases in steps of 125 ns, each rounded up to whole cycles of `per` steps. -/
def MovePhases.cycles (c : MovePhases) (per : Nat) : MovePhases :=
  let up (x : Phases) : Phases := { n1 := ceilDiv x.n1 per, n2 := ceilDiv x.n2 per, n3 := ceilDiv x.n3 per }
  { up := up c.up, cruise := ceilDiv c.cruise per, down := up c.down }

/-- Whether a segment from `r` keeps the limits: the jerk, and acceleration and velocity throughout it, the velocity being
greatest at the end or where the acceleration passes 0. -/
def segOk (r : PgRef) (vmax amax jmax : Int) (per : Nat) (s : Nat × Int) : Bool :=
  let y := { r with j := s.2 }.advance (s.1 * per)
  let turns := (decide (r.a > 0) && decide (y.a < 0)) || (decide (r.a < 0) && decide (y.a > 0))
  decide (mag s.2 ≤ jmax) && decide (mag y.a ≤ amax) && decide (mag y.v ≤ vmax) &&
  (!turns || decide (mag (r.v * s.2 - r.a * r.a) ≤ vmax * mag s.2))

/-- Whether segments from `r` keep the limits. -/
def planOk (vmax amax jmax : Int) (per : Nat) : PgRef → List (Nat × Int) → Bool
  | _, [] => true
  | r, s :: rest =>
    segOk r vmax amax jmax per s && planOk vmax amax jmax per ({ r with j := s.2 }.advance (s.1 * per)) rest

/-- The phases of a move over `d` that goes on at about the velocity it begins with. -/
def moveLevel (r : PgRef) (d amax jmax : Int) (per : Nat) : MovePhases :=
  let c : MovePhases := { up := ⟨1, 0, 1⟩, cruise := 0, down := phasesOf r.v 0 0 amax jmax per }
  let perCycle := shl (3 * r.v * per) 50
  if r.v = 0 then c else { c with cruise := (Int.tdiv (d - moveDisp c r r.v per) perCycle).toNat }

/-- Moves of one change to a peak velocity, a cruise at it and one change to rest: the time-optimal phases of the move in whole
cycles, those of `moveLevel` with up to two cycles more of cruise, and those of the continuous move with up to three cycles of its
cruise given up, each corrected until they keep the limits. -/
def moveDirect (r : PgRef) (d vmax amax jmax : Int) (per : Nat) : List (List (Nat × Int)) :=
  let c := (moveFirst r d vmax amax jmax 1).cycles per
  let l := moveLevel r d amax jmax per
  let starts := moveFirst r d vmax amax jmax per ::
    (List.range 3).map (fun k => { l with cruise := l.cruise + k }) ++
    (List.range (min 3 c.cruise + 1)).map (fun k => { c with cruise := c.cruise - k })
  starts.filterMap (fun c =>
    (moveKeep r d vmax amax jmax per 24 c).map (fun c => moveSegs c r (peakFor c r d per) per))

/-- Moves of `d` from `r` that begin with `m` cycles at the jerk `j`. -/
def moveAfter (r : PgRef) (d vmax amax jmax : Int) (per m : Nat) (j : Int) : List (List (Nat × Int)) :=
  let r0 := { r with p := 0 }
  let r1 := { r0 with j := j }.advance (m * per)
  (moveDirect { r1 with p := 0 } (d - r1.p) vmax amax jmax per).map (fun l => (m, j) :: l)

/-- The cycles of segments. -/
def segCycles (l : List (Nat × Int)) : Nat := (l.map (fun s => s.1)).foldl (· + ·) 0

/-- The shorter of two plans, the one so far where they are equally long. -/
def shorter (a : Option (List (Nat × Int))) (y : List (Nat × Int)) : Option (List (Nat × Int)) :=
  match a with
  | some x => if segCycles y < segCycles x then some y else some x
  | none => some y

/-- The shortest move that keeps the limits, of those that run directly, bring the acceleration to 0 first,
or begin with a few cycles at the greatest jerk. -/
def moveBest (r : PgRef) (d vmax amax jmax : Int) (per : Nat) : Option (List (Nat × Int)) :=
  let n := max 1 (cyclesFor (mag r.a) (jmax * per))
  let rest := accelDown r.a jmax per
  let all := moveDirect r d vmax amax jmax per ++ moveAfter r d vmax amax jmax per rest.1 rest.2 ++
    [-jmax, jmax].flatMap (fun j => [1, n, n + 1].flatMap (fun m => moveAfter r d vmax amax jmax per m j))
  (all.filter (planOk vmax amax jmax per r)).foldl shorter none

/-- A move of `d` from rest in four equal phases of `n` cycles, `n` doubled until it keeps the limits. -/
def moveSlow (d vmax amax jmax : Int) (per : Nat) : Nat → Nat → List (Nat × Int)
  | 0, _ => []
  | k + 1, n =>
    let c : MovePhases := { up := ⟨n, 0, n⟩, cruise := 0, down := ⟨n, 0, n⟩ }
    let l := moveSegs c default (peakFor c default d per) per
    if planOk vmax amax jmax per default l then l else moveSlow d vmax amax jmax per k (2 * n)

/-- A move of `d` from rest. -/
def moveRest (d vmax amax jmax : Int) (per : Nat) : List (Nat × Int) :=
  match moveBest default d vmax amax jmax per with
  | some l => l
  | none => moveSlow d vmax amax jmax per 64 1

/-- The displacement of segments from `r`, unreduced. -/
def dispOf (r : PgRef) (per : Nat) (l : List (Nat × Int)) : Int := wrapP ((runSegs { r with p := 0 } per l).p)

/-- The segments of a move from `r` over `d` (R177). Above VMAX, or bound to pass it, the plan first brings the velocity to it;
where no plan keeps the limits, it stops first and moves then from rest. -/
def moveTo (r : PgRef) (d vmax amax jmax : Int) (per : Nat) : List (Nat × Int) :=
  if d = 0 && r.v = 0 && r.a = 0 then []
  else match moveBest r d vmax amax jmax per with
  | some l => l
  | none =>
    let vz := r.v + fdiv (r.a * mag r.a) jmax
    let top := if vz < 0 then -vmax else vmax
    let pre := velSegs r top amax jmax per
    let above := if decide (mag r.v > vmax) || decide (mag vz > vmax) then
        (moveBest { p := 0, v := top, a := 0, j := 0 } (d - dispOf r per pre) vmax amax jmax per).map (fun l => pre ++ l)
      else none
    match above with
    | some l => l
    | none =>
      let st := velSegs r 0 amax jmax per
      st ++ moveRest (d - dispOf r per st) vmax amax jmax per

/-! ### Plans -/

/-- No plan. -/
def PgPlan.none : PgPlan := default

/-- A plan to velocity `vt` (R178, R187). -/
def planVel (r : PgRef) (vt amax jmax : Int) (per : Nat) : PgPlan :=
  { kind := 1, segs := velSegs r vt amax jmax per, endV := vt, endP := 0, vmax := 0, amax := amax, jmax := jmax
    per := per }

/-- A plan to rest at position `target` (R177). -/
def planMove (r : PgRef) (target vmax amax jmax : Int) (per : Nat) : PgPlan :=
  { kind := 2, segs := moveTo r (wrapP (target - r.p)) vmax amax jmax per, endV := 0, endP := target, vmax := vmax
    amax := amax, jmax := jmax, per := per }

/-- The plan anew from `r`, when the period has changed. -/
def PgPlan.again (pl : PgPlan) (r : PgRef) (per : Nat) : PgPlan :=
  if pl.per = per then pl
  else if pl.kind = 2 then planMove r pl.endP pl.vmax pl.amax pl.jmax per
  else if pl.kind = 1 then planVel r pl.endV pl.amax pl.jmax per
  else { pl with per := per }

/-- One cycle of a plan at its T0: the reference with the jerk of the coming cycle, the plan that is left, and
whether the plan has ended, the reference then being exactly where it ends. -/
def PgPlan.take (pl : PgPlan) (r : PgRef) : PgRef × PgPlan × Bool :=
  match pl.segs with
  | [] =>
    if pl.kind = 2 then ({ p := pl.endP, v := 0, a := 0, j := 0 }, .none, true)
    else if pl.kind = 1 then ({ r with v := pl.endV, a := 0, j := 0 }, .none, true)
    else ({ r with j := 0 }, pl, false)
  | (n, j) :: rest =>
    ({ r with j := j }, { pl with segs := if n ≤ 1 then rest else (n - 1, j) :: rest }, false)

end Sys2Proof.Machine
end

