-- ==== Sys2Proof/Machine/Profile.lean ====
section
/-! DEFINITION. The profile generator: set-points, commands, gearing, stops, drive mode, following error
(R170 to R194). -/

namespace Sys2Proof.Machine

/-- The PG's state for axis `a`. -/
def State.pgAx (s : State) (a : Nat) : PgAx := s.pg.ax.look a
/-- Replaces the PG's state for axis `a`. -/
def State.setPg (s : State) (a : Nat) (x : PgAx) : State := { s with pg := { s.pg with ax := s.pg.ax.set a x } }
/-- Gear group `n`. -/
def State.grp (s : State) (n : Nat) : PgGrp := s.pg.grp.look n
/-- Changes gear group `n`. -/
def State.onGrp (s : State) (n : Nat) (f : PgGrp → PgGrp) : State :=
  { s with pg := { s.pg with grp := s.pg.grp.set n (f (s.grp n)) } }

/-- T0 of the next cycle. -/
def nextT0 (s : State) : DT := s.at s.time.live.period

/-- Whether the PG forms a set-point for axis `a` (R170). -/
def pgForms (s : State) (a : Nat) : Bool := axisEnabled s a || fbIsActive s a

/-- The axes in whose word at offset `off` memory lists a byte, rising. -/
def wordAxes (s : State) (off : Nat) : List Nat :=
  ((s.mem.filter (fun c => decide (sramBase ≤ c.1) && decide (c.1 < sramBase + 0x100000) &&
    (c.1 - sramBase) % 0x800 / 8 = off / 8)).map (fun c => (c.1 - sramBase) / 0x800)).foldl nsAdd []

/-- The axes for which the PG forms set-points, rising: FB_STATUS holds ACTIVE only where its word is listed. -/
def pgAxes (s : State) : List Nat :=
  ((wordAxes s F.FB_STATUS_ACTIVE.adr).filter (fun a => pgForms s a)).foldl nsAdd (enabledAxes s)

/-- A master state in register formats as an internal reference. -/
def PgMaster.toRef (m : PgMaster) : PgRef := { p := toP m.p, v := toV m.v, a := toA m.a, j := toJ m.j }
/-- An internal reference in register formats. -/
def PgRef.toMaster (r : PgRef) : PgMaster := { p := ofP r.p, v := ofV r.v, a := ofA r.a, j := ofJ r.j }

/-! ### Tracked state and following error (R174, R186) -/

/-- The tracked reference at `t` (R174). -/
def trackRef (s : State) (a : Nat) (t : DT) : PgRef :=
  let tau := tauOf (dtDiff t (BitVec.ofNat 64 (s.word (axisBase a + 0x108))))
  let v := s.axi a 0x110
  let ac := s.axi a 0x118
  { p := toP (extrap2 (s.axi a 0x120) v ac tau), v := toV (addS v (mulG ac tau)), a := toA ac, j := 0 }

/-- |ERR_POS| in whole counts, at most 2^32 - 1 (R186). -/
def errCounts (s : State) (a : Nat) : Nat := min (2 ^ 32 - 1) (shr (mag (s.axi a 0x60)) 24).toNat

/-- The following error of axis `a` is still to be examined in this cycle (R186). -/
def feOpen (s : State) (a : Nat) : Bool :=
  axisEnabled s a && !axisFaulted s a && s.ax a F.AX_STATUS_CYCLE = s.cycN && (s.pgAx a).feSeen ≠ some s.cycN

/-- The following-error tests of one axis (R186): the warning level, then FE_RUN, both kept in PG_STATUS (R7), and with FE_RUN
at FE_CYCLES, of which 0 acts as 1, the fault state with cause 3 (Table 5.6). With FE_WARN or FE_LIMIT 0 the level or the count
keeps its last value (DESIGN CHOICE, notes/assumptions/43). -/
def feTest (s : State) (a : Nat) : State :=
  if feOpen s a then
    let e := errCounts s a
    let was := s.axb a F.PG_STATUS_FE_WARN
    let count := s.ax a F.PG_STATUS_FE_RUN
    let lim := s.ax a F.PG_FOLLOW_FE_LIMIT
    let wl := s.ax a F.PG_FOLLOW_FE_WARN
    let warn := if wl = 0 then was else decide (e ≥ wl)
    let run := if lim = 0 then count else if e ≥ lim then min 255 (count + 1) else 0
    let s' := (s.axPut a F.PG_STATUS_FE_WARN (b2n warn)).axPut a F.PG_STATUS_FE_RUN run
    let s' := if warn && !was then raiseAxis s' a 13 e else s'
    if lim ≠ 0 && run ≥ max 1 (s.ax a F.PG_FOLLOW_FE_CYCLES) then faultAxis s' a 3 else s'
  else s

/-- FOLLOWING is due for axis `a`: the cycle's TR is the next phase, and the tests of R186 bring FE_RUN to
FE_CYCLES. -/
def followingDue (s : State) (a : Nat) : Bool :=
  s.time.running && s.cyc.phase = 4 && s.enabled pPG && !s.pg.starting && feOpen s a && axisFaulted (feTest s a) a

/-- FOLLOWING of an axis (R186): its share of the coming TR's examination, which then passes it over. -/
def following (s : State) (a : Nat) : State :=
  if followingDue s a then
    let r := feTest s a
    r.setPg a { r.pgAx a with feSeen := some s.cycN }
  else s

/-! ### Commands (R175 to R178, R187, R188, R193) -/

/-- The position r1 of R124 at `t`: the interpolation of the set-point words, jerk included. -/
def spAt (s : State) (a : Nat) (t : DT) : Int :=
  extrap3 (s.axi a 0x180) (s.axi a 0x188) (s.axi a 0x190) (s.axi a 0x198)
    (tauOf (dtDiff t (BitVec.ofNat 64 (s.word (axisBase a + 0x1A0)))))

/-- The stop of an axis begins from its reference (R187): the new state, and whether it ended at once. -/
def beginStop (s : State) (a : Nat) (x : PgAx) (per : Nat) (fault : Bool) : PgAx × Bool :=
  let dec := s.axi a 0x1D8
  let j := s.axi a 0x1D0
  if dec ≤ 0 || j ≤ 0 then
    ({ x with mode := 1, plan := .none, ref := ⟨toP (spAt s a (nextT0 s)), 0, 0, 0⟩, stopFault := fault }, true)
  else
    ({ x with mode := 5, stopFault := fault, plan := planVel x.ref 0 (toA dec) (toJ j) per }, false)

/-- Whether a GO is taken at this TR (R175). -/
def goDue (s : State) (a : Nat) : Bool :=
  s.axb a F.PG_CTL_GO &&
  (!s.axb a F.PG_CTL_AT_CYCLE ||
    decide ((s.time.cycle + 1 - BitVec.ofNat 32 (s.ax a F.PG_CTL_CYCLE)).toInt ≥ 0))

/-- The command checks (Table 7.7): low byte of the reason, 0 when accepted. `begin_`: a stop or a fault of
the axis or its group begins at this TR; `running n`: group `n` is RUN after this TR's stops. -/
def goCheck (s : State) (a : Nat) (x : PgAx) (begin_ : Bool) (running : Nat → Bool) : Nat :=
  let mode := s.ax a F.PG_CTL_MODE
  let v := s.axi a 0x1C0
  let grouped := x.mode = 4 && !running x.group
  let n := s.ax a F.PG_CTL_GROUP
  firstReason
    [test (!axisEnabled s a) 0x10,
     test (begin_ || x.mode = 5 || axisFaulted s a || (grouped && mode ≠ 5)) 0x11,
     test (mode = 0 || mode ≥ 6) 0x12,
     test ((mode = 1 || mode = 2 || mode = 3) &&
       (decide (v ≤ 0) || decide (s.axi a 0x1C8 ≤ 0) || decide (s.axi a 0x1D0 ≤ 0) ||
        (mode = 3 && decide (mag (s.axi a 0x1B8) > v)))) 0x13,
     test (mode = 4 && !(s.gb (F.PG_GRP_CFG_EN n) && running n)) 0x14,
     test (mode = 4 && decide (s.axi a 0x1E0 ≤ 0)) 0x15]

/-- An accepted GO other than GEAR (R177, R178, R187): the state, and whether a stop ended at once. -/
def goTake (s : State) (a : Nat) (x : PgAx) (per : Nat) : PgAx × Bool :=
  let mode := s.ax a F.PG_CTL_MODE
  let v := toV (s.axi a 0x1C0)
  let ac := toA (s.axi a 0x1C8)
  let j := toJ (s.axi a 0x1D0)
  let t := s.axi a 0x1B8
  let x := { x with atTarget := false, reason := 0 }
  if mode = 1 then ({ x with mode := 1, plan := planVel x.ref 0 ac j per }, false)
  else if mode = 2 then ({ x with mode := 2, plan := planMove x.ref (toP t) v ac j per }, false)
  else if mode = 3 then ({ x with mode := 3, plan := planVel x.ref (toV t) ac j per }, false)
  else beginStop s a x per false

/-! ### Gearing (R179 to R183) -/

/-- The ratio steps over the coming cycle (R182): the step and ρ′. -/
def ratioStep (x : PgAx) (per : Nat) (run : Bool) : Int × Int :=
  let left := x.rTarget - x.rho
  if !run || left = 0 then (0, 0)
  else
    let st := mulG x.rRate (gainT per)
    if mag left ≤ st then (left, divG left (gainT per))
    else if left > 0 then (st, x.rRate) else (-st, -x.rRate)

/-- The set-point of a member with master state `m` (R181): velocity, acceleration and jerk words. -/
def gearWords (x : PgAx) (m : PgMaster) : Int × Int × Int :=
  (mulG m.v x.rho, addS (mulG m.a x.rho) (mulG m.v x.rhoDot),
   addS (mulG m.j x.rho) (sat64 (2 * mulG m.a x.rhoDot)))

/-- The increment of a member over a cycle of `per` steps against an internal master (R181), exactly. -/
def gearIntegral (x : PgAx) (r : PgRef) (per : Nat) : Int :=
  let t : Int := per
  4 * x.rho * (3 * r.v * t + 3 * r.a * t * t + r.j * t * t * t) +
  x.delta * (6 * r.v * t + 8 * r.a * t * t + 3 * r.j * t * t * t)

/-- The increment of a member against an axis master that moved by `dp` (R181), exactly. -/
def gearIncrement (x : PgAx) (dp : Int) : Int := shl (dp * (2 * x.rho + x.delta)) 41 * 3072000000000000000000

/-- The ratio at which an axis engages (R183). -/
def engageRatio (v vm target : Int) : Int :=
  if mag vm < 2 ^ 24 then target else sat64 (fdiv (shl v 48) vm)

/-- The state of an axis master at `t` (R179). -/
def axisMaster (s : State) (src a : Nat) (t : DT) : PgMaster :=
  if src = 1 then
    let tau := tauOf (dtDiff t (BitVec.ofNat 64 (s.word (axisBase a + 0x108))))
    let v := s.axi a 0x110
    let ac := s.axi a 0x118
    { p := extrap2 (s.axi a 0x100) v ac tau, v := addS v (mulG ac tau), a := ac, j := 0 }
  else
    let p := s.axi a 0x180
    let v := s.axi a 0x188
    let ac := s.axi a 0x190
    let j := s.axi a 0x198
    let d := dtDiff t (BitVec.ofNat 64 (s.word (axisBase a + 0x1A0)))
    if d = 0 then { p := p, v := v, a := ac, j := j }
    else
      let tau := tauOf d
      { p := extrap3 p v ac j tau, v := addS v (addS (mulG ac tau) (shr (mulG j (mulG tau tau)) 1))
        a := addS ac (mulG j tau), j := j }

/-- The master source of group `n`, and its axis. -/
def grpSrc (s : State) (n : Nat) : Nat := s.g (F.PG_GRP_CFG_MSRC n)
/-- MASTER_AXIS of group `n`. -/
def grpAxis (s : State) (n : Nat) : Nat := s.g (F.PG_GRP_CFG_MASTER_AXIS n)

/-- Whether the axis master of group `n` is lost (R189). -/
def masterLost (s : State) (n : Nat) : Bool :=
  let a := grpAxis s n
  (grpSrc s n = 1 && (fbIsLost s a || !fbIsActive s a)) || (grpSrc s n = 2 && !pgForms s a)

/-- An axis that was in GEAR at the last TR is so no more before its group's turn: it has been disabled, or enabled again, and
tracks or stops on its own from this TR on (R176, R180). -/
def pgLeft (s : State) (a : Nat) : Bool := !axisEnabled s a || (s.leAx a).pgFresh

/-- The members of group `n` at the last TR, rising. -/
def grpMembers (s : State) (n : Nat) : List Nat :=
  (s.pg.ax.filter (fun p => p.2.mode = 4 && p.2.group = n)).map (fun p => p.1)

/-- A fault of axis `a` is seen for the first time at this TR. -/
def newFault (s : State) (a : Nat) : Bool := axisFaulted s a && !(s.pgAx a).wasFault

/-- The group is RUN, or returns to RUN at the coming TR (R192). -/
def PgGrp.runs (g : PgGrp) : Bool := g.state = 1 || (g.state = 3 && g.restart)

/-- The cause with which group `n` begins to stop at this TR, 0 for none (R189). -/
def grpBegins (s : State) (n : Nat) : Nat :=
  let g := s.grp n
  if !g.runs then 0
  else if g.stopReq ≠ 0 then g.stopReq
  else if s.gb (F.PG_GRP_CFG_FAULT_STOP n) &&
      (grpMembers s n).any (fun a => axisEnabled s a && newFault s a && !(s.leAx a).pgFresh) then 2
  else if masterLost s n then 3 else 0

/-- A limit taken up only where it is positive (R179). -/
def takeUp (new old : Int) : Int := if new > 0 then new else old

/-- The internal master of group `n` over the cycle that ends (R179, R189): the group with its reference moved
to the next T0, and planned again where a virtual master's targets changed. -/
def grpAdvance (s : State) (n per next : Nat) : State :=
  let g := s.grp n
  if g.state = 0 then s
  else if g.state = 1 && grpSrc s n ≠ 0 then
    s.onGrp n (fun g => { g with stopDec := takeUp (s.gi (F.PG_GRP_STOP_DEC n)) g.stopDec
                                 vjerk := takeUp (s.gi (F.PG_GRP_VJERK n)) g.vjerk })
  else
    let r := g.ref.advance per
    if g.state = 1 then
      let vt := s.gi (F.PG_GRP_VTARGET n)
      let va := takeUp (s.gi (F.PG_GRP_VACC n)) g.vacc
      let vj := takeUp (s.gi (F.PG_GRP_VJERK n)) g.vjerk
      let again := g.start || vt ≠ g.vt || va ≠ g.vacc || vj ≠ g.vjerk
      let r := if g.start then { r with v := 0, a := 0, j := 0 } else r
      let pl := if again then planVel r (toV vt) (toA va) (toJ vj) next else g.plan.again r next
      let (r, pl, _) := pl.take r
      s.onGrp n (fun g => { g with
        ref := r, plan := pl, vt := vt, vacc := va, vjerk := vj, start := false
        stopDec := takeUp (s.gi (F.PG_GRP_STOP_DEC n)) g.stopDec })
    else
      let (r, pl, ended) := (g.plan.again r next).take r
      let s := s.onGrp n (fun g => { g with ref := r, plan := pl, state := if ended then 3 else g.state })
      if ended && g.state = 2 then raisePage s pPG 2 n else s

/-- Group `n` begins its stop with `cause`, from master state `m` (R189). -/
def grpStop (s : State) (n cause next : Nat) (r : PgRef) : State :=
  let g := s.grp n
  let pl := planVel r 0 (toA g.stopDec) (toJ g.vjerk) next
  let (r, pl, ended) := pl.take r
  let s := s.onGrp n (fun g => { g with
    state := if ended then 3 else 2, cause := cause, ref := r, plan := pl, stopReq := 0, restart := false })
  let s := raisePage s pPG 1 n
  if ended then raisePage s pPG 2 n else s

/-! ### Writing a set-point -/

/-- The drive mode of the set-point (R184); `x.dwell` are the cycles since the last change, this one included. -/
def driveMode (s : State) (a : Nat) (x : PgAx) (vel : Int) (groupStop : Bool) : PgAx :=
  if !axisEnabled s a then x
  else
    let up := s.ax a F.PG_DRIVE_DM_UP
    let down := s.ax a F.PG_DRIVE_DM_DOWN
    let dm := s.ax a F.PG_CTL_DM_MODE
    let m := mag vel
    let strong :=
      if x.mode = 5 || groupStop || axisFaulted s a then true
      else if dm = 1 then false
      else if dm = 2 then true
      else if decide (m ≥ shl (up : Int) 24) then true
      else if decide (m < shl ((min up down : Nat) : Int) 24) && x.dwell ≥ s.g F.PG_CFG_DM_DWELL then false
      else x.strong
    { x with strong := strong, dwell := if strong = x.strong then x.dwell else 0 }

/-- Writes the set-point and PG_STATUS of axis `a` (R170, R171); what the following-error tests keep in PG_STATUS, and its
reserved bit, stay as they stand (R7, R9). STOP_FAULT is 1 in mode STOPPING alone, and not for a member that follows a group stop
begun by a fault (R189 does not say: DESIGN CHOICE, notes/assumptions/43). -/
def pgWrite (s : State) (a : Nat) (x : PgAx) (words : Option (Int × Int × Int)) (groupStop : Bool) : State :=
  let (v, ac, j) := match words with | some w => w | none => (ofV x.ref.v, ofA x.ref.a, ofJ x.ref.j)
  let x := driveMode s a x v groupStop
  let x := { x with formed := true, wasOn := axisEnabled s a, wasFault := axisFaulted s a && axisEnabled s a }
  let s := ((s.axiPut a 0x180 (ofP x.ref.p)).axiPut a 0x188 v).axiPut a 0x190 ac
  let s := (s.axiPut a 0x198 j).setWord (axisBase a + 0x1A0) (nextT0 s).toNat
  let s := if x.mode = 4 then s.axiPut a 0x1E8 x.rho else s
  let st := (((s.cycN + 1) % 2 ^ 32) <<< 32) + (x.reason <<< 24) + (x.mode <<< 21) +
    ((if x.mode = 4 then x.group else 0) <<< 16) + (b2n (x.mode = 4 && x.rhoDot ≠ 0) <<< 6) +
    (b2n x.atTarget <<< 5) + (b2n groupStop <<< 4) + (b2n x.strong <<< 2) + (b2n (x.mode = 5 && x.stopFault) <<< 1) + 1
  let s := s.setWord (axisBase a + 0x1B0) (blend (s.word (axisBase a + 0x1B0)) st 0xFFFFFFFFFFFF0077)
  (s.setPg a x).onLe a (fun l => { l with pgFresh := false })

/-- An axis on its own plan takes one cycle of it and is written (R177, R187). -/
def pgPlanned (s : State) (a : Nat) (x : PgAx) (next : Nat) : State :=
  let (r, pl, ended) := (x.plan.again x.ref next).take x.ref
  let was := x.mode
  let x := { x with ref := r, plan := pl
                    mode := if ended && (was = 2 || was = 5) then 1 else was
                    atTarget := x.atTarget || (ended && was = 2) }
  let s := pgWrite s a x none false
  if ended && was = 2 then raiseAxis s a 10 0
  else if ended && was = 5 then raiseAxis s a 11 0 else s

/-- A refused GO (R175). AT_TARGET stays as it is (DESIGN CHOICE, notes/assumptions/43). -/
def goRefuse (s : State) (a : Nat) (x : PgAx) (why : Nat) : State × PgAx :=
  (raiseAxis (s.axPut a F.PG_CTL_GO 0) a 9 why, { x with reason := why })

/-- What an axis does at this TR after its commands: on its own plan, a stop that ended at once, or geared
(newly or not). -/
inductive PgNext where
  | plan (x : PgAx)
  | ended (x : PgAx)
  | gear (x : PgAx) (fresh : Bool)
deriving DecidableEq, Repr

/-- The commands of an enabled axis at this TR (R175, R176, R187, R188, R190): `x.ref` is its reference at the
next T0; `begun`: a stop of the group it follows begins at this TR. -/
def pgDecide (s : State) (a : Nat) (x : PgAx) (begun : Bool) (running : Nat → Bool) (next : Nat) :
    State × PgNext :=
  let stay (x : PgAx) : PgNext := if x.mode = 4 then .gear x false else .plan x
  let wrap (r : PgAx × Bool) : PgNext := if r.2 then .ended r.1 else .plan r.1
  let fresh := (s.leAx a).pgFresh || x.mode = 0
  let flt := newFault s a
  let go := goDue s a
  if fresh then
    let (s, x) := if go then goRefuse s a x 0x11 else (s, x)
    (s, wrap (beginStop s a { x with atTarget := false } next (axisFaulted s a)))
  else if flt && x.mode ≠ 5 && (x.mode ≠ 4 || (!begun && running x.group)) then
    let (s, x) := if go then goRefuse s a x 0x11 else (s, x)
    (s, wrap (beginStop s a x next true))
  else if go then
    let why := goCheck s a x (begun || flt) running
    if why ≠ 0 then
      let (s, x) := goRefuse s a x why
      (s, stay x)
    else
      let s := s.axPut a F.PG_CTL_GO 0
      if s.ax a F.PG_CTL_MODE = 4 then
        let n := s.ax a F.PG_CTL_GROUP
        let same := x.mode = 4 && x.group = n
        let x := { x with reason := 0, atTarget := false, rTarget := s.axi a 0x1B8, rRate := s.axi a 0x1E0 }
        if same then (s, .gear x false)
        else (s, .gear { x with mode := 4, group := n, plan := .none } true)
      else (s, wrap (goTake s a x next))
  else (s, stay x)

/-! ### One TR (R170, R171, R173, R180) -/

/-- The last set-point after ENABLE was cleared (R173), its drive mode that of a set-point at rest (R184). The reference position of a
GEAR member at the next T0 is its own reference moved on, and not the master's increment of R181 (R173 does not say: DESIGN CHOICE,
notes/assumptions/43). -/
def pgFinal (s : State) : State :=
  let go (a : Nat) (s : State) : State :=
    let x := s.pgAx a
    if x.formed then
      let x := driveMode s a x 0 (s.axb a F.PG_STATUS_GROUP_STOP)
      let r := if x.mode = 0 then trackRef s a (nextT0 s) else x.ref.advance s.time.live.period
      let s := ((s.axiPut a 0x180 (ofP r.p)).axiPut a 0x188 0).axiPut a 0x190 0
      let s := (s.axiPut a 0x198 0).setWord (axisBase a + 0x1A0) (nextT0 s).toNat
      let s := (s.axPut a F.PG_STATUS_CYCLE ((s.cycN + 1) % 2 ^ 32)).axPut a F.PG_STATUS_STRONG (b2n x.strong)
      s.setPg a { x with ref := { r with v := 0, a := 0, j := 0 }, plan := .none, formed := false }
    else s
  let s := forEach go (s.pg.ax.map (fun p => p.1)) s
  { s with pg := { s.pg with ending := false } }

/-- The live mode of an axis that is in no group any more (R174): PG_STATUS shows `mode`, and no group, ramp or group stop. -/
def pgShowMode (s : State) (a mode : Nat) : State :=
  let w := s.word (axisBase a + 0x1B0)
  s.setWord (axisBase a + 0x1B0) (setBits (setBits (setBits (setBits w 21 3 mode) 16 5 0) 6 1 0) 4 1 0)

/-- The first TR after ENABLE was set: enabled axes hold, the others track (R173), also those for which no set-point is
formed. -/
def pgStart (s : State) : State :=
  let t1 := nextT0 s
  let go (a : Nat) (s : State) : State :=
    let x := s.pgAx a
    if axisEnabled s a then
      -- `pgTr` moves the reference on by one cycle; at rest that changes nothing
      (s.setPg a { x with mode := 1, ref := ⟨toP (spAt s a t1), 0, 0, 0⟩, plan := .none, formed := true, wasOn := true
                          wasFault := false }).onLe a (fun l => { l with pgFresh := false })
    else
      let s := s.setPg a { x with mode := 0, formed := false, plan := .none, stopFault := false }
      if pgForms s a || s.ax a F.PG_STATUS_MODE = 0 then s else pgShowMode s a 0
  let s := forEach go ((s.pg.ax.map (fun p => p.1)).foldl nsAdd (pgAxes s)) s
  { s with pg := { s.pg with starting := false } }

/-- An axis that is not in GEAR at this TR (R174 to R178): written, or left to its group. -/
def pgAlone (s : State) (a : Nat) (running : Nat → Bool) (next : Nat) : State :=
  let x := s.pgAx a
  if !axisEnabled s a then
    let (s, x) := if goDue s a then goRefuse s a x 0x10 else (s, x)
    pgWrite s a { x with mode := 0, plan := .none, ref := trackRef s a (nextT0 s), stopFault := false } none false
  else
    let r := if x.formed && x.mode ≠ 0 && !(s.leAx a).pgFresh then x.ref.advance s.time.live.period else trackRef s a (nextT0 s)
    let (s, d) := pgDecide s a { x with ref := r } false running next
    match d with
    | .plan x => pgPlanned s a x next
    | .ended x => raiseAxis (raiseAxis (pgWrite s a x none false) a 12 0) a 11 0
    | .gear x _ => s.setPg a x

/-- A geared axis is written: its ratio steps and its set-point follows the master state `m` (R181, R182). -/
def pgGeared (s : State) (a : Nat) (x : PgAx) (m : PgMaster) (run : Bool) (next : Nat) : State :=
  let (d, rd) := ratioStep x next run
  let x := { x with delta := d, rhoDot := rd }
  let w := gearWords x m
  pgWrite s a { x with ref := { x.ref with v := toV w.1, a := toA w.2.1, j := toJ w.2.2 } } (some w) (!run)

/-- An axis engages with a group whose master state is `m` (R183). -/
def pgEngage (s : State) (a : Nat) (x : PgAx) (m : PgMaster) (run : Bool) (next : Nat) : State :=
  pgGeared s a { x with rho := engageRatio (ofV x.ref.v) m.v x.rTarget } m run next

/-- One member at this TR. `inc`: its increment over the cycle that ends; `m`: the master at the next T0; `run`:
the group is RUN; `joins`: the axis engages at this TR (R181 to R183). -/
def pgMember (s : State) (a n : Nat) (inc : PgAx → Int) (m : PgMaster) (begun : Bool) (running : Nat → Bool)
    (joins : Bool) (next : Nat) : State :=
  let x := s.pgAx a
  if joins then pgEngage s a x m (running n) next
  else
    let x := { x with ref := { x.ref with p := wrapP (x.ref.p + inc x) }, rho := x.rho + x.delta }
    let w := gearWords x m
    let x := { x with ref := { x.ref with v := toV w.1, a := toA w.2.1, j := toJ w.2.2 } }
    let (s, d) := pgDecide s a x begun running next
    match d with
    | .plan x => pgPlanned s a x next
    | .ended x => raiseAxis (raiseAxis (pgWrite s a x none false) a 12 0) a 11 0
    | .gear x fresh =>
      if !fresh then pgGeared s a x m (running n) next
      else if x.group < n then pgEngage s a x (s.grp x.group).last (running x.group) next
      else s.setPg a x   -- the later group engages it

/-- A STOPPED group whose EN was cleared is IDLE: EN reads 0, and its members hold (R192). With the page's ENABLE at 0 the axis
records stay as they are (R173). The loss of its master lasts on (R189). -/
def grpClose (s : State) (n : Nat) : State :=
  let s := s.put (F.PG_GRP_CFG_EN n) 0
  let s := forEach (fun a s =>
    let x := s.pgAx a
    let s := s.setPg a { x with mode := 1, plan := .none, ref := { x.ref with v := 0, a := 0, j := 0 } }
    if s.enabled pPG then pgShowMode s a 1 else s)
    (grpMembers s n) s
  let s := s.onGrp n (fun g => { g with state := 0, closing := false })
  s.setReg (F.PG_GRP_STATE n).adr (setBits (s.reg (F.PG_GRP_STATE n).adr) 0 3 0)

/-- The loss of the axis master of group `n` at this TR, whatever the state of the group (R189): MASTER_LOST is raised when it
is found, and STATE shows it. -/
def grpLost (s : State) (n : Nat) : State :=
  let lost := masterLost s n
  let was := (s.grp n).lost
  if lost = was then s
  else
    let s := if lost then raisePage s pPG 3 n else s
    (s.onGrp n (fun g => { g with lost := lost })).setReg (F.PG_GRP_STATE n).adr
      (setBits (s.reg (F.PG_GRP_STATE n).adr) 3 1 (b2n lost))

/-- Group `n` at this TR: its master, its stop, its members (R179, R181, R189, R192). `old` is the group before
this TR and `cause` the cause with which it begins to stop. -/
def pgGroup (s : State) (n : Nat) (old : PgGrp) (cause : Nat) (members joining : List Nat)
    (running : Nat → Bool) (next : Nat) : State :=
  let s := grpLost s n
  if old.state = 0 then s
  else
    let per := s.time.live.period
    let src := grpSrc s n
    let t1 := nextT0 s
    let inner := src = 0 || old.state ≠ 1
    let lost := (s.grp n).lost
    let meas : PgMaster :=
      if src = 0 then (s.grp n).ref.toMaster
      else if lost then (old.last.toRef.advance per).toMaster else axisMaster s src (grpAxis s n) t1
    let dp := if old.hasLast && !inner then wrap64 (meas.p - old.last.p) else 0
    let inc (x : PgAx) : Int := if inner then gearIntegral x old.ref per else gearIncrement x dp
    -- stop, restart
    let s := if cause ≠ 0 then grpStop s n cause next (if src = 0 then (s.grp n).ref else meas.toRef) else s
    let restarted := old.restart && old.state = 3 && cause = 0
    let s := if restarted then
        let s := s.onGrp n (fun g => { g with
          state := 1, cause := 0, restart := false, hasLast := false, start := false
          vacc := if src = 0 then takeUp (s.gi (F.PG_GRP_VACC n)) g.vacc else g.vacc
          vjerk := takeUp (s.gi (F.PG_GRP_VJERK n)) g.vjerk
          stopDec := takeUp (s.gi (F.PG_GRP_STOP_DEC n)) g.stopDec })
        if src = 0 then
          s.onGrp n (fun g =>
            let vt := s.gi (F.PG_GRP_VTARGET n)
            let r := { g.ref with v := 0, a := 0, j := 0 }
            let (r, pl, _) := (planVel r (toV vt) (toA g.vacc) (toJ g.vjerk) next).take r
            { g with ref := r, plan := pl, vt := vt })
        else s
      else s
    let g := s.grp n
    let run := g.state = 1
    let m : PgMaster := if run && src ≠ 0 then meas else g.ref.toMaster
    let running' (k : Nat) : Bool := if k = n then run else running k
    let s := s.onGrp n (fun g => { g with last := m, hasLast := true })
    let all := (members ++ joining).foldl nsAdd []
    let s := forEach (fun a s => pgMember s a n inc m (cause ≠ 0) running' (joining.contains a) next) all s
    -- EN cleared and the group STOPPED (R192)
    let g := s.grp n
    let s := if g.closing && g.state = 3 then grpClose s n else s
    let g := s.grp n
    let s := s.puti (F.PG_GRP_VEL n) m.v
    s.setReg (F.PG_GRP_STATE n).adr
      ((((s.cycN + 1) % 2 ^ 32) <<< 32) + (g.cause <<< 8) + (b2n g.lost <<< 3) + g.state)

/-- The axes whose PG_CTL holds a bit, rising. -/
def goAxes (s : State) : List Nat := wordAxes s 0x1A8

/-- A GO of an axis for which no set-point is formed is refused (R175, R176). -/
def pgIdleGo (s : State) (a : Nat) : State :=
  if !pgForms s a && goDue s a then
    let (s, x) := goRefuse s a (s.pgAx a) 0x10
    (s.setPg a x).setWord (axisBase a + 0x1B0) (setBits (s.word (axisBase a + 0x1B0)) 24 8 0x10)
  else s

/-- TR of the PG; `next` is the period of the next cycle (R170, R180). Cycles count for DM_DWELL with the page off too (R184).
The following error is examined before the commands, so that a FOLLOWING fault begins its stop at this TR (DESIGN CHOICE,
notes/assumptions/43). -/
def pgTr (s : State) (next : Nat) : State :=
  let s := { s with pg := { s.pg with ax := s.pg.ax.map (fun p => (p.1, { p.2 with dwell := min 65535 (p.2.dwell + 1) })) } }
  let s := if s.pg.ending then pgFinal s else s
  if !s.enabled pPG then s
  else
    let s := if s.pg.starting then pgStart s else s
    let per := s.time.live.period
    let axes := pgAxes s
    let s := forEach (fun a s => feTest (s.noteReads 0x44 (axisBase a + 0x180) 16) a) axes s
    -- axes for which no set-point is formed any more
    let s := forEach (fun a s =>
      let x := s.pgAx a
      if x.formed && !pgForms s a then
        let s := pgShowMode (s.setPg a { x with formed := false, mode := 0, plan := .none, stopFault := false }) a 0
        s.setWord (axisBase a + 0x1B0) (setBits (s.word (axisBase a + 0x1B0)) 0 2 0)
      else s) (s.pg.ax.map (fun p => p.1)) s
    let s := forEach (fun a s => pgIdleGo s a) (goAxes s) s
    let groups := List.range 32
    let old := s.pg.grp
    let causes : Tab Nat := groups.foldl (fun t n => t.set n (grpBegins s n)) []
    let members : Tab (List Nat) := groups.foldl (fun t n => t.set n ((grpMembers s n).filter (fun a => !pgLeft s a))) []
    let running (n : Nat) : Bool := (old.look n).runs && causes.look n = 0
    let s := forEach (fun n s => grpAdvance s n per next) groups s
    let alone := axes.filter (fun a => (s.pgAx a).mode ≠ 4 || pgLeft s a)
    let s := forEach (fun a s => pgAlone s a running next) alone s
    forEach (fun n s =>
      let joining := (grpMembers s n).filter (fun a => !(members.look n).contains a)
      pgGroup s n (old.look n) (causes.look n) ((members.look n).filter (fun a => pgForms s a)) joining running next)
      groups s

/-! ### Page, groups, rebase (R173, R189, R191, R192) -/

/-- The PG check at ENABLE. -/
def pgCheck (s : State) : Nat := test (s.g F.PG_CFG_DM_DWELL > 4096) 0x0401

/-- The group checks at EN; `v` is the value written to PG_GRPn_CFG (Table 7.7). -/
def groupCheck (s : State) (n v : Nat) : Nat :=
  let src := getBits v 59 2
  let a := getBits v 32 9
  firstReason
    [test (src = 3 || (src = 1 && !fbIsActive s a) ||
       (src = 2 && !pgForms s a)) 0x0420,
     test (decide (s.gi (F.PG_GRP_VACC n) ≤ 0) || decide (s.gi (F.PG_GRP_VJERK n) ≤ 0) ||
       decide (s.gi (F.PG_GRP_STOP_DEC n) ≤ 0)) 0x0421]

/-- A group is enabled (R192). -/
def grpEnable (s : State) (n : Nat) : State :=
  let s := s.put (F.PG_GRP_CFG_EN n) 1
  let s := s.onGrp n (fun g => { (default : PgGrp) with
    state := 1, start := true, lost := g.lost
    vt := s.gi (F.PG_GRP_VTARGET n), vacc := s.gi (F.PG_GRP_VACC n), vjerk := s.gi (F.PG_GRP_VJERK n)
    stopDec := s.gi (F.PG_GRP_STOP_DEC n) })
  s.setReg (F.PG_GRP_STATE n).adr (1 + (b2n (s.grp n).lost <<< 3))

/-- A stop of group `n` is requested for the next TR (R189, R190). -/
def grpRequest (s : State) (n cause : Nat) : State :=
  let g := s.grp n
  if g.runs && g.stopReq = 0 then s.onGrp n (fun g => { g with stopReq := cause }) else s

/-- EN of group `n` is cleared (R192): at once where the group is IDLE or STOPPED. -/
def grpDisable (s : State) (n : Nat) : State :=
  let g := s.grp n
  if g.state = 0 then s.put (F.PG_GRP_CFG_EN n) 0
  else if g.state = 3 && !g.restart then grpClose s n
  else (grpRequest s n 6).onGrp n (fun g => { g with closing := true })

/-- The checks of RESTART (Table 7.7). -/
def restartCheck (s : State) (n : Nat) : Nat :=
  firstReason
    [test (grpSrc s n ≠ 0 && decide (mag (s.axi (grpAxis s n) 0x110) ≥ 1000 * 2 ^ 24)) 0x0422,
     test ((s.grp n).state ≠ 3) 0x0423]

/-- RESTART is taken at the next TR (R192). -/
def grpRestart (s : State) (n : Nat) : State := s.onGrp n (fun g => { g with restart := true })

/-- The PG page is enabled, or its ENABLE cleared (R173). -/
def pgEnable (s : State) : State := { s with pg := { s.pg with starting := true } }
/-- ENABLE cleared (R173). -/
def pgDisable (s : State) : State := { s with pg := { s.pg with starting := false, ending := true } }

/-- The PG's share of a rebase by `n` Q40.24 units (R191); while its page is not enabled it writes nothing (R173). -/
def pgRebase (s : State) (a : Nat) (n : Int) : State :=
  let x := s.pgAx a
  let s := if s.enabled pPG then s.axiPut a 0x180 (wrap64 (s.axi a 0x180 - n)) else s
  let s := s.setPg a { x with
    ref := { x.ref with p := wrapP (x.ref.p - toP n) }
    plan := if x.plan.kind = 2 then { x.plan with endP := wrapP (x.plan.endP - toP n) } else x.plan }
  forEach (fun k s =>
    if grpSrc s k ≠ 0 && grpAxis s k = a then
      s.onGrp k (fun g => { g with last := { g.last with p := wrap64 (g.last.p - n) } })
    else s) (List.range 32) s

/-- STATE of the PG page. -/
def pgState (s : State) : Nat :=
  let g := (List.range 32).map (fun n => (n, s.grp n))
  let ax := s.pg.ax
  let warn := (wordAxes s F.PG_STATUS.adr).any (fun a => s.axb a F.PG_STATUS_FE_WARN)
  ((g.map (fun p => b2n (p.2.state ≥ 2) <<< p.1)).sum <<< 32) + (b2n warn <<< 2) +
  (b2n (g.any (fun p => p.2.lost)) <<< 1) + b2n (ax.any (fun p => p.2.mode = 5))

end Sys2Proof.Machine
end

