-- ==== Sys2Proof/Machine/Guardian.lean ====
section
/-! DEFINITION. The receive tests and the ingress guardian, muting, delays, claims, breaks and the wrong epoch
(R198, R206, R208, R209, R215 to R218, R230 to R239, R246, R247). -/

namespace Sys2Proof.Machine

/-! ### Receive tests (R198) -/

/-- What the receive side does with a frame: the state with its counts, and whether the frame goes on. -/
def fpReceive (s : State) (p : Nat) (h : FrameHdr) : Bool × State :=
  if !portOn s p then (false, s)
  else
    let s := s.onPort p (fun q => { q with rx := q.rx + 1 })
    let bad (s : State) : State := s.onPort p (fun q => { q with bad := q.bad + 1 })
    if h.full then
      (false, raisePage (s.onPort p (fun q => { q with fullCount := q.fullCount + 1 })) (pFP p) 10 0)
    else if !h.fcsOk || h.size < 64 || h.size > 4096 then (false, bad s)
    else if h.etherType ≠ s.g (F.FP_LINKCFG_ETHERTYPE p) || h.tagged then
      (false, s.onPort p (fun q => { q with other := q.other + 1 }))
    else if h.version ≠ 1 || h.seg ≠ p || h.type = 0 || h.type > 6 || h.size ≠ max 64 (34 + h.length) then
      (false, bad s)
    else (true, s)

/-! ### Discards (R230 to R233) -/

/-- Causes of a discard (Table 9.3). -/
inductive Cause where
  | noslot | muted | epoch | window | oversize
deriving DecidableEq, Repr

/-- A discarded frame is counted (R230, R232, R233); `src` is bound when the node's own counts move. -/
def guardDrop (s : State) (p src : Nat) (c : Cause) : State :=
  let bound := src < 32 && s.gb (F.FP_GNODE_STATE_BOUND p src)
  let s := s.onPort p (fun q => match c with
    | .noslot => { q with noslot := q.noslot + 1 }
    | .muted => { q with muted := q.muted + 1 }
    | .epoch => { q with epoch := q.epoch + 1 }
    | .window => { q with window := q.window + 1 }
    | .oversize => { q with oversize := q.oversize + 1 })
  if !bound then s
  else
    let inc (f : Fld) (s : State) : State := s.put f (satInc 32 (s.g f))
    let s := match c with
      | .window => inc (F.FP_GNODE_CNTA_WINDOW___OTHER p src) s
      | .epoch => inc (F.FP_GNODE_CNTB_MISSED___EPOCH p src) s
      | .muted => s
      | _ => inc (F.FP_GNODE_CNTB_WINDOW___OTHER p src) s
    match c with
    | .muted => s
    | .epoch => s.onNode p src (fun n => { n with epochBad := true })
    | _ =>
      let s := s.onNode p src (fun n => { n with now := n.now + 1 })
      if (s.port p).faultTold then s
      else raisePage (s.onPort p (fun q => { q with faultTold := true })) (pFP p) 13 src

/-! ### Windows (R225, Table 9.3) -/

/-- An instant after T0, in fifths of a DT unit. -/
def after5 (s : State) (d : DT) : Int := 5 * dtDiff d s.time.t0

/-- Whether `d` lies in the spare window of an entry (R225). -/
def inSpareWindow (s : State) (p : Nat) (e : Slot) (d : DT) : Bool :=
  let g : Int := ns5 (s.g (F.FP_SLOTCFG_GUARD p))
  let x := after5 s d
  decide ((e.start5 : Int) - g ≤ x) && decide (x ≤ (e.start5 : Int) + 2 * reach5 s p + g)

/-- Whether a delay has been measured: DELAY of this end is not 0. -/
def delayKnown (s : State) (p j : Nat) : Bool := nodeDelay s p j (ownEnd s p) ≠ 0

/-- A grant whose winning cycle this is (R238). -/
def grantNow (s : State) (p : Nat) (q : FpClaim → Bool) : Option FpClaim :=
  (s.port p).grants.find? (fun g => g.cycle = s.time.cycle && q g)

/-- An instant of this unit's DT in the DT of the active, in which frames and T0 are stamped (R209, R388). -/
def activeDt (s : State) (d : DT) : DT := dtAdd d (-(mapOff s d))

/-- Whether a frame's delimiter and TX_DT fit an entry (step 7); TX_DT is in the DT of the active. At end B a node whose DELAY_B has not been
measured is held to the spare window (notes/assumptions/22). -/
def fitsSlot (s : State) (p : Nat) (e : Slot) (h : FrameHdr) (stamp : DT) : Bool :=
  let g : Int := ns5 (s.g (F.FP_SLOTCFG_GUARD p))
  if (grantNow s p (fun c => c.slot = e.k)).isSome then inSpareWindow s p e stamp
  else
    let tx := toS 48 (ofS 48 ((h.txDt : Int) - (activeDt s s.time.t0).toNat))
    let dev := 5 * tx - (e.start5 : Int)
    let txOk := decide ((if dev < 0 then -dev else dev) ≤ g)
    let d := after5 s stamp - ((e.start5 : Int) + 5 * nodeDelay s p e.node (ownEnd s p))
    txOk && (if ownEnd s p = 1 && !delayKnown s p e.node then inSpareWindow s p e stamp
             else decide ((if d < 0 then -d else d) ≤ g))

/-! ### The guardian (Table 9.3) -/

/-- A frame that is not slot-checked passes the guardian. -/
def passFrame (s : State) (p : Nat) : State := s.onPort p (fun q => { q with accept := q.accept + 1 })

/-- The verdict on an UPLINK or SENSOR frame: the state with its counts, and the slot it was accepted in. -/
def guardFrame (s : State) (p : Nat) (h : FrameHdr) (stamp : DT) (seq : Nat) : Option Nat × State :=
  let j := h.src
  let drop (c : Cause) : Option Nat × State := (none, guardDrop s p j c)
  let prov := h.type = 2 && (grantNow s p (fun g => g.node = j)).isSome
  if h.src = 0xFF then (none, if fromFarHead s p h then passFrame s p else guardDrop s p j .noslot)
  else if !(j < 32 && (s.gb (F.FP_GNODE_STATE_BOUND p j) || prov)) then drop .noslot
  else if s.gb (F.FP_GNODE_STATE_MUTED p j) then drop .muted
  else if h.epoch ≠ s.g F.FP_EPOCH_STATE_CURRENT % 256 then drop .epoch
  else
    let s := s.onNode p j (fun n => { n with epochOk := true })
    let drop (c : Cause) : Option Nat × State := (none, guardDrop s p j c)
    let kind := if h.type = 2 then 1 else 2
    let l := (slotsOf s p (liveBank s p)).filter (fun e => e.kind = kind && e.node = j)
    match if h.cycle = s.cycN then l.find? (fun e => fitsSlot s p e h stamp) else none with
    | none => drop .window
    | some e =>
      if (s.port p).accepted.any (fun a => a.1 = h.type && a.2.1 = j && a.2.2.1 = e.k) then drop .noslot
      else if h.size > e.len then drop .oversize
      else (some e.k, s.onPort p (fun q => { q with
        accept := q.accept + 1, accepted := q.accepted ++ [(h.type, j, e.k, seq)] }))

/-- The frames accepted in the cycle `c`, the current one or the one before (R206). -/
def acceptedIn (s : State) (p c : Nat) : List (Nat × Nat × Nat × Nat) :=
  if c = s.cycN then (s.port p).accepted
  else if c = (s.time.cycle - 1).toNat then (s.port p).acceptedLast
  else []

/-- Whether an accepted copy of the frame has been passed on already (R206). -/
def isCopy (s : State) (p : Nat) (h : FrameHdr) (seq : Nat) : Bool :=
  (acceptedIn s p h.cycle).any (fun a => a.1 = h.type && a.2.1 = h.src && (h.type = 2 || a.2.2.2 = seq))

/-! ### An accepted UPLINK (R203, R208, R209, R215, R216, R243) -/

/-- What STATUS tells (Table 8.6): bits 0 P_UP, 1 Q_UP, 5 TIMED_OUT. -/
def noteStatus (s : State) (p j : Nat) (b : UplinkBody) : State :=
  let old := s.g (F.FP_NODE_STATE_STATUS p j)
  let n := s.node p j
  let fell := (n.pUp && !bit b.status 0) || (n.qUp && !bit b.status 1)
  let s := (s.put (F.FP_NODE_STATE_STATUS p j) b.status).put (F.FP_NODE_STATE_ACK_EPOCH p j) b.ackEpoch
  let s := s.onNode p j (fun n => { n with
    pUp := bit b.status 0, qUp := bit b.status 1
    ack := if epochPending s then some b.ackEpoch else n.ack })
  let s := if fell && s.g (F.FP_STATE_TOPO p) = 2 then s.onPort p (fun q => { q with fell := true }) else s
  if bit b.status 5 && !bit old 5 then raisePage s (pFP p) 9 j else s

/-- Adds a delay value, doubled, to the last 64 of node `j` (R208, R209). -/
def addDelay (s : State) (p j : Nat) (v : Int) : State :=
  s.onNode p j (fun n => { n with rts := (v :: n.rts).take 64 })

/-- The delay value of an UPLINK accepted at this unit's end (R208, R209). -/
def uplinkDelay (s : State) (p : Nat) (h : FrameHdr) (b : UplinkBody) (stamp : DT) : State :=
  let j := h.src
  if bit b.status 3 || !bit b.status 2 then s
  else if s.active then
    match (s.port p).lastTr with
    | some (c, tr) =>
      if c + 1 ≠ s.time.cycle then s
      else
        let d : Int := nodeDelay s p j (ownEnd s p)
        let off := toS 48 (ofS 48 ((b.dlRx : Int) - d - tr.toNat))
        if (if off < 0 then -off else off) * 2 > ((s.time.live.period * stepUnits : Nat) : Int) then s
        else
          let rt := toS 48 (ofS 48 ((stamp.toNat : Int) - tr.toNat)) -
                    toS 48 (ofS 48 ((h.txDt : Int) - b.dlRx))
          let err := toNs (fdiv rt 2 - d)
          addDelay (s.put (F.FP_NODE_STATE_ARRIVAL_ERR p j) (ofS 16 (satS 16 err))) p j rt
    | none => s
  else
    -- one way, in the active's DT (R209)
    let v := toS 48 (ofS 48 (((activeDt s stamp).toNat : Int) - h.txDt))
    let s := addDelay s p j (2 * v)
    if delayKnown s p j then s else s.put (nodeDelayFld p j (ownEnd s p)) (ofS 32 v)

/-- Relay is carried: the segment is SPLIT, and the cycle that declared the break has ended (R217, R218); a SILENT unit relays
nothing (R399). -/
def relayOn (s : State) (p : Nat) : Bool :=
  s.g (F.FP_STATE_TOPO p) = 3 && !(s.port p).brokeNow && s.tw.link && s.tw.role ≠ 5

/-- In SPLIT node `j` lies on this unit's side of the break (R215, R219). -/
def ownSide (s : State) (p j : Nat) : Bool :=
  let hi := s.g (F.FP_STATE_BREAK_HI p)
  if ownEnd s p = 0 then j < hi else j ≥ hi

/-- In SPLIT an accepted frame of node `j` that the other unit cannot receive is forwarded to it (R216): it accepted no UPLINK of the
node by the last exchange of bitmaps (DEDUCED, notes/assumptions/39). -/
def relayOut (s : State) (p j : Nat) (b : RelayBody) : State :=
  if relayOn s p && !bit (s.port p).farSeen j then
    { s.onPort p (fun q => { q with relayed := q.relayed + 1 }) with out := s.out ++ [.relay p b] }
  else s

/-- An UPLINK arrives at field port `p` (R198, R203, R206, R230). -/
def uplinkReceived (s : State) (p : Nat) (h : FrameHdr) (b : UplinkBody) : State :=
  match fpReceive s p h with
  | (false, s) => s
  | (true, s) =>
    let copy := isCopy s p h 0
    let stamp := ingressStamp s p h.capture
    match guardFrame s p h stamp 0 with
    | (none, s) => s
    | (some _, s) =>
      if copy then s
      else
        let s := uplinkDelay (noteStatus s p h.src b) p h b stamp
        relayOut (fbUplink s p h.src b.recs) p h.src (.uplink h b)

/-- An ANNOUNCE of a numbered node reaches the standby at end B before a schedule is committed: DELAY_B is the mean over 16 of
them (R457). -/
def announceAtEndB (s : State) (p : Nat) (h : FrameHdr) : State :=
  let v := toS 48 (ofS 48 (((activeDt s (ingressStamp s p h.capture)).toNat : Int) - h.txDt))
  let l := v :: (s.node p h.src).anns
  if l.length < 16 then s.onNode p h.src (fun n => { n with anns := l })
  else (s.onNode p h.src (fun n => { n with anns := [] })).put (nodeDelayFld p h.src 1) (ofS 32 (fdiv (l.foldl (· + ·) 0) 16))

/-- An ANNOUNCE arrives: steps 1 and 2 of Table 9.3, then the discovery logic (R198, R212, R230). The standby takes the copies
of R457 though it runs no discovery. -/
def announceReceived (s : State) (p : Nat) (h : FrameHdr) (b : AnnounceBody) : State :=
  match fpReceive s p h with
  | (false, s) => s
  | (true, s) =>
    if h.src = 0xFF && !fromFarHead s p h then guardDrop s p h.src .noslot
    else if s.standby && h.src < 32 && !scheduled s p then announceAtEndB (passFrame s p) p h
    else if segState s p ≠ 1 && segState s p ≠ 2 then guardDrop s p h.src .noslot
    else discAnnounce (passFrame s p) p h b (ingressStamp s p h.capture)

/-- A DISCOVER arrives at the standby's end, from the far head (R198, R212, R230). -/
def discoverReceived (s : State) (p : Nat) (h : FrameHdr) : State :=
  match fpReceive s p h with
  | (false, s) => s
  | (true, s) =>
    if h.src = 0xFF && !fromFarHead s p h then guardDrop s p h.src .noslot else standbyAnswer (passFrame s p) p h

/-! ### Claims (R236 to R239) -/

/-- A CLAIM arrives (steps 1, 3 and 9, R236, R237, R239). -/
def claimReceived (s : State) (p : Nat) (h : FrameHdr) (b : AnnounceBody) : State :=
  match fpReceive s p h with
  | (false, s) => s
  | (true, s) =>
    if !s.active then s
    else
      let stamp := ingressStamp s p h.capture
      let e := slotOf s p (liveBank s p) b.slot
      let won := grantNow s p (fun g => g.slot = b.slot)
      let pool := (poolSlots s p).any (fun e => e.k = b.slot)
      if (h.src = 0xFF && !fromFarHead s p h) || b.slot ≥ 64 || !(pool || won.isSome) || !inSpareWindow s p e stamp then guardDrop s p h.src .noslot
      else if h.size > e.len then guardDrop s p h.src .oversize
      else
        let s := s.onPort p (fun q => { q with accept := q.accept + 1 })
        match won with
        | some g =>
          if g.mac = h.srcMac then
            (if b.action = 2 then s.onPort p (fun q => { q with
                grants := q.grants.map (fun x => if x.slot = g.slot then { x with cancel := true } else x) })
             else s)
          else s.onPort p (fun q => { q with lost := satInc 32 q.lost })
        | none =>
          if b.action = 1 then s.onPort p (fun q => { q with claims := q.claims ++
              [{ slot := b.slot, mac := h.srcMac, sp := b.spRecords, pos := b.posRecords, sensor := b.sensorCh
                 maxUl := b.maxUl, fwd := b.fwdLat, vendor := b.vendor, stamp := stamp, node := 0
                 cycle := s.time.cycle, cancel := false }] })
          else s

/-- The claim with the lowest source MAC address (R237). -/
def lowestMac : List FpClaim → Option FpClaim
  | [] => none
  | c :: r => match lowestMac r with
    | some d => if d.mac < c.mac then some d else some c
    | none => some c

/-- The lowest free number of segment `p` (R238). -/
def freeNumber (s : State) (p : Nat) : Option Nat :=
  (List.range 32).find? (fun j => !s.gb (F.FP_NODE_STATE_NUMBERED p j))

/-- Arbitration of one spare entry (R237, R238). -/
def arbitrate (s : State) (p : Nat) (e : Slot) : State :=
  let l := (s.port p).claims.filter (fun c => c.slot = e.k)
  match lowestMac l with
  | none => s
  | some c =>
    let s := s.onPort p (fun q => { q with lost := satAdd 32 q.lost (l.length - 1) })
    let refuse := s.onPort p (fun q => { q with refused := satInc 32 q.refused })
    match freeNumber s p with
    | none => refuse
    | some n =>
      if e.len < max 64 (50 + 32 * c.pos) || recordsOf s p (numberedNodes s p) + c.sp > 128 || epochPending s then
        refuse
      else
        let b := liveBank s p
        let s := noteNode s p n c.mac c.vendor c.sensor c.sp c.pos c.maxUl c.fwd
        let rt5 := after5 s c.stamp - (e.start5 : Int)
        let s := s.put (F.FP_NODE_DELAY_DELAY_A p n) (ofS 32 (fdiv rt5 10))
        let s := (s.put (F.FP_NODE_STATE_NUMBERED p n) 1)
        let s := s.put (F.FP_STATE_NODES p) (numberedNodes s p).length
        let s := (s.put (F.FP_SLOT_KIND p b e.k) 1).put (F.FP_SLOT_NODE p b e.k) n
        let s := (s.put (F.FP_SPARE_GRANT_SLOT p) e.k).put (F.FP_SPARE_GRANT_NODE p) n
        let s := s.put (F.FP_GNODE_STATE_PROVISIONAL p n) 1
        let s := s.onPort p (fun q => { q with
          grants := q.grants ++ [{ c with node := n, cycle := s.time.cycle + 1, cancel := false }]
          nodes := q.nodes.set n default })
        raisePage s (pFP p) 14 n

/-- Whether the UPLINK of a provisional node was accepted in its slot at this unit's end (R231, R239). -/
def grantCame (s : State) (p : Nat) (g : FpClaim) : Bool :=
  (s.port p).accepted.any (fun a => a.1 = 2 && a.2.1 = g.node && a.2.2.1 = g.slot)

/-- A provisional slot that carried no UPLINK at this unit's end is counted (R231). -/
def countEmpty (s : State) (p : Nat) (g : FpClaim) : State :=
  if grantCame s p g then s else s.onPort p (fun q => { q with empty := q.empty + 1 })

/-- The winning cycle of a grant ends: the node is bound where its UPLINK was accepted in the slot, and the grant is withdrawn
otherwise (R239). -/
def endGrant (s : State) (p : Nat) (g : FpClaim) : State :=
  let came := grantCame s p g
  let s := s.put (F.FP_GNODE_STATE_PROVISIONAL p g.node) 0
  let s := s.onPort p (fun q => { q with grants := q.grants.filter (fun x => x.slot ≠ g.slot) })
  if came then
    let s := s.onNode p g.node (fun n => { n with rts := [] })
    raisePage (s.put (F.FP_GNODE_STATE_BOUND p g.node) 1) (pFP p) 15 g.node
  else
    let s := clearNode s p g.node
    let s := s.put (F.FP_STATE_NODES p) (numberedNodes s p).length
    let s := s.onPort p (fun q => { q with revert := q.revert ++ [g.slot] })
    raisePage s (pFP p) 16 g.node

/-! ### UL_END of a segment (R208, R215, R231, R239, R246) -/

/-- The nodes whose UPLINK was accepted at this end in this cycle. -/
def acceptedHere (s : State) (p j : Nat) : Bool :=
  (s.port p).accepted.any (fun a => a.1 = 2 && a.2.1 = j && a.2.2.1 < 64)

/-- MISSED and the run of missed cycles (R231, R215). A node accepted only by relay is not missing from the ring. -/
def countMissed (s : State) (p j : Nat) : State :=
  let here := acceptedHere s p j
  let any := (s.port p).accepted.any (fun a => a.1 = 2 && a.2.1 = j)
  let s := s.onNode p j (fun n => { n with missRun := if any then 0 else min 255 (n.missRun + 1) })
  if here then s
  else
    let s := s.put (F.FP_GNODE_CNTA_MISSED___EPOCH p j) (satInc 32 (s.g (F.FP_GNODE_CNTA_MISSED___EPOCH p j)))
    s.onPort p (fun q => { q with missed := q.missed + 1, missedAny := true })

/-- DELAY moves toward the mean of the last 64 values by at most 2 ns (R208). -/
def evalDelay (s : State) (p j : Nat) : State :=
  let n := s.node p j
  -- with fewer values the node is not yet compared
  if n.rts.length < 64 then s.onNode p j (fun n => { n with drift := false })
  else
    let mean := fdiv (n.rts.foldl (· + ·) 0) 128
    let f := nodeDelayFld p j (ownEnd s p)
    let d : Int := s.g f
    let step := clampI (-131072) 131072 (mean - d)
    let far := (if mean < d then d - mean else mean - d) > (nsUnits (s.port p).delayTol : Int)
    let s := s.onNode p j (fun n => { n with drift := far })
    s.put f (ofS 32 (d + step))

/-- RING_DELAY moves as a node's delay does, toward the mean that the standby at end B has measured (R208; DEDUCED,
notes/assumptions/39). -/
def evalRing (s : State) (p : Nat) : State :=
  let l := (s.port p).ringRts
  if !s.standby || l.length < 64 || s.g (F.FP_STATE_TOPO p) ≠ 2 then s
  else
    let d : Int := s.g (F.FP_RING_RING_DELAY p)
    s.put (F.FP_RING_RING_DELAY p) (ofS 32 (d + clampI (-131072) 131072 (fdiv (l.foldl (· + ·) 0) 128 - d)))

/-- The delay evaluation of every 64th cycle (R208, R209). -/
def evalDelays (s : State) (p : Nat) : State :=
  if s.cycN % 64 ≠ 0 then s
  else
    let l := boundNodes s p
    let s := evalRing (forEach (fun j s => evalDelay s p j) l s) p
    match l.find? (fun j => (s.node p j).drift) with
    | some j =>
      if s.gb (F.FP_STATE_DELAY_DRIFT p) then s
      else raisePage (s.put (F.FP_STATE_DELAY_DRIFT p) 1) (pFP p) 7 j
    | none => s.put (F.FP_STATE_DELAY_DRIFT p) 0

/-- Writes BREAK_LO and BREAK_HI; `none` reads 0xFF. -/
def setBreak (s : State) (p : Nat) (lo hi : Option Nat) : State :=
  (s.put (F.FP_STATE_BREAK_LO p) (lo.getD 0xFF)).put (F.FP_STATE_BREAK_HI p) (hi.getD 0xFF)

/-- A count of cycles that stops at 64; the cycle in which it got there (R218). -/
def healCount (s : State) (p : Nat) (good : Bool) : State :=
  s.onPort p (fun q =>
    let n := if good then min 64 (q.healRun + 1) else 0
    { q with healRun := n
             healCycle := if n < 64 then none else match q.healCycle with
               | some c => some c
               | none => some s.time.cycle })

/-- The topology becomes `topo`; in LINE there is no ring delay (FP_RING). -/
def setTopo (s : State) (p topo : Nat) : State :=
  let s := s.put (F.FP_STATE_TOPO p) topo
  if topo = 1 then (s.put (F.FP_RING_RING_DELAY p) 0).onPort p (fun q => { q with ringRts := [] }) else s

/-- The break of segment `p` is over: topology `topo` (R215, R218). -/
def toRest (s : State) (p topo : Nat) : State :=
  let s := s.onPort p (fun q => { q with healRun := 0, healCycle := none, relays := [], fell := false })
  setTopo ((setBreak s p none none).put (F.FP_STATE_BROKEN p) 0) p topo

/-- LINE and CUT (R215, R218). -/
def evalLine (s : State) (p : Nat) : State :=
  let topo := s.g (F.FP_STATE_TOPO p)
  let l := boundNodes s p
  let ok (j : Nat) : Bool := acceptedHere s p j
  let gone (j : Nat) : Bool := (s.node p j).missRun ≥ 3
  let near (j : Nat) : List Nat := (l.filter (fun k => k < j && ok k)).reverse
  if topo = 1 then
    (match l.find? (fun j => gone j && near j ≠ []) with
     | none => s
     | some _ =>
       let hi := l.find? gone
       let lo := hi.bind (fun h => (near h).head?)
       let s := ((setBreak s p lo hi).put (F.FP_STATE_TOPO p) 4).put (F.FP_STATE_BROKEN p) 1
       raisePage (s.onPort p (fun q => { q with healRun := 0, healCycle := none })) (pFP p) 5 (hi.getD 0xFF))
  else if topo = 4 then
    let hi := l.find? gone
    let lo := match hi with
      | some h => (near h).head?
      | none => (l.filter ok).reverse.head?
    let s := healCount (setBreak s p lo hi) p (l.all ok)
    if (s.port p).healRun < 64 then s else toRest s p 1
  else s

/-- The wrong epoch of a node at UL_END (R246). -/
def evalEpoch (s : State) (p j : Nat) : State :=
  let n := s.node p j
  let was := s.gb (F.FP_GNODE_STATE_WRONG_EPOCH p j)
  let now := if n.epochOk then false else was || n.epochBad
  let run := if now then min 255 (s.g (F.FP_GNODE_STATE_WE_RUN p j) + 1) else 0
  let s := (s.put (F.FP_GNODE_STATE_WRONG_EPOCH p j) (b2n now)).put (F.FP_GNODE_STATE_WE_RUN p j) run
  let s := s.onNode p j (fun n => { n with epochOk := false, epochBad := false, stopTold := n.stopTold && now })
  if now && !was then raisePage s pEpoch 4 (p + (j <<< 16)) else s

/-- The outcome of the epoch test at this end, for the other unit (R246). -/
def noteEpoch (s : State) (p j : Nat) : State :=
  s.onNode p j (fun n => { n with epochLast := if n.epochOk then some true else if n.epochBad then some false else none })

/-- The outcome of the epoch test at the other end, of a node that this end cannot receive (R246). -/
def epochExchange (s : State) (x : Nat × Nat × Bool) : State :=
  let (p, j, ok) := x
  if p < 8 && j < 32 && s.active && s.gb (F.FP_GNODE_STATE_BOUND p j) && s.g (F.FP_STATE_TOPO p) = 3 && !ownSide s p j then
    s.onNode p j (fun n => { n with epochOk := n.epochOk || ok, epochBad := n.epochBad || !ok })
  else s

/-- Whether any node is in the wrong epoch. -/
def anyWrongEpoch (s : State) : Bool :=
  (scheduledSegs s).any (fun p => (boundNodes s p).any (fun j => s.gb (F.FP_GNODE_STATE_WRONG_EPOCH p j)))

/-- UL_END of segment `p`. -/
def segUlEnd (s : State) (p : Nat) : State :=
  if !(portOn s p || scheduled s p) then s
  else
    let s := s.onPort p (fun q => { q with missedAny := false })
    let l := boundNodes s p
    let s := forEach (fun j s => countMissed s p j) l s
    let seen := (l.filter (fun j => acceptedHere s p j)).foldl (fun a j => a + 2 ^ j) 0
    let s := s.onPort p (fun q => { q with seenOwn := seen, seenOther := 0, ulCycle := s.cycN })
    let fld (j : Nat) : Fld := if ownEnd s p = 0 then F.FP_NODE_STATE_SEEN_A p j else F.FP_NODE_STATE_SEEN_B p j
    let oth (j : Nat) : Fld := if ownEnd s p = 0 then F.FP_NODE_STATE_SEEN_B p j else F.FP_NODE_STATE_SEEN_A p j
    let s := forEach (fun j s => (s.put (fld j) (b2n (bit seen j))).put (oth j) 0) (List.range 32) s
    let s := evalDelays s p
    let s := if s.tw.recovering then s else evalLine s p
    let ending := (s.port p).grants.filter (fun g => g.cycle = s.time.cycle)
    let s := forEach (fun g s => countEmpty s p g) ending s
    let s := forEach (fun j s => noteEpoch s p j) (boundNodes s p) s
    if !s.active then
      forEach (fun j s => s.onNode p j (fun n => { n with epochOk := false, epochBad := false })) (boundNodes s p) s
    else
      let s := forEach (fun g s => endGrant s p g) ending s
      let s := if s.tw.recovering then s else forEach (fun e s => arbitrate s p e) (poolSlots s p) s
      let s := s.onPort p (fun q => { q with claims := [] })
      forEach (fun j s => evalEpoch s p j) (boundNodes s p) s

/-- UL_END of every segment, and WRONG_EPOCH_ANY. -/
def segsUlEnd (s : State) : State :=
  let s := forEach (fun p s => segUlEnd s p) (List.range 8) s
  s.put F.EPOCH_STATE_WRONG_EPOCH_ANY (b2n (anyWrongEpoch s))

/-! ### The exchange of bitmaps, and healing (R215, R218) -/

/-- An UPLINK of node `x.2.1` that only the other unit accepted in this cycle carried ACK_EPOCH `x.2.2` (R243). -/
def ackExchange (s : State) (x : Nat × Nat × Nat) : State :=
  let (p, j, e) := x
  if p < 8 && j < 32 && epochPending s && s.gb (F.FP_GNODE_STATE_BOUND p j) && !acceptedHere s p j then
    s.onNode p j (fun n => { n with ack := some e })
  else s

/-- The other unit's bitmap of the last completed cycle reaches this unit, with `fell`: it has seen a port of a node fall (R215,
R218). -/
def ringExchange (s : State) (p map : Nat) (fell : Bool) : State :=
  if !portOn s p then s
  else
    let q := s.port p
    let l := boundNodes s p
    let own (j : Nat) : Bool := bit q.seenOwn j
    let far (j : Nat) : Bool := bit map j
    let atA (j : Nat) : Bool := if ownEnd s p = 0 then own j else far j
    let atB (j : Nat) : Bool := if ownEnd s p = 0 then far j else own j
    let s := s.onPort p (fun q => { q with seenOther := map, farSeen := map })
    let oth (j : Nat) : Fld := if ownEnd s p = 0 then F.FP_NODE_STATE_SEEN_B p j else F.FP_NODE_STATE_SEEN_A p j
    let s := forEach (fun j s => s.put (oth j) (b2n (far j))) (List.range 32) s
    let topo := s.g (F.FP_STATE_TOPO p)
    if topo = 2 then
      let run := if l.any (fun j => own j != far j) then q.oneSided + 1 else 0
      if s.tw.recovering then s.onPort p (fun q => { q with oneSided := run })
      else if q.fell || fell || run ≥ 2 then
        let lo := (l.filter atA).reverse.head?
        let hi := l.find? (fun j => atB j && (match lo with | some k => decide (k < j) | none => true))
        let s := ((setBreak s p lo hi).put (F.FP_STATE_TOPO p) 3).put (F.FP_STATE_BROKEN p) 1
        let s := s.onPort p (fun q => { q with fell := false, oneSided := 0, healRun := 0, healCycle := none, brokeNow := true })
        raisePage s (pFP p) 5 (lo.getD 0xFF + (hi.getD 0xFF <<< 16))
      else s.onPort p (fun q => { q with oneSided := run })
    else
      let s := s.onPort p (fun q => { q with fell := false, oneSided := 0 })
      if topo = 3 then healCount s p (l.all (fun j => own j && far j)) else s

/-- The T0 after the 64 cycles of R218 has passed. -/
def healDue (s : State) (p : Nat) : Bool :=
  match (s.port p).healCycle with
  | some c => c ≠ s.time.cycle && s.g (F.FP_STATE_TOPO p) = 3
  | none => false

/-- A SPLIT segment heals (R218). -/
def ringHealed (s : State) (p : Nat) : State :=
  if healDue s p then
    raisePage ((toRest s p 2).onPort p (fun q => { q with healedIn := some s.time.cycle })) (pFP p) 6 0
  else s

/-- The other end has fallen silent: SPLIT becomes CUT (R219), and a RING has a single head, LINE (R196). Neither becomes RING again
when a repaired partner joins and every bound node is reached from both ends (R196 gives no such transition: DESIGN CHOICE,
notes/assumptions/43). -/
def ringSilent (s : State) (p : Nat) : State :=
  let topo := s.g (F.FP_STATE_TOPO p)
  if topo = 3 then setTopo s p 4 else if topo = 2 then setTopo s p 1 else s

/-! ### Muting (R233, R234) -/

/-- Faults of node `j` within the last MUTE_WINDOW completed cycles; 0 acts as 1. -/
def muteFaults (s : State) (p j : Nat) : Nat :=
  let w := max 1 (s.port p).muteWindow
  (((s.node p j).hist.filter (fun e => e.1 + w > s.cyc.t0s - 1)).map (fun e => e.2)).foldl (· + ·) 0

/-- A node's faults have reached MUTE_LIMIT (R233). -/
def muteDue (s : State) (p j : Nat) : Bool :=
  let q := s.port p
  s.active && q.muteLimit ≠ 0 && s.gb (F.FP_GNODE_STATE_BOUND p j) && !s.gb (F.FP_GNODE_STATE_MUTED p j) &&
  (s.node p j).muteReq.isNone && muteFaults s p j ≥ q.muteLimit

/-- A mute that is due in a recovery is kept until the recovery has ended (R404). -/
def muteKeep (s : State) (p j : Nat) : State :=
  if s.tw.recovering && muteDue s p j then s.onNode p j (fun n => { n with muteLater := true }) else s

/-- NODE_MUTED: the node is muted from the next TR (R233), in a recovery from the first TR after it (R404). -/
def nodeMuted (s : State) (p j : Nat) : State :=
  if s.tw.recovering then muteKeep s p j
  else if muteDue s p j then s.onNode p j (fun n => { n with muteReq := some true }) else s

/-- FP_MUTECTL (R234). -/
def muteCtl (s : State) (p j : Nat) (mute : Bool) : State :=
  s.onNode p j (fun n => { n with muteReq := some mute })

/-- Mutes and unmutes take effect at TR (R233, R234). -/
def muteTr (s : State) (p : Nat) : State :=
  let asked (s : State) (j : Nat) : Option Bool :=
    match (s.node p j).muteReq with
    | some m => some m
    | none => if (s.node p j).muteLater && !s.tw.recovering then some true else none
  forEach (fun j s => match asked s j with
    | none => s
    | some m =>
      let s := s.onNode p j (fun n => { n with muteReq := none, muteLater := false })
      if m then
        (if s.gb (F.FP_GNODE_STATE_MUTED p j) then s
         else raisePage (s.put (F.FP_GNODE_STATE_MUTED p j) 1) (pFP p) 11 j)
      else
        let s := (s.put (F.FP_GNODE_STATE_MUTED p j) 0).put (F.FP_GNODE_STATE_FAULTS p j) 0
        raisePage (s.onNode p j (fun n => { n with hist := [], now := 0 })) (pFP p) 12 j) (List.range 32) s

/-! ### T0 of the segments (R222, R228, R233, R239) -/

/-- The faults of the cycle that ended join the history of node `j`, which goes back as far as the widest MUTE_WINDOW. -/
def muteT0 (s : State) (p j : Nat) : State :=
  let last := s.cyc.t0s - 1
  let s := s.onNode p j (fun n => { n with
    hist := ((if n.now = 0 then [] else [(last, n.now)]) ++ n.hist).filter (fun e => e.1 + 65535 > last)
    now := 0 })
  muteKeep (s.put (F.FP_GNODE_STATE_FAULTS p j) (min 65535 (muteFaults s p j))) p j

/-- T0 of segment `p`; the cycle number is that of the new cycle. -/
def segT0 (s : State) (p : Nat) : State :=
  let s := forEach (fun k s =>
    (s.put (F.FP_SLOT_KIND p (liveBank s p) k) 3).put (F.FP_SLOT_NODE p (liveBank s p) k) 0) (s.port p).revert s
  let s := s.onPort p (fun q => { q with
    accepted := [], acceptedLast := q.accepted, revert := [], faultTold := false, brokeNow := false
    upT0 := s.gb (F.FP_STATE_LINK_UP p)
    timeout := s.g (F.FP_LINKCFG_TIMEOUT p), delayTol := s.g (F.FP_LINKCFG_DELAY_TOL p)
    muteLimit := s.g (F.FP_SLOTCFG_MUTE_LIMIT p), muteWindow := s.g (F.FP_SLOTCFG_MUTE_WINDOW p) })
  let s := forEach (fun j s => muteT0 s p j) (boundNodes s p) s
  let s := if (s.port p).release then releaseNow s p else s
  if (s.port p).commit then commitNow s p else s

/-! ### Sixteen cycles in the wrong epoch (R247) -/

/-- NODE_EPOCH_STOP is due for a node. -/
def epochStopDue (s : State) (p j : Nat) : Bool :=
  s.active && s.g (F.FP_GNODE_STATE_WE_RUN p j) ≥ 16 && !(s.node p j).stopTold

/-- NODE_EPOCH_STOP (R247). -/
def nodeEpochStop (s : State) (p j : Nat) : State :=
  if !epochStopDue s p j then s
  else
    let s := s.onNode p j (fun n => { n with stopTold := true })
    let l := (enabledAxes s).filter (fun a => (s.leAx a).cfg.seg = p && (s.leAx a).cfg.node = j)
    let s := forEach (fun a s =>
      let g := (s.pg.ax.look a).group
      let s := if (s.pg.ax.look a).mode = 4 then grpRequest s g 4 else s
      faultAxis s a 4) l s
    raisePage s pEpoch 5 (p + (j <<< 16))

end Sys2Proof.Machine
end

