-- ==== Sys2Proof/Machine/Downlink.lean ====
section
/-! DEFINITION. Mode epochs, and the DOWNLINK frames at TR (R201, R202, R214, R216, R217, R240 to R247). -/

namespace Sys2Proof.Machine

/-! ### Epoch changes (R240 to R246) -/

/-- ACT_CYCLE as a cycle number. -/
def actCycle (s : State) : BitVec 32 := BitVec.ofNat 32 (s.g F.FP_EPOCH_STATE_ACT_CYCLE)

/-- The checks 0x0530 to 0x0535 of a REQUEST (Table 9.4). -/
def epochOwnCheck (s : State) : Nat :=
  firstReason
    [test (!s.time.running) 0x0530, test s.standby 0x0531,
     test (epochPending s || anyWrongEpoch s) 0x0532,
     test (s.g F.FP_EPOCH_NEXT_EPOCH % 256 = s.g F.FP_EPOCH_STATE_CURRENT % 256) 0x0533,
     test (s.g F.FP_EPOCH_NEXT_LEAD < 64) 0x0534,
     test ((List.range 8).any (fun p => (s.port p).grants ≠ [])) 0x0535]

/-- The slot checks of a REQUEST: the first failing segment and its code (R241). -/
def epochSlotCheck (s : State) (c : Sched) : Option (Nat × Nat) :=
  (scheduledSegs s).findSome? (fun p =>
    let r := slotChecks s p (shadowBank s p) c
    if r = 0 then none else some (p, r))

/-- A REQUEST is accepted in cycle `c` (R241, R242). -/
def epochAccept (s : State) (c : BitVec 32) : State :=
  let a := (c.toNat + s.g F.FP_EPOCH_NEXT_LEAD) % 2 ^ 32
  let s := (s.put F.FP_EPOCH_STATE_ACT_CYCLE a).put F.EPOCH_STATE_PENDING 1
  let s := s.put F.EPOCH_STATE_DECIDED 0
  let s := { s with ep := { s.ep with cancelled := false, commit := false } }
  let s := forEach (fun p s => forEach (fun j s => s.onNode p j (fun n => { n with ack := none })) (boundNodes s p) s)
    (scheduledSegs s) s
  raisePage s pEpoch 1 0

/-- The checks of a CANCEL (Table 9.4). -/
def cancelCheck (s : State) : Nat :=
  firstReason [test (epochPending s && s.gb F.EPOCH_STATE_DECIDED) 0x0536, test (!epochPending s) 0x0537]

/-- CANCEL makes the decision at D an abort (R244). -/
def epochCancel (s : State) : State := { s with ep := { s.ep with cancelled := true } }

/-- The first bound node that has not acknowledged, as segment and node (R243). -/
def firstUnacked (s : State) : Option (Nat × Nat) :=
  (scheduledSegs s).findSome? (fun p =>
    ((boundNodes s p).find? (fun j =>
      s.gb (F.FP_GNODE_STATE_MUTED p j) || (s.node p j).ack ≠ some (s.g F.FP_EPOCH_NEXT_EPOCH % 256))).map
      (fun j => (p, j)))

/-- The unit takes the decision at UL_END of D: the active, the unit that has taken over, and its standby, which holds the same
acknowledgements: it sends the same epoch fields in SPLIT, and has the decision when it becomes active (R217, R243, R245;
DEDUCED, notes/assumptions/44). -/
def decides (s : State) : Bool := s.active || s.tw.role = 2 || s.tw.role = 4

/-- The decision at UL_END of D (R243, R244). -/
def epochDecide (s : State) : State :=
  if !(epochPending s && !s.gb F.EPOCH_STATE_DECIDED && decides s && s.time.cycle + 2 = actCycle s) then s
  else
    let next := s.g F.FP_EPOCH_NEXT_EPOCH
    let bad := firstUnacked s
    let s := s.put F.EPOCH_STATE_DECIDED 1
    let s := match bad with
      | some (p, j) => (s.put F.FP_EPOCH_DIAG_SEG p).put F.FP_EPOCH_DIAG_NODE j
      | none => s
    if bad.isNone && !s.ep.cancelled then
      raisePage { s.put F.FP_EPOCH_STATE_LAST 1 with ep := { s.ep with commit := true } } pEpoch 2 0
    else
      let s := { s with ep := { s.ep with commit := false, aborted := some next } }
      raisePage (s.put F.FP_EPOCH_STATE_LAST (if s.ep.cancelled then 3 else 2)) pEpoch 3
        (match bad with | some (p, j) => p + (j <<< 16) | none => 0)

/-- A change that has been decided to commit takes effect at the next T0 (R244). -/
def activatesNext (s : State) : Bool :=
  epochPending s && s.ep.commit && s.time.cycle + 1 = actCycle s

/-- The period of the next cycle (R33, R244). -/
def nextPeriod (s : State) : Nat := if activatesNext s then (nextWritten s).period else s.time.live.period

/-- T0 of A (R240, R244): the cycle number is that of the new cycle. The live schedule is taken by the caller. -/
def epochT0 (s : State) : State :=
  if !(epochPending s && s.time.cycle = actCycle s) then s
  else
    let s := (s.put F.EPOCH_STATE_PENDING 0).put F.EPOCH_STATE_DECIDED 0
    if !s.ep.commit then s
    else
      let s := s.put F.FP_EPOCH_STATE_CURRENT (s.g F.FP_EPOCH_NEXT_EPOCH)
      let s := { s with ep := { s.ep with commit := false } }
      let s := forEach (fun p s =>
        bindNodes (s.put (F.FP_SLOTCFG_LIVE_BANK p) (shadowBank s p)) p) (scheduledSegs s) s
      leActivation s

/-! ### Set-point records (R202, R217) -/

/-- The AXIS word, FLAGS, MAIN and AUX of the record `r` of node `j` (Table 8.5), as frame assembly has held it since its release. -/
def spRecord (s : State) (p j r : Nat) : Nat × Nat × Int × Int :=
  let key := 256 * p + 8 * j + r
  let (a1, st) := s.le.remembered.look key
  if a1 = 0 then (0x8000, 0, 0, 0)
  else
    let a := a1 - 1
    if axisEnabled s a && recKey (s.leAx a).cfg = key then
      (a, (s.leAx a).recFlags % 32 + (st <<< 5), (s.leAx a).recMain, (s.leAx a).recAux)
    else (a, st <<< 5, 0, 0)

/-- The 24 bytes of a set-point record (Table 8.5). -/
def recordBytes (x : Nat × Nat × Int × Int) (r : Nat) : List Nat :=
  leBytes (ofS 64 x.2.2.1) 8 ++ leBytes (ofS 64 x.2.2.2) 8 ++ leBytes x.1 2 ++ [x.2.1, r, 0, 0, 0, 0]

/-- The records of the nodes `l`, in order: (node, record). -/
def recordList (s : State) (p : Nat) (l : List Nat) : List (Nat × Nat) :=
  l.flatMap (fun j => (List.range (min 8 (s.g (F.FP_NODE_CAP_SP_RECORDS p j)))).map (fun r => (j, r)))

/-- The directory of Table 8.4, with the index of each node's first record. -/
def directory (s : State) (p e : Nat) : List Nat → Nat → List Nat
  | [], _ => []
  | j :: l, first =>
    let n := min 8 (s.g (F.FP_NODE_CAP_SP_RECORDS p j))
    leBytes (nodeDelay s p j e) 4 ++
    [j, first % 256, n, b2n (s.gb (F.FP_GNODE_STATE_MUTED p j)) + 2 * b2n (s.gb (F.FP_GNODE_STATE_WRONG_EPOCH p j))] ++
    directory s p e l (first + n)

/-- EPOCH_CMD and NEXT_EPOCH of a segment's DOWNLINK (R242, R246). -/
def epochCmd (s : State) (p : Nat) : Nat × Nat :=
  let next := s.g F.FP_EPOCH_NEXT_EPOCH % 256
  if epochPending s then
    (if s.gb F.EPOCH_STATE_DECIDED then (if s.ep.commit then (2, next) else (3, next)) else (1, next))
  else if (boundNodes s p).any (fun j => s.gb (F.FP_GNODE_STATE_WRONG_EPOCH p j)) then
    (3, (s.ep.aborted.getD 0) % 256)
  else (0, 0)

/-- NEXT_EPOCH, EPOCH_CMD and ACT_CYCLE of a segment's DOWNLINK (Table 8.4). With no change pending, ACT_CYCLE and, unless
R246 gives it, NEXT_EPOCH are free values (notes/assumptions/22). -/
def epochFields (s : State) (p : Nat) : (Nat × Nat × Nat) × State :=
  let (cmd, next) := epochCmd s p
  if epochPending s then ((next, cmd, (actCycle s).toNat), s)
  else
    let (f, s) := s.freeWord
    ((if cmd = 0 then getBits f 32 8 else next, cmd, getBits f 0 32), s)

/-- The epoch fields with which a segment's DOWNLINK leaves: those that the two units share in SPLIT (R217), unless a change has
been accepted since they were relayed. -/
def sentFields (s : State) (p : Nat) : (Nat × Nat × Nat) × State :=
  match (s.port p).epochRel with
  | some (c, f) =>
    if c = s.time.cycle && !(epochPending s && f.2.1 = 0) then (f, s) else epochFields s p
  | none => epochFields s p

/-- The DOWNLINK payload of segment `p` from end `e` with the epoch fields `epoch` and the records given by `rec` (Table 8.4). -/
def downlinkPayload (s : State) (p e : Nat) (epoch : Nat × Nat × Nat) (rec : Nat → Nat → Nat × Nat × Int × Int) : List Nat :=
  let l := boundNodes s p
  let tr := s.at s.time.live.tr
  let t0n := s.at s.time.live.period
  leBytes tr.toNat 8 ++ leBytes t0n.toNat 8 ++ leBytes s.time.live.period 2 ++
  [l.length, (s.port p).timeout, epoch.1, epoch.2.1, 0, 0] ++ leBytes epoch.2.2 4 ++ [0, 0, 0, 0] ++
  directory s p e l 0 ++ (recordList s p l).flatMap (fun x => recordBytes (rec x.1 x.2) x.2)

/-- The link has been up since T0: the schedule goes on from the first T0 at which the link is up (R213). -/
def linkThisCycle (s : State) (p : Nat) : Bool := s.gb (F.FP_STATE_LINK_UP p) && (s.port p).upT0

/-- The DOWNLINK of a segment leaves at TR (R201). -/
def sendDownlink (s : State) (p : Nat) : State :=
  if !(portOn s p && scheduled s p && linkThisCycle s p) then s
  else
    let tr := s.at s.time.live.tr
    let e := ownEnd s p
    let (ep, s) := sentFields s p
    let pl := downlinkPayload s p e ep (fun j r => spRecord s p j r)
    sendFrame (s.onPort p (fun q => { q with lastTr := some (s.time.cycle, tr) })) p 1 e tr pl

/-- The records beyond the break, and the epoch fields of the DOWNLINK, pass to the standby (R217). -/
def relayRecords (s : State) : State :=
  if !s.active then s
  else forEach (fun p s =>
    if relayOn s p then
      let (f, s) := epochFields s p
      let s := s.onPort p (fun q => { q with epochRel := some (s.time.cycle, f) })
      let s := { s with out := s.out ++ [.relay p (.epoch f.1 f.2.1 f.2.2)] }
      let l := recordList s p ((boundNodes s p).filter (fun j => !ownSide s p j))
      { s with out := s.out ++ l.map (fun x =>
          let (a, f, m, u) := spRecord s p x.1 x.2
          .relay p (.record x.1 x.2 a f m u)) }
    else s) (scheduledSegs s) s

/-- The relayed records of the current cycle that came in time (R217). -/
def relayedNow (s : State) (p : Nat) : List FpRelay :=
  let limit := dtAdd (s.at s.time.live.tr) (-(nsUnits 100 : Int))
  (s.port p).relays.filter (fun x => dtDiff limit x.at_ ≥ 0 && dtDiff x.at_ s.time.t0 ≥ 0)

/-- Record `r` of node `j` in the standby's DOWNLINK: as relayed; one that has not come, those of the nodes on the active's side
among them, is a substitute with HOLD and the previous set-point of the state copy (R217). -/
def relayedRecord (s : State) (p j r : Nat) : Nat × Nat × Int × Int :=
  match (relayedNow s p).find? (fun x => x.node = j && x.record = r) with
  | some x => (x.axisWord, x.flags, x.main, x.aux)
  | none =>
    let (a, f, m, x) := spRecord s p j r
    (a, if f % 2 = 1 then f ||| 2 else f, m, x)

/-- The standby's relayed DOWNLINK from its end at TR (R217, R219). RELAY_HOLDS counts the substitutes of the nodes beyond the break:
the records of the others are not passed (DEDUCED, notes/assumptions/39). -/
def sendRelayed (s : State) (p : Nat) : State :=
  if !(portOn s p && scheduled s p && linkThisCycle s p && relayOn s p) then s
  else
    let tr := s.at s.time.live.tr
    let got := relayedNow s p
    let miss := ((recordList s p ((boundNodes s p).filter (fun j => ownSide s p j))).filter (fun x =>
      !got.any (fun y => y.node = x.1 && y.record = x.2))).length
    let (ep, s) := sentFields s p
    let s := sendFrame s p 1 (ownEnd s p) tr (downlinkPayload s p (ownEnd s p) ep (relayedRecord s p))
    let s := s.onPort p (fun q => { q with relays := [], relayHolds := q.relayHolds + miss })
    if miss = 0 then s else raisePage s (pFP p) 8 0

/-- TR of the segments (R196, R201, R217, R233, R234). -/
def segsTr (s : State) : State :=
  forEach (fun p s =>
    let s := muteTr s p
    if s.active then sendDownlink s p else if s.standby then sendRelayed s p else s) (List.range 8) s

/-! ### Relayed frames (R206, R216, R217) -/

/-- A relayed frame is used once; the receive tests and the guardian saw it at the other unit (R206, R216). -/
def relayAccept (s : State) (p : Nat) (h : FrameHdr) (seq : Nat) : Option State :=
  if !(portOn s p && relayOn s p) then none
  else
    let s := s.onPort p (fun q => { q with rx := q.rx + 1, relayed := q.relayed + 1 })
    -- it passed step 6 at the other unit (R230, R246)
    let s := if h.src < 32 then s.onNode p h.src (fun n => { n with epochOk := true }) else s
    let x := (h.type, h.src, 64, seq)
    if isCopy s p h seq then some s
    else if h.cycle = s.cycN then some (s.onPort p (fun q => { q with accepted := q.accepted ++ [x] }))
    else if h.cycle = (s.time.cycle - 1).toNat then some (s.onPort p (fun q => { q with acceptedLast := q.acceptedLast ++ [x] }))
    else some s

/-- A relayed UPLINK is placed in the field ingress queue (R216). -/
def relayUplink (s : State) (p : Nat) (h : FrameHdr) (b : UplinkBody) : State :=
  let copy := isCopy s p h 0
  match relayAccept s p h 0 with
  | none => s
  | some s =>
    if copy || h.src ≥ 32 || h.cycle ≠ s.cycN then s
    else fbUplink (noteStatus s p h.src b) p h.src b.recs

/-- A relayed set-point record reaches the standby (R217). -/
def relayRecord (s : State) (p node index axisWord flags : Nat) (main aux : Int) : State :=
  s.onPort p (fun q => { q with relays := q.relays.filter (fun x => !(x.node = node && x.record = index)) ++
    [{ node, record := index, axisWord, flags, main, aux, at_ := s.dt }] })

/-- The epoch fields of the active's DOWNLINK reach the standby (R217). -/
def relayEpoch (s : State) (p next cmd act : Nat) : State :=
  s.onPort p (fun q => { q with epochRel := some (s.time.cycle, next % 256, cmd % 256, act % 2 ^ 32) })

/-! ### Beacons and grants at DL_END (R214, R238) -/

/-- DL_END of a segment: the DISCOVER of a grant, or a beacon. -/
def segDlEnd (s : State) (p : Nat) : State :=
  if !(s.active && portOn s p && scheduled s p && s.gb (F.FP_STATE_LINK_UP p)) then s
  else
    let new := (s.port p).grants.filter (fun g => g.cycle = s.time.cycle + 1)
    if new ≠ [] then forEach (fun g s => sendDiscover s p g.node 0) new s
    else
      let due := match (s.port p).beacon with
        | some b => decide (dtDiff s.time.t0 b ≥ (nsUnits 1000000 : Int))
        | none => true
      if !due then s
      else
        -- with no free number TARGET is a free value (notes/assumptions/39)
        let (n, s) := match freeNumber s p with
          | some n => (n, s)
          | none => (s.openBits 0 8, s.nextFree)
        sendDiscover (s.onPort p (fun q => { q with beacon := some s.dt })) p n 2

/-- DL_END of the segments. -/
def segsDlEnd (s : State) : State := forEach (fun p s => segDlEnd s p) (List.range 8) s

/-- T0 of the segments. -/
def segsT0 (s : State) : State := forEach (fun p s => segT0 s p) (List.range 8) s

end Sys2Proof.Machine
end

