-- ==== Sys2Proof/Machine/Acquire.lean ====
section
/-! DEFINITION. Streams and packets, channels and reductions, trigger units and records (chapter 10). -/

namespace Sys2Proof.Machine

/-- Stream `n`: its state is that of ST_STATUS as it stands (R7). -/
def State.str (s : State) (n : Nat) : AeStr := { s.ae.str.look n with state := s.mg (stBase n) F.ST_STATUS_STATE }

/-- Changes stream `n`. -/
def State.onStr (s : State) (n : Nat) (f : AeStr → AeStr) : State :=
  { s with ae := { s.ae with str := s.ae.str.set n (f (s.str n)) } }

/-- What the AE holds of channel `c`. -/
def State.aeCh (s : State) (c : Nat) : AeCh := s.ae.ch.look c

/-- Changes what the AE holds of channel `c`. -/
def State.onCh (s : State) (c : Nat) (f : AeCh → AeCh) : State :=
  { s with ae := { s.ae with ch := s.ae.ch.set c (f (s.aeCh c)) } }

/-- Whether channel `c` is enabled: its bit of AE_CHMAPn. -/
def chOn (s : State) (c : Nat) : Bool := bit (s.reg (F.AE_CHMAP (c / 64)).adr) (c % 64)

/-- The enabled channels, rising. -/
def enabledChs (s : State) : List Nat := mapList s (F.AE_CHMAP 0).adr 64

/-- Fields of CH_CFG as read at enable. -/
def AeCh.kind (c : AeCh) : Nat := getBits c.cfg 61 3
/-- CH_CFG.STREAM as read at enable. -/
def AeCh.stream (c : AeCh) : Nat := getBits c.cfg 53 8
/-- Bits `lo + w - 1 : lo` of CH_CFG.SOURCE as read at enable. -/
def AeCh.src (c : AeCh) (lo w : Nat) : Nat := getBits c.cfg lo w

/-- The member channels of stream `n`, rising (R257). -/
def members (s : State) (n : Nat) : List Nat := (enabledChs s).filter (fun c => (s.aeCh c).stream = n)

/-- Writes a stream's state to ST_STATUS and the maps. -/
def setStr (s : State) (n st : Nat) : State :=
  let s := s.onStr n (fun x => { x with state := st })
  let s := s.mput (stBase n) F.ST_STATUS_STATE st
  mapBit (mapBit s (F.AE_RUNMAP 0).adr n (st = 1 || st = 2)) (F.AE_OVFMAP 0).adr n (st = 3)

/-! ### Writing to a ring (R257, R271, R272) -/

/-- Little-endian words of bytes. -/
def wordsOf : List Nat → List Nat
  | a :: b :: c :: d :: e :: f :: g :: h :: r =>
    (a + 256 * b + 65536 * c + 16777216 * d + 2 ^ 32 * (e + 256 * f + 65536 * g + 16777216 * h)) :: wordsOf r
  | _ => []

/-- The first translation fault of a span of XU addresses: kind, level and address. -/
def spanFault (s : State) (a len : Nat) : Option (Nat × Nat × Nat) :=
  let pts := (List.range ((len + 4095) / 4096)).map (fun i => a + 4096 * i) ++ [a + len - 8]
  pts.findSome? (fun x => match xlate s x with
    | .fault k l => some (k, l, x)
    | _ => none)

/-- Bytes padded with zeros to a multiple of `n`. -/
def padUp (n : Nat) (l : List Nat) : List Nat := padTo ((l.length + n - 1) / n * n) l

/-- `n` bytes of a signed value. -/
def leInt (v : Int) (n : Nat) : List Nat := leBytes (ofS (8 * n) v) n

/-- Packet limit of a stream in bytes. -/
def AeStr.packet (x : AeStr) : Nat := (getBits x.cfg 50 6 + 1) * 1024

/-- FLUSH of a stream in DT units. -/
def AeStr.flush (x : AeStr) : Nat := nsUnits (getBits x.cfg 0 32 * 1000)

/-- Bytes of a packet (R259). -/
def AeOut.len (p : AeOut) : Nat := (32 + p.body.length + 63) / 64 * 64

/-- A packet closed at `close` (R259): PTYPE, blocks, marks, the bytes after the header, the DT of its first sample. -/
def packet (s : State) (ptype : Nat) (close : DT) (blocks marks : Nat) (body : List Nat) (first : DT) : AeOut :=
  { ptype, close, gen := s.tu.gen.toNat, era := s.time.era.toNat, blocks, marks, body, first, cause := 0 }

/-- The packet as bytes: the header of Table 10.2 with the stream's SEQ, and zeros up to 64. -/
def packetBytes (s : State) (n : Nat) (p : AeOut) : List Nat :=
  padTo p.len ([p.ptype, 0] ++ leBytes n 2 ++ leBytes p.len 4 ++ leBytes (s.word (stBase n + 0x48)) 8 ++
    leBytes p.close.toNat 8 ++ leBytes p.gen 2 ++ leBytes p.era 2 ++ leBytes p.blocks 2 ++ leBytes p.marks 2 ++ p.body)

/-- A packet enters the stream-packet queue and DM12 carries it to the stream's ring: WR and SEQ advance, the totals count, the
mirror is written (R20, R257, R367). -/
def putPacket (s : State) (n : Nat) (p : AeOut) : State :=
  let l := packetBytes s n p
  let x := s.str n
  let wr := s.word (stBase n + 0x38)
  let s := devCarried (devWrites s 0x2C (x.base + wr % x.size) (wordsOf l)) 12 (x.base + wr % x.size) p.len 0 p.len
  let s := s.setWord (stBase n + 0x38) ((wr + p.len) % 2 ^ 64)
  let s := s.setWord (stBase n + 0x48) ((s.word (stBase n + 0x48) + 1) % 2 ^ 64)
  let s := { s with ae := { s.ae with
    packets := s.ae.packets + 1, bytes := s.ae.bytes + p.len, path := s.ae.path + p.len / 64 } }
  let m := s.word (stBase n + 0x28)
  if m = 0 then s
  else match xlate s m with
    | .fault k l => raiseXuFault s 0x2C k l m
    | _ => devWrite s 0x2C m (s.word (stBase n + 0x38))

/-- A mark entry (Table 10.4). -/
def markBytes (m : AeMark) : List Nat :=
  [m.kind, m.flags] ++ leBytes m.source 2 ++ leBytes m.info 4 ++ leBytes m.dt.toNat 8

/-- Free bytes of a stream's ring. -/
def ringFree (s : State) (n : Nat) : Int :=
  let used : Nat := (s.word (stBase n + 0x38) + 2 ^ 64 - s.word (stBase n + 0x30)) % 2 ^ 64
  ((s.str n).size : Int) - used

/-- Depth of the stream-packet queue in flits (Table 1.3). -/
def pathDepth : Nat := 4096

/-- What becomes of a packet that is to be handed to DMA. -/
inductive Handed where
  /-- It is in the ring, or nothing remains to be done with it. -/
  | done (s : State)
  /-- The stream-packet queue has no room for it: it waits (R20). -/
  | waits
  /-- It overflows the stream for a cause: 1 RING, 2 PATH (R272). -/
  | fails (s : State) (cause : Nat)

/-- A packet of stream `n` is handed to DMA with the PAD packet that the ring's end requires before it (R260): it waits while
the stream-packet queue has no room (R20), fails the test of R271 (an overflow's own packet takes the kept space), or fails
where the ring does not translate (R375). -/
def hand (s : State) (n : Nat) (p : AeOut) : Handed :=
  let s := s.noteReads 0x47 (stBase n + 0x28) 5
  let x := s.str n
  let pos := s.word (stBase n + 0x38) % x.size
  let pad := if pos + p.len > x.size then x.size - pos else 0
  if s.ae.path + (pad + p.len) / 64 > pathDepth then .waits
  else if p.cause = 0 && decide ((pad + p.len + 64 : Int) > ringFree s n) then .fails s 1
  else
    let bad := match (if pad = 0 then none else spanFault s (x.base + pos) pad) with
      | some e => some e
      | none => spanFault s (if pad = 0 then x.base + pos else x.base) p.len
    match bad with
    | some (k, lv, a) =>
      let s := raiseXuFault (devCarried s 12 (if pad = 0 then x.base + pos else x.base) p.len 3 0) 0x2C k lv a
      if p.cause = 0 then .fails s 2 else .done s
    | none =>
      let s := if pad = 0 then s
        else putPacket s n { p with ptype := 4, blocks := 0, marks := 0, body := List.replicate (pad - 32) 0 }
      .done (putPacket s n p)

/-- A packet that holds one of the stream's two assembly buffers: DATA or RECORD, not an overflow's own (R272). -/
def AeOut.buffered (p : AeOut) : Bool := (p.ptype = 1 || p.ptype = 2) && p.cause = 0

/-- The earliest of the DTs `l`; `d` where there is none. -/
def earliest (d : DT) : List DT → DT
  | [] => d
  | x :: r => r.foldl (fun a b => if dtDiff b a < 0 then b else a) x

/-- DT of the first sample that stream `n` drops with the packets `l`, its open packet and its record, and with the samples `more`
that find no room; where they hold no sample, the present DT (Table 10.4; notes/assumptions/36). -/
def firstDropped (s : State) (n : Nat) (l : List AeOut) (more : List DT) : DT :=
  let x := s.str n
  let inPkt : List DT := match x.pkt with | some p => p.blocks.map (fun b => b.first) | none => []
  let inRcd : List DT := match x.rcd with | some r => (r.pre ++ r.post).flatMap (fun e => e.2.map (fun v => v.dt)) | none => []
  earliest s.stamp ((l.filter (fun p => p.blocks ≠ 0)).map (fun p => p.first) ++ inPkt ++ inRcd ++ more)

/-- A stream overflows (R272): the packets `dropped`, the samples `more` that find no room, its open packet and its record are
dropped, the packets `kept` still wait, and the OVERFLOW mark goes into the kept space. -/
def overflow (s : State) (n cause : Nat) (dropped kept : List AeOut) (more : List DT) : State :=
  let first := firstDropped s n dropped more
  let s := s.onStr n (fun x => { x with pkt := none, rcd := none, hist := [], held := kept })
  let p : AeOut := { packet s 1 s.stamp 0 1 (markBytes ⟨2, 0, 0, cause, first⟩) first with cause := cause }
  let s := (setStr s n 3).mput (stBase n) F.ST_STATUS_CAUSE cause
  let s := match (s.str n).held, hand s n p with
    | [], .done t => t
    | [], .fails t _ => t
    | _, _ => s.onStr n (fun x => { x with held := x.held ++ [p] })
  raisePage s pAE 1 n

/-- A stream that takes samples and marks: RUNNING or WAITING. -/
def strLive (s : State) (n : Nat) : Bool := (s.str n).state = 1 || (s.str n).state = 2

/-- A packet that failed is dropped with everything that follows it, but for an overflow's own packet, and the stream overflows
unless it has stopped (R272, R274). -/
def packetFails (s : State) (n cause : Nat) (p : AeOut) (more : List DT) : State :=
  let l := (s.str n).held
  if strLive s n then overflow s n cause (p :: l.filter (fun q => q.cause = 0)) (l.filter (fun q => q.cause ≠ 0)) more else s

/-- The second assembly buffer is needed: a DATA or RECORD packet that still waits is a PATH overflow. What waits ahead of it
stays; it and what follows are dropped, but for an overflow's own packet, and so are the samples `more` that need it (R272). -/
def needBuffer (s : State) (n : Nat) (more : List DT) : State :=
  let l := (s.str n).held
  if strLive s n && l.any AeOut.buffered then
    let ahead := l.takeWhile (fun p => !p.buffered)
    let rest := l.drop ahead.length
    overflow s n 2 (rest.filter (fun q => q.cause = 0)) (ahead ++ rest.filter (fun q => q.cause ≠ 0)) more
  else s

/-- A closed packet is written (R271, R272): handed to DMA, or it waits in its buffer behind what waits already. The samples
`more` arrive at this instant and would follow it. -/
def writePacket (s : State) (n : Nat) (p : AeOut) (more : List DT) : State :=
  let was := (s.str n).state
  let s := if p.buffered then needBuffer s n ((if p.blocks = 0 then [] else [p.first]) ++ more) else s
  if (s.str n).state ≠ was then s
  else
    let wait := s.onStr n (fun x => { x with held := x.held ++ [p] })
    match (s.str n).held, hand s n p with
    | [], .done t => t
    | [], .fails t c => packetFails t n c p more
    | _, _ => wait

/-- The packets of stream `n` that wait are handed to DMA in their order, as far as the queue has room; `fuel` bounds them. -/
def handHeld (s : State) (n : Nat) : Nat → State
  | 0 => s
  | fuel + 1 =>
    match (s.str n).held with
    | [] => s
    | p :: r =>
      match hand s n p with
      | .waits => s
      | .done t => handHeld (t.onStr n (fun x => { x with held := r })) n fuel
      | .fails t c => handHeld (packetFails (t.onStr n (fun x => { x with held := r })) n c p []) n fuel

/-- DMA has taken `k` flits from the stream-packet queue: packets that wait are handed over, in stream order (R20). -/
def pathDrain (s : State) (k : Nat) : State :=
  let s := { s with ae := { s.ae with path := s.ae.path - k } }
  forEach (fun e s => handHeld s e.1 (e.2.held.length + 1)) s.ae.str s

/-! ### Packets under assembly (R260, R261) -/

/-- Bytes of a block (Table 10.3). -/
def blockLen (b : AeBlk) : Nat := (24 + 4 * b.data.length + 7) / 8 * 8

/-- A block as bytes. -/
def blockBytes (b : AeBlk) : List Nat :=
  padUp 8 (leBytes b.chan 2 ++ [b.slot, b.flags] ++ leBytes b.data.length 2 ++ [b.kind, 0] ++
    leBytes b.first.toNat 8 ++ leBytes b.interval 8 ++ b.data.flatMap (fun v => leInt v 4))

/-- Bytes of a packet under assembly, padded. -/
def pktLen (p : AePkt) : Nat :=
  (32 + (p.blocks.map blockLen).foldl (· + ·) 0 + 16 * p.marks.length + 63) / 64 * 64

/-- Marks in DT order (R260). -/
def insMark (m : AeMark) : List AeMark → List AeMark
  | [] => [m]
  | a :: r => if dtDiff m.dt a.dt < 0 then m :: a :: r else a :: insMark m r

/-- The DT of the first sample of a packet, or of its first mark. -/
def pktFirst (p : AePkt) (d : DT) : DT :=
  match p.blocks with
  | [] => (match p.marks with | m :: _ => m.dt | [] => d)
  | b :: r => (r.map (fun x => x.first)).foldl (fun a x => if dtDiff x a < 0 then x else a) b.first

/-- The open packet of a stream closes at `close` and is written (R260), the samples `more` arriving at this instant. -/
def closePkt (s : State) (n : Nat) (close : DT) (more : List DT) : State :=
  match (s.str n).pkt with
  | none => s
  | some p =>
    let s := s.onStr n (fun x => { x with pkt := none })
    let body := p.blocks.flatMap blockBytes ++ p.marks.flatMap markBytes
    writePacket s n (packet s 1 close p.blocks.length p.marks.length body (pktFirst p s.stamp)) more

/-- The instant FLUSH µs after the open packet opened. -/
def flushAt (s : State) (n : Nat) : Option DT :=
  (s.str n).pkt.map (fun p => dtAdd p.opened (s.str n).flush)

/-- PACKET_FLUSH: the open packet closes FLUSH µs after it opened (R260). -/
def packetFlush (s : State) (n : Nat) : State :=
  match flushAt s n with
  | some d => if dtDiff s.dt d ≥ 0 then closePkt s n d [] else s
  | none => s

/-- Puts a value at the end of its block, or begins a block, in channel and slot order. -/
def addToBlocks (c slot kind flags interval : Nat) (fresh : Bool) (dt : DT) (v : Int) : List AeBlk → List AeBlk
  | [] => [{ chan := c, slot, kind, flags, first := dt, interval, data := [v] }]
  | b :: r =>
    let later := r.any (fun x => x.chan = c && x.slot = slot)
    if b.chan = c && b.slot = slot && !later then
      (if fresh || b.interval ≠ interval then
        b :: { chan := c, slot, kind, flags, first := dt, interval, data := [v] } :: r
       else { b with data := b.data ++ [v], flags := b.flags ||| flags } :: r)
    else if b.chan > c || (b.chan = c && b.slot > slot) then
      { chan := c, slot, kind, flags, first := dt, interval, data := [v] } :: b :: r
    else b :: addToBlocks c slot kind flags interval fresh dt v r

/-- The MAPPING payload (Table 10.5). -/
def mappingBytes (s : State) (reason : Nat) : List Nat :=
  let free := s.tu.tstate = 0
  let w : Int := if free then 0 else s.tu.mapW
  let sec := fdiv w (1000000000 * 65536)
  let rest := w - sec * (1000000000 * 65536)
  let dom := match s.tu.selected with | some 0 => s.tu.dom0 | _ => s.tu.dom1
  leBytes s.tu.mapD.toNat 8 ++ leBytes (ofS 48 sec) 6 ++ leInt (if s.tu.selected.isSome then dom.utc else 0) 2 ++
  leBytes (rest / 65536).toNat 4 ++ leBytes (rest % 65536).toNat 2 ++
  [s.tu.tstate, match s.tu.selected with | some k => k | none => 3] ++ leInt s.tu.rate 8 ++
  leBytes s.tu.gen.toNat 2 ++ leBytes s.time.era.toNat 2 ++ leBytes s.tu.mapCycle.toNat 4 ++ [reason] ++
  List.replicate 7 0

/-- A MAPPING packet, 128 bytes (R262). -/
def writeMapping (s : State) (n reason : Nat) : State :=
  writePacket s n (packet s 3 s.stamp 0 0 (padTo 96 (mappingBytes s reason)) s.stamp) []

/-- A MAPPING packet in every stream that is RUNNING or WAITING (R262): 4 selection, 5 state. -/
def mappingAll (s : State) (reason : Nat) : State :=
  forEach (fun e s => if strLive s e.1 then writeMapping s e.1 reason else s) s.ae.str s

/-- MAPPING packets follow a change of the selected domain and of the time state (R262): after a command that can make one, and
for a slew that has ended meanwhile before whatever a stream next takes or does (notes/assumptions/36). -/
def mapFollow (s : State) : State :=
  let old := s.ae.told
  let s := { s with ae := { s.ae with told := (s.tu.tstate, s.tu.selected) } }
  let s := if old.2 = s.tu.selected then s else mappingAll s 4
  if old.1 = s.tu.tstate then s else mappingAll s 5

/-- `f`, which may change the time state, between MAPPING packets for what changed before it and for what it changes. -/
def timeFollowed (f : State → State) (s : State) : State := mapFollow (f (mapFollow s))

/-- A RESTART mark is due (R273): `dt` is that of the first sample kept. -/
def restartMark (x : AeStr) (dt : DT) : List AeMark :=
  match x.restart with
  | some lost => [⟨3, 0, 0, lost, dt⟩]
  | none => []

/-- The change `f` of the open packet of stream `n`, with `f` of an empty packet where none is open or where the changed one
would be longer than PACKET: then the open one closes first (R260). Opening a packet needs an assembly buffer (R272). `more`:
the DT of the sample that enters. -/
def intoPacket (s : State) (n : Nat) (more : List DT) (f : AePkt → AePkt) : State :=
  let fresh (s : State) : State :=
    let s := needBuffer s n more
    if strLive s n then
      s.onStr n (fun x => { x with pkt := some (f { opened := s.stamp, blocks := [], marks := [] }) })
    else s
  match (s.str n).pkt with
  | none => fresh s
  | some p =>
    if pktLen (f p) ≤ (s.str n).packet then s.onStr n (fun x => { x with pkt := some (f p) })
    else
      let s := closePkt s n s.stamp more
      if strLive s n then fresh s else s

/-- A value enters the open packet of a stream, which opens with it or closes before it (R260); the first after a restart
enters with the RESTART mark, and every member's first block with GAP (R273). -/
def enterValue (s : State) (n c slot kind flags interval : Nat) (fresh : Bool) (dt : DT) (v : Int) : State :=
  let s := packetFlush s n
  let x := s.str n
  if x.state ≠ 2 then s
  else
    let newFirst := match x.seen with
      | some l => !l.contains (c * 8 + slot)
      | none => false
    let flags := if newFirst then flags ||| 1 else flags
    let mark := restartMark x dt
    let s := s.onStr n (fun x => { x with
      restart := none
      seen := x.seen.map (fun l => if l.contains (c * 8 + slot) then l else l ++ [c * 8 + slot]) })
    intoPacket s n [dt] (fun p => { p with
      blocks := addToBlocks c slot kind flags interval (fresh || newFirst) dt v p.blocks
      marks := mark.foldl (fun l m => insMark m l) p.marks })

/-- A mark enters the open packet of a stream, or opens one (R261). -/
def enterMark (s : State) (n : Nat) (m : AeMark) : State :=
  let s := packetFlush (mapFollow s) n
  if strLive s n then intoPacket s n [] (fun p => { p with marks := insMark m p.marks }) else s

/-! ### Start, stop, restart (R258, R273, R274) -/

/-- Bytes of the assembly pool that a start of stream `n` takes (Table 10.8). -/
def poolNeed (s : State) (n : Nat) : Nat :=
  let cfg := s.word (stBase n)
  let rec' := s.word (stBase n + 0x18)
  2 * ((getBits cfg 50 6 + 1) * 1024) +
    (if bit cfg 63 then getBits rec' 16 16 * (members s n).length * 4 else 0)

/-- Bytes of the assembly pool in use. -/
def poolUsed (s : State) : Nat := (s.ae.str.map (fun e => if (s.str e.1).state = 0 then 0 else e.2.pool)).foldl (· + ·) 0

/-- A command for the stream is being carried out (R274): its check runs (`busy`), or a STOP's packet has yet to be handed over. -/
def strBusy (s : State) (n : Nat) (busy : Bool) : Bool := busy || ((s.str n).state = 0 && (s.str n).held ≠ [])

/-- The checks of START (Table 10.8); `busy` under R274. -/
def strStartCheck (s : State) (n : Nat) (busy : Bool) : Nat :=
  let cfg := s.word (stBase n)
  let pk := (getBits cfg 50 6 + 1) * 1024
  let size := getBits (s.word (stBase n + 0x10)) 0 40
  let r := s.word (stBase n + 0x18)
  let pp := getBits r 16 16 + getBits r 0 16
  let flush := getBits cfg 0 32
  let unit := getBits r 40 8
  firstReason
    [test (!s.enabled pAE) 0x0720, test (strBusy s n busy || (s.str n).state ≠ 0) 0x0721, test (members s n = []) 0x0722,
     test (s.word (stBase n + 8) % 64 ≠ 0 || size % 64 ≠ 0 || size < 4 * pk) 0x0723,
     test (flush < 10 || flush > 1000000) 0x0724,
     test (bit cfg 63 && (pp = 0 || pp > 4096 || unit ≥ 64 || !s.gb (F.AE_TRG_CFG_EN unit))) 0x0725,
     test (poolNeed s n + poolUsed s > 0x200000) 0x0726]

/-- START passes: the descriptor is read and the stream starts (R258, R262). -/
def strStart (s : State) (n : Nat) : State :=
  let s := mapFollow s
  let cfg := s.word (stBase n)
  let r := s.word (stBase n + 0x18)
  let atDt := bit cfg 61
  let start := BitVec.ofNat 64 (s.word (stBase n + 0x20))
  let s := forEach (fun c s => s.onCh c (fun h => { h with
    origin := if atDt then some start else none, red := [] })) (members s n) s
  let s := s.onStr n (fun _ => { (default : AeStr) with
    cfg, base := s.word (stBase n + 8), size := getBits (s.word (stBase n + 0x10)) 0 40
    unit := getBits r 40 8, pre := getBits r 16 16, post := getBits r 0 16, start, pool := poolNeed s n
    mapped := s.stamp })
  let s := s.setWord (stBase n + 0x48) 0
  let s := s.setWord (stBase n + 0x38) (s.word (stBase n + 0x30))
  let s := s.setWord (stBase n + 0x40) (s.word (stBase n + 0x40) &&& 0x1FFF000000000000)
  let s := setStr s n (if atDt then 1 else 2)
  writeMapping s n 1

/-- STOP: the open packet is written when it fits, and the stream becomes IDLE (R274). A FLUSH that is due comes first, with
the overflow that it may bring. -/
def strStop (s : State) (n : Nat) : State :=
  let s := packetFlush (mapFollow s) n
  let was := (s.str n).state
  let s := if was = 0 then s else setStr s n 0
  let s := if was = 1 || was = 2 then closePkt s n s.stamp [] else s
  s.onStr n (fun x => { x with pkt := none, rcd := none, hist := [], restart := none, seen := none })

/-- The free space that a restart needs is there (R273). -/
def restartRoom (s : State) (n : Nat) : Bool :=
  let x := s.str n
  decide (ringFree s n * 16 ≥ ((max 1 (getBits x.cfg 56 4) * x.size : Nat) : Int))

/-- The checks of RESTART (Table 10.8). -/
def strRestartCheck (s : State) (n : Nat) (busy : Bool) : Nat :=
  firstReason [test (strBusy s n busy) 0x0721, test ((s.str n).state ≠ 3) 0x0727, test (!restartRoom s n) 0x0728]

/-- A stream restarts: MAPPING, then the RESTART mark with the first sample kept (R273). -/
def strRestart (s : State) (n : Nat) : State :=
  let s := mapFollow s
  let lost := s.mg (stBase n) F.ST_STATUS_MARKS_LOST
  let s := s.mput (stBase n) F.ST_STATUS_MARKS_LOST 0
  let s := (setStr s n 2).onStr n (fun x => { x with
    restart := some lost, seen := some [], pkt := none, rcd := none, hist := [], mapped := s.stamp })
  raisePage (writeMapping s n 6) pAE 2 n

/-- AUTO_RESTART at a sample or mark that arrives (R273), once the OVERFLOW packet has been handed over
(notes/assumptions/36). -/
def autoRestart (s : State) (n : Nat) : State :=
  let x := s.str n
  if x.state = 3 && bit x.cfg 60 && x.held = [] && restartRoom s n then strRestart s n else s

/-- MAP_INTERVAL in DT units. -/
def mapEvery (s : State) : Nat := nsUnits (max 1 (s.g F.AE_CFG_MAP_INTERVAL) * 1000000000)

/-- MAPPING_INTERVAL (R262): the intervals run on from the start or restart of the stream. -/
def mappingInterval (s : State) (n : Nat) : State :=
  let s := mapFollow s
  let x := s.str n
  let due := dtAdd x.mapped (mapEvery s)
  if x.state = 2 && dtDiff s.dt due ≥ 0 then writeMapping (s.onStr n (fun x => { x with mapped := due })) n 2 else s

/-- A step of the mapping (R275): the DISCONTINUITY mark, the packet closed, the MAPPING packet. -/
def discontinuity (s : State) (d : DT) : State :=
  let one (n : Nat) (s : State) : State :=
    let s := enterMark s n ⟨4, 0, 0, s.tu.gen.toNat, d⟩
    let s := closePkt s n s.stamp []
    if strLive s n then writeMapping s n 3 else s
  forEach (fun e s => if strLive s e.1 then one e.1 s else s) s.ae.str s

/-! ### Records (R269, R270) -/

/-- MIN, MAX, MEAN, RMS, first positions of minimum and maximum of samples, with the number before dt. -/
def measure (pre : Nat) (l : List AeSmp) : List Nat :=
  let xs := l.map (fun e => e.x)
  let n := xs.length
  match xs with
  | [] => List.replicate 20 0
  | x0 :: _ =>
    let lo := xs.foldl (fun a v => if v < a then v else a) x0
    let hi := xs.foldl (fun a v => if v > a then v else a) x0
    let sum := xs.foldl (· + ·) 0
    let sq := xs.foldl (fun a v => a + v * v) 0
    let idx (v : Int) : Int := ((xs.findIdx (fun w => w = v) : Nat) : Int) - pre
    leInt lo 4 ++ leInt hi 4 ++ leInt (fdiv sum n) 4 ++ leBytes (isqrt (sq.toNat / n)) 4 ++
    leInt (idx lo) 2 ++ leInt (idx hi) 2

/-- Runs of a member's samples: a block begins at each GAP and at each change of INTERVAL (R255, R270). `gap`: the first
block carries GAP. -/
def recordBlocks (c : Nat) (gap : Bool) (l : List AeSmp) : List AeBlk :=
  l.foldl (fun acc e =>
    let flags := b2n (e.gap || (gap && acc = [])) + 2 * b2n e.ovr
    let new : AeBlk := { chan := c, slot := 0, kind := 0, flags, first := e.dt, interval := e.step, data := [e.x], dts := [e.dt] }
    match acc.reverse with
    | b :: r =>
      if e.fresh || e.gap || e.step ≠ b.interval then acc ++ [new]
      else (r.reverse) ++ [{ b with data := b.data ++ [e.x], dts := b.dts ++ [e.dt], flags := b.flags ||| flags }]
    | [] => [new]) []

/-- Splits a block of a record after `k` samples: the second begins with the stamp of its own first sample (Table 10.3). -/
def splitBlk (b : AeBlk) (k : Nat) : AeBlk × AeBlk :=
  ({ b with data := b.data.take k, dts := b.dts.take k },
   { b with data := b.data.drop k, dts := b.dts.drop k, first := (b.dts[k]?).getD b.first, flags := b.flags &&& 2 })

/-- Takes blocks of at most `room` bytes: those taken, and the rest; `fuel` bounds their number. -/
def takeBlocks (room : Nat) : List AeBlk → Nat → List AeBlk × List AeBlk
  | [], _ => ([], [])
  | b :: r, 0 => ([], b :: r)
  | b :: r, fuel + 1 =>
    if blockLen b ≤ room then
      let (x, y) := takeBlocks (room - blockLen b) r fuel
      (b :: x, y)
    else if room ≥ 32 then
      let (x, y) := splitBlk b ((room - 24) / 4)
      ([x], y :: r)
    else ([], b :: r)

/-- The parts of a record, as the blocks of each; `last` bytes beside them go into the last part (R270). A last part without
blocks holds them even where they alone are longer than PACKET allows (notes/assumptions/36). `fuel` bounds the parts. -/
def recordParts (room last : Nat) : List AeBlk → Nat → List (List AeBlk)
  | l, 0 => [l]
  | l, fuel + 1 =>
    let (x, y) := takeBlocks room l (l.length + 1)
    if y = [] then
      (if x = [] || (x.map blockLen).foldl (· + ·) 0 + last ≤ room then [x] else [x, []])
    else x :: recordParts room last y fuel

/-- The record that a stream collects is written (R270): its blocks in parts, with the measurements in the last and beside them
the marks that wait in the open packet, as many as PACKET leaves room for; the others stay in it (notes/assumptions/36). -/
def writeRecord (s : State) (n : Nat) : State :=
  match (s.str n).rcd with
  | none => s
  | some r =>
    let x := s.str n
    let ms := members s n
    let all (c : Nat) : List AeSmp := r.pre.look c ++ r.post.look c
    let newFirst (c : Nat) : Bool := match x.seen with
      | some l => all c ≠ [] && !l.contains (c * 8)
      | none => false
    let of (c : Nat) : List AeBlk := recordBlocks c (newFirst c) (all c)
    let blocks := ms.flatMap of
    let meas := ms.flatMap (fun c =>
      leBytes c 2 ++ [((of c).map (fun b => b.flags)).foldl Nat.lor 0 % 4, 0] ++ measure (r.pre.look c).length (all c))
    let marks : List AeMark := match x.pkt with | some p => if p.blocks = [] then p.marks else [] | none => []
    let room := x.packet - 64
    let parts := recordParts room meas.length blocks
      (blocks.length + (blocks.map (fun b => b.data.length)).foldl (· + ·) 0 + 1)
    let lastLen := ((parts.getLastD []).map blockLen).foldl (· + ·) meas.length
    let later := marks.drop ((room - lastLen) / 16)
    let marks := marks.take ((room - lastLen) / 16)
    let short := ms.any (fun c => (r.pre.look c).length < x.pre)
    let start (i : Nat) : DT := earliest r.dt (((parts.drop i).flatten).map (fun b => b.first))
    let s := s.onStr n (fun x => { x with
      rcd := none, records := x.records + 1
      pkt := if marks = [] then x.pkt else if later = [] then none else x.pkt.map (fun p => { p with marks := later })
      seen := x.seen.map (fun l => l ++ (ms.filter newFirst).map (fun c => c * 8)) })
    let one (p : Nat × List AeBlk) (s : State) : State :=
      if (s.str n).state ≠ 2 then s
      else
        let isLast := p.1 + 1 = parts.length
        let flags := b2n isLast + 2 * b2n short + 4 * b2n (r.shut ≠ [])
        let head := leBytes x.records 4 ++ leBytes p.1 2 ++ [flags, x.unit] ++ leBytes r.dt.toNat 8 ++ leBytes x.pre 2 ++
          leBytes x.post 2 ++ leBytes (if isLast then ms.length else 0) 2 ++ List.replicate 10 0
        let body := head ++ p.2.flatMap blockBytes ++ (if isLast then meas ++ marks.flatMap markBytes else [])
        writePacket s n (packet s 2 s.stamp p.2.length (if isLast then marks.length else 0) body (start p.1)) []
    forEach one ((List.range parts.length).zip parts) s

/-- Whether member `c` of the record is complete: it has its POST samples, or was closed late (R269). With POST = 0 it is
complete once a sample stamped at or after dt has arrived, those before dt being then all there (notes/assumptions/36). -/
def memberDone (s : State) (n : Nat) (r : AeRec) (c : Nat) : Bool :=
  let x := s.str n
  r.shut.contains c ||
  (decide ((r.post.look c).length ≥ x.post) && (x.post ≠ 0 || (x.hist.look c).any (fun e => dtDiff e.dt r.dt ≥ 0)))

/-- A record is written once every member is complete (R270). -/
def finishRecord (s : State) (n : Nat) : State :=
  match (s.str n).rcd with
  | none => s
  | some r => if (members s n).all (memberDone s n r) then writeRecord s n else s

/-- The live divider: the smallest multiple of CYC_DIV whose sample rate does not exceed 51.2 kS/s (R252). -/
def liveDiv (div period : Nat) : Nat :=
  let d := max 1 div
  -- rate = 8,000,000 / (period × n) per second
  let n := ceilDiv 8000000 (period * 51200)
  d * max 1 (ceilDiv n d)

/-- The divider of an axis-word or pin channel at a period. -/
def AeCh.div (c : AeCh) (period : Nat) : Nat := if c.kind = 1 then liveDiv (c.src 8 8) period else liveDiv 1 period

/-- INTERVAL that channel `c` has, or is to have before its first sample: that of its descriptor for a sensor, of the live
divider otherwise. -/
def spacing (s : State) (c : Nat) : Nat :=
  let h := s.aeCh c
  if h.interval ≠ 0 then h.interval
  else if h.kind = 2 then h.expect
  else h.div s.time.live.period * s.time.live.period * stepUnits

/-- RECORD_TRUNCATED (R269): a member that is not complete within twice its expected duration is closed with what it holds. -/
def recordTruncated (s : State) (n : Nat) : State :=
  match (s.str n).rcd with
  | none => s
  | some r =>
    let late (c : Nat) : Bool :=
      !memberDone s n r c && decide (dtDiff s.dt r.dt ≥ ((2 * max 1 (s.str n).post * spacing s c : Nat) : Int))
    let r := { r with shut := r.shut ++ (members s n).filter late }
    finishRecord (s.onStr n (fun x => { x with rcd := some r })) n

/-- A record begins at `dt` (R269). -/
def beginRecord (s : State) (n : Nat) (dt : DT) : State :=
  let x := s.str n
  match x.rcd with
  | some _ =>
    let v := satInc 32 (s.mg (stBase n) F.ST_STATUS_TRIG_IGNORED)
    s.mput (stBase n) F.ST_STATUS_TRIG_IGNORED v
  | none =>
    let ms := members s n
    let before (c : Nat) : List AeSmp := (x.hist.look c).filter (fun e => dtDiff e.dt dt < 0)
    let pre (c : Nat) : List AeSmp := (before c).drop ((before c).length - x.pre)
    let post (c : Nat) : List AeSmp := ((x.hist.look c).filter (fun e => dtDiff e.dt dt ≥ 0)).take x.post
    let tab (f : Nat → List AeSmp) : Tab (List AeSmp) := ms.foldl (fun t c => t.set c (f c)) []
    let r : AeRec := { dt, pre := tab pre, post := tab post, shut := [] }
    finishRecord (s.onStr n (fun x => { x with rcd := some r })) n

/-- Samples of a channel that its history keeps beside PRE and POST, so that a firing found later than the samples after it still
finds those before it: more than the four SENSOR frames of a cycle can carry (R204; DESIGN CHOICE, notes/assumptions/36). -/
def histLead : Nat := 4096

/-- A sample of member `c` reaches the history and the record of its stream (R269): one stamped before dt that arrives after the
firing is among the last PRE too. The first sample kept after a restart enters with the RESTART mark (R273). -/
def recordSample (s : State) (n c : Nat) (e : AeSmp) : State :=
  let s := forEach (fun m s => enterMark (s.onStr n (fun x => { x with restart := none })) n m) (restartMark (s.str n) e.dt) s
  let x := s.str n
  if x.state ≠ 2 then s
  else
    let keep := x.pre + x.post + histLead
    let h := x.hist.look c ++ [e]
    let s := s.onStr n (fun x => { x with hist := x.hist.set c (h.drop (h.length - keep)) })
    match x.rcd with
    | none => s
    | some r =>
      if memberDone s n r c then finishRecord s n
      else if dtDiff e.dt r.dt < 0 then
        let l := r.pre.look c ++ [e]
        s.onStr n (fun y => { y with rcd := some { r with pre := r.pre.set c (l.drop (l.length - x.pre)) } })
      else
        let r := { r with post := r.post.set c (r.post.look c ++ [e]) }
        finishRecord (s.onStr n (fun x => { x with rcd := some r })) n

/-! ### Trigger units (R265 to R268) -/

/-- The instant of the next Keystone tick (R343); the present DT while no tick is due. -/
def nextTick (s : State) : DT :=
  if s.ks.ticked then dtAdd s.ks.lastTick (nsUnits s.ks.period) else s.dt

/-- One more mark that stream `n` has lost (R272). -/
def markLost (s : State) (n : Nat) : State :=
  s.mput (stBase n) F.ST_STATUS_MARKS_LOST (satInc 16 (s.mg (stBase n) F.ST_STATUS_MARKS_LOST))

/-- A unit fires (R267): `info` of its mark, crossing DT, flags FALLING and NOINTERP. A mark whose own entry overflows its
stream is lost (R272). -/
def fire (s : State) (u info : Nat) (dt : DT) (flags : Nat) : State :=
  let out := s.gb (F.AE_TRG_CFG_OUT_EN u)
  let start := dtAdd dt (nsUnits (s.g (F.AE_TRG_OUT_OUT_DELAY u)))
  let late := out && decide (dtDiff s.dt start > 0)
  let n := s.g (F.AE_TRG_CFG_MARK_STREAM u)
  let s := if !s.gb (F.AE_TRG_CFG_MARK_EN u) then s
    else
      let s := autoRestart s n
      let st := (s.str n).state
      let s := if st = 2 then enterMark s n ⟨1, flags + 4 * b2n late, u, info, dt⟩ else s
      if (st = 2 || st = 3) && (s.str n).state = 3 then markLost s n else s
  let s := forEach (fun e s =>
    if (s.str e.1).state = 2 && bit e.2.cfg 63 && e.2.unit = u then beginRecord s e.1 dt else s) s.ae.str s
  let discard := late && s.gb (F.AE_TRG_CFG_DISCARD_LATE u)
  let s := if late then s.put (F.AE_TRG_STATE_LATE u) (satInc 16 (s.g (F.AE_TRG_STATE_LATE u))) else s
  let s := if out && !discard then
      let q : AePulse := { pin := s.g (F.AE_TRG_CFG_OUT_PIN u), start := if late then nextTick s else start
                           width := s.g (F.AE_TRG_OUT u) % 2 ^ 32 }
      { s with ae := { s.ae with pulses := s.ae.pulses ++ [q] } }
    else s
  let s := if discard then raisePage s pAE 5 u else s
  let s := if s.gb (F.AE_TRG_CFG_EVT_EN u) then raisePage s pAE 4 u else s
  s.put (F.AE_TRG_STATE_COUNT u) (satInc 32 (s.g (F.AE_TRG_STATE_COUNT u)))

/-- A crossing of unit `u`: it fires unless it is within HOLDOFF of the last firing; it disarms (R265). -/
def crossing (s : State) (u info : Nat) (dt : DT) (flags : Nat) : State :=
  let t := s.ae.trg.look u
  let hold := match t.fired with
    | some d => decide (dtDiff dt d < (nsUnits (s.g (F.AE_TRG_CFG_HOLDOFF u) * 1000) : Int))
    | none => false
  let t' : AeTrg := { armR := false, armF := false, fired := if hold then t.fired else some dt }
  let s := { s with ae := { s.ae with trg := s.ae.trg.set u t' } }
  if hold then s else fire s u info dt flags

/-- Sample `e` of channel `c` reaches unit `u`; `prev` is the sample before it (R265, R266). -/
def unitSample (s : State) (u c : Nat) (prev : Option AeSmp) (e : AeSmp) (interval : Nat) : State :=
  let cond := s.g (F.AE_TRG_CFG_COND u)
  let lv := s.gi (F.AE_TRG_LEVEL_LEVEL u)
  let alt := s.gi (F.AE_TRG_LEVEL_ALT u)
  let t := s.ae.trg.look u
  let inside (v : Int) : Bool := decide (lv ≤ v) && decide (v ≤ alt)
  -- the bound crossed and whether the crossing falls
  let hit : Option (Int × Bool) := match prev with
    | none => none
    | some p =>
      if (cond = 0 || cond = 2) && t.armR && decide (p.x < lv) && decide (lv ≤ e.x) then some (lv, false)
      else if (cond = 1 || cond = 2) && t.armF && decide (p.x > lv) && decide (lv ≥ e.x) then some (lv, true)
      else if cond = 3 && !inside p.x && inside e.x then some (if p.x < lv then (lv, false) else (alt, true))
      else if cond = 4 && inside p.x && !inside e.x then some (if e.x < lv then (lv, true) else (alt, false))
      else none
  let s := match hit, prev with
    | some (b, down), some p =>
      let (dt, no) :=
        if e.gap then (e.dt, true)
        else
          let f := fdiv (256 * (b - p.x)) (e.x - p.x)
          (dtAdd p.dt (fdiv ((interval : Int) * f) 256), false)
      crossing s u c dt (b2n down + 2 * b2n no)
    | _, _ => s
  let t := s.ae.trg.look u
  let t := if cond ≤ 2 then
      { t with armR := t.armR || ((cond = 0 || cond = 2) && decide (e.x < lv - alt))
               armF := t.armF || ((cond = 1 || cond = 2) && decide (e.x > lv + alt)) }
    else t
  let s := { s with ae := { s.ae with trg := s.ae.trg.set u t } }
  s.put (F.AE_TRG_STATE_ARMED u) (b2n (t.armR || t.armF))

/-- A sample of channel `c` reaches every unit that watches it, in ascending order (R267). -/
def trigSample (s : State) (c : Nat) (prev : Option AeSmp) (e : AeSmp) (interval : Nat) : State :=
  forEach (fun u s =>
    if s.gb (F.AE_TRG_CFG_EN u) && s.g (F.AE_TRG_CFG_COND u) ≤ 4 && s.g (F.AE_TRG_CFG_CHANNEL u) = c then
      unitSample s u c prev e interval else s) (List.range 64) s

/-- A confirmed edge on TRIG_IN(`pin`) at its DT (R253, R265 to R267). -/
def pinEdge (s : State) (pin : Nat) (rising : Bool) (dt : DT) : State :=
  let s := { s with ae := { s.ae with
    level := setBits s.ae.level pin 1 (b2n rising)
    edges := if rising then s.ae.edges.set pin (s.ae.edges.look pin + 1) else s.ae.edges } }
  forEach (fun u s =>
    let cond := s.g (F.AE_TRG_CFG_COND u)
    if s.gb (F.AE_TRG_CFG_EN u) && cond = (if rising then 5 else 6) && s.g (F.AE_TRG_CFG_CHANNEL u) % 8 = pin then
      crossing s u (0xFFFFFF00 + pin) dt (b2n !rising) else s) (List.range 64) s

/-- The instant at which a pulse ends. -/
def AePulse.ends (q : AePulse) : DT := dtAdd q.start (nsUnits q.width)

/-- A pulse begins (R268): its pin is high until the last of the pulses that have begun there ends. -/
def pulseOn (s : State) (q : AePulse) : State :=
  let until' := match s.ae.high.look q.pin with
    | some e => if dtDiff q.start e < 0 && dtDiff q.ends e < 0 then e else q.ends
    | none => q.ends
  { s with
    ae := { s.ae with pulses := s.ae.pulses.erase q, high := s.ae.high.set q.pin (some until') }
    out := s.out ++ [.pulse q.pin q.start q.width] }

/-- The level of TRIG_OUT(`pin`): the OR of its pulses (R268). -/
def trigOut (s : State) (pin : Nat) : Bool :=
  match s.ae.high.look pin with
  | some e => decide (dtDiff s.dt e < 0)
  | none => false

/-- The scheduled pulses on `pin` that are due begin (R268). -/
def pulseBegin (s : State) (pin : Nat) : State :=
  forEach (fun q s => pulseOn s q)
    (s.ae.pulses.filter (fun q => q.pin = pin && decide (dtDiff s.dt q.start ≥ 0))) s

/-- The checks of a unit's EN with the value written (Table 10.8). -/
def trgCheck (s : State) (u v : Nat) : Nat :=
  let cond := getBits v 60 3
  let lv := s.gi (F.AE_TRG_LEVEL_LEVEL u)
  let alt := s.gi (F.AE_TRG_LEVEL_ALT u)
  firstReason
    [test ((cond ≤ 4 && !chOn s (getBits v 44 12)) || ((cond = 5 || cond = 6) && getBits v 44 12 > 7) || cond = 7) 0x0730,
     test (((cond = 3 || cond = 4) && decide (alt < lv)) || (cond ≤ 2 && decide (alt < 0))) 0x0731,
     test (bit v 30 && s.g (F.AE_TRG_OUT u) % 2 ^ 32 < 100) 0x0732]

/-- EN of a unit is set: its counts restart (AE_TRGu_STATE). -/
def trgEnable (s : State) (u v : Nat) : State :=
  let s := (s.setReg (F.AE_TRG_CFG u).adr v).setReg (F.AE_TRG_STATE u).adr 0
  { s with ae := { s.ae with trg := s.ae.trg.set u default } }

/-! ### Reductions (R263, R264) -/

/-- FACTOR of slot `k` (1 to 4). -/
def AeCh.factor (c : AeCh) (k : Nat) : Nat := getBits c.factors (16 * (k - 1)) 16 + 1

/-- The value of a reduction group of kind `kind` (R263). -/
def redValue (kind : Nat) (r : AeRed) : Int :=
  if kind = 0 then r.min else if kind = 1 then r.max
  else if kind = 2 then fdiv r.sum r.count else ((isqrt (r.sumsq.toNat / r.count) : Nat) : Int)

/-- Position of a sample (R263): rounded to nearest. A sample stamped before the origin has a position below 0, since no
group of a stream takes it (R258). -/
def redPos (origin dt : DT) (interval : Nat) : Int :=
  let k := fdiv (2 * dtDiff dt origin + interval) (2 * interval)
  if dtDiff dt origin < 0 && k ≥ 0 then -1 else k

end Sys2Proof.Machine
end

