-- ==== Sys2Proof/Machine/Angle.lean ====
section
/-! DEFINITION. Angle channels, their records, the order component, histograms, persistence maps and copies
(chapter 11). -/

namespace Sys2Proof.Machine

/-- Angle channel `g`. -/
def State.angCh (s : State) (g : Nat) : AngCh := s.ang.ch.look g

/-- Changes angle channel `g`. -/
def State.onAng (s : State) (g : Nat) (f : AngCh → AngCh) : State :=
  { s with ang := { s.ang with ch := s.ang.ch.set g (f (s.angCh g)) } }

/-- Whether angle channel `g` is enabled: its bit of ANG_RUNMAPn. -/
def angOn (s : State) (g : Nat) : Bool := bit (s.reg (F.ANG_RUNMAP (g / 64)).adr) (g % 64)

/-- The enabled angle channels, rising. -/
def enabledAngs (s : State) : List Nat := mapList s (F.ANG_RUNMAP 0).adr 8

/-- M_LOG2. -/
def AngCh.mlog (c : AngCh) : Nat := getBits c.cfg 60 4
/-- M. -/
def AngCh.m (c : AngCh) : Nat := 2 ^ c.mlog
/-- N_AVG. -/
def AngCh.navg (c : AngCh) : Nat := getBits c.cfg 44 11
/-- ANGLE_AXIS. -/
def AngCh.axis (c : AngCh) : Nat := getBits c.cfg 32 9
/-- SOURCE. -/
def AngCh.source (c : AngCh) : Nat := getBits c.cfg 0 12
/-- OUT_MODE. -/
def AngCh.outMode (c : AngCh) : Nat := getBits c.cfg 56 2
/-- ORDER. -/
def AngCh.k (c : AngCh) : Nat := getBits c.order 0 12
/-- COMPARE_AXIS. -/
def AngCh.cmpAxis (c : AngCh) : Nat := getBits c.order 32 9
/-- MAP_EN. -/
def AngCh.mapEn (c : AngCh) : Nat := getBits c.map 30 2
/-- MAP_INDEX. -/
def AngCh.mapIdx (c : AngCh) : Nat := getBits c.map 0 10
/-- MAX_SPEED, 2^-16 rev/s. -/
def AngCh.maxSpeed (c : AngCh) : Nat := getBits c.speed 32 32
/-- MIN_SPEED, 2^-16 rev/s. -/
def AngCh.minSpeed (c : AngCh) : Nat := getBits c.speed 0 32
/-- OFFSET, a Turn fraction. -/
def AngCh.ofs (c : AngCh) : Nat := getBits c.offset 0 32

/-- A field of the descriptor of angle channel `g`. -/
def ang (s : State) (g : Nat) (f : Fld) : Nat := s.mg (angBase g) f

/-- Replaces a field of the descriptor of angle channel `g`. -/
def angPut (s : State) (g : Nat) (f : Fld) (v : Nat) : State := s.mput (angBase g) f v

/-! ### The order component (R289) -/

/-- Fractional bits of the unit vectors below. -/
abbrev ciBits : Nat := 96

/-- One, as a fixed-point number. -/
abbrev ciOne : Int := 2 ^ 96

/-- Product of two fixed-point complex numbers. -/
def cmul (a b : Int × Int) : Int × Int :=
  (shr (a.1 * b.1 - a.2 * b.2) ciBits, shr (a.1 * b.2 + a.2 * b.1) ciBits)

/-- exp(−i 2π / 2^n), by halving the angle from −π / 2. -/
def unitRoot : Nat → Int × Int
  | 0 => (ciOne, 0)
  | 1 => (-ciOne, 0)
  | 2 => (0, -ciOne)
  | n + 3 =>
    let (c, _) := unitRoot (n + 2)
    -- cos(x/2) = sqrt((1 + cos x) / 2), sin(x/2) = sqrt((1 − cos x) / 2)
    let h : Int := 2 ^ 95
    (((isqrt (((ciOne + c) * h).toNat) : Nat) : Int), -((isqrt (((ciOne - c) * h).toNat) : Nat) : Int))

/-- `w` to the power `n`. -/
def cpow (w : Int × Int) : Nat → Int × Int
  | 0 => (ciOne, 0)
  | n + 1 => cmul (cpow w n) w

/-- The sum of y_j × exp(−i 2π k j / m), in fixed point. -/
def dftGo (step : Int × Int) : List Int → Int × Int → Int × Int → Int × Int
  | [], _, acc => acc
  | y :: r, w, acc => dftGo step r (cmul w step) (acc.1 + y * w.1, acc.2 + y * w.2)

/-- −arg / 2π of a vector as a 32-bit fraction: digit by digit, by squaring. -/
def phaseGo : Nat → Int × Int → Nat → Nat
  | 0, _, acc => acc
  | n + 1, z, acc =>
    let d := decide (z.2 > 0) || (z.2 = 0 && decide (z.1 < 0))
    let big := max z.1.natAbs z.2.natAbs
    let k := Nat.log2 (big + 1)
    let z := if k > 90 then (shr z.1 (k - 90), shr z.2 (k - 90)) else (shl z.1 (90 - k), shl z.2 (90 - k))
    phaseGo n (z.1 * z.1 - z.2 * z.2, 2 * z.1 * z.2) (2 * acc + b2n d)

/-- The order-k component of a waveform of 2^n points (R289): |c| with `ciBits` fractional bits, and phase. -/
def orderExact (y : List Int) (n k : Nat) : Nat × Nat :=
  let (re, im) := dftGo (cpow (unitRoot n) k) y (ciOne, 0) (0, 0)
  (isqrt (re * re + im * im).toNat * 2 / 2 ^ n, phaseGo 32 (re, im) 0)

/-- The component as the device forms it (R289): amp = floor(|c|) and its phase; with amp ≥ 256, AMP any whole number within
one LSB plus 2^-20 of |c| and PHASE within 2^-16 turn, the deviations being free values (notes/assumptions/23). -/
def orderComponent (s : State) (y : List Int) (n k : Nat) : Nat × Nat × State :=
  let (c, ph) := orderExact y n k
  -- a value that the fixed point leaves this little below a whole number is that number
  let amp := (c + 2 ^ 40) >>> ciBits
  if amp < 256 then (amp, ph, s)
  else
    let (f1, s) := s.freeWord
    let (f2, s) := s.freeWord
    let b := 2 ^ ciBits + 2 ^ (ciBits - 20)
    let lo := (c - b + 2 ^ ciBits - 1) >>> ciBits
    let hi := (c + b) >>> ciBits
    (lo + f1 % (hi - lo + 1), (ph + f2 % (2 ^ 17 + 1) + 2 ^ 32 - 2 ^ 16) % 2 ^ 32, s)

/-! ### Enabling (R281, Table 11.6) -/

/-- Maps that a channel uses. -/
def mapsOf (mapEn idx : Nat) : List Nat :=
  if mapEn = 0 then [] else if mapEn = 3 then [idx, idx + 1] else [idx]

/-- The checks of an angle channel's enable. -/
def angCheck (s : State) (g : Nat) : Nat :=
  let w (o : Nat) : Nat := s.word (angBase g + o)
  let c : AngCh := { (default : AngCh) with cfg := w 0, order := w 8, offset := w 0x10, speed := w 0x18, map := w 0x20 }
  let others := enabledAngs s
  let load := (others.map (fun h => (s.angCh h).m * (s.angCh h).maxSpeed)).foldl (· + ·) 0
  let size := getBits (w 0x30) 0 40
  let used := others.flatMap (fun h => mapsOf (s.angCh h).mapEn (s.angCh h).mapIdx)
  let mine := mapsOf c.mapEn c.mapIdx
  let rc := (s.leAx c.cmpAxis).cfg
  firstReason
    [test (!s.enabled pANG) 0x0741, test (angOn s g) 0x0742,
     test (!chOn s c.source || (s.aeCh c.source).kind ≠ 2) 0x0743,
     test (!fbIsActive s c.axis) 0x0744,
     test (c.mlog < 6 || c.mlog > 12 || c.navg = 0 || c.navg > 1024 || c.k = 0 || c.k ≥ c.m / 2 ||
       (c.outMode = 0 && c.mapEn = 0)) 0x0745,
     test (c.maxSpeed = 0 || c.minSpeed ≥ c.maxSpeed) 0x0746,
     test (load + c.m * c.maxSpeed > 64000000 * 65536) 0x0747,
     test (c.outMode ≠ 0 && (w 0x28 % 64 ≠ 0 || size % 64 ≠ 0 || size < 4 * (64 + 4 * c.m))) 0x0748,
     test (bit c.order 63 && (!axisEnabled s c.cmpAxis || !rc.repEn ||
       getBits rc.repCfg F.REP_CFG_ANGLE_AXIS.lo F.REP_CFG_ANGLE_AXIS.w ≠ c.axis || c.k ≥ repN rc.repCfg / 2)) 0x0749,
     test (mine.any (fun m => m > 1023 || used.contains m)) 0x074A]

/-- Address of a channel's averaging sum of point `j` (Table 11.1). -/
def sumAddr (g j : Nat) : Nat := dramBase + 0x3F8000000 + 0x8000 * g + 8 * j

/-- The first `n` averaging sums and AVG_COUNT return to 0. -/
def clearAvg (s : State) (g n : Nat) : State :=
  let s := forEach (fun j s => s.setWord (sumAddr g j) 0) (List.range n) s
  (angPut s g F.ANG_STATUS_AVG_COUNT 0).onAng g (fun c => { c with avgFlags := 0 })

/-- An angle channel is enabled (R281). -/
def angEnable (s : State) (g : Nat) : State :=
  let w (o : Nat) : Nat := s.word (angBase g + o)
  let c : AngCh := { (default : AngCh) with
    cfg := w 0, order := w 8, offset := w 0x10, speed := w 0x18, map := w 0x20, base := w 0x28
    size := getBits (w 0x30) 0 40 }
  let s := s.onAng g (fun _ => c)
  let s := { s with ang := { s.ang with axes := nsAdd s.ang.axes c.axis } }
  let s := clearAvg s g 4096
  let s := (s.setWord (angBase g + 0x58) 0).setWord (angBase g + 0x50) 0
  let s := s.setWord (angBase g + 0x40) (s.word (angBase g + 0x38))
  let s := s.setWord (angBase g + 0x48) (1 <<< 62)
  mapBit (mapBit s (F.ANG_RUNMAP 0).adr g true) (F.ANG_OVFMAP 0).adr g false

/-- An angle channel is disabled (R281). -/
def angDisable (s : State) (g : Nat) : State :=
  if !angOn s g then s
  else
    let s := angPut (angPut (angPut s g F.ANG_STATUS_STATE 0) g F.ANG_STATUS_AVG_COUNT 0) g F.ANG_STATUS_RING_OVF 0
    let s := mapBit (mapBit s (F.ANG_RUNMAP 0).adr g false) (F.ANG_OVFMAP 0).adr g false
    { s with ang := { s.ang with ch := s.ang.ch.set g default, due := s.ang.due.filter (fun e => e.1 != g) } }

/-! ### Persistence maps (R295) -/

/-- Address of a map's count (R280). -/
def mapAddr (m a b : Nat) : Nat := dramBase + 0x3F0000000 + 0x20000 * m + 2 * (256 * a + b)

/-- A 16-bit count. -/
def mapCount (s : State) (ad : Nat) : Nat × State := devRead s 0x47 ad 2

/-- One contribution of a waveform to map `m`; `n` contributions came before it (R295). -/
def contribute (s : State) (c : AngCh) (m n : Nat) (y : List Int) : State :=
  let low := toS 32 (getBits c.map 32 32)
  let sh := getBits c.map 25 5
  let point (p : Nat × Int) (s : State) : State :=
    let a := if c.mlog ≥ 8 then p.1 >>> (c.mlog - 8) else p.1 <<< (8 - c.mlog)
    let b := (clampI 0 255 (shr (p.2 - low) sh)).toNat
    let ad := mapAddr m a b
    let (v, s) := mapCount s ad
    memWrite s 0x47 ad (min 65535 (v + 1)) 2
  let s := forEach point ((List.range y.length).zip y) s
  let k := getBits c.map 21 4
  if k ≠ 0 && (n + 1) % 2 ^ k = 0 then
    forEach (fun i s => let ad := mapAddr m 0 i; let (v, s) := mapCount s ad; memWrite s 0x47 ad (v / 2) 2) (List.range 65536) s
  else s

/-! ### Revolutions and averages (R286 to R288, R291) -/

/-- A record that OUT_MODE selects joins those to be written. -/
def pushRec (s : State) (g : Nat) (r : AngRec) : State :=
  if bit (s.angCh g).outMode (r.kind - 1) then { s with ang := { s.ang with due := s.ang.due ++ [(g, r)] } } else s

/-- The sums of an average are divided, written and cleared (R288). -/
def finishAvg (s : State) (g : Nat) (last : DT) : State :=
  let c := s.angCh g
  let s := s.noteReads 0x47 (sumAddr g 0) c.m
  let avg := (List.range c.m).map (fun j => fdiv (toS 64 (s.word (sumAddr g j))) c.navg)
  let flags := c.avgFlags + 4 * b2n c.avgRestart + 8 * ang s g F.ANG_STATUS_SPARSE
  let s := pushRec s g { kind := 2, flags, startDt := c.avgDt, endDt := last, rev := c.avgRev, revs := c.navg, y := avg }
  let s := if bit c.mapEn 1 then
      let m := if c.mapEn = 3 then c.mapIdx + 1 else c.mapIdx
      (contribute s c m c.contribA avg).onAng g (fun c => { c with contribA := c.contribA + 1 })
    else s
  (clearAvg s g c.m).onAng g (fun c => { c with avgRestart := false })

/-- A revolution is complete (R286 to R288, R295). -/
def finishRev (s : State) (g : Nat) : State :=
  let c := s.angCh g
  -- M × speed < 1 / (2 × interval), with the mean speed from point 0 to point M − 1 (R285; DEDUCED, notes/assumptions/36)
  let sparse := decide ((((c.m - 1) * 2 * (s.aeCh c.source).interval : Nat) : Int) < dtDiff c.lastDt c.firstDt)
  let s := angPut s g F.ANG_STATUS_SPARSE (b2n sparse)
  let s := angPut s g ⟨0x50, 32, 32⟩ (ang s g ⟨0x50, 32, 32⟩ + 1)
  let rev := ofS 32 c.rev
  let s := pushRec s g { kind := 1, flags := c.flags + 8 * b2n sparse, startDt := c.firstDt, endDt := c.lastDt
                         rev := rev, revs := 1, y := c.y }
  let s := if bit c.mapEn 0 then
      (contribute s c c.mapIdx c.contribR c.y).onAng g (fun c => { c with contribR := c.contribR + 1 })
    else s
  let s := if bit c.cfg 59 && c.flags % 4 ≠ 0 then s
    else
      let n := ang s g F.ANG_STATUS_AVG_COUNT
      let s := s.noteReads 0x47 (sumAddr g 0) c.y.length
      let s := forEach (fun p s =>
        s.setWord (sumAddr g p.1) (ofS 64 (sat64 (toS 64 (s.word (sumAddr g p.1)) + p.2))))
        ((List.range c.y.length).zip c.y) s
      let s := s.onAng g (fun c => { c with
        avgFlags := c.avgFlags ||| c.flags
        avgDt := if n = 0 then c.firstDt else c.avgDt, avgRev := if n = 0 then rev else c.avgRev })
      let s := angPut s g F.ANG_STATUS_AVG_COUNT (n + 1)
      if n + 1 ≥ c.navg then finishAvg s g c.lastDt else s
  angPut (s.onAng g (fun c => { c with
    coll := false, y := [], j := 0, flags := 0, stallTold := false, lastBad := false })) g F.ANG_STATUS_STATE 1

/-- A revolution is abandoned (R286, R287, R288). -/
def abandonNow (s : State) (g why : Nat) : State :=
  let c := s.angCh g
  let ab : Fld := ⟨0x50, 0, 32⟩
  let s := angPut s g ab (satInc 32 (ang s g ab))
  let s := angPut (angPut s g F.ANG_STATUS_LAST_ABANDON why) g F.ANG_STATUS_STATE 1
  let s := s.onAng g (fun c => { c with coll := false, y := [], j := 0, flags := 0, lastBad := true, stallTold := true })
  let s := if why = 6 || why = 8 then (clearAvg s g c.m).onAng g (fun c => { c with avgRestart := true }) else s
  if c.stallTold then s else raisePage s pANG 1 (g + (why <<< 16))

/-- A revolution in progress is abandoned. -/
def abandon (s : State) (g why : Nat) : State := if (s.angCh g).coll then abandonNow s g why else s

/-- The revolution in which angle `th` lies. -/
def revOf (c : AngCh) (th : Int) : Int := fdiv (th - c.ofs) (2 ^ 32)

/-- The angle has not risen from `p` to `th`: the revolution in progress is abandoned with REVERSE, and so is every revolution
through whose point 0 a roll that turns backward passes (R282; DEDUCED, notes/assumptions/36). -/
def reverse (s : State) (g : Nat) (p : AngPt) (th : Int) : State :=
  let c := s.angCh g
  if c.coll then abandonNow s g 3
  else forEach (fun _ s => abandonNow s g 3) (List.range (revOf c p.theta - revOf c th).toNat) s

/-- The revolutions of which a grid point lies between two samples taken up, or may come after them, are abandoned: the one in
progress and each that would begin (R286). -/
def abandonThrough (s : State) (g why : Nat) (p q : AngPt) : State :=
  let c := s.angCh g
  forEach (fun _ s => abandonNow s g why) (List.range (revOf c q.theta - revOf c p.theta).toNat) (abandon s g why)

/-- Grid points between two samples taken up (R285, R286), those beyond the angle `from'` alone; `fuel` bounds them. -/
def gridPoints (s : State) (g : Nat) (p q : AngPt) (flags : Nat) (from' : Int) : Nat → State
  | 0 => s
  | fuel + 1 =>
    let c := s.angCh g
    let step := 2 ^ (32 - c.mlog)
    let rev := if c.coll then c.rev else revOf c from' + 1
    let phi := shl rev 32 + ((c.j * step + c.ofs : Nat) : Int)
    if p.theta < phi && phi ≤ q.theta then
      let u := fdiv (shl (phi - p.theta) 32) (q.theta - p.theta)
      let y := p.x + shr ((q.x - p.x) * u) 32
      let t := dtAdd p.dt (shr (dtDiff q.dt p.dt * u) 32)
      let s := if c.coll then s else angPut s g F.ANG_STATUS_STATE 2
      let s := s.onAng g (fun c => { c with
        coll := true, rev := rev, j := c.j + 1, y := c.y ++ [y], lastDt := t
        firstDt := if c.coll then c.firstDt else t, flags := if c.coll then c.flags ||| flags else flags })
      let s := if (s.angCh g).j ≥ c.m then finishRev s g else s
      gridPoints s g p q flags phi fuel
    else s

/-- Address of entry `n` of the latch history of axis `a` (R280, R283). -/
def latchAddr (a n : Nat) : Nat := sramBase + 0xC00000 + 0x2000 * a + 64 * (n % 128)

/-- A word of a latch entry: FB_POS, FB_DT, FB_VEL, FB_ACC, FB_TURN and flags (R283). -/
def latchWord (s : State) (a n o : Nat) : Nat := s.word (latchAddr a n + o)

/-- The number of the entry with the greatest FB_DT ≤ t, where one with FB_DT > t follows it: none while the sample
must wait, `some none` when it precedes the oldest entry held (R284). -/
def latchFind (s : State) (a : Nat) (t : DT) : Option (Option Nat) :=
  let n := s.ang.latch.look a
  let lo := n - 128
  let dtOf (i : Nat) : DT := BitVec.ofNat 64 (latchWord s a i 8)
  if n = 0 || dtDiff (dtOf (n - 1)) t ≤ 0 then none
  else some (((List.range (n - lo)).reverse.map (fun i => lo + i)).find? (fun i => dtDiff t (dtOf i) ≥ 0))

/-- θ(t) from a latch entry, in turns with a 32-bit fraction (R110, R284). -/
def thetaAt (s : State) (a i : Nat) (t : DT) : Int :=
  let w (o : Nat) : Nat := latchWord s a i o
  let pos := toS 64 (w 0)
  let p := extrap2 pos (toS 64 (w 16)) (toS 64 (w 24)) (tauOf (dtDiff t (BitVec.ofNat 64 (w 8))))
  toS 64 (turnAdd (w 32) (p - pos) (s.fbAx a).cpr)

/-- The angle that a sample's Turn names beside the point before it: the revolution count wraps modulo 2^32 (R105), and the
nearer angle is taken. -/
def unwrapTurns (prev : Option AngPt) (th : Int) : Int :=
  match prev with
  | some p => p.theta + toS 64 (ofS 64 (th - p.theta))
  | none => th

/-- A source sample is taken up with the latch entry `i` (R284 to R286). The conditions on the entry used, and the
step of the entry after it (STEP), end every revolution that the sample would serve, before any of its grid points is formed;
of several at one sample the first of Table 11.2 is the reason. -/
def angTake (s : State) (g : Nat) (e : AeSmp) (i : Nat) : State :=
  let c := s.angCh g
  let a := c.axis
  let s := s.noteReads 0x47 (latchAddr a i) 6
  let f := s.fbAx a
  let th := unwrapTurns c.prev (thetaAt s a i e.dt)
  let q : AngPt := { dt := e.dt, x := e.x, theta := th, entry := i }
  let extrap := bit (latchWord s a i 40) 1
  let vel := toS 64 (latchWord s a i 16)
  let stepIn (lo hi : Nat) : Bool := (List.range (hi - lo)).any (fun d => bit (latchWord s a (lo + 1 + d) 40) 2)
  let jumped := match c.prev with | some p => stepIn p.entry i | none => false
  let stepNext := stepIn i (i + 1)
  let speed := vel * 65536
  let unit : Int := ((f.cpr * 2 ^ 24 : Nat) : Int)
  let bad : Option Nat :=
    if speed < unit * c.minSpeed then some 4
    else if speed > unit * c.maxSpeed then some 5
    else if stepNext then some 6
    else if fbIsLost s a || !fbIsActive s a then some 7
    else if bit c.cfg 58 && !s.axb a F.FB_STATUS_REFERENCED then some 8
    else none
  let s := if e.gap then abandon s g 1 else s
  let s := if jumped then abandon s g 6 else s
  let s := match c.prev with
    | some p => if !jumped && decide (th ≤ p.theta) then reverse s g p th else s
    | none => s
  let flags := b2n extrap + 2 * b2n e.ovr
  let s := match c.prev, bad with
    | some p, some why =>
      if jumped || e.gap || decide (th ≤ p.theta) then abandon s g why else abandonThrough s g why p q
    | none, some why => abandon s g why
    | some p, none =>
      if jumped || e.gap || decide (th ≤ p.theta) then s
      else
        let s := if (s.angCh g).coll then s.onAng g (fun c => { c with flags := c.flags ||| flags }) else s
        gridPoints s g p q flags p.theta (((q.theta - p.theta) / 2 ^ (32 - c.mlog)).toNat + 2)
    | none, none => s
  s.onAng g (fun c => { c with prev := if stepNext then none else some q })

/-- The samples of an angle channel that can be taken up (R284); `fuel` is their number. -/
def angDrain (s : State) (g : Nat) : Nat → State
  | 0 => s
  | fuel + 1 =>
    let c := s.angCh g
    match c.queue with
    | [] => s
    | e :: r =>
      match latchFind s c.axis e.dt with
      | none => s
      | some none =>
        let s := (abandon s g 2).onAng g (fun c => { c with queue := r, prev := none })
        angDrain s g fuel
      | some (some i) => angDrain (angTake (s.onAng g (fun c => { c with queue := r })) g e i) g fuel

/-- Every enabled angle channel takes up what it can, after a feedback update or a source sample. -/
def angTakeUp (s : State) : State := forEach (fun g s => angDrain s g (s.angCh g).queue.length) (enabledAngs s) s

/-- A raw sample of a channel reaches the angle channels that name it. -/
def angSource (s : State) (c : Nat) (e : AeSmp) : State :=
  forEach (fun g s =>
    if (s.angCh g).source = c then
      s.onAng g (fun x => { x with queue := x.queue ++ [{ e with gap := e.gap || x.lossDue }], lossDue := false })
    else s) (enabledAngs s) s

/-- A source sample of channel `c` was dropped (R255): the revolution of the next one is abandoned with GAP (R286). -/
def angDropped (s : State) (c : Nat) : State :=
  forEach (fun g s => if (s.angCh g).source = c then s.onAng g (fun x => { x with lossDue := true }) else s) (enabledAngs s) s

/-- An axis that is not feedback-active ends the revolutions on it with LOST, and what waits for its entries is dropped (R286;
DEDUCED, notes/assumptions/36). -/
def angAxesOff (s : State) : State :=
  forEach (fun g s =>
    if fbIsActive s (s.angCh g).axis then s
    else (abandon s g 7).onAng g (fun x => { x with prev := none, queue := [] })) (enabledAngs s) s

/-- The source `c` is disabled (R281): samples not yet taken up are dropped, and the revolution is abandoned with LOST. -/
def angSourceOff (s : State) (c : Nat) : State :=
  forEach (fun g s =>
    if (s.angCh g).source = c then (abandon s g 7).onAng g (fun x => { x with prev := none, queue := [] }) else s)
    (enabledAngs s) s

/-! ### Writing records (R290 to R293) -/

/-- The comparison of a record (R290): none without COMPARE_EN or with no valid table, `some none` when the order folds
(ALIAS), else the bins of the table to be read. -/
def compareOf (s : State) (c : AngCh) : Option (Option Nat) :=
  let x := (s.leAx c.cmpAxis).cfg
  let n := repN x.repCfg
  if !(bit c.order 63 && axisEnabled s c.cmpAxis && x.repEn) then none
  else if c.k ≥ n / 2 then some none
  else if s.axb c.cmpAxis F.REP_STATUS_SYNCING || s.axb c.cmpAxis F.REP_STATUS_STALE then none
  else some (some n)

/-- The table comparison of R290: CMP, amplitude, phase. -/
def compareTable (s : State) (c : AngCh) : Nat × Nat × Nat × State :=
  match compareOf s c with
  | none => (0, 0, 0, s)
  | some none => (2, 0, 0, s)
  | some (some n) =>
    let base := getBits (s.leAx c.cmpAxis).cfg.repCfg F.REP_CFG_BASE.lo F.REP_CFG_BASE.w
    let (t, s) := devReads s 0x47 (repEntryAddr base 0) 4 n
    let t := t.map (toS 32)
    let (a, p, s) := orderComponent s t (Nat.log2 n) c.k
    (1, a, p, { s with ang := { s.ang with tableLeft := s.ang.tableLeft - n } })

/-- Whether the next record of channel `g` may be written now: its table read is possible, within the entries left in the
cycle, and its turn (R290). A standby reads whenever no copy is being applied. -/
def angReady (s : State) (g : Nat) : Bool :=
  match compareOf s (s.angCh g) with
  | some (some n) =>
    let reads (e : Nat × AngRec) : Bool := match compareOf s (s.angCh e.1) with | some (some _) => true | _ => false
    let first := match s.ang.due.find? reads with | some e => e.1 = g | none => false
    first && (!s.time.running || ((s.standby || s.ang.tableOpen) && n ≤ s.ang.tableLeft))
  | _ => true

/-- Bytes of an angle record (Table 11.3). -/
def angBytes (s : State) (g rtype flags cmp amp ph tamp tph : Nat) (r : AngRec) : List Nat :=
  let c := s.angCh g
  let body := if rtype ≤ 2 then r.y.flatMap (fun v => leInt v 4) else []
  let len := (64 + body.length + 63) / 64 * 64
  padTo len ([rtype, flags] ++ leBytes g 2 ++ leBytes len 4 ++ leBytes (s.word (angBase g + 0x58)) 8 ++
    leBytes r.startDt.toNat 8 ++ leBytes r.endDt.toNat 8 ++ leBytes r.rev 4 ++ leBytes r.revs 2 ++ [c.mlog, cmp] ++
    leBytes amp 4 ++ leBytes ph 4 ++ leBytes tamp 4 ++ leBytes tph 4 ++ leBytes s.tu.gen.toNat 2 ++
    leBytes s.time.era.toNat 2 ++ leBytes c.k 2 ++ [0, 0] ++ body)

/-- DM13 carries a record into the record ring: ANG_WR and ANG_SEQ advance, and with WAKE_EN the context is told (R292, R293). -/
def angPutBytes (s : State) (g : Nat) (l : List Nat) : State :=
  let c := s.angCh g
  let wr := s.word (angBase g + 0x40)
  let s := devCarried (devWrites s 0x2D (c.base + wr % c.size) (wordsOf l)) 13 (c.base + wr % c.size) l.length 0 l.length
  let s := s.setWord (angBase g + 0x40) ((wr + l.length) % 2 ^ 64)
  let s := s.setWord (angBase g + 0x58) ((s.word (angBase g + 0x58) + 1) % 2 ^ 64)
  if bit c.order 62 then sendNotice s (getBits c.order 48 10) else s

/-- Free bytes of an angle ring. -/
def angFree (s : State) (g : Nat) : Int :=
  let used : Nat := (s.word (angBase g + 0x40) + 2 ^ 64 - s.word (angBase g + 0x38)) % 2 ^ 64
  ((s.angCh g).size : Int) - used

/-- The ring overflows: an OVERFLOW record goes into the kept space (R292). -/
def angOverflow (s : State) (g : Nat) (r : AngRec) : State :=
  let c := s.angCh g
  let l := angBytes s g 3 0 0 0 0 0 0 r
  let s := match spanFault s (c.base + s.word (angBase g + 0x40) % c.size) 64 with
    | some (k, lv, a) => raiseXuFault (devCarried s 13 (c.base + s.word (angBase g + 0x40) % c.size) 64 3 0) 0x2D k lv a
    | none => angPutBytes s g l
  let s := mapBit (angPut s g F.ANG_STATUS_RING_OVF 1) (F.ANG_OVFMAP 0).adr g true
  raisePage s pANG 2 g

/-- A record goes to the ring, with the PAD record that the ring's end requires before it (R291, R292, R375). -/
def angEmit (s : State) (g : Nat) (r : AngRec) : State :=
  let c := s.angCh g
  let s := s.noteReads 0x47 (angBase g + 0x38) 5
  let (amp, ph, s) := orderComponent s r.y c.mlog c.k
  let (cmp, tamp, tph, s) := compareTable s c
  let ovf := ang s g F.ANG_STATUS_RING_OVF = 1
  let room := decide (angFree s g * 2 ≥ (c.size : Int))
  if ovf && !room then s
  else
    let s := if ovf then
        let s := mapBit (angPut s g F.ANG_STATUS_RING_OVF 0) (F.ANG_OVFMAP 0).adr g false
        (raisePage s pANG 3 g).onAng g (fun c => { c with ringRestart := true })
      else s
    let mk (s : State) : List Nat :=
      angBytes s g r.kind (r.flags ||| (4 * b2n (s.angCh g).ringRestart)) cmp amp ph tamp tph r
    let len := (mk s).length
    let pos := s.word (angBase g + 0x40) % c.size
    let pad := if pos + len > c.size then c.size - pos else 0
    if (pad + len + 64 : Int) > angFree s g then angOverflow s g r
    else
      let bad := match (if pad = 0 then none else spanFault s (c.base + pos) pad) with
        | some e => some e
        | none => spanFault s (if pad = 0 then c.base + pos else c.base) len
      match bad with
      | some (k, lv, a) => angOverflow (raiseXuFault (devCarried s 13 (if pad = 0 then c.base + pos else c.base) len 3 0) 0x2D k lv a) g r
      | none =>
        let padRec : AngRec := { (default : AngRec) with startDt := s.stamp, endDt := s.stamp }
        let pb := angBytes s g 4 0 0 0 0 0 0 padRec
        let s := if pad = 0 then s
          else angPutBytes s g (padTo pad (pb.take 4 ++ leBytes pad 4 ++ pb.drop 8))
        (angPutBytes s g (mk s)).onAng g (fun c => { c with ringRestart := false })

/-- ANGLE_RECORD_WRITE: the oldest complete record of channel `g` is written (R291). -/
def angleRecordWrite (s : State) (g : Nat) : State :=
  match s.ang.due.find? (fun e => e.1 = g) with
  | none => s
  | some e =>
    if !angReady s g then s
    else angEmit { s with ang := { s.ang with due := s.ang.due.erase e } } g e.2

/-! ### Histograms (R294) -/

/-- Address of bin `b` of channel `c` (Table 11.1). -/
def binAddr (c b : Nat) : Nat := sramBase + 0x800000 + 0x400 * c + 4 * b

/-- Whether the histogram of channel `c` is enabled. -/
def histOn (s : State) (c : Nat) : Bool := bit (s.reg (F.HIST_MAP (c / 64)).adr) (c % 64)

/-- The checks of a histogram enable (Table 11.6). -/
def histCheck (s : State) (c : Nat) : Nat :=
  let slot := getBits (s.word (monBase c)) 0 3
  firstReason
    [test (!s.enabled pANG) 0x0741,
     test (!chOn s c || slot > 4 || (slot > 0 && !bit (s.aeCh c).cfg (49 + slot - 1))) 0x0750]

/-- A histogram is enabled: MON_HIST is read (R294). -/
def histEnable (s : State) (c : Nat) : State :=
  let s := mapBit s (F.HIST_MAP 0).adr c true
  { s with ang := { s.ang with hist := s.ang.hist.set c (some (s.word (monBase c))) } }

/-- A histogram stops counting (R294). -/
def histDisable (s : State) (c : Nat) : State :=
  let s := mapBit s (F.HIST_MAP 0).adr c false
  { s with ang := { s.ang with hist := s.ang.hist.set c none } }

/-- A raw sample, or a value of reduction slot `slot`, is counted (R294). -/
def histSample (s : State) (c slot : Nat) (x : Int) : State :=
  match s.ang.hist.look c with
  | none => s
  | some m =>
    if getBits m 0 3 ≠ slot then s
    else
      let b := (clampI 0 255 (shr (x - toS 32 (getBits m 32 32)) (getBits m 8 5))).toNat
      let ad := binAddr c b
      let (v, s) := devRead s 0x47 ad 4
      memWrite s 0x47 ad (satInc 32 v) 4

/-! ### Copies (R296) -/

/-- The checks of a copy (Table 11.6). -/
def copyCheck (s : State) (op idx : Nat) : Nat :=
  let owned := (enabledAngs s).any (fun g => (mapsOf (s.angCh g).mapEn (s.angCh g).mapIdx).contains idx)
  firstReason
    [test (!s.enabled pANG) 0x0741, test s.ang.copy.isSome 0x0751,
     test ((op = 1 && !histOn s idx) || (op = 2 && !owned) || s.reg F.ANG_COPY_DEST.adr % 64 ≠ 0) 0x0752]

/-- Words of a span written to an XU address until one cannot be, and how many were; the first fault is reported (R375), and a poisoned
word of the source is copied as 0 with a report (R359). -/
def copyWords (s : State) (src : Nat) (a : Nat) : Nat → State × Nat
  | 0 => (s, 0)
  | n + 1 => match xlate s a with
    | .fault k l => (raiseXuFault s 0x2F k l a, 0)
    | _ =>
      let (v, s) := devRead s 0x2F src 8
      let (s, k) := copyWords (devWrite s 0x2F a v) (src + 8) (a + 8) n
      (s, k + 1)

/-- A copy is taken at this instant (R296), and DM15 carries it: 256 bins of 4 bytes, or a map of 128 KiB. -/
def copyTake (s : State) (op idx : Nat) (clear : Bool) : State :=
  let src := if op = 1 then binAddr idx 0 else mapAddr idx 0 0
  let n := if op = 1 then 128 else 16384
  let dest := s.reg F.ANG_COPY_DEST.adr
  let (s, k) := copyWords s src dest n
  let s := devCarried s 15 dest (8 * n) (if k < n then 3 else 0) (8 * k)
  let s := if clear then forEach (fun i s => s.setWord (src + 8 * i) 0) (List.range n) s else s
  let s := (s.put F.ANG_COPY_STATE_DONE 0).put F.ANG_COPY_STATE_BUSY 1
  let s := s.setReg F.ANG_COPY_DT.adr s.dtN
  { s with ang := { s.ang with copy := some (op, idx) } }

/-- COPY_DONE (R296). -/
def copyDone (s : State) : State :=
  match s.ang.copy with
  | none => s
  | some (_, idx) =>
    let s := (s.put F.ANG_COPY_STATE_DONE 1).put F.ANG_COPY_STATE_BUSY 0
    raisePage { s with ang := { s.ang with copy := none } } pANG 4 idx

/-- STATE of the angle page. -/
def angState (s : State) : Nat :=
  let l := enabledAngs s
  (l.length <<< 32) + (b2n s.ang.copy.isSome <<< 2) + (b2n (l.any (fun g => (s.angCh g).lastBad)) <<< 1) +
  b2n (l.any (fun g => ang s g F.ANG_STATUS_RING_OVF = 1))

end Sys2Proof.Machine
end

