-- ==== Sys2Proof/Machine/Samples.lean ====
section
/-! DEFINITION. Samples of the acquisition channels and where they go: blocks and gaps, reductions, streams,
records, triggers, histograms and angle channels (R251 to R256, R263, R264). -/

namespace Sys2Proof.Machine

/-! ### Reductions (R263, R264) -/

/-- A running stream takes what is stamped `dt`: with AT_DT only from ST_START_DT on (R258). -/
def strTakes (s : State) (n : Nat) (dt : DT) : Bool :=
  let x := s.str n
  x.state = 2 && !(bit x.cfg 61 && decide (dtDiff dt x.start < 0))

/-- The value of a group goes to the stream and the histogram (R263, R264). -/
def redEmit (s : State) (c k : Nat) (r : AeRed) (g : Int) : State :=
  let h := s.aeCh c
  let kind := getBits h.cfg (41 + 2 * (k - 1)) 2
  let n := h.stream
  let v := redValue kind r
  let factor := h.factor k
  let flags := b2n r.gap + 2 * b2n r.ovr + 4 * b2n (decide (r.places < factor))
  let dt := match h.origin with
    | some o => dtAdd o (g * ((factor * h.interval : Nat) : Int))
    | none => s.dt
  let s := if strTakes s n dt && !bit (s.str n).cfg 63 then
      enterValue s n c k (kind + 1) flags (factor * h.interval) (r.gap || r.fresh) dt v
    else s
  histSample s c k v

/-- A sample joins the group of slot `k` (R263, R264). One that rounds to a position of a group already complete joins none
(notes/assumptions/36). A group that begins after groups from 0 on without a sample carries GAP. -/
def redSample (s : State) (c k : Nat) (e : AeSmp) : State :=
  let h := s.aeCh c
  match h.origin with
  | none => s
  | some o =>
    let pos := redPos o e.dt h.interval
    let factor := h.factor k
    let g := fdiv pos factor
    let r := h.red.look k
    let next (r : AeRed) (s : State) : State :=
      let first := r.count = 0
      let r := { r with
        sum := r.sum + e.x, sumsq := r.sumsq + e.x * e.x, count := r.count + 1, ovr := r.ovr || e.ovr
        places := if first || pos ≠ r.lastPos then r.places + 1 else r.places, lastPos := pos
        min := if first || e.x < r.min then e.x else r.min, max := if first || e.x > r.max then e.x else r.max }
      if pos = g * factor + factor - 1 then
        -- the last position has been sampled: the group is complete, the next begins (R264)
        let s := redEmit s c k r g
        s.onCh c (fun h => { h with red := h.red.set k { (default : AeRed) with group := some (g + 1) } })
      else s.onCh c (fun h => { h with red := h.red.set k r })
    match r.group with
    | none => next { (default : AeRed) with group := some g, gap := e.gap || decide (g > 0), fresh := true } s
    | some old =>
      if g < old then s
      else if g = old then next r s
      else
        let skipped := decide (g > max (old + 1) 0) || (r.count = 0 && decide (old ≥ 0))
        next { (default : AeRed) with group := some g, gap := skipped } (if r.count = 0 then s else redEmit s c k r old)

/-- A change of INTERVAL ends the groups as incomplete, and the next sample is the new origin (R264). -/
def redRestart (s : State) (c : Nat) : State :=
  let s := forEach (fun k s =>
    let r := (s.aeCh c).red.look k
    match r.group with
    | some g => if r.count = 0 then s else redEmit s c k r g
    | none => s) [1, 2, 3, 4] s
  s.onCh c (fun h => { h with red := [], origin := none })

/-! ### One sample -/

/-- A sample stamped before ST_START_DT does not enter a WAITING stream; the first one from then on makes it
RUNNING (R258). The intervals of MAP_INTERVAL that passed while it was WAITING bring no packet (R262). -/
def waitStart (s : State) (n : Nat) (dt : DT) : State :=
  if (s.str n).state = 1 && dtDiff dt (s.str n).start ≥ 0 then
    let every := mapEvery s
    (setStr s n 2).onStr n (fun x => { x with
      mapped := dtAdd x.mapped (fdiv (dtDiff s.dt x.mapped) every * every) })
  else s

/-- A sample of channel `c` is taken in. -/
def aeOne (s : State) (c : Nat) (e : AeSmp) : State :=
  let prev := (s.aeCh c).last
  let n := (s.aeCh c).stream
  let s := { s with ae := { s.ae with samples := s.ae.samples + 1 } }
  let s := s.onCh c (fun h => { h with last := some e, origin := match h.origin with
    | some o => some o
    | none => some e.dt })
  let s := autoRestart (waitStart s n e.dt) n
  let x := s.str n
  let s := if !strTakes s n e.dt then s
    else if bit x.cfg 63 then recordSample s n c e
    else if bit x.cfg 62 then
      enterValue s n c 0 0 (b2n e.gap + 2 * b2n e.ovr) e.step e.fresh e.dt e.x
    else s
  let s := forEach (fun k s => if bit (s.aeCh c).cfg (49 + k - 1) then redSample s c k e else s) [1, 2, 3, 4] s
  let s := histSample s c 0 e.x
  let s := angSource s c e
  trigSample s c prev e e.step

/-- A run of equally spaced samples: the first DT is compared with the expected one (R255). -/
def aeBlock (s : State) (c : Nat) (first : DT) (interval : Nat) (gap ovr : Bool) (l : List Int) : State :=
  let h := s.aeCh c
  let changed := h.interval ≠ interval && h.last.isSome
  let s := if changed then redRestart s c else s
  let s := s.onCh c (fun h => { h with interval := interval, next := if changed then none else h.next })
  let h := s.aeCh c
  let d : Int := match h.next with
    | some e => dtDiff first e
    | none => 0
  let later := decide (2 * d > (interval : Int))
  let early (i : Nat) : Bool := match h.next with
    | some e => decide (2 * (dtDiff (dtAdd first ((i * interval : Nat) : Int)) e) < -(interval : Int))
    | none => false
  let all := (List.range l.length).zip l
  let lost := (all.filter (fun p => early p.1)).length
  let keep := all.filter (fun p => !early p.1)
  let s := if lost = 0 then s
    else
      let f := s.mg (chBase c) F.CH_STATUS_DROPPED
      let s := s.mput (chBase c) F.CH_STATUS_DROPPED (satAdd 32 f lost)
      angDropped { s with ae := { s.ae with discard := s.ae.discard + lost } } c
  let g0 := gap || later
  let s := forEach (fun p s =>
    let lead := match keep with | q :: _ => q.1 = p.1 | [] => false
    aeOne s c { dt := dtAdd first ((p.1 * interval : Nat) : Int), x := p.2, gap := lead && g0, ovr := lead && ovr
                fresh := lead && (g0 || changed || h.last.isNone), step := interval }) keep s
  if keep = [] then s
  else s.onCh c (fun h => { h with next := some (dtAdd first ((l.length * interval : Nat) : Int)) })

/-! ### Sources (R252 to R254) -/

/-- The samples of an accepted SENSOR frame (R254). -/
def aeSensor (s : State) (seg node : Nat) (b : SensorBody) : State :=
  let s := mapFollow s
  let one (c : Nat) (s : State) : State :=
    let h := s.aeCh c
    if h.kind ≠ 2 || h.src 24 3 ≠ seg || h.src 16 5 ≠ node then s
    else match b.chans.findIdx? (fun k => k = h.src 0 8) with
      | none => s
      | some col =>
        let xs := b.rows.map (fun r => toS 32 (ofS 32 ((r[col]?).getD 0)))
        if b.interval ≠ h.expect then
          let f := s.mg (chBase c) F.CH_STATUS_RATE_ERR
          let s := s.mput (chBase c) F.CH_STATUS_RATE_ERR (satInc 32 f)
          raisePage { s with ae := { s.ae with discard := s.ae.discard + xs.length } } pAE 3 c
        else aeBlock s c b.firstDt b.interval b.gap b.overrange xs
  angTakeUp (forEach one (enabledChs s) s)

/-- A SENSOR frame arrives at field port `p` (R198, R204, R206, R230). -/
def sensorReceived (s : State) (p : Nat) (h : FrameHdr) (b : SensorBody) : State :=
  match fpReceive s p h with
  | (false, s) => s
  | (true, s) =>
    let copy := isCopy s p h b.seq
    let stamp := ingressStamp s p h.capture
    match guardFrame s p h stamp b.seq with
    | (none, s) => s
    | (some _, s) => if copy then s else relayOut (aeSensor s p h.src b) p h.src (.sensor h b)

/-- A relayed SENSOR frame, of this cycle or, from the tail window, of the one before (R216, R226). -/
def relaySensor (s : State) (p : Nat) (h : FrameHdr) (b : SensorBody) : State :=
  let copy := isCopy s p h b.seq
  match relayAccept s p h b.seq with
  | none => s
  | some s => if copy || (h.cycle ≠ s.cycN && h.cycle ≠ (s.time.cycle - 1).toNat) then s else aeSensor s p h.src b

/-- The samples of axis-word channels at TR (R252). -/
def aeTr (s : State) : State :=
  let s := mapFollow s
  let per := s.time.live.period
  let one (c : Nat) (s : State) : State :=
    let h := s.aeCh c
    let div := h.div per
    if h.kind ≠ 1 || s.cycN % div ≠ 0 then s
    else
      let at_ := axisBase (h.src 16 9) + 8 * h.src 0 8
      let s := s.noteReadsBy 0x47 [at_]
      let v := shr (toS 64 (s.word at_)) (h.src 26 6)
      aeBlock s c s.time.t0 (div * per * stepUnits) false (decide (satS 32 v ≠ v)) [satS 32 v]
  angTakeUp (forEach one (enabledChs s) s)

/-- The samples of pin channels for the cycle that ends, stamped with its T0 (R253): the edges in a cycle are counted when it
is over (DEDUCED, notes/assumptions/36). -/
def aePins (s : State) : State :=
  match s.ae.pinCycle with
  | none => s
  | some (d, n, per) =>
    let one (c : Nat) (s : State) : State :=
      let h := s.aeCh c
      let div := h.div per
      if h.kind ≠ 3 || n % div ≠ 0 then s
      else
        let pin := h.src 0 3
        let v := min 65535 (s.ae.edges.look pin) + 65536 * b2n (bit s.ae.level0 pin)
        aeBlock s c d (div * per * stepUnits) false false [(v : Int)]
    forEach one (enabledChs s) { s with ae := { s.ae with pinCycle := none } }

/-- T0: the cycle that ended gives its pin samples, the levels and counts of the new one begin (R253), and an axis that is not
feedback-active ends the revolutions on it (R286). -/
def aeT0 (s : State) : State :=
  let s := angAxesOff (aePins (mapFollow s))
  { s with ae := { s.ae with
    level0 := s.ae.level, edges := [], pinCycle := some (s.time.t0, s.cycN, s.time.live.period) } }

/-! ### Channels (R251, Table 10.8) -/

/-- Whether a source field is out of range or a reserved field is not 0. -/
def sourceBad (cfg : Nat) : Bool :=
  let kind := getBits cfg 61 3
  kind = 0 || kind > 3 || getBits cfg 32 9 ≠ 0 ||
  (kind = 1 && bit cfg 25) ||
  (kind = 2 && (getBits cfg 27 5 ≠ 0 || getBits cfg 21 3 ≠ 0 || getBits cfg 8 8 ≠ 0)) ||
  (kind = 3 && getBits cfg 3 29 ≠ 0)

/-- The checks of a channel enable (Table 10.8). -/
def chCheck (s : State) (c : Nat) : Nat :=
  let cfg := s.word (chBase c)
  let fac := s.word (chBase c + 8)
  firstReason
    [test (!s.enabled pAE) 0x0710, test (chOn s c) 0x0711, test (sourceBad cfg) 0x0712,
     test (getBits cfg 61 3 = 2 && s.word (chBase c + 0x10) < 1280000000) 0x0713,
     test ((members s (getBits cfg 53 8)).length ≥ 64) 0x0714,
     test ((List.range 4).any (fun k => bit cfg (49 + k) && getBits fac (16 * k) 16 = 0)) 0x0715]

/-- A channel is enabled: its descriptor is read (R251). -/
def chEnable (s : State) (c : Nat) : State :=
  let h : AeCh := { (default : AeCh) with
    cfg := s.word (chBase c), factors := s.word (chBase c + 8), expect := s.word (chBase c + 0x10) }
  let s := (s.onCh c (fun _ => h)).setWord (chBase c + 0x18) 0
  let x := s.str h.stream
  let s := if x.state ≠ 0 && bit x.cfg 61 then s.onCh c (fun h => { h with origin := some x.start }) else s
  mapBit s (F.AE_CHMAP 0).adr c true

/-- A channel is disabled (R251, R281): a record that lacked its samples alone is complete (R257, R270). -/
def chDisable (s : State) (c : Nat) : State :=
  if !chOn s c then s
  else
    let s := angSourceOff s c
    finishRecord (mapBit s (F.AE_CHMAP 0).adr c false) (s.aeCh c).stream

/-! ### The page -/

/-- ENABLE of the AE page is set: its totals restart (AE_SNAP). -/
def aeEnable (s : State) : State :=
  { s with ae := { s.ae with samples := 0, packets := 0, bytes := 0, discard := 0 } }

/-- STATE of the AE page. PATH_HIGH: the stream-packet queue is more than three-quarters full. -/
def aeState (s : State) : Nat :=
  let runs := (mapList s (F.AE_RUNMAP 0).adr 4).length
  ((enabledChs s).length <<< 32) + (runs <<< 16) + (b2n (s.ae.path > 3 * pathDepth / 4) <<< 1) + b2n (mapList s (F.AE_OVFMAP 0).adr 4 ≠ [])

/-- Words of AE_SNAP. -/
def aeSnapWords (s : State) : List (Nat × Nat) :=
  [(F.AE_SNAP_SAMPLES.adr, s.ae.samples), (F.AE_SNAP_PACKETS.adr, s.ae.packets), (F.AE_SNAP_BYTES.adr, s.ae.bytes),
   (F.AE_SNAP_DISCARD.adr, s.ae.discard), (F.AE_SNAP_DT.adr, s.dtN)]

end Sys2Proof.Machine
end

