-- ==== Sys2Proof/Machine/Twin.lean ====
section
/-! DEFINITION. The twin pair: roles and pairing, core faults, switch-over, the state copy, shadow evaluation, the
protected set, and the power feeds (R384 to R411). -/

namespace Sys2Proof.Machine

/-- Changes the twin state. -/
def State.onTw (s : State) (f : TwSt → TwSt) : State := { s with tw := f s.tw }

/-- A message leaves on the party-wall link, when it is up (R385). -/
def toPartner (s : State) (kind item : Nat) : State :=
  if s.tw.link then { s with out := s.out ++ [.party kind item] } else s

/-- Something arrives over the party-wall link: where its ingress buffer of 64 KiB is `full` it is discarded whole, counted, and an
event of the PW page raised; the spec gives the event no code (R21, notes/assumptions/35). -/
def pwTakes (s : State) (full : Bool) (f : State → State) : State :=
  if full && s.tw.link then
    let (code, s) := s.freeWord
    raisePage (s.onTw (fun t => { t with discards := t.discards + 1 })) pPW (code % 256) 0
  else f s

/-- The partner is STANDBY and can take over. -/
def standbyPartner (s : State) : Bool := s.tw.link && s.tw.partnerRole = 4

/-- Segments that are a RING and have a bound node (R401). -/
def ringSegs (s : State) : List Nat :=
  (List.range 8).filter (fun p => s.g (F.FP_STATE_TOPO p) = 2 && boundNodes s p ≠ [])

/-! ### Core faults (R398, R399, R403) -/

/-- TW_FAULT and TW_FAULT_DT hold the first core fault (R398). -/
def recordFault (s : State) (cause : Nat) (partner : Bool) : State :=
  if s.g F.TW_FAULT_CAUSE ≠ 0 then s
  else
    let s := s.setReg F.TW_FAULT.adr ((cause <<< 56) + (b2n partner <<< 55) + s.cycN)
    s.setReg F.TW_FAULT_DT.adr s.dtN

/-- Whether a unit with this core fault can still run (Table 15.5). -/
def canRun (cause : Nat) : Bool := cause = 4 || cause = 5 || cause = 6 || cause = 7

/-- A core fault or a restart stops the start stages; the start counts neither as complete nor as failed (R461). -/
def stopStart (s : State) : State :=
  if s.hk.starting then { s.put F.HK_START_STATE_STAGE 14 with hk := { s.hk with starting := false } } else s

/-- The unit becomes SILENT (R399). -/
def becomeSilent (s : State) : State :=
  s.onTw (fun t => { t with role := 5, takeover := 0, switchCycle := none })

/-- A core fault of this unit, and what it does by its role (R399, R403). -/
def coreFault (s : State) (cause : Nat) (partner : Bool) : State :=
  let s := stopStart (recordFault s cause partner)
  let r := s.tw.role
  if r = 5 then s
  else if r = 0 || r = 2 then
    (if r = 2 && standbyPartner s && !s.tw.recovering then becomeSilent s
     else if canRun cause then s.onTw (fun t => { t with stopPending := true })
     else becomeSilent s)
  else if r = 3 || r = 4 then
    -- a unit that is taking over is the new active already (R403)
    (if s.tw.takeover ≠ 0 && canRun cause then s.onTw (fun t => { t with stopPending := true }) else becomeSilent s)
  else if canRun cause then s
  else becomeSilent s

/-- This unit declares a core fault of its own (R399). -/
def declare (s : State) (cause : Nat) : State := coreFault (toPartner s 1 cause) cause false

/-- A cause has been detected and awaits its declaration. -/
def detect (s : State) (cause : Nat) : State :=
  s.onTw (fun t => { t with standing := nsAdd t.standing cause })

/-- Loop engines in service are fewer than TW_CFG.MIN_ENGINES (Table 15.5). -/
def enginesShort (s : State) : Bool :=
  s.enabled pPW && s.enabled pLE && getBits (leState s) 16 16 < s.g F.TW_CFG_MIN_ENGINES

/-- The mismatches declare COMPARE (R394). -/
def compareDue (s : State) : Bool :=
  s.tw.role = 4 && s.tw.takeover = 0 && s.gb F.TW_CFG_CMP_ACTION && !s.tw.cmpFaulty &&
  s.tw.mismCycles.length ≥ s.g F.TW_CFG_CMP_LIMIT && s.tw.mismCycles ≠ []

/-- The first cycle whose CW_START is at or after `d` + 1.0 µs (R402). -/
def firstComputed (s : State) (d : DT) : BitVec 32 :=
  let x := dtDiff d s.time.t0 + (nsUnits 1000 : Int)
  let cw : Int := (s.time.live.cwStart * stepUnits : Nat)
  let per : Int := (s.time.live.period * stepUnits : Nat)
  if x ≤ cw then s.time.cycle else if x ≤ cw + per then s.time.cycle + 1 else s.time.cycle + 2

/-- The standby takes over at the decision instant `d`, the present DT (R401, R402). -/
def takeOver (s : State) (cause : Nat) : State :=
  if s.tw.role = 4 && s.tw.takeover = 0 then
    let first := firstComputed s s.dt
    stopStart (s.onTw (fun t => { t with
      takeover := cause + 1, recovering := true, recStart := s.dt, firstCycle := first, recTr := false
      recEnded := false }))
  else s

/-- A core fault is declared (R399); the declaration of COMPARE is one of the active, made by its standby (R394). -/
def coreFaultDeclared (s : State) (cause : Nat) : State :=
  if cause = 7 then
    (if compareDue s then takeOver (toPartner (recordFault s 7 false) 1 7) 7 else s)
  else if cause = 6 then
    (if enginesShort s && !nsHas s.tw.told 6 then declare (s.onTw (fun t => { t with told := nsAdd t.told 6 })) 6 else s)
  else if nsHas s.tw.standing cause then
    declare (s.onTw (fun t => { t with standing := nsDel t.standing cause })) cause
  else s

/-- ENGINES may be declared again once enough engines are in service. -/
def enginesAgain (s : State) : State :=
  if nsHas s.tw.told 6 && !enginesShort s then s.onTw (fun t => { t with told := nsDel t.told 6 }) else s

/-- The partner has gone out of service (R399, R219). -/
def partnerLost (s : State) : State :=
  let s := s.onTw (fun t => { t with partnerRole := 5 })
  let s := s.put F.TW_PEER_ROLE 5
  let s := forEach (fun p s => ringSilent s p) (List.range 8) s
  raisePage s pPW 13 0

/-- A declaration arrives (R399 to R401). Cause 0 is the notice of a planned switch for the handover cycle `k`. -/
def declarationReceived (s : State) (cause : Nat) (k : BitVec 32) : State :=
  if !s.tw.link then s
  else if cause = 0 then
    (if s.tw.role = 4 && s.tw.takeover = 0 then s.onTw (fun t => { t with switchCycle := some k }) else s)
  else if s.tw.role = 2 then
    (if cause = 7 then coreFault s 7 true else partnerLost (recordFault s cause true))
  else if s.tw.role = 4 then
    -- an ACTIVE with a STANDBY partner becomes SILENT (R399)
    takeOver (((recordFault s cause true).onTw (fun t => { t with partnerRole := 5 })).put F.TW_PEER_ROLE 5) cause
  else if s.tw.role = 3 then
    let s := recordFault s cause true
    if canRun cause then s
    else (s.onTw (fun t => { t with partnerRole := 5 })).put F.TW_PEER_ROLE 5
  else s

/-! ### The controlled stop (R403) -/

/-- At TR a controlled stop begins: it is called before the PG forms the set-points. -/
def twinStopTr (s : State) : State :=
  if !s.tw.stopPending then s
  else
    let s := s.onTw (fun t => { t with stopPending := false })
    let s := forEach (fun a s => faultAxis s a 5) (enabledAxes s) s
    let s := forEach (fun n s => grpRequest s n 5) (List.range 32) s
    raisePage s pPW 14 0

/-! ### Planned switch (R400) -/

/-- TW_ROLE with OP = SWITCH (Table 15.9). -/
def switchCheck (s : State) : Nat :=
  firstReason [test (s.tw.role ≠ 2) 0x0A20, test (!standbyPartner s) 0x0A21, test s.tw.recovering 0x0A22]

/-- The switch is accepted: its handover cycle (R400). -/
def switchApply (s : State) : State :=
  let before := dtDiff s.dt (s.at s.time.live.cwEnd) < 0
  let k := if before then s.time.cycle else s.time.cycle + 1
  toPartner (s.onTw (fun t => { t with switchCycle := some k })) 0 k.toNat

/-! ### Roles at T0 (R400, R402, R403) -/

/-- The role becomes `r`, with SWITCHOVER. Discoveries and table copies under way end; a unit that becomes active tells of its
stale tables (R168, R212). -/
def switchRole (s : State) (r cause : Nat) : State :=
  let s := searchesEnd (syncsEnd s)
  let s := s.onTw (fun t => { t with
    role := r, partnerRole := if r = 4 then 2 else t.partnerRole, switchCycle := none, takeover := 0
    switches := t.switches + 1, dtOff := 0, dtRate := 0, dtSlew := 0, mapT0 := none })
  let s := raisePage s pPW 12 cause
  if r = 2 then staleTell s else s

/-- The T0 that has come is the last one that a standby has mapped, in the active's DT (R389). -/
def mapFollows (s : State) : State :=
  if s.tw.mapT0.isNone then s
  else s.onTw (fun t => { t with mapT0 := some (s.time.cycle, dtAdd s.time.t0 (-(mapOff s s.time.t0))) })

/-- T0: an accepted takeover or a planned switch takes effect, and a recovery ends (R400, R402, R403). The new active of a planned
switch still takes the copy of the handover cycle. -/
def twinT0 (s : State) : State :=
  let s := mapFollows s
  let s :=
    if s.tw.recovering && s.tw.recTr then
      s.onTw (fun t => { t with recovering := false, recTr := false, recEnded := true })
    else s
  let s := if s.tw.takeover ≠ 0 && s.tw.role = 4 then switchRole s 2 (s.tw.takeover - 1) else s
  match s.tw.switchCycle with
  | some k =>
    if s.time.cycle = k + 1 then
      (if s.tw.role = 2 then switchRole s 4 0
       else if s.tw.role = 4 then switchRole (s.onTw (fun t => { t with partnerRole := 4, awaitCopy := some k })) 2 0 else s)
    else s
  | none => s

/-- CW_START of the first computed cycle: the previous set-points come from the active's DOWNLINK of the cycle
before, when it was received (R402). -/
def twinCwStart (s : State) : State :=
  if s.tw.recovering && s.time.cycle = s.tw.firstCycle && s.tw.dlCycle = some (s.time.cycle - 1) then
    forEach (fun r s => ((s.axiPut r.1 0x40 r.2.1).axiPut r.1 0x48 r.2.2.1).onLe r.1 (fun x => { x with
        sentManual := r.2.2.2, recMain := r.2.1, recAux := r.2.2.1 }))
      s.tw.dlRecs s
  else s

/-- UL_END after a recovery (R406); called before the exchange of the new cycle. An end is silent whose unit is SILENT, or which
accepted no node in the last exchange. -/
def twinUlEnd (s : State) : State :=
  if !s.tw.recEnded then s
  else
    let s := forEach (fun p s =>
      if s.g (F.FP_STATE_TOPO p) = 3 || (s.port p).seenOther = 0 || s.tw.partnerRole = 5 then ringSilent s p else s) (List.range 8) s
    s.onTw (fun t => { t with recEnded := false })

/-! ### The copy of each cycle (R391 to R393, R405) -/

/-- The next eight axes of the sample (R393): `l` in downlink record order, after the record with key `last`, wrapping round. -/
def sampleFrom (s : State) (l : List Nat) (last : Option Nat) : List Nat :=
  match last with
  | none => l.take 8
  | some k =>
    let key (a : Nat) : Nat := recKey (s.leAx a).cfg
    (l.filter (fun a => key a > k) ++ l.filter (fun a => key a ≤ k)).take 8

/-- Offsets of the words that the cycle block carries for a sampled axis (R393): FB_POS, FB_DT, FB_VEL, FB_ACC,
FB_OBS_POS, SP_POS, SP_VEL, SP_ACC, SP_JERK, SP_DT. -/
def carriedOffsets : List Nat := [0x100, 0x108, 0x110, 0x118, 0x120, 0x180, 0x188, 0x190, 0x198, 0x1A0]

/-- The axes sampled in this cycle (R393). -/
def sampledAxes (s : State) : List Nat := sampleFrom s (byRecord s s.cyc.enabledNow) s.tw.lastSample

/-- The shadow-evaluation inputs of the sampled axes as this cycle's steps used them; an axis whose record is a substitute is
skipped (R393). They are taken before the PG forms the set-points of the next cycle. -/
def shadowInputs (s : State) : List (Nat × List Int) :=
  ((sampledAxes s).filter (fun a => !bit (s.word (axisBase a + 0x50)) 1)).map (fun a =>
    (a, carriedOffsets.map (fun o => s.axi a o)))

/-- Words of an axis record that the state copy holds (Table 15.4): AX_STATUS, SATWORD, the OUT words, the integrators, PV and
biquad states, REP_STATUS, REP_ESUM, REP_SUM, REP_ANGLE. -/
def copiedOffsets : List Nat :=
  [0x10, 0x20, 0x40, 0x48, 0x50, 0x80, 0x88, 0x90, 0x98, 0xA0, 0xA8, 0xB0, 0xB8, 0xC0, 0xC8, 0xD0, 0x248, 0x250, 0x258, 0x268]

/-- The bits that the cycle block takes of the register at BAR0 offset `off` (Table 15.4): the segment's state and live bank,
its grants, the mute, binding and wrong-epoch state of its nodes, their numbers and capabilities, the slot banks, and the epoch
page (DEDUCED, notes/assumptions/38). -/
def copyMask (off : Nat) : Nat :=
  let all := 2 ^ 64 - 1
  if off % 8 ≠ 0 then 0
  else if pEpoch ≤ off && off < pEpoch + 0x1000 then
    (if off = F.EPOCH_STATE.adr || (F.FP_EPOCH_NEXT.adr ≤ off && off ≤ F.FP_EPOCH_DIAG.adr && off ≠ F.FP_EPOCH_CMD.adr) then all else 0)
  else if !(pFP 0 ≤ off && off < pFP 8) then 0
  else
    let o := (off - pFP 0) % 0x1000
    if o = 0x10 then 0x00FFFF3F00007716
    else if o = 0x140 then 2 ^ 63
    else if o = 0x158 then 0xFFFF000000000000
    else if 0x410 ≤ o && o < 0x810 && o % 0x20 = 0x10 then 0xFF0000000000000F
    else if 0x800 ≤ o && o < 0xC00 then (if o % 0x20 < 0x10 then all else if o % 0x20 = 0x18 then 0xFF04 else 0)
    else if 0xC00 ≤ o then all
    else 0

/-- The BAR0 offsets of the cycle block. -/
def copyAddrs : List Nat := ((List.range 0x1200).map (fun i => pFP 0 + 8 * i)).filter (fun a => copyMask a ≠ 0)

/-- What the LE holds of axis `a` beside its record, as the twin is told. The place at the head of the dispatch order and LATE_HOLD's
having been raised (R48) stay with the unit: Table 15.4 does not name them (DESIGN CHOICE, notes/assumptions/43). -/
def leCarry (s : State) (a : Nat) : LeCarry :=
  let x := s.leAx a
  { cfg := x.cfg, fresh := x.fresh, manual := x.sentManual, switchDue := x.switchDue, angleArmed := x.angleArmed
    corrClamped := x.corrClamped }

/-- What the LE holds of axis `a` is taken from the twin; the previous set-point is that of the copied OUT words (R402). -/
def leTake (s : State) (a : Nat) (c : LeCarry) : State :=
  holdRecord (s.onLe a (fun x => { x with
    cfg := c.cfg, fresh := c.fresh, sentManual := c.manual, switchDue := c.switchDue, angleArmed := c.angleArmed
    corrClamped := c.corrClamped })) a

/-- The state of this cycle as the copy holds it (Table 15.4, R167). -/
def copyBody (s : State) : CopyBody :=
  let l := enabledAxes s
  { full := false
    laws := l.map (fun a => (a, leCarry s a))
    axes := l.flatMap (fun a => copiedOffsets.map (fun o => (a, o, s.word (axisBase a + o))))
    table := s.le.deltas
    block := copyAddrs.map (fun a => (a, s.reg a))
    plans := l.map (fun a => (a, s.pg.ax.look a))
    groups := (List.range 32).map (fun n => (n, s.grp n))
    epoch := s.ep
    grants := (List.range 8).map (fun p => (p, (s.port p).grants, (s.port p).revert)) }

/-- After TR the active copies the state of the cycle to its partner on DM14, with the inputs taken before (R391, R393). A translation
fault of DM14, which its descriptors alone can meet, drops the copy of the cycle, and so does an uncorrectable word of a record that
it reads (Table 14.2, R375, R391; notes/assumptions/45). -/
def copyOut (s : State) (inputs : List (Nat × List Int)) : State :=
  if !(s.tw.role = 2 && s.tw.link && (s.tw.partnerRole = 3 || s.tw.partnerRole = 4)) then s
  else
    let last := match (sampledAxes s).getLast? with
      | some a => some (recKey (s.leAx a).cfg)
      | none => s.tw.lastSample
    let b := copyBody s
    let s := s.onTw (fun t => { t with lastSample := last })
    let ring := s.reg (F.DM_BASE0 14).adr
    let bad := if s.poison = [] then [] else
      (b.axes.map (fun e => axisBase e.1 + e.2.1)).filter s.poisoned
    match xlate s ring, bad with
    | .fault k l, _ => raiseXuFault (devCarried s 14 0 0 3 0) 0x2E k l ring
    | _, a :: _ => raiseUe (devCarried s 14 0 0 2 0) 0x2E a
    | _, [] =>
      let (dst, s) := (s.onTw (fun t => { t with copies := t.copies + 1 })).freeWord
      let (len, s) := s.freeWord
      let s := devCarried s 14 dst (len % 2 ^ 32) 0 len
      { s with out := s.out ++ [.copy s.cycN b inputs] }

/-- TR of the new active's first computed cycle has passed (R403). -/
def twinTr (s : State) (inputs : List (Nat × List Int)) : State :=
  let s := copyOut s inputs
  if s.tw.recovering && s.active then s.onTw (fun t => { t with recTr := true }) else s

/-- Whether a word of an axis record is one that the copy holds. -/
def copiedWord (off : Nat) : Bool := copiedOffsets.contains off

/-- A word of an axis record arrives in a copy. STALE and SYNCING of REP_STATUS stay this unit's own (R168), and so does ENABLED,
which follows the mirrored operations at this unit's own T0 (R141, R390); a bank switch that AX_STATUS shows as done or refused has
used up its request (R140, DEDUCED, notes/assumptions/38). -/
def copyAxisWord (s : State) (a off v : Nat) : State :=
  let d := axisBase a + off
  let old := s.word d
  if off = 0x248 then s.setWord d (blend old v (without (2 ^ 64 - 1) (3 * 2 ^ 14)))
  else if off = 0x10 then
    let s := statusFollow (s.setWord d (setBits v F.AX_STATUS_ENABLED.lo 1 (getBits old F.AX_STATUS_ENABLED.lo 1))) a
    if bit old 5 != bit v 5 || getBits old 16 8 ≠ getBits v 16 8 then s.axPut a F.BANK_CTL_REQ 0 else s
  else s.setWord d v

/-- The pool address of bin `bin` of the table of axis `a`, with the REP_CFG under which the copied steps ran (R153, R167). -/
def tableAddr (s : State) (laws : List (Nat × LeCarry)) (a bin : Nat) : Nat :=
  let cfg := ((laws.lookup a).map (fun c => c.cfg.repCfg)).getD (repCfgOf s a)
  repEntryAddr (getBits cfg 0 20) (bin % repN cfg)

/-- The bits of STATE of a field port that tell of a break: BREAK_HI, BREAK_LO, TOPO and BROKEN. -/
def breakBits : Nat := 0x00FFFF0000007004

/-- A register of the cycle block arrives. END is that of this unit: the other end from the active's (R195). A break that has healed
at the T0 since is not taken back (R218). A node that becomes bound begins afresh. -/
def copyReg (s : State) (off v : Nat) : State :=
  let old := s.reg off
  let p := (off - pFP 0) / 0x1000
  let o := (off - pFP 0) % 0x1000
  let port := pFP 0 ≤ off && off < pFP 8
  let own := if port && o = 0x10 && (s.port p).healedIn = some s.time.cycle then breakBits else 0
  let s := s.setReg off (blend old v (without (copyMask off) own))
  if !port then s
  else if o = 0x10 then
    (if getBits v 8 3 = 0 then s else s.put (F.FP_STATE_END p) (1 - getBits v 11 1))
  else if 0x410 ≤ o && o < 0x810 && o % 0x20 = 0x10 && bit v 0 && !bit old 0 then
    s.onNode p ((o - 0x410) / 0x20) (fun n => { n with rts := [], missRun := 0, hist := [], now := 0, ack := none })
  else s

/-- The words that a copy changes, as they stand: address and value (R394). With AX_STATUS that is the request of BANK_CTL too. -/
def copyPrior (s : State) (b : CopyBody) : List (Nat × Nat) :=
  b.axes.filterMap (fun w => if w.1 < 512 && copiedWord w.2.1 then
    some (axisBase w.1 + w.2.1, s.word (axisBase w.1 + w.2.1)) else none) ++
  b.axes.filterMap (fun w => if w.1 < 512 && w.2.1 = 0x10 then
    some (axisBase w.1 + F.BANK_CTL.adr, s.word (axisBase w.1 + F.BANK_CTL.adr)) else none) ++
  b.table.filterMap (fun e => if e.1 < 512 then
    let d := tableAddr s b.laws e.1 e.2.1 / 8 * 8
    some (d, s.word d) else none)

/-- The copy that has come shows an epoch change that this unit did not have: no node has acknowledged it yet (R243, R390). -/
def epochTaken (s : State) (was : Bool) : State :=
  if was || !epochPending s then s
  else forEach (fun p s => forEach (fun j s => s.onNode p j (fun n => { n with ack := none })) (boundNodes s p) s) (scheduledSegs s) s

/-- The standby, or the new active of a planned switch (R400), applies a complete state copy of cycle `c` (R391, R392). A change
that takes effect in the cycle that has begun does so in the copied state too (R240): of an axis that its T0 has put into service
anew the copied words and law are those of its service before, and are left (R141, R390). -/
def copyPut (s : State) (c : BitVec 32) (b : CopyBody) : State :=
  let inTime := dtDiff s.dt (s.at s.time.live.ulEnd) ≤ 0
  if !((s.standby || s.tw.awaitCopy = some c) && s.tw.link && c + 1 = s.time.cycle && inTime && s.tw.copyCycle ≠ some c) then s
  else
    let prior := copyPrior s b
    let priorLe := b.laws.map (fun e => (e.1, leCarry s e.1))
    let pend := epochPending s
    let begun := s.le.begun
    let s := forEach (fun w s =>
      if w.1 < 512 && copiedWord w.2.1 && !nsHas begun w.1 then copyAxisWord s w.1 w.2.1 (w.2.2 % 2 ^ 64) else s) b.axes s
    let s := forEach (fun e s =>
      if e.1 < 512 then memWrite s 0x2E (tableAddr s b.laws e.1 e.2.1) (e.2.2 % 2 ^ 32) 4 else s) b.table s
    let s := forEach (fun e s => if e.1 < 512 && axisEnabled s e.1 && !nsHas begun e.1 then leTake s e.1 e.2 else s) b.laws s
    let s := forEach (fun e s => if copyMask e.1 ≠ 0 then copyReg s e.1 (e.2 % 2 ^ 64) else s) b.block s
    let s := forEach (fun e s => if e.1 < 512 then s.setPg e.1 e.2 else s) b.plans s
    let s := forEach (fun e s => if e.1 < 32 then s.onGrp e.1 (fun _ => e.2) else s) b.groups s
    let s := forEach (fun e s => if e.1 < 8 then s.onPort e.1 (fun q => { q with grants := e.2.1, revert := e.2.2 }) else s)
      b.grants s
    let s := epochTaken (epochT0 { s with ep := b.epoch }) pend
    s.onTw (fun t => { t with
      copyCurrent := true, copyCycle := some c, copyClosed := some c, awaitCopy := none, copies := t.copies + 1, prior := prior, priorCycle := t.copyCycle
      priorLe := priorLe, consecutive := t.consecutive + 1 })

/-- A complete state copy of cycle `c` has come (R391): before the T0 after its cycle it is kept until that T0, which a standby applies it
behind; after it, it is applied at once. -/
def copyApply (s : State) (c : BitVec 32) (b : CopyBody) : State :=
  if c = s.time.cycle && s.standby && s.tw.link && s.time.running then s.onTw (fun t => { t with early := some (c, b) })
  else copyPut s c b

/-- T0 has come, and a copy that has waited for it is applied (R391, R400). -/
def copyEarly (s : State) : State :=
  match s.tw.early with
  | some (c, b) => copyPut (s.onTw (fun t => { t with early := none })) c b
  | none => s

/-- UL_END of a unit that takes copies: that of the cycle before was not complete (R391). -/
def copyMissed (s : State) : State :=
  let last := s.time.cycle - 1
  if !(s.standby || s.tw.awaitCopy = some last) || s.tw.copyCycle = some last then s
  else s.onTw (fun t => { t with
    copyCurrent := false, missed := t.missed + 1, consecutive := 0, copyClosed := some last, awaitCopy := none })

/-- A command asks something of the cycle. -/
def askTime (s : State) (a : TimeAsk) : State := { s with cyc := { s.cyc with ask := s.cyc.ask ++ [a] } }

/-- The schedule that the words `per` of CYC_PERIOD_LIVE and `ph` of CYC_PHASE_LIVE hold. -/
def schedOfWords (per ph : Nat) : Sched :=
  { period := getBits per 0 13, ulEnd := getBits ph 0 13, cwStart := getBits ph 16 13, cwEnd := getBits ph 32 13
    tr := getBits ph 48 13, dlEnd := getBits per 16 13 }

/-- CYC_PERIOD_LIVE. -/
def periodLive (s : State) : Nat := (s.time.live.dlEnd <<< 16) + s.time.live.period

/-- CYC_PHASE_LIVE. -/
def phaseLive (s : State) : Nat :=
  (s.time.live.tr <<< 48) + (s.time.live.cwEnd <<< 32) + (s.time.live.cwStart <<< 16) + s.time.live.ulEnd

/-- The memory of the bulk copy: every axis record and the repetitive-table pool (R405). -/
def bulkMem (a : Nat) : Bool :=
  (sramBase ≤ a && a < sramBase + 0x100000) || (sramBase + 0x400000 ≤ a && a < sramBase + 0x800000)

/-- The registers of the bulk copy: the mirrored ranges, and what the cycle block holds. -/
def bulkReg (a : Nat) : Bool := mirrored a || copyMask a ≠ 0

/-- The addresses of the words in which cells of an ordered memory lie, each once. -/
def cellWords : List Host.Cell → List Nat
  | [] => []
  | c :: l =>
    let w := c.1 / 8 * 8
    match cellWords l with
    | d :: r => if d = w then d :: r else w :: d :: r
    | [] => [w]

/-- Whether BAR0 offset `a` holds a word of the protected set (R396). -/
def protAddr (a : Nat) : Bool :=
  (F.TU_TSCORR 0).adr ≤ a && a ≤ (F.TU_TSCORR 9).adr ||
  (List.range 8).any (fun p => a = (F.FP_RING_RING_DELAY p).adr ||
    ((F.FP_NODE_DELAY_DELAY_A p 0).adr ≤ a && a ≤ (F.FP_NODE_DELAY_DELAY_A p 31).adr &&
     (a - (F.FP_NODE_DELAY_DELAY_A p 0).adr) % ((F.FP_NODE_DELAY_DELAY_A p 1).adr - (F.FP_NODE_DELAY_DELAY_A p 0).adr) = 0))

/-- The active sends the bulk copy (R405): the words and registers that do not hold their reset values, the live schedule, its
protected set, and what it holds of enabled and feedback-active axes (DEDUCED, notes/assumptions/38). -/
def bulkOut (s : State) : State :=
  let at_ := cellWords (s.mem.filter (fun c => bulkMem c.1))
  let s := s.noteReadsBy 0x2F at_
  let words := at_.map (fun a => (a, s.word a))
  let regs := (s.regs.filter (fun e => bulkReg e.1)).map (fun e => (e.1, e.2.toNat)) ++
    [(F.CYC_PERIOD_LIVE_PERIOD.adr, periodLive s), (F.CYC_PHASE_LIVE_UL_END.adr, phaseLive s)]
  { s with out := s.out ++ [.bulk words regs
      { full := false
        prot := s.regs.filter (fun e => protAddr e.1)
        laws := (enabledAxes s).map (fun a => (a, leCarry s a))
        syncs := s.le.syncs
        remembered := s.le.remembered.map (fun e => (e.1, e.2.1, e.2.2))
        feedback := (s.fb.ax.filter (fun e => e.2.active)).map (fun e => (e.1, e.2.cfg, e.2.bw, e.2.cpr)) }] }

/-- A register of the bulk copy arrives: whole in a mirrored range, and the bits that the cycle block has of it. -/
def bulkRegTake (s : State) (a v : Nat) : State :=
  let s := if mirrored a then s.setReg a v else s
  if copyMask a ≠ 0 then copyReg s a v else s

/-- The words and registers of the bulk copy take their reset values: the copy lists the others. -/
def bulkClear (s : State) : State :=
  let s := { s with
    mem := s.mem.filter (fun c => !bulkMem c.1)
    regs := s.regs.filter (fun e => !mirrored e.1)
    poison := s.poison.filter (fun a => !bulkMem a) }
  forEach (fun a s => copyReg s a (regReset a)) copyAddrs s

/-- The bulk copy is complete (R405): the mirrored ranges, the table pool, the live schedules, the partner copies. Axes that are
feedback-active at the active start at the next T0. The 64 copies of R405 count from here. -/
def bulkDone (s : State) (words regs : List (Nat × Nat)) (b : BulkRest) : State :=
  if s.tw.role ≠ 3 then s
  else
    let s := bulkClear s
    let s := forEach (fun e s => if bulkMem e.1 && e.1 % 8 = 0 then s.setWord e.1 (e.2 % 2 ^ 64) else s) words s
    let s := forEach (fun e s => if e.1 % 8 = 0 then bulkRegTake s e.1 (e.2 % 2 ^ 64) else s) regs s
    let s := forEach (fun a s => statusFollow s a) (List.range 512) s
    let s := forEach (fun e s => if e.1 < 512 then leTake s e.1 e.2 else s) b.laws s
    let s := { s with le := { s.le with
      remembered := b.remembered.foldl (fun t e => t.set e.1 e.2) [], syncs := b.syncs.filter (fun p => p.1 < 512) } }
    let s := forEach (fun e s => if e.1 < 512 && !(s.fbAx e.1).active then
      s.onFb e.1 (fun f => { f with pendStart := some e.2.1, pendStop := false, bw := e.2.2.1, cpr := e.2.2.2 }) else s)
      b.feedback s
    let s := match regs.lookup F.CYC_PERIOD_LIVE_PERIOD.adr, regs.lookup F.CYC_PHASE_LIVE_UL_END.adr with
      | some per, some ph => askTime s (.follow (schedOfWords per ph))
      | _, _ => s
    s.onTw (fun t => { t with bulkDone := true, consecutive := 0, partnerSet := b.prot })

/-- 64 consecutive copies with the exchange locked: the unit becomes STANDBY (R405). -/
def standbyReady (s : State) : State :=
  if s.tw.role = 3 && s.tw.bulkDone && s.tw.consecutive ≥ 64 && s.tw.locked then
    raisePage (s.onTw (fun t => { t with role := 4 })) pPW 15 0
  else s

/-! ### Shadow evaluation (R393 to R395) -/

/-- FLAGS bits 4:0 of a record of the standby's own evaluation (Table 8.5). -/
def recordFlags (s : State) (r : LeRes) : Nat :=
  1 + (b2n r.manual <<< 2) + (b2n (axisFaulted s r.axis) <<< 3) + (b2n (pgStrong s r.axis) <<< 4)

/-- The mismatches of the last 1,024 cycles. -/
def recentMism (c : BitVec 32) (l : List (BitVec 32)) : List (BitVec 32) :=
  l.filter (fun m => decide ((c - m).toNat < 1024))

/-- The state in which a sampled axis of cycle `c` is evaluated: the copied state of the cycle before, where this unit has it
(R394). -/
def shadowBase (s : State) (c : BitVec 32) : Option State :=
  if s.tw.copyCycle = some c && s.tw.priorCycle = some (c - 1) then
    some (forEach (fun e s => leTake s e.1 e.2) s.tw.priorLe (forEach (fun e s => s.setWord e.1 e.2) s.tw.prior s))
  else if s.tw.copyCycle = some (c - 1) then some s
  else none

/-- The result of an engine whose work is off by `f`: MAIN, AUX and FLAGS bits 4:0 (R394). -/
def engineGives (main aux : Int) (flags : Nat) (f : EngineFlaw) : Int × Int × Nat :=
  (toS 64 (ofS 64 (main + f.main)), toS 64 (ofS 64 (aux + f.aux)), flags ^^^ (f.flags % 32))

/-- A sampled axis of cycle `c` is evaluated twice, on engines `e1` and `e2` (R394). `words` are the carried inputs, `main`,
`aux` and `flags` the active's record, `flaws` what the two engines are off by; bit i of `pass` says that engine i of the two
passes the self-check that follows where their results differ. -/
def shadowEval (s : State) (a : Nat) (c : BitVec 32) (e1 e2 : Nat) (words : List Int) (main aux : Int) (flags : Nat)
    (flaws : EngineFlaw × EngineFlaw) (pass : Nat) : State :=
  let ok (n : Nat) : Bool := n < 16 && (s.eng n).inService
  if !(s.tw.role = 4 && s.tw.takeover = 0 && !s.tw.recovering && !s.tw.cmpFaulty && axisEnabled s a && ok e1 && ok e2 &&
       e1 ≠ e2 && (s.time.cycle - c).toNat ≤ 1) then s
  else match shadowBase s c with
  | none => s
  | some base =>
    let back := (s.time.cycle - c).toNat * (s.time.live.period * stepUnits)
    let w := forEach (fun p s => s.axiPut a p.1 p.2) (carriedOffsets.zip words) base
    let w := { w with time := { w.time with t0 := dtAdd w.time.t0 (-(back : Int)), cycle := c } }
    let r := axisStep w a
    let one := engineGives r.main r.aux (recordFlags w r) flaws.1
    let two := engineGives r.main r.aux (recordFlags w r) flaws.2
    if one ≠ two then
      let s := raisePage s pPW 8 a
      forEach (fun p s =>
        if bit pass p.2 then s
        else raisePage (s.onEng p.1 (fun g => { g with inService := false, faulted := true })) pLE 2 p.1) [(e1, 0), (e2, 1)] s
    else
      let s := s.onTw (fun t => { t with compares := t.compares + 1 })
      if one = (main, aux, flags % 32) then s
      else
        let l := recentMism s.time.cycle (c :: s.tw.mismCycles)
        let s := s.onTw (fun t => { t with mismatches := t.mismatches + 1, mismCycles := l })
        let s := s.setReg F.TW_CMP.adr ((c.toNat <<< 32) + (min 255 l.length <<< 24) + a)
        raisePage2 s pPW 7 a c.toNat 0

/-- The injected comparison of a cycle (R395): `flagged` says that the comparator saw the differing bit. -/
def injectCompare (s : State) (flagged : Bool) : State :=
  if !(s.tw.role = 4 && !s.tw.cmpFaulty && !s.tw.recovering) then s
  else
    let s := s.onTw (fun t => { t with
      injectBit := (t.injectBit + 1) % 192, mismCycles := recentMism s.time.cycle t.mismCycles })
    if flagged then s else raisePage (s.onTw (fun t => { t with cmpFaulty := true })) pPW 9 0

/-! ### The protected set (R396, R397) -/

/-- The live protected set: its words that do not hold their reset value. -/
def protLive (s : State) : List (Nat × Word) := s.regs.filter (fun e => protAddr e.1)

/-- Every accepted write and update of a protected word reaches the image and the partner copy (R396): the words in which the
live set differs from the one last followed. -/
def protFollow (s : State) : State :=
  let live := protLive s
  if live = s.tw.followed then s
  else
    let was := s.tw.followed
    let gone := (was.filter (fun e => !live.any (fun x => x.1 = e.1))).map (fun e => (e.1, regDefault e.1))
    let fresh := live.filter (fun e => !was.contains e) ++ gone
    let s := s.onTw (fun t => { t with
      followed := live, image := fresh.foldl (fun m e => tput regDefault m e.1 e.2) t.image })
    if s.tw.link then { s with out := s.out ++ fresh.map (fun e => .prot e.1 e.2) } else s

/-- An uncorrectable error of a protected word: it is replaced from the image (R396). -/
def protScrub (s : State) (a : Nat) : State :=
  if protAddr a then raisePage (s.setReg a (tget regDefault s.tw.image a).toNat) pPW 10 0 else s

/-- The words of the protected set in the order of R396. -/
def protWords : List Nat :=
  (List.range 10).map (fun n => (F.TU_TSCORR n).adr) ++
  (List.range 8).flatMap (fun p => (List.range 32).map (fun j => (F.FP_NODE_DELAY_DELAY_A p j).adr)) ++
  (List.range 8).map (fun p => (F.FP_RING_RING_DELAY p).adr)

/-- The digest of a protected set: the CRC-32 of its words, little-endian (R397; the words' order, and the polynomial of IEEE
802.3, DESIGN CHOICE, notes/assumptions/44). -/
def protDigest (l : List (Nat × Word)) : Nat :=
  crc32 (protWords.flatMap (fun a => leBytes (tget regDefault l a).toNat 8))

/-- The node delays of two protected sets are the same (R397). -/
def delaysAgree (l m : List (Nat × Word)) : Bool :=
  protWords.all (fun a => !(pFP 0 ≤ a && a < pEpoch && (a - pFP 0) % 0x1000 ≥ 0x800) || tget regDefault l a = tget regDefault m a)

/-- The cross-check of R397 at UL_END: `peer` is the set that the partner's digest stands for, and that set after the partner
has compared it with its image. A partner copy that still differs from the latter is refreshed from it. -/
def crossCheck (s : State) (peer : Option (List (Nat × Word) × List (Nat × Word))) : State :=
  let due := s.cycN % 64 = 32 || s.tw.crossDue
  if !due || !s.tw.link || s.tw.role = 0 then s
  else if s.tw.recovering then s.onTw (fun t => { t with crossDue := true })
  else
    let s := s.onTw (fun t => { t with crossDue := false })
    let s := { s with out := s.out ++ [.digest s.cycN (protDigest (protLive s))] }
    match peer with
    | none => s
    | some (l, mended) =>
      let live := protLive s
      if protDigest l = protDigest s.tw.partnerSet && delaysAgree l live then s.onTw (fun t => { t with protResolving := false })
      else
        let s := forEach (fun a s =>
          if tget regDefault s.tw.image a = tget regDefault live a then s else protScrub s a) protWords s
        let s := s.onTw (fun t => { t with protResolving := true })
        if protDigest mended = protDigest s.tw.partnerSet then s
        else raisePage (s.onTw (fun t => { t with partnerSet := mended })) pPW 11 0

/-! ### The link and pairing (R384, R386, R387, R401) -/

/-- The checks of the PW page's ENABLE (Table 15.9). -/
def pwCheck (s : State) : Nat :=
  let n := s.g F.TW_CFG_MIN_ENGINES
  firstReason [test (s.gb F.TW_CFG_MODE && s.tw.noClock) 0x0A01, test (n = 0 || n > 16) 0x0A02,
    test (s.g F.TW_CFG_CMP_LIMIT = 0) 0x0A03]

/-- ENABLE of the PW page takes effect: the role of Table 15.2, and totals from zero. SILENT is left only by a restart. -/
def pwEnable (s : State) : State :=
  let s := s.onTw (fun t => { t with
    role := if t.role = 5 then 5 else if s.gb F.TW_CFG_MODE then 1 else 0
    copies := 0, missed := 0, compares := 0, mismatches := 0, switches := 0 })
  { s with hk := { s.hk with pairSince := s.dt } }

/-- The unit becomes SYNCING (R387, R405). Table copies of its own service before are over (R168). -/
def becomeSyncing (s : State) : State :=
  (syncsEnd s).onTw (fun t => { t with
    role := 3, bulkDone := false, consecutive := 0, isolated := false, copyCurrent := false, takeover := 0
    mapT0 := none, dtOff := 0, dtRate := 0, dtSlew := 0, copyClosed := none, mirrors := [], early := none })

/-- The roles are decided as the units pair (R387): the active sends the bulk copy (R405). An ISOLATED standby keeps its role, which
only a planned switch or a restart changes (R401). -/
def pair (s : State) (active : Bool) : State :=
  let s := if active then
      bulkOut (s.onTw (fun t => { t with role := 2, partnerRole := 3, dtOff := 0, dtRate := 0, dtSlew := 0 }))
    else if s.tw.role = 4 && s.tw.isolated then s.onTw (fun t => { t with isolated := false, partnerRole := 2 })
    else (becomeSyncing s).onTw (fun t => { t with partnerRole := 2 })
  raisePage (s.put F.TW_PEER_ROLE s.tw.partnerRole) pPW 1 0

/-- The link comes up with the lanes `lanes`, and the units exchange identities and pair (R384, R387). A lane that is not up then
has failed its training (DEDUCED, notes/assumptions/41). -/
def pwLinkUp (s : State) (lanes serial rev pRole pId : Nat) : State :=
  let lanes := lanes % 16
  if !(s.enabled pPW && s.gb F.TW_CFG_MODE && !s.tw.link && popCount 4 lanes ≥ 2) then s
  else
    let s := s.onTw (fun t => { t with link := true, lanes := lanes, partnerRole := pRole % 8, hbCycle := none })
    let s := forEach (fun i s => if bit lanes i then s else raisePage s pPW 3 i) (List.range 4) s
    let s := { s with out := s.out ++ [Out.identity (s.g F.CHIP_SERIAL_SERIAL) (getBits (s.g F.BOOT_STATUS_VERSION) 16 16)
      s.tw.role (s.g F.TW_CFG_TWIN_ID)] }
    let s := s.setReg F.TW_PEER.adr
      (((serial % 2 ^ 32) <<< 32) + ((rev % 65536) <<< 16) + ((pRole % 8) <<< 5) + pId % 2)
    let r := s.tw.role
    let own := s.g F.TW_CFG_TWIN_ID
    let code := firstReason [test (r = 2 && pRole % 8 = 2) 0x0A10, test (own = pId % 2) 0x0A11,
      test (rev % 65536 / 256 ≠ getBits (s.g F.BOOT_STATUS_VERSION) 24 8) 0x0A12]
    let s := autoCheck s pPW code
    let s := s.onTw (fun t => { t with refused := code ≠ 0 })
    if code ≠ 0 then raisePage s pPW 2 code
    else if r = 5 || pRole % 8 = 5 then s
    else pair s (if r = 2 then true else if pRole % 8 = 2 then false else own = 0)

/-- The link goes down (R401). -/
def pwLinkDown (s : State) : State :=
  if !s.tw.link then s
  else
    let s := s.onTw (fun t => { t with link := false, lanes := 0, locked := false, consecutive := 0, refused := false })
    let s := (s.put F.TW_PEER_TWIN_ID (s.openBits 0 1)).nextFree
    if s.tw.role ≠ 4 then s
    else if ringSegs s = [] then raisePage (s.onTw (fun t => { t with isolated := true })) pPW 5 0
    else raisePage s pPW 4 0

/-- A lane is removed (R384). -/
def pwLaneDown (s : State) (lane : Nat) : State :=
  if !(s.tw.link && lane < 4 && bit s.tw.lanes lane) then s
  else
    let s := raisePage (s.onTw (fun t => { t with lanes := setBits t.lanes lane 1 0 })) pPW 3 lane
    if popCount 4 s.tw.lanes < 2 then pwLinkDown s else s

/-- A changed word of the partner's protected set arrives (R396). The delays that the partner's end measures are this unit's too
(R209, R397); RING_DELAY is that of the unit which last formed it. -/
def protReceived (s : State) (a : Nat) (v : Word) : State :=
  if !protAddr a then s
  else
    let s := s.onTw (fun t => { t with partnerSet := tput regDefault t.partnerSet a v })
    if !(pFP 0 ≤ a && a < pEpoch) then s
    else
      let p := (a - pFP 0) / 0x1000
      let j := ((a - pFP 0) % 0x1000 - 0x810) / 0x20
      if a = (F.FP_RING p).adr then s.setReg a v.toNat
      else
        let e := 1 - ownEnd s p
        s.put (nodeDelayFld p j e) (getBits v.toNat (32 * e) 32)

/-- What this unit sends at UL_END: its role and fault status, its side of the time exchange, the bitmaps of the nodes accepted at
its ends, their ACK_EPOCH, the segments where a port of a node fell, and the nodes' epoch tests (R215, R243, R246, R385, R388). -/
def heartbeatOut (s : State) : State :=
  if !s.tw.link then s
  else
    let ports := List.range 8
    let acks := ports.flatMap (fun p => ((boundNodes s p).filter (fun j => acceptedHere s p j)).map (fun j =>
      (p, j, s.g (F.FP_NODE_STATE_ACK_EPOCH p j))))
    let epochs := ports.flatMap (fun p => (boundNodes s p).filterMap (fun j =>
      (s.node p j).epochLast.map (fun ok => (p, j, ok))))
    let fault := if s.gb F.TW_FAULT_PARTNER then 0 else s.g F.TW_FAULT_CAUSE
    { s with out := s.out ++ [.heartbeat s.cycN s.tw.role fault s.stamp
        { full := false, t0 := s.time.t0, seen := ports.map (fun p => (s.port p).seenOwn)
          fell := (ports.filter (fun p => (s.port p).fell)).foldl (fun a p => a + 2 ^ p) 0
          acks := acks, epochs := epochs, prot := [] }] }

/-- The time exchange of a heartbeat of cycle `c`, whose T0 was `t0` in the active's DT (R388): `off` and `rate` are the offset and
the rate of the two clocks. The estimate lies within 3.2 ns of the offset, and is otherwise open; the first is taken at once, a
later one is slewed to. -/
def mapTake (s : State) (c : BitVec 32) (t0 : DT) (off rate : Int) : State :=
  let (w, s) := s.freeWord
  let target := off + (((w % 419431 : Nat) : Int) - 209715)
  let now := if s.tw.mapT0.isNone then target else mapOff s s.dt
  s.onTw (fun t => { t with dtOff := now, dtSlew := target - now, dtRate := rate, dtAt := s.dt, mapT0 := some (c, t0) })

/-- A heartbeat with the time exchange, the bitmaps of accepted nodes, their ACK_EPOCH (segment, node, epoch) and the words of
the partner's protected set that have changed (R215, R243, R246, R385, R388, R396). -/
def heartbeat (s : State) (c : BitVec 32) (role : Nat) (off rate : Int) (locked : Bool) (b : HeartbeatBody) : State :=
  if !(s.tw.link && s.enabled pPW) then s
  else
    let s := s.onTw (fun t => { t with hbCycle := some c, partnerRole := role % 8, locked := locked })
    let s := s.put F.TW_PEER_ROLE (role % 8)
    let s := if s.standby then mapTake s c b.t0 off rate else s.onTw (fun t => { t with dtOff := 0, dtRate := 0, dtSlew := 0 })
    let s := forEach (fun x s => ackExchange s x) b.acks s
    let s := forEach (fun x s => epochExchange s x) b.epochs s
    let s := forEach (fun e s => protReceived s e.1 e.2) b.prot s
    forEach (fun p s => if s.g (F.FP_STATE_TOPO p) = 2 || s.g (F.FP_STATE_TOPO p) = 3 then
      ringExchange s p (b.seen.getD p 0) (bit b.fell p) else s) (List.range 8) s

/-- The way of the active's DOWNLINK from end A to end B (R208, R209; DEDUCED, notes/assumptions/39). -/
def ringMeasure (s : State) (p : Nat) (h : FrameHdr) (b : DownlinkBody) : State :=
  if ownEnd s p = 0 || s.g (F.FP_STATE_TOPO p) ≠ 2 then s
  else
    let rx := activeDt s (ingressStamp s p h.capture)
    s.onPort p (fun q => { q with ringRts := (2 * dtDiff rx b.trDt :: q.ringRts).take 64 })

/-- A DOWNLINK arrives from the far head (step 1 of Table 9.3). The standby keeps the set-points and their cycle (R394, R401, R402);
the active, which the standby's reaches where a break has healed, has no use for it. -/
def downlinkReceived (s : State) (p : Nat) (h : FrameHdr) (b : DownlinkBody) : State :=
  match fpReceive s p h with
  | (false, s) => s
  | (true, s) =>
    if !(h.src = 0xFF && fromFarHead s p h) then guardDrop s p h.src .noslot
    else if !s.standby then passFrame s p
    else
      let s := ringMeasure (passFrame s p) p h b
      let c := BitVec.ofNat 32 h.cycle
      let recs := b.recs.filterMap (fun r => match r.1 with
        | some a => if a < 512 then some (a, r.2.1, r.2.2.1, bit r.2.2.2 2) else none
        | none => none)
      s.onTw (fun t => { t with
        dlCycle := some c
        dlRing := if s.g (F.FP_STATE_TOPO p) = 2 && boundNodes s p ≠ [] then some c else t.dlRing
        dlRecs := if t.dlCycle = some c then t.dlRecs ++ recs else recs })

/-- DL_END on a standby: silence of the active is a takeover (R401). SWITCHOVER's cause is then a free value: Table 15.5
names none. -/
def silenceDue (s : State) : Bool :=
  s.tw.role = 4 && s.tw.takeover = 0 && !s.tw.isolated && s.time.running &&
  s.tw.hbCycle ≠ some s.time.cycle && s.tw.dlRing ≠ some s.time.cycle &&
  (s.tw.link || ringSegs s ≠ [])

/-- DL_END on the twin: a takeover, or with the link down the loss of the last segment that gives evidence (R401). -/
def twinDlEnd (s : State) : State :=
  if silenceDue s then
    let (w, s) := s.freeWord
    takeOver s (w % 65536)
  else if s.tw.role = 4 && !s.tw.link && !s.tw.isolated && ringSegs s = [] then
    raisePage (s.onTw (fun t => { t with isolated := true })) pPW 5 0
  else s

/-! ### Views of the PW page -/

/-- STATE of the PW page. -/
def pwState (s : State) : Nat :=
  let t := s.tw
  let ready := t.link && ((t.role = 2 && t.partnerRole = 4) || (t.role = 4 && t.partnerRole = 2))
  (t.lanes <<< 36) + (t.role <<< 29) + (b2n t.cmpFaulty <<< 7) + (b2n t.isolated <<< 6) + (b2n t.recovering <<< 5) +
  (b2n (t.link && t.lanes ≠ 15) <<< 4) + (b2n t.protResolving <<< 3) + (b2n ready <<< 2) + (b2n t.copyCurrent <<< 1) +
  b2n t.link

/-- The words of TW_SNAP. -/
def twSnapWords (s : State) : List (Nat × Nat) :=
  [(F.TW_SNAP_COPIES.adr, s.tw.copies), (F.TW_SNAP_MISSED.adr, s.tw.missed), (F.TW_SNAP_COMPARES.adr, s.tw.compares),
   (F.TW_SNAP_MISMATCHES.adr, s.tw.mismatches), (F.TW_SNAP_SWITCHES.adr, s.tw.switches)]

/-! ### Power feeds (R407 to R409) -/

/-- Changes a feed: 0 is A, 1 is B. -/
def State.onFeed (s : State) (n : Nat) (f : FeedSt → FeedSt) : State :=
  if n = 0 then { s with fs := { s.fs with a := f s.fs.a } } else { s with fs := { s.fs with b := f s.fs.b } }

/-- Feed `n`. -/
def State.feed (s : State) (n : Nat) : FeedSt := if n = 0 then s.fs.a else s.fs.b

/-- A feed is GOOD. -/
def anyGood (s : State) : Bool := s.fs.a.state = 1 || s.fs.b.state = 1

/-- A sample of a feed in 10 mV (Table 15.6): the state falls at once, and the run that makes it GOOD begins or ends. -/
def feedSample (s : State) (n v : Nat) : State :=
  let f := s.feed n
  let s := s.onFeed n (fun f => { f with volts := v })
  if f.state = 3 then s
  else if v > 7800 then
    (if f.state = 2 then s.onFeed n (fun f => { f with since := none })
     else raisePage (s.onFeed n (fun f => { f with state := 2, since := none })) pFS 3 n)
  else if v < 3250 then
    (if f.state = 0 then s.onFeed n (fun f => { f with since := none })
     else raisePage (s.onFeed n (fun f => { f with state := 0, since := none })) pFS 2 n)
  else
    let run := (f.state = 0 && v > 3400) || (f.state = 2 && v < 7600)
    s.onFeed n (fun f => { f with since := if run then some (f.since.getD s.dt) else none })

/-- Everything that a power failure stops: loop engines, signal cores and DMA; the LPDDR5 goes into self-refresh (Table 15.7). A core
that is neither in service nor leaving it issues nothing. -/
def powerStop (s : State) : State :=
  let s := { s with ms := { s.ms with selfRefresh := true } }
  let s := forEach (fun n s => s.onEng n (fun g => { g with inService := false, exe := none, slot := none })) (List.range 16) s
  let s := forEach (fun n s => s.onCore n (fun k => { k with inService := false, closing := false })) (List.range 8) s
  forEach (fun i s => { s with dma := s.dma.set i { s.dma.look i with state := 0 } }) (List.range 32) s

/-- POWER_FAIL begins at the instant when neither feed is GOOD (R409). `was` says that one was GOOD before. -/
def powerFailTest (s : State) (was : Bool) : State :=
  if was && !anyGood s && !s.fs.powerFail then
    let s := { s with fs := { s.fs with powerFail := true } }
    powerStop (declare (raisePage s pFS 4 0) 1)
  else s

/-- The 10 ms of Table 15.6 have passed for feed `n`. -/
def feedRun (s : State) (n : Nat) : Bool :=
  match (s.feed n).since with
  | some d => dtDiff s.dt d ≥ (nsUnits 10000000 : Int)
  | none => false

/-- A feed has become GOOD. After a power failure that restarts the module through boot (R409). -/
def feedBack (s : State) : State :=
  let s := { s with hk := { s.hk with feedsAt := if s.fs.a.state = 1 && s.fs.b.state = 1 then s.hk.feedsAt else s.dt } }
  if s.fs.powerFail then
    { s with fs := { s.fs with powerFail := false }, hk := { s.hk with booted := false } }
  else s

/-- A feed above 34 V for 10 ms becomes GOOD (R407). -/
def feedGood (s : State) (n : Nat) : State :=
  if n < 2 && (s.feed n).state = 0 && feedRun s n then
    feedBack (raisePage (s.onFeed n (fun f => { f with state := 1, since := none })) pFS 1 n)
  else s

/-- A feed below 76 V for 10 ms returns to GOOD (R407). -/
def feedOvReturn (s : State) (n : Nat) : State :=
  if n < 2 && (s.feed n).state = 2 && feedRun s n then
    feedBack (s.onFeed n (fun f => { f with state := 1, since := none }))
  else s

/-- LAST_FEED (R408). -/
def disCheck (s : State) (n : Nat) : Nat := test ((s.feed (1 - n)).state ≠ 1) 0x1301

/-- A feed is disabled (R408). -/
def disApply (s : State) (n : Nat) : State :=
  let s := s.put (if n = 0 then F.FS_FEED_DIS_DIS_A else F.FS_FEED_DIS_DIS_B) 1
  s.onFeed n (fun f => { f with state := 3, since := none })

/-- What the charger makes of a reading of HOLDUP, in 10 mV (R472): with a feed GOOD it charges the capacitor, and from 47.0 V on
holds it at 47.0 to 49.0 V, within which the reading gives the value; a short reads 0, and raises no feed fault. Without a GOOD feed
nothing charges it. How long the capacitor that the board carries takes to charge is the reading's (notes/assumptions/41). -/
def charger (good charged : Bool) (reading : Nat) : Nat × Bool :=
  if reading = 0 then (0, false)
  else if good && (charged || 4700 ≤ reading) then (min 4900 (max 4700 reading), true)
  else (min 4900 reading, false)

/-- An edge of the always-on domain refreshes the SC values with their DTs and samples the feeds (R407, R419). -/
def housekeeping (s : State) (vcore va ca vb cb holdup : Nat) (tj : Int) : State :=
  let was := anyGood s
  let d := s.dtN
  let s := (s.put F.SG_VCORE_MEAS_MV vcore).setReg F.SG_VCORE_MEAS_DT.adr d
  let s := ((s.put F.FS_MEAS_A_VOLTS va).put F.FS_MEAS_A_CURRENT ca).setReg F.FS_MEAS_A_DT.adr d
  let s := ((s.put F.FS_MEAS_B_VOLTS vb).put F.FS_MEAS_B_CURRENT cb).setReg F.FS_MEAS_B_DT.adr d
  let s := feedSample (feedSample s 0 va) 1 vb
  let (held, full) := charger (anyGood s) s.fs.charged holdup
  let s := { s with fs := { s.fs with charged := full } }
  let s := ((s.put F.FS_AUX_HOLDUP held).puti F.FS_AUX_TJ tj).setReg F.FS_AUX_DT.adr d
  let hot := tj ≥ 1300
  let s := { s with fs := { s.fs with
    tjSince := if hot then some (s.fs.tjSince.getD s.dt) else none
    overtemp := if hot then true else if tj < 1200 then false else s.fs.overtemp } }
  let s := if s.fs.overtemp then s else s.onTw (fun t => { t with told := nsDel t.told 5 })
  powerFailTest s was

/-- Tj at or above 130 °C for 1 ms is detected (Table 15.5). -/
def overtempDetect (s : State) : State :=
  match s.fs.tjSince with
  | some d =>
    if dtDiff s.dt d ≥ (nsUnits 1000000 : Int) && !nsHas s.tw.told 5 then
      detect (s.onTw (fun t => { t with told := nsAdd t.told 5 })) 5
    else s
  | none => s

/-- A conversion stage reports a fault, or no longer does (R398). -/
def regulator (s : State) (on vcore : Bool) : State :=
  let was := s.fs.regFault
  let s := { s with fs := { s.fs with regFault := on, regVcore := on && vcore } }
  if on && !was then detect s 2 else s

/-- STATE of the FS page. -/
def fsState (s : State) : Nat :=
  let one := (s.fs.a.state = 1) != (s.fs.b.state = 1)
  (b2n s.fs.overtemp <<< 11) + (b2n s.fs.regFault <<< 10) + (b2n s.fs.powerFail <<< 9) + (b2n one <<< 8) +
  (s.fs.b.state <<< 2) + s.fs.a.state

end Sys2Proof.Machine
end

