-- ==== Sys2Proof/Machine/Cycle.lean ====
section
/-! DEFINITION. The servo cycle: the cycle check, start and stop, and the phase instants from T0 to DL_END (R30 to R36,
R40, R42, R47, R50, R58, R61). -/

namespace Sys2Proof.Machine

/-! ### Device time (R60 to R62) -/

/-- DT comes to `t` when `t` is later than it by the signed difference; ERA counts its wraps (R61, R62). -/
def Time.advance (m : Time) (t : DT) : Time :=
  if dtDiff t m.dt > 0 then
    { m with dt := t, era := if t.toNat < m.dt.toNat then m.era + 1 else m.era }
  else m

/-- DT passes from all ones to 0 when that instant lies ahead (R61). -/
def Time.wrap (m : Time) : Time := m.advance 0

/-! ### The cycle check (R38 to R40, R50) -/

/-- PERIOD_RANGE and PHASE_ORDER hold (Table 2.4). -/
def schedOk (c : Sched) : Bool :=
  125 ≤ c.period && c.period ≤ 8000 && 0 < c.ulEnd && c.ulEnd ≤ c.cwStart && c.cwStart < c.cwEnd && c.cwEnd < c.tr &&
  c.tr < c.dlEnd && c.dlEnd + 4 ≤ c.period

/-- The checks 0x0601 to 0x0606 on the phases `c` with `n` enabled axes (Table 2.4). -/
def schedCheck (c : Sched) (n : Nat) : Nat :=
  firstReason
    [test (c.period < 125 || c.period > 8000) 0x0601, test (!schedOk c) 0x0602, test (c.tr < c.cwEnd + 4) 0x0603,
     test (!windowOk n c) 0x0604, test (!rateOk n c) 0x0605, test (c.period + c.cwStart < c.dlEnd + 8) 0x0606]

/-- The cycle check, for an ENABLE written at `d` while CYC_START_DT held `start` (R35, Table 2.4). A standby uses no
CYC_START_DT and does not test it (R36). The number of axes that R40 has tested is that of the axes enabled from the next T0 on
(DESIGN CHOICE, notes/assumptions/37). -/
def cycleCheck (s : State) (start d : DT) : Nat :=
  let c := nextWritten s
  let lead := dtDiff start d
  firstReason
    [schedCheck c (axesToBe s).length,
     test (!s.standby && (lead < (nsUnits 100000 : Int) || lead > (nsUnits 10000000000 : Int))) 0x0607,
     test s.tu.unlocked 0x0608, test (!slotFit s c) 0x0609, test (!s.enabled pSG) 0x060A]

/-! ### Start and stop (R34, R35) -/

/-- What a command asks of the cycle is carried out on the time. A start takes a schedule that has passed the cycle
check; ENABLE cleared before the first T0 abandons the start, and otherwise lets the cycle end at its DL_END, or at once where
its DL_END has passed (DEDUCED, notes/assumptions/17). -/
def Time.ask (m : Time) : TimeAsk → Time
  | .start c d => if schedOk c then { m with starting := true, startDt := d, live := c } else m
  | .follow c => if schedOk c then { m with live := c } else m
  | .stop => if m.starting then { m with starting := false } else if m.running then { m with stopping := true } else m
  | .over => { m with running := false, stopping := false }
  | .halt => { (default : Time) with dt := m.dt, era := m.era, live := Sched.reset }
  | .off => { (default : Time) with live := Sched.reset }

/-- The cycle page's ENABLE has passed its check (R34): the next-cycle values become live, and the totals of R58 start
from 0. `start` is the CYC_START_DT held at the write (R35). -/
def cycleStart (s : State) (start : DT) : State :=
  let s := { s with cyc := { s.cyc with
    holds := 0, heldCycles := 0, holdsDone := 0, heldCyclesDone := 0 } }
  askTime s (.start (nextWritten s) start)

/-- The cycle page's ENABLE is cleared (R35). -/
def cycleStop (s : State) : State :=
  if s.cyc.phase = 6 && s.time.running && !s.time.starting then
    askTime (segsIdle (angTakeUp (aePins { s with sg := { s.sg with walkFrom := s.dt } }))) .over
  else askTime s .stop

/-! ### T0 -/

/-- A T0 follows: the first of a start, the next of a running cycle, or one of the active's that the standby has mapped (R30,
R36, R388). -/
def t0Due (s : State) : Bool :=
  (s.time.starting && !s.standby) || (s.time.running && !s.time.stopping && s.cyc.phase = 6) ||
  (s.standby && s.tw.link && s.tw.mapT0.isSome)

/-- The schedule that the coming cycle runs on: at the activation of an epoch change, what CYC_PERIOD_NEXT and CYC_PHASE_NEXT hold
(R33, R240). -/
def liveNext (s : State) : Sched := if activatesNext s then nextWritten s else s.time.live

/-- The cycle number after the coming T0 (R30); on the standby it follows the active's (R36). -/
def cycleNext (s : State) : BitVec 32 :=
  match s.standby, s.tw.mapT0 with
  | true, some (c, _) => c + 1
  | _, _ => if s.time.starting && !s.standby then 0 else s.time.cycle + 1

/-- The standby becomes active at the coming T0 (R400, R402). -/
def switchesNext (s : State) : Bool :=
  s.tw.role = 4 && (s.tw.takeover ≠ 0 || s.tw.switchCycle = some (cycleNext s - 1))

/-- The instant of the coming T0 (R30). On the standby it is the active's, placed through the mapping (R388); the T0 at which it
takes over follows the last one that it mapped by the live period in its own DT (R389). -/
def t0Next (s : State) : DT :=
  if s.time.starting && !s.standby then s.time.startDt
  else match s.standby && !switchesNext s, s.tw.mapT0 with
    | true, some (_, d) =>
      let active := dtAdd d ((s.time.live.period * stepUnits : Nat) : Int)
      dtAdd active (mapOff s (dtAdd active (mapOff s s.dt)))
    | _, _ => s.at s.time.live.period

/-- The time after T0. -/
def timeT0 (s : State) : Time :=
  let d := t0Next s
  { s.time.advance d with
    t0 := d, cycle := cycleNext s, live := liveNext s, starting := false, running := true
    stopping := s.time.stopping && !s.time.starting }

/-- The blocks at T0: roles, epochs, axes, the starts and stops of feedback, rebases, feedback, links, samples. -/
def blocksT0 (s : State) : State :=
  let s := qeCatchUp s true
  let s := { s with cyc := { s.cyc with t0s := s.cyc.t0s + 1 }, le := { s.le with actCycle := none } }
  let s := fbBegins (leT0 (epochT0 (twinT0 s)))
  let s := forEach (fun a s =>
    if fbWantsRebase s a then pgRebase s a (shl (toS 40 (s.ax a F.FB_CMD_REBASE)) 24) else s) (fbActive s) s
  angTakeUp (aeT0 (segsT0 (fbT0 (qeAllT0 s))))

/-- T0 (R30, R34, R36), in a state whose time is that of the new cycle. `first`: the first T0 of a start, which begins
feedback afresh (R116). -/
def cycleT0 (s : State) (first : Bool) : State :=
  blocksT0 (if first then { s with fb := { s.fb with fresh := true } } else s)

/-! ### The later phases -/

/-- Phase `k` of the cycle comes next: nothing happens unless the cycle runs and the phase before it has passed. -/
def phaseDue (s : State) (k : Nat) : Bool := s.time.running && s.cyc.phase + 1 = k

/-- The time at phase `k`, `n` steps of 125 ns after T0; `t` where the phase does not come. -/
def phaseTime (s : State) (t : DT) (k n : Nat) : Time :=
  if phaseDue s k then s.time.advance (s.at n) else s.time.advance t

/-- T0 + UL_END (R108, R215, R231, R243, R385, R395, R397). `peer` is the set that the partner's digest stands for and
that set after the partner has compared it with its image, `flawed` the protected words found uncorrectable, `flagged` whether the comparator saw the injected bit. -/
def ulEnd (s : State) (peer : Option (List (Nat × Word) × List (Nat × Word))) (flawed : List Nat) (flagged : Bool) : State :=
  let s := forEach (fun a s => protScrub s a) flawed (fbClose (qeCatchUp s true))
  let s := epochDecide (segsUlEnd (twinUlEnd s))
  let s := leDispatch (angTakeUp s) 600
  let s := injectCompare (crossCheck (copyMissed s) peer) flagged
  if s.tw.role = 0 then s else heartbeatOut s

/-- T0 + CW_START (R37, R46, R402). -/
def cwStart (s : State) : State :=
  let s := leCwStart (twinCwStart s)
  { s with ang := { s.ang with tableOpen := false } }

/-- T0 + CW_END (R42, R47, R217, R290). -/
def cwEnd (s : State) : State :=
  let s := relayRecords (leCwEnd s)
  { s with ang := { s.ang with tableOpen := true, tableLeft := 8192 } }

/-- T0 + TR (R170, R201, R252, R391, R403). -/
def trPhase (s : State) : State :=
  let inputs := shadowInputs s
  twinTr (aeTr (segsTr (pgTr (twinStopTr s) (nextPeriod s)))) inputs

/-- The hold counts of the cycle that completes (R47, R58). -/
def holdsClose (s : State) : State :=
  { s with cyc := { s.cyc with
    heldLast := s.cyc.heldNow, holdsLast := s.cyc.heldNow > 0
    holdsDone := s.cyc.holds, heldCyclesDone := s.cyc.heldCycles } }

/-- The time after a DL_END: a cycle whose ENABLE was cleared ends (R35). -/
def Time.dlEnd (m : Time) : Time := if m.stopping then { m with running := false, stopping := false } else m

/-- T0 + DL_END (R35, R52, R58, R214, R401). -/
def dlEnd (s : State) : State :=
  let s := twinDlEnd (holdsClose (segsDlEnd (sgClose s)))
  if s.time.stopping then segsIdle (angTakeUp (aePins { s with sg := { s.sg with walkFrom := s.dt } })) else s

/-! ### Views of the cycle page -/

/-- STATE of the cycle page: of the time with what the command has asked of it. -/
def cycState (s : State) : Nat :=
  let m := s.cyc.ask.foldl Time.ask s.time
  (min 1023 s.cyc.heldLast <<< 32) + (b2n s.cyc.holdsLast <<< 2) + (b2n m.running <<< 1) + b2n m.starting

/-- The words of CYC_SNAP (R58). -/
def cycSnapWords (s : State) : List (Nat × Nat) :=
  [(F.CYC_SNAP_T0.adr, s.time.t0.toNat), (F.CYC_SNAP_NUM.adr, s.cycN), (F.CYC_SNAP_HOLDS.adr, s.cyc.holdsDone),
   (F.CYC_SNAP_HCYC.adr, s.cyc.heldCyclesDone)]

end Sys2Proof.Machine
end

