-- ==== Sys2Proof/Machine/Trace.lean ====
section
/-! DEFINITION. The trace unit: records of the signal cores in the trace ring (R447 to R449). -/

namespace Sys2Proof.Machine

/-- Slots of the trace ring. -/
def trcSize (s : State) : Nat := 2 ^ s.g F.TRC_CFG_SIZE_LOG2

/-- The two words of a trace record (R447). -/
def trcWords (s : State) (type core ctx payload : Nat) (dt : DT) : List Nat :=
  let _ := s
  [type + (core <<< 8) + (ctx <<< 16) + ((payload % 2 ^ 32) <<< 32), dt.toNat]

/-- Writes one record at the present count and advances TRC_WR. -/
def trcPlace (s : State) (ws : List Nat) : State :=
  let wr := s.g F.TRC_WR_COUNT
  let s := devWrites s 0x4D (s.reg F.TRC_BASE.adr + 16 * (wr % trcSize s)) ws
  s.put F.TRC_WR_COUNT ((wr + 1) % 2 ^ 32)

/-- A trace record is lost (R447, with R428). -/
def trcLose (s : State) : State :=
  let first := if s.trc.lost = 0 then s.stamp else s.trc.lostFirst
  { s with trc := { s.trc with lost := satInc 32 s.trc.lost, lostFirst := first } }

/-- The first of `need` slots of the trace ring from the present one that cannot be written, with the fault. -/
def trcFault (s : State) (need : Nat) : Option (Nat × Nat × Nat) :=
  (List.range need).findSome? (fun i =>
    let a := s.reg F.TRC_BASE.adr + 16 * ((s.g F.TRC_WR_COUNT + i) % trcSize s)
    match xlate s a with
    | .fault k l => some (k, l, a)
    | _ => none)

/-- The PC that a SYNC record of core `n` gives. -/
def trcPc (s : State) (n : Nat) : Nat := (s.cores.look n).arch.pc.toNat

/-- Writes a SYNC record of core `n`, for which there is room (R448). -/
def trcSync (s : State) (n ctx : Nat) : State :=
  let s := trcPlace s (trcWords s 1 n ctx (trcPc s n) s.stamp)
  s.onCore n (fun k => { k with trcSince := 0 })

/-- A record of core `n` is written or lost; after a loss a LOST record, with the event TRACE_LOST, goes before it, and a SYNC
after it, unless it is one: outcomes from before the SYNC's PC come before it (R447, R448, R452; DEDUCED, notes/assumptions/40). -/
def trcEmit (s : State) (n type ctx payload : Nat) : State :=
  let used := (s.g F.TRC_WR_COUNT + 2 ^ 32 - s.g F.TRC_RD_COUNT) % 2 ^ 32
  let lost := s.trc.lost
  let need := (if lost = 0 then 0 else if type = 1 then 1 else 2) + 1
  match trcFault s need with
  | some (k, l, a) => trcLose (raiseXuFault s 0x4D k l a)
  | none =>
    if used + need + 1 ≤ trcSize s then
      let s := if lost = 0 then s
        else
          let s := raisePage (trcPlace s (trcWords s 10 n ctx lost s.trc.lostFirst)) pTRC 1 0
          { s with trc := { s.trc with lost := 0, lostFirst := 0 } }
      let s := trcPlace s (trcWords s type n ctx payload s.stamp)
      let s := s.onCore n (fun k => { k with trcSince := k.trcSince + 1 })
      if lost = 0 || type = 1 then s else trcSync s n ctx
    else trcLose s

/-- Whether core `n` is traced. -/
def trcTraced (s : State) (n : Nat) : Bool := s.enabled pTRC && bit (s.g F.TRC_CFG_CORES) n

/-- The context that records of core `n` name. -/
def trcCtx (s : State) (n : Nat) : Nat := ((s.cores.look n).resident).getD (s.cores.look n).lastCtx

/-- The payload of a BRANCH record: the number of outcomes and the outcomes, the first in bit 5 (Table 17.6). -/
def trcBranchWord (l : List Bool) : Nat :=
  l.length + ((l.foldr (fun b v => 2 * v + b2n b) 0) <<< 5)

/-- The pending BRANCH record of core `n` is written (R449). -/
def trcFlush (s : State) (n : Nat) : State :=
  let bits := (s.cores.look n).trcBits
  if bits = [] then s
  else
    let s := s.onCore n (fun k => { k with trcBits := [] })
    trcEmit s n 2 (trcCtx s n) (trcBranchWord bits)

/-- A SYNC when SYNC_EVERY records have passed since the last one (R448). -/
def trcMaybeSync (s : State) (n : Nat) : State :=
  if (s.cores.look n).trcSince ≥ s.g F.TRC_CFG_SYNC_EVERY then
    (trcEmit s n 1 (trcCtx s n) (trcPc s n)).onCore n (fun k => { k with trcSince := 0 })
  else s

/-- A record of a traced core, after its pending outcomes. -/
def trcRecord (s : State) (n type ctx payload : Nat) : State :=
  if trcTraced s n then trcMaybeSync (trcEmit (trcMaybeSync (trcFlush s n) n) n type ctx payload) n else s

/-- Tracing of a core begins, or ends, at its instruction boundary (R448, TRC_CFG.CORES). -/
def trcBoundary (s : State) (n : Nat) : State :=
  let on := trcTraced s n
  if on = (s.cores.look n).trcOn then s
  else
    let s := s.onCore n (fun k => { k with trcOn := on, trcBits := [] })
    if on then (trcEmit s n 1 (trcCtx s n) (trcPc s n)).onCore n (fun k => { k with trcSince := 0 }) else s

/-- Tracing ends at once for every core that TRC_CFG no longer names, or with the page (TRC_CFG.CORES): when it begins again, a
SYNC does (R448). -/
def trcSweep (s : State) : State :=
  forEach (fun n s => if trcTraced s n then s else s.onCore n (fun k => { k with trcOn := false, trcBits := [] }))
    (List.range 8) s

/-- The outcome of a branch of core `n` (Table 17.6). -/
def trcBranch (s : State) (n : Nat) (taken : Bool) : State :=
  if trcTraced s n then
    let s := s.onCore n (fun k => { k with trcBits := k.trcBits ++ [taken] })
    if (s.cores.look n).trcBits.length ≥ 27 then trcMaybeSync (trcFlush s n) n else s
  else s

/-- A record of core `n` and the SYNC after it (R448). -/
def trcWithSync (s : State) (n type ctx payload : Nat) : State :=
  if trcTraced s n then
    let s := trcMaybeSync (trcFlush s n) n
    let was := s.trc.lost ≠ 0
    let s := trcEmit s n type ctx payload
    -- after a loss the record itself came with its SYNC
    if was && s.trc.lost = 0 then s
    else (trcEmit s n 1 ctx (trcPc s n)).onCore n (fun k => { k with trcSince := 0 })
  else s

/-- CTX_IN and the SYNC after it (R448). -/
def trcCtxIn (s : State) (n ctx : Nat) : State := trcWithSync s n 4 ctx (cxState s ctx)

end Sys2Proof.Machine
end

