-- ==== Sys2Proof/Machine/Queues.lean ====
section
/-! DEFINITION. The 64 hardware queues (R376 to R381). What a commit write does beyond the queue is done by
the caller, which has the bus. -/

namespace Sys2Proof.Machine

/-- Owner tag of a master (R377): the resident context of a signal core, else the master itself. -/
def ownerOf (s : State) (master : Nat) : Nat :=
  if 0x10 ≤ master && master < 0x18 then
    match (s.cores.look (master - 0x10)).resident with
    | some c => 0x10000 + c
    | none => master
  else master

/-- Queue `q`. -/
def State.queue (s : State) (q : Nat) : QueueSt := s.queues.look q

/-- Changes queue `q`. -/
def State.onQueue (s : State) (q : Nat) (f : QueueSt → QueueSt) : State :=
  { s with queues := s.queues.set q (f (s.queues.look q)) }

/-- Words of the ring. -/
def qSize (k : QueueSt) : Nat := 2 ^ k.sizeLog2

/-- Free words (R378). -/
def qFree (k : QueueSt) : Nat := qSize k - (k.p - k.m)

/-- Direct address of the word at position `i`. -/
def qAddr (k : QueueSt) (i : Nat) : Nat := sramBase + k.base + 8 * (i % qSize k)

/-- Committed data words at or after R (Q_STATE.READABLE). -/
def qReadable (k : QueueSt) : Nat :=
  k.packets.foldl (fun n p =>
    n + (if k.r ≤ p.head then p.count
         else if k.r < p.head + 1 + p.count then p.head + 1 + p.count - k.r else 0)) 0

/-- The position of the next committed data word, the position after it, and whether it ends its packet (R378). -/
def qNext (k : QueueSt) : Option (Nat × Bool) :=
  match k.packets.find? (fun p => k.r < p.head + 1 + p.count) with
  | none => none
  | some p =>
    let pos := max k.r (p.head + 1)
    some (pos, pos = p.head + p.count)

/-- Q_POPSTAT of a master (R378, R379). -/
def qStat (s : State) (master q : Nat) (valid last timedOut : Bool) : State :=
  setOwn s master F.Q_POPSTAT.adr
    ((b2n valid <<< 63) + (b2n last <<< 62) + (b2n timedOut <<< 61) + q)

/-- MARK: the words before R become free (R378). -/
def qMark (s : State) (q : Nat) : State :=
  s.onQueue q (fun k =>
    { k with m := k.r, packets := k.packets.filter (fun p => k.r < p.head + 1 + p.count) })

/-- Takes the next committed word of queue `q` for `master`, if there is one (R378). Of a poisoned word the queue, a device
block, uses the value 0, and MEM_UE is raised (R359). -/
def qTake (s : State) (q master : Nat) : Option (State × Nat) :=
  let k := s.queue q
  match qNext k with
  | none => none
  | some (pos, last) =>
    let v := s.word (qAddr k pos)
    let s := if s.poisoned (qAddr k pos) then raiseUe s 0x49 (qAddr k pos) else s
    let s := s.onQueue q (fun k => { k with r := pos + 1 })
    let s := qStat s master q true last false
    some ((if last && k.autoMark then qMark s q else s), v)

/-- The PEC byte of SMBus over a message: the remainder of its bytes by x^8 + x^2 + x + 1 (R442; PRESUMED from SMBus,
notes/assumptions/42). -/
def pecStep (c : Nat) : Nat := if c < 128 then 2 * c else (2 * c % 256) ^^^ 7

/-- The PEC byte of the bytes `l`. -/
def pecOf (l : List Nat) : Nat :=
  l.foldl (fun c b => pecStep (pecStep (pecStep (pecStep (pecStep (pecStep (pecStep (pecStep (c ^^^ b % 256))))))))) 0

/-- MP returns a status byte and data, with the PEC byte of the read (R442). -/
def mpAnswer (s : State) (st v : Nat) : State :=
  let bytes := [2 * s.g F.MP_ADDR_ADDRESS, 2, 2 * s.g F.MP_ADDR_ADDRESS + 1, 9, st] ++ (List.range 8).map (fun j => getBits v (8 * j) 8)
  { s with out := s.out ++ [.mpReply st (BitVec.ofNat 64 v) (pecOf bytes)] }

/-- Hands the answer of a waiting read to its master: data that an LDR waits for, a word that a DMA ring reads, the value of a
register-access operation (R439), the completion of HP, the answer of MP, what DEBUG shifts out, a reply outside the device. -/
def qDeliver (s : State) (master v : Nat) (valid : Bool) : State :=
  if 0x10 ≤ master && master < 0x18 then
    s.onCore (master - 0x10) (fun k =>
      match k.wait with
      | .ldr d z sg a since _ p false => { k with wait := .ldr d z sg a since v p true }
      | _ => k)
  else if 0x20 ≤ master && master < 0x30 then
    let fix (i : Nat) (s : State) : State :=
      let r := s.dma.look i
      if !r.waiting then s
      else
        let bytes := (List.range 8).map (fun j => byteOf v j)
        let r := if valid then { r with waiting := false, held := r.held ++ bytes }
          else { r with waiting := false, finish := some 1 }
        { s with dma := s.dma.set i r }
    forEach fix [2 * (master - 0x20), 2 * (master - 0x20) + 1] s
  else
    let popped := { s with out := s.out ++ [.popped master (BitVec.ofNat 64 v) valid] }
    if master = 0 && s.hp.reading then
      { s with hp := { s.hp with reading := false }, out := s.out ++ [.hostReply false (BitVec.ofNat 64 v)] }
    else if master = 4 && s.jtag.reading then
      { s with jtag := { s.jtag with reading := false }, out := s.out ++ [.jtag (BitVec.ofNat 64 v)] }
    else if master = 3 && s.mpWait.isSome then mpAnswer { s with mpWait := none } (s.mpWait.getD 0) v
    else if master = 1 || master = 2 then
      match (s.he.look (master - 1)).reqs with
      | r :: l => if r.waits && r.answer.isNone then
          { s with he := s.he.set (master - 1) { s.he.look (master - 1) with reqs := { r with answer := some v } :: l } }
        else popped
      | [] => popped
    else popped

/-- Serves waiting reads in arrival order while words are readable (R379). -/
def qServe (s : State) (q : Nat) : Nat → State
  | 0 => s
  | n + 1 =>
    match (s.queue q).waits with
    | [] => s
    | w :: r =>
      if dtDiff s.dt w.deadline ≥ 0 then
        -- the commit has come at the deadline or after it
        qServe (qDeliver (qStat (s.onQueue q (fun k => { k with waits := r })) w.master q false false true) w.master 0 false) q n
      else match qTake s q w.master with
      | none => s
      | some (s, v) =>
        qServe (qDeliver (s.onQueue q (fun k => { k with waits := r })) w.master v true) q n

/-- Serves every waiting read that can be served. -/
def qServeAll (s : State) (q : Nat) : State := qServe s q (s.queue q).waits.length

/-- A read of Q_POP (R378, R379): the data, or `none` while the read waits. -/
def qPop (s : State) (q master : Nat) : State × Option Nat :=
  let k := s.queue q
  if !k.on then (qStat s master q false false false, some 0)
  else match (if k.waits = [] then qTake s q master else none) with
    | some (s, v) => (s, some v)
    | none =>
      if k.timeout = 0 then (qStat s master q false false false, some 0)
      else
        let w : QWait := { master, owner := ownerOf s master, deadline := dtAdd s.dt (nsUnits (1000 * k.timeout)) }
        (s.onQueue q (fun k => { k with waits := k.waits ++ [w] }), none)

/-- The deadline of the oldest waiting read of queue `q` has passed (R379). -/
def qTimeout (s : State) (q : Nat) : State :=
  match (s.queue q).waits.find? (fun w => dtDiff s.dt w.deadline ≥ 0) with
  | none => s
  | some w =>
    let s := s.onQueue q (fun k => { k with waits := k.waits.erase w })
    qDeliver (qStat s w.master q false false true) w.master 0 false

/-- Q_REFUSED, Q_OVERRUN and Q_ABANDONED are events 1 to 3 of the queue page (Table 14.10). -/
def qRefused (s : State) (q : Nat) : State := raisePage s pQ 1 q

/-- Rewinds the producer to the last commit (R377). -/
def qRewindPacket (s : State) (q : Nat) : State :=
  s.onQueue q (fun k => match k.openPkt with
    | some p => { k with p := p.head, openPkt := none, broken := false, owner := 0 }
    | none => k)

/-- A push by the owner with tag `me` (R377). -/
def qPushBy (s : State) (q me v : Nat) : State :=
  let k := s.queue q
  if !k.on then s
  else
    match k.openPkt with
    | some p =>
      if k.owner ≠ me then qRefused s q
      else if k.broken then s
      else if qFree k = 0 then s.onQueue q (fun k => { k with broken := true })
      else
        let s := s.setWord (qAddr k k.p) v
        s.onQueue q (fun k => { k with p := k.p + 1, openPkt := some { p with count := p.count + 1 } })
    | none =>
      if qFree k ≥ 2 then
        let s := s.setWord (qAddr k (k.p + 1)) v
        s.onQueue q (fun k => { k with p := k.p + 2, openPkt := some ⟨k.p, 1⟩, owner := me, broken := false })
      else
        s.onQueue q (fun k =>
          { k with p := k.p + min 1 (qFree k), openPkt := some ⟨k.p, 0⟩, owner := me, broken := true })

/-- A push by a master (R377). -/
def qPush (s : State) (q master v : Nat) : State := qPushBy s q (ownerOf s master) v

/-- A COMMIT (R377). The result tells whether a packet was committed, so that the commit write follows (R380). -/
def qCommit (s : State) (q master : Nat) : State × Bool :=
  let k := s.queue q
  match k.openPkt with
  | none => (s, false)
  | some p =>
    if k.owner ≠ ownerOf s master then (qRefused s q, false)
    else if k.broken then (raisePage (qRewindPacket s q) pQ 2 q, false)
    else
      let s := s.setWord (qAddr k p.head) (p.count % 2 ^ 32)
      let s := s.onQueue q (fun k => { k with openPkt := none, owner := 0, packets := k.packets ++ [p] })
      (qServeAll s q, true)

/-- An ABANDON (R377). -/
def qAbandon (s : State) (q master : Nat) (force : Bool) : State :=
  let k := s.queue q
  match k.openPkt with
  | none => s
  | some _ =>
    if !force && k.owner ≠ ownerOf s master then qRefused s q else qRewindPacket s q

/-- A REWIND (R378, R379). -/
def qRewind (s : State) (q : Nat) : State :=
  qServeAll (s.onQueue q (fun k => { k with r := k.m })) q

/-- The owning context was reset or faulted with a final cause: its open packets are abandoned (R377). -/
def qOwnerGone (s : State) (c : Nat) : State :=
  forEach (fun q s =>
    if (s.queue q).openPkt.isSome && (s.queue q).owner = 0x10000 + c
    then raisePage (qRewindPacket s q) pQ 3 q else s) (List.range 64) s

/-- The words of queue `q`'s descriptor (Table 14.8). -/
def qDesc (s : State) (q i : Nat) : Nat := s.word (queueBase q + 8 * i)

/-- The checks of a queue enable (Table 14.9). -/
def qEnableCheck (s : State) (q : Nat) : Nat :=
  let base := qDesc s q 0
  let cfg := qDesc s q 1
  let lg := getBits cfg 0 5
  firstReason [
    test (!s.enabled pQ) 0x0920,
    test (base % 64 ≠ 0 || lg < 6 || lg > 18 || base + 8 * 2 ^ lg > 0x2000000 || getBits cfg 8 6 > 50 ||
      getBits cfg 5 3 ≠ 0 || getBits cfg 14 2 ≠ 0 || getBits cfg 17 47 ≠ 0) 0x0921,
    test (s.queue q).on 0x0922]

/-- The check of a queue disable (Table 14.9). -/
def qDisableCheck (s : State) : Nat := test (!s.enabled pQ) 0x0920

/-- A queue is enabled: its descriptor is read and it is emptied (R376). -/
def qEnable (s : State) (q : Nat) : State :=
  let cfg := qDesc s q 1
  let k : QueueSt := {
    (default : QueueSt) with
    on := true
    base := qDesc s q 0
    sizeLog2 := getBits cfg 0 5
    timeout := getBits cfg 8 6
    autoMark := bit cfg 16
    notifyAddr := qDesc s q 2
    notifyVal := qDesc s q 3 }
  { s with queues := s.queues.set q k }

/-- A queue is disabled (R376): the open packet is abandoned, waiting reads return, the contents go. -/
def qDisable (s : State) (q : Nat) : State :=
  let waits := (s.queue q).waits
  let s := { s with queues := s.queues.set q default }
  forEach (fun w s => qDeliver (qStat s w.master q false false false) w.master 0 false) waits s

/-- Q_STATE of queue `q`. -/
def qStateWord (s : State) (q : Nat) : Nat :=
  let k := s.queue q
  if !k.on then 0
  else (1 <<< 63) + (b2n k.openPkt.isSome <<< 62) + (b2n k.broken <<< 61) + (qFree k <<< 32) + qReadable k

/-- STATE of the queue page. -/
def qPageState (s : State) : Nat :=
  (List.range 64).foldl (fun v q => v + (b2n (s.queue q).openPkt.isSome <<< q)) 0

end Sys2Proof.Machine
end

