-- ==== Sys2Proof/Machine/Keystone.lean ====
section
/-! DEFINITION. Keystone (chapter 13): context commands, placement, ordered flows, the tick and the delay list,
hardware locks, credit quotas. Functions that write through the bus take the write as an argument. -/

namespace Sys2Proof.Machine

/-- Changes Keystone. -/
def State.onKs (s : State) (f : KsSt → KsSt) : State := { s with ks := f s.ks }

/-- The master number of Keystone (Table 16.8). -/
def ksMaster : Nat := 0x41

/-! ### Flows (R340 to R342) -/

/-- Flow `f`: its state and the next sequence number are those of FL_STATUS as it stands (R7). -/
def State.flow (s : State) (f : Nat) : FlowSt :=
  let w := s.word (flowBase f + 0x20)
  { s.ks.flows.look f with state := getBits w 62 2, next := getBits w 0 32 }

/-- Changes flow `f`, and writes its FL_STATUS, the reserved bits as they stand (Table 13.4, R9). -/
def State.onFlow (s : State) (f : Nat) (g : FlowSt → FlowSt) : State :=
  let x := g (s.flow f)
  let s := s.onKs (fun k => { k with flows := k.flows.set f x })
  s.setFields (flowBase f + 0x20) ((x.state <<< 62) + (x.items.length <<< 32) + x.next % 2 ^ 32) 0xC00000FFFFFFFFFF

/-- The free worker of flow `f`: the WAITING context of lowest number that holds no item (R341). -/
def flowWorker (s : State) (f : Nat) : Option Nat :=
  (s.ks.cfg.find? (fun p => p.2.flow = f && cxState s p.1 = 4 && s.cx p.1 F.CX_ITEM_VALID = 0)).map (·.1)

/-- The oldest item of flow `f` that no worker has. -/
def flowNextItem (s : State) (f : Nat) : Option FlowItem :=
  (s.flow f).items.find? (fun i => i.worker.isNone && !i.done)

/-- Hands items to workers in sequence order, at most `n` (R341). -/
def flowHand (s : State) (f : Nat) : Nat → State
  | 0 => s
  | n + 1 =>
    match flowNextItem s f, flowWorker s f with
    | some i, some c =>
      let s := s.onFlow f (fun x => { x with
        items := x.items.map (fun j => if j.seq = i.seq then { j with worker := some c } else j) })
      let s := s.setFields (cxBase c + F.CX_ITEM.adr) ((1 <<< 63) + (f <<< 32) + i.seq) 0x8000003FFFFFFFFF
      let s := s.setWord (cxBase c + 0x30) i.arg.toNat
      flowHand (makeReady s c false) f n
    | _, _ => s

/-- Hands out whatever can be handed out: at most 128 items are held. -/
def flowHandAll (s : State) (f : Nat) : State := flowHand s f 128

/-- The 16-byte output entry of an item (Table 13.5). -/
def flowEntry (i : FlowItem) : List Nat :=
  [i.seq + ((i.worker.getD 0) <<< 32) + (b2n i.failed <<< 48), if i.failed then 0 else i.result.toNat]

/-- Keystone's own writes from an XU address on: at the first word that does not translate the fault is reported, and what is left of
the data is dropped (R365). -/
def ksWrites (s : State) (a : Nat) : List Nat → State
  | [] => s
  | w :: r =>
    match xlate s a with
    | .fault k l => raiseXuFault s ksMaster k l a
    | _ => ksWrites (devWrite (xuTouch s a) ksMaster a w) (a + 8) r

/-- Releases items from the window in order, while the output ring has room (R342). -/
def flowRelease (s : State) (f : Nat) : Nat → State
  | 0 => s
  | n + 1 =>
    let x := s.flow f
    match x.items with
    | [] => if x.state = 2 then s.onFlow f (fun x => { x with state := 0 }) else s
    | i :: r =>
      let wr := s.word (flowBase f + 0x18)
      let rd := s.word (flowBase f + 0x10)
      let size := 2 ^ x.sizeLog2
      if i.done && (wr + 2 ^ 64 - rd) % 2 ^ 64 < size then
        let s := ksWrites s (x.base + 16 * (wr % size)) (flowEntry i)
        let s := s.setWord (flowBase f + 0x18) ((wr + 1) % 2 ^ 64)
        flowRelease (s.onFlow f (fun x => { x with items := r })) f n
      else s

/-- Releases every item that may leave. -/
def flowReleaseAll (s : State) (f : Nat) : State :=
  flowRelease (forEach (fun o s => s.noteRead (flowBase f + o)) [0x10, 0x18] s) f 129

/-- The item that context `c` holds is complete with the result given, or failed (R341, R342). -/
def flowFinish (s : State) (c : Nat) (failed : Bool) : State :=
  if s.cx c F.CX_ITEM_VALID = 0 then s
  else
    let f := s.cx c F.CX_ITEM_FLOW
    let seq := s.cx c F.CX_ITEM_SEQ
    let res := s.word (cxBase c + 0x38)
    let s := s.noteRead (cxBase c + 0x38)
    let s := s.cxPut c F.CX_ITEM_VALID 0
    let s := s.onFlow f (fun x => { x with
      items := x.items.map (fun j => if j.seq = seq && j.worker = some c then
        { j with done := true, failed := failed, result := BitVec.ofNat 64 (if failed then 0 else res) } else j) })
    let s := if failed then raisePage2 s pKS 3 (f + (c <<< 16)) seq 0 else s
    flowReleaseAll s f

/-- The checks of a flow enable (Table 13.3). -/
def flowCheck (s : State) (f : Nat) : Nat :=
  let cfg := s.word (flowBase f)
  let base := s.word (flowBase f + 8)
  firstReason [
    test (base % 64 ≠ 0 || getBits cfg 0 5 < 4 || getBits cfg 0 5 > 20) 0x0120,
    test ((s.flow f).state ≠ 0) 0x0121]

/-- A flow is enabled: its descriptor is read (R340). -/
def flowEnable (s : State) (f : Nat) : State :=
  if f = 0 || f > 63 then s
  else
    let cfg := s.word (flowBase f)
    let base := s.word (flowBase f + 8)
    s.onFlow f (fun x => { x with state := 1, base := base, sizeLog2 := getBits cfg 0 5 })

/-- A flow is disabled: posts are refused, and what was posted drains (R340). -/
def flowDisable (s : State) (f : Nat) : State :=
  if (s.flow f).state = 1 then
    flowReleaseAll (s.onFlow f (fun x => { x with state := 2 })) f
  else s

/-- A post (R341). -/
def flowPost (s : State) (master f : Nat) : State :=
  let x := s.flow f
  let arg := ownCopy s master F.KS_POST_ARG.adr
  if x.state ≠ 1 then setOwn s master F.KS_POST_RESULT.adr (3 <<< 62)
  else if x.items.length ≥ 128 then setOwn s master F.KS_POST_RESULT.adr (2 <<< 62)
  else
    let item : FlowItem :=
      { seq := x.next, arg := BitVec.ofNat 64 arg, worker := none, done := false, failed := false, result := 0 }
    let s := s.onFlow f (fun x => { x with next := (x.next + 1) % 2 ^ 32, items := x.items ++ [item] })
    flowHandAll (setOwn s master F.KS_POST_RESULT.adr ((1 <<< 62) + item.seq)) f

/-! ### Hardware locks (R347 to R349) -/

/-- Writes KS_LOCKn.WAITERS from the lock's queue. -/
def lockWaiters (s : State) (n : Nat) : State :=
  s.put (F.KS_LOCK_WAITERS n) (s.ks.lockQ.look n).length

/-- Lock `n` is held by context `c`; its ABANDONED bit clears (R349). -/
def lockGive (s : State) (n c : Nat) : State :=
  let s := ((s.put (F.KS_LOCK_HELD n) 1).put (F.KS_LOCK_ABANDONED n) 0).put (F.KS_LOCK_OWNER n) c
  addLocks s c 1

/-- Whether context `c` holds lock `n`. -/
def lockHeldBy (s : State) (n c : Nat) : Bool := s.gb (F.KS_LOCK_HELD n) && s.g (F.KS_LOCK_OWNER n) = c

/-- Nobody holds lock `n`: OWNER, which is valid while HELD is 1, is open. -/
def lockFree (s : State) (n : Nat) : State :=
  ((s.put (F.KS_LOCK_HELD n) 0).put (F.KS_LOCK_OWNER n) (s.openBits 0 10)).nextFree

/-- The owner gives lock `n` up: the head of the queue gets it, or it is free (R347, R349). -/
def lockPass (s : State) (n : Nat) (abandoned : Bool) : State :=
  let owner := s.g (F.KS_LOCK_OWNER n)
  let s := addLocks s owner (-1)
  let s := s.onKs (fun k => { k with lockMaster := k.lockMaster.set n 0 })
  match s.ks.lockQ.look n with
  | [] => ((lockFree s n).put (F.KS_LOCK_ABANDONED n) (b2n abandoned))
  | c :: r =>
    let s := s.onKs (fun k => { k with
      lockQ := k.lockQ.set n r, granted := k.granted.set c (n + 1, abandoned) })
    let s := lockGive (lockWaiters s n) n c
    -- one that is still being saved becomes READY when it has left its core
    if cxState s c = 5 then makeReady s c false else s

/-- Every lock that context `c` holds is released as ABANDONED (R349); LOCK_ABANDONED is event 1 of the KS page. -/
def lockAbandonAll (s : State) (c : Nat) : State :=
  let s := s.onKs (fun k => { k with granted := k.granted.set c default })
  forEach (fun n s =>
    if lockHeldBy s n c then lockPass (raisePage s pKS 1 (n + (c <<< 16))) n true else s) (List.range 256) s

/-- Context `c` joins the queue of lock `n`: by priority, and by arrival within a priority (R347). -/
def lockJoin (s : State) (n c : Nat) : State :=
  let l := s.ks.lockQ.look n
  let p := cxPrio s c
  let before := l.takeWhile (fun x => cxPrio s x ≤ p)
  let after := l.drop before.length
  lockWaiters (s.onKs (fun k => { k with lockQ := k.lockQ.set n (before ++ [c] ++ after) })) n

/-- Context `c` leaves every lock queue. -/
def lockLeave (s : State) (c : Nat) : State :=
  forEach (fun n s =>
    if (s.ks.lockQ.look n).contains c then
      lockWaiters (s.onKs (fun k => { k with lockQ := k.lockQ.set n ((k.lockQ.look n).filter (fun x => x != c)) })) n
    else s) (List.range 256) s

/-- KS_LOCK_CMD ACQUIRE on behalf of `owner` (R348). An owner that holds the lock already is GRANTED it (DESIGN CHOICE,
notes/assumptions/40). -/
def lockAcquire (s : State) (master n owner : Nat) : State :=
  if lockHeldBy s n owner then setOwn s master F.KS_LOCK_RESULT.adr (1 <<< 61)
  else if s.gb (F.KS_LOCK_HELD n) then setOwn s master F.KS_LOCK_RESULT.adr (3 <<< 61)
  else
    let st := if s.gb (F.KS_LOCK_ABANDONED n) then 2 else 1
    let s := lockGive s n owner
    let s := s.onKs (fun k => { k with lockMaster := k.lockMaster.set n (master + 1) })
    setOwn s master F.KS_LOCK_RESULT.adr (st <<< 61)

/-- KS_LOCK_CMD RELEASE (R348). A successful release leaves STATUS at 0. -/
def lockRelease (s : State) (master n owner : Nat) : State :=
  if lockHeldBy s n owner && s.ks.lockMaster.look n = master + 1 then
    lockPass (setOwn s master F.KS_LOCK_RESULT.adr 0) n false
  else setOwn s master F.KS_LOCK_RESULT.adr (4 <<< 61)

/-! ### Contexts (R332 to R338) -/

/-- CX_CFG of context `c` as it stands. -/
def cxReadCfg (s : State) (c : Nat) : CxRead :=
  { prio := s.cx c F.CX_CFG_PRIORITY, cores := s.cx c F.CX_CFG_CORES, flow := s.cx c F.CX_CFG_FLOW }

/-- CX_CFG is read (R333). -/
def cxTakeCfg (s : State) (c : Nat) : State :=
  let r := cxReadCfg s c
  s.onKs (fun k => { k with cfg := k.cfg.set c r })

/-- Whether reserved bits of CX_CFG are set. -/
def cxReserved (s : State) (c : Nat) : Bool :=
  let v := s.word (cxBase c)
  bit v 60 || getBits v 46 6 ≠ 0 || getBits v 0 40 ≠ 0

/-- Whether an XU address translates. -/
def translates (s : State) (a : Nat) : Bool :=
  match xlate s a with
  | .fault _ _ => false
  | _ => true

/-- The checks of START (Table 13.3). -/
def cxStartCheck (s : State) (c : Nat) : Nat :=
  let save := s.word (cxBase c + 8)
  let flow := s.cx c F.CX_CFG_FLOW
  firstReason [
    test (cxState s c ≠ 0) 0x0110,
    test (s.cx c F.CX_CFG_CORES = 0) 0x0111,
    test (save % 64 ≠ 0 || !translates s save || !translates s (save + 568)) 0x0112,
    test (flow ≠ 0 && (s.flow flow).state ≠ 1) 0x0113,
    test (cxReserved s c) 0x0114]

/-- The checks of RESUME (Table 13.3). -/
def cxResumeCheck (s : State) (c : Nat) : Nat :=
  firstReason [
    test (cxState s c ≠ 6) 0x0110,
    test (s.cx c F.CX_CFG_CORES = 0) 0x0111,
    test (cxReserved s c) 0x0114]

/-- START (R333). -/
def cxStart (s : State) (c : Nat) : State :=
  let s := cxTakeCfg s c
  let f := s.cx c F.CX_CFG_FLOW
  if f ≠ 0 then flowHandAll (setCxState s c 4) f else makeReady s c false

/-- RESUME (R333). -/
def cxResume (s : State) (c : Nat) : State := makeReady (cxTakeCfg s c) c false

/-- A context that is on no core becomes IDLE (R333). -/
def cxToIdle (s : State) (c : Nat) : State :=
  let s := lockLeave (unready s c) c
  let s := ((setCxState s c 0).cxPut c F.CX_STATE_PENDING 0).cxOffCore c
  let s := s.onKs (fun k => { k with heldPtr := k.heldPtr.set c [] })
  let s := lockAbandonAll s c
  qOwnerGone (flowFinish s c true) c

/-- RESET (R333): a resident context is first pre-empted, a prefetched one is taken back unrun. -/
def cxReset (s : State) (c : Nat) : State :=
  match (List.range 8).find? (fun n => (s.cores.look n).resident = some c) with
  | some n => s.onCore n (fun k => { k with preempt := true, resetting := true })
  | none =>
    let s := match (List.range 8).find? (fun n => (s.cores.look n).prefetch = some c) with
      | some n => s.onCore n (fun k => { k with prefetch := none })
      | none => s
    cxToIdle s c

/-- The context in core `n`'s prefetch slot becomes resident when the core holds none and is awake (R336, R338). -/
def placeResident (s : State) (n : Nat) : State :=
  let k := s.cores.look n
  match k.resident, k.prefetch with
  | none, some c =>
    if k.dormant then s
    else
      let s := s.onCore n (fun k => { k with
        resident := some c, arch := k.preArch, delP := s.ks.heldPtr.look c, prefetch := none, wait := .running, cache := [] })
      let s := s.onKs (fun k => { k with heldPtr := k.heldPtr.set c [] })
      trcCtxIn (setCxState s c 3) n c
  | _, _ => s

/-- The in-service core with an empty prefetch slot that takes context `c`: one with no resident first, then the
lowest number (R336). -/
def coreFor (s : State) (c : Nat) : Option Nat :=
  let l := (allowedCores s c).filter (fun n => (s.cores.look n).prefetch = none)
  match l.find? (fun n => (s.cores.look n).resident = none) with
  | some n => some n
  | none => l.head?

/-- The next placement: the first READY context, by priority and then by its place in the list, that some core can
take (R335, R336). -/
def nextPlacement (s : State) : Option (Nat × Nat) :=
  let all := (List.range 8).flatMap (fun p => s.ks.ready.look p)
  (all.filterMap (fun c => (coreFor s c).map (fun n => (n, c)))).head?

/-- Keystone fills the prefetch slot that its next placement names (R336). -/
def prefetchNext (s : State) : State :=
  match nextPlacement s with
  | none => s
  | some (n, c) => placeResident (fillSlot s n c) n

/-! ### Tick and delay list (R343 to R346) -/

/-- DT of the next tick. -/
def nextTickDt (s : State) : DT :=
  if s.ks.ticked then dtAdd s.ks.lastTick (nsUnits s.ks.period) else s.ks.lastTick

/-- Lateness in ns of an entry that fires at `tick` (R345), held to 32 bits. -/
def lateness (tick e : DT) : Nat := min (toNs (dtDiff tick e)).toNat (2 ^ 32 - 1)

/-- Places an entry in DT order, after those with the same DT (R344). -/
def dlPlace (e : DlEntry) : List DlEntry → List DlEntry
  | [] => [e]
  | a :: r => if dtDiff a.dt e.dt > 0 then e :: a :: r else a :: dlPlace e r

/-- INSERT (R344 to R346). DL_DISCARDED is event 2 of the KS page. -/
def dlInsert (s : State) (master : Nat) (write discard : Bool) (tag : Nat) : State :=
  let e : DlEntry := {
    dt := BitVec.ofNat 64 (ownCopy s master F.KS_DL_DT.adr)
    write := write
    arg := BitVec.ofNat 64 (ownCopy s master F.KS_DL_ARG.adr)
    val := BitVec.ofNat 64 (ownCopy s master F.KS_DL_VAL.adr)
    tag := tag
    discard := discard
    late := false }
  let past := s.ks.ticked && dtDiff e.dt s.ks.lastTick ≤ 0
  let late := lateness (nextTickDt s) e.dt
  if s.ks.delay.length ≥ 8192 then setOwn s master F.KS_DL_RESULT.adr (4 <<< 61)
  else if past && discard then
    let s := s.onKs (fun k => { k with discarded := k.discarded + 1 })
    raisePage2 (setOwn s master F.KS_DL_RESULT.adr ((3 <<< 61) + late)) pKS 2 tag late 0
  else
    let s := s.onKs (fun k => { k with delay := dlPlace { e with late := past } k.delay })
    setOwn s master F.KS_DL_RESULT.adr (if past then (2 <<< 61) + late else 1 <<< 61)

/-- CANCEL (R346). -/
def dlCancel (s : State) (master tag : Nat) : State :=
  let n := (s.ks.delay.filter (fun e => e.tag = tag)).length
  let s := s.onKs (fun k => { k with delay := k.delay.filter (fun e => e.tag != tag) })
  setOwn s master F.KS_DL_RESULT.adr ((5 <<< 61) + (n <<< 32))

/-- One entry fires at `tick` (R344, R345). `bw` is a 64-bit bus write by a master; the write is aligned, so that the low three
bits of ARG do not count (DESIGN CHOICE, notes/assumptions/40). -/
def dlFire (bw : State → Nat → Nat → Nat → State) (tick : DT) (e : DlEntry) (s : State) : State :=
  let late := if e.late then lateness tick e.dt else 0
  let s := if e.late then
      (s.onKs (fun k => { k with late := k.late + 1 })).setReg F.KS_LATE_LAST.adr ((e.tag <<< 32) + late)
    else s
  if e.write then bw s ksMaster (e.arg.toNat / 8 * 8) e.val.toNat
  else
    let c := e.arg.toNat % 1024
    sendNotice (s.setFields (cxBase c + F.CX_WAKE.adr) ((b2n e.late <<< 63) + (e.tag <<< 32) + late) 0x8000FFFFFFFFFFFF) c

/-- A tick: the entries due fire in order (R343, R344). -/
def ksTick (bw : State → Nat → Nat → Nat → State) (s : State) : State :=
  let tick := nextTickDt s
  if !s.enabled pKS || dtDiff s.dt tick < 0 then s
  else
    let due := s.ks.delay.takeWhile (fun e => dtDiff e.dt tick ≤ 0)
    let per := s.g F.KS_TICK_PERIOD
    let s := s.onKs (fun k => { k with
      delay := k.delay.drop due.length, lastTick := tick, ticked := true, period := per, ticks := k.ticks + 1 })
    forEach (dlFire bw tick) due s

/-! ### Credits (R350, R351) -/

/-- A credit for one flit of context `c`, if one is to be had (R350). -/
def creditTake (s : State) (c : Nat) : Option State :=
  if s.cx c F.CX_QUOTA_USE < s.cx c F.CX_QUOTA_QUOTA && s.ks.poolUse < s.g F.KS_POOL_SIZE then
    some ((s.cxPut c F.CX_QUOTA_USE (s.cx c F.CX_QUOTA_USE + 1)).onKs (fun k => { k with poolUse := k.poolUse + 1 }))
  else none

/-- Whether context `c` can have a credit. -/
def creditFree (s : State) (c : Nat) : Bool :=
  s.cx c F.CX_QUOTA_USE < s.cx c F.CX_QUOTA_QUOTA && s.ks.poolUse < s.g F.KS_POOL_SIZE

/-- OVER_QUOTA after a change of USE or QUOTA (R351). `wrote`: a write of QUOTA. -/
def quotaEval (s : State) (c : Nat) (wrote : Bool) : State :=
  let use := s.cx c F.CX_QUOTA_USE
  let q := s.cx c F.CX_QUOTA_QUOTA
  if wrote && q < use then s.cxPut c F.CX_STATE_OVER_QUOTA 1
  else if use < q then s.cxPut c F.CX_STATE_OVER_QUOTA 0
  else s

/-- Cores whose STR waits for a credit that is now to be had go on (R318). -/
def wakeCredit (s : State) : State :=
  forEach (fun n s =>
    let k := s.cores.look n
    match k.wait, k.resident with
    | .str, some c => if creditFree s c then s.onCore n (fun k => { k with wait := .running }) else s
    | _, _ => s) (List.range 8) s

/-- A consumer removes a flit of context `c` (R350). -/
def creditReturn (s : State) (c : Nat) : State :=
  if s.cx c F.CX_QUOTA_USE = 0 then s
  else
    let s := s.cxPut c F.CX_QUOTA_USE (s.cx c F.CX_QUOTA_USE - 1)
    let s := s.onKs (fun k => { k with poolUse := k.poolUse - 1 })
    wakeCredit (quotaEval s c false)

/-- A write of QUOTA (R351). -/
def quotaWrite (s : State) (c q : Nat) : State :=
  wakeCredit (quotaEval (s.cxPut c F.CX_QUOTA_QUOTA q) c true)

/-! ### The KS page (R353, R355) -/

/-- The check of the page's ENABLE (Table 13.3). -/
def ksCheck (s : State) : Nat :=
  let p := s.g F.KS_TICK_PERIOD
  test (p < 125 || p > 16384) 0x0101

/-- The page is enabled: the first tick falls now (R343), the totals begin. -/
def ksEnable (s : State) : State :=
  let per := s.g F.KS_TICK_PERIOD
  let now := s.dt
  (s.put (F.CTRL_ENABLE pKS) 1).onKs (fun k => { k with
    lastTick := now, ticked := false, period := per, ticks := 0, late := 0, discarded := 0, noticesLost := 0,
    preempts := 0 })

/-- Context `c` holds nothing that a reset would take from it: it is IDLE, and has no notice, no item, no lock of those with the
`owners` and no queue packet of those with the `openers`. -/
def ksIdle (s : State) (owners openers : List Nat) (c : Nat) : Bool :=
  cxState s c = 0 && s.cx c F.CX_STATE_PENDING = 0 && s.cx c F.CX_ITEM_VALID = 0 && !owners.contains c &&
  !openers.contains (0x10000 + c)

/-- The page's ENABLE is cleared (R355); ignored while the cycle runs. Every lock, held or not, ends free with ABANDONED = 1
(DEDUCED, notes/assumptions/40), those of contexts whose reset waits for their pre-emption with LOCK_ABANDONED too (R333, R349). -/
def ksDisable (s : State) : State :=
  if s.time.running then s
  else
    let s := s.put (F.CTRL_ENABLE pKS) 0
    let owners := (List.range 256).filterMap (fun n => if s.gb (F.KS_LOCK_HELD n) then some (s.g (F.KS_LOCK_OWNER n)) else none)
    let openers := s.queues.filterMap (fun e => if e.2.openPkt.isSome then some e.2.owner else none)
    let s := forEach (fun c s => if ksIdle s owners openers c then s else cxReset s c) (List.range 1024) s
    let s := s.onKs (fun k => { k with delay := [], lockMaster := [] })
    let s := forEach (fun n s =>
      let o := s.g (F.KS_LOCK_OWNER n)
      let s := if s.gb (F.KS_LOCK_HELD n) then lockFree (addLocks (raisePage s pKS 1 (n + (o <<< 16))) o (-1)) n else s
      s.put (F.KS_LOCK_ABANDONED n) 1) (List.range 256) s
    forEach (fun f s => flowDisable s f) (List.range 64) s

/-- STATE of the KS page. -/
def ksState (s : State) : Nat :=
  let ready := ((List.range 8).map (fun p => (s.ks.ready.look p).length)).foldl (· + ·) 0 +
    ((List.range 8).filter (fun n => (s.cores.look n).prefetch.isSome)).length
  let full := (List.range 64).any (fun f => (s.flow f).items.length ≥ 128)
  let ovr := (List.range 1024).any (fun c => s.cx c F.CX_STATE_OVER_QUOTA ≠ 0)
  let used := s.ks.delay.length
  (used <<< 32) + (ready <<< 16) + (b2n full <<< 2) + (b2n (used = 8192) <<< 1) + b2n ovr

/-- The set of KS_SNAP (R352). -/
def ksSnapWords (s : State) : List (Nat × Nat) :=
  [(F.KS_SNAP_TICKS.adr, s.ks.ticks), (F.KS_SNAP_LATE.adr, s.ks.late), (F.KS_SNAP_DISCARDED.adr, s.ks.discarded),
   (F.KS_SNAP_NOTICES_LOST.adr, s.ks.noticesLost), (F.KS_SNAP_PREEMPT.adr, s.ks.preempts),
   (F.KS_SNAP_DT.adr, s.ks.lastTick.toNat)]

end Sys2Proof.Machine
end

