-- ==== Sys2Proof/WellFormed.lean ====
section
/-! DEFINITION. Which commands are well formed: the ranges that the spec gives their operands. A signal-core
instruction is well formed when its operands have an encoding under Table 12.7. -/

namespace Sys2Proof

/-- A general register. -/
def wfG (r : Nat) : Bool := r < 32
/-- An accumulator. -/
def wfAcc (r : Nat) : Bool := r < 4
/-- A pointer. -/
def wfP (r : Nat) : Bool := r < 8
/-- A signed field of `w` bits. -/
def wfImm (w : Nat) (i : Int) : Bool := -(2 ^ (w - 1) : Int) ≤ i && i < (2 ^ (w - 1) : Int)
/-- A size field with its SIGN bit: SIGN is 0 for D-size accesses (R328). -/
def wfSize (z : Nat) (sign : Bool) : Bool := z < 4 && !(z = 3 && sign)

/-- The operand ranges of the signal-core instructions (Table 12.7); true for the other commands. -/
def scWf : Instr → Bool
  | .add _ _ d a b | .sub _ _ d a b | .minS _ _ d a b | .maxS _ _ d a b | .andB _ _ d a b | .orB _ _ d a b
  | .xorB _ _ d a b | .shl _ _ d a b | .shr _ _ d a b | .shru _ _ d a b | .slt _ _ d a b | .seq _ _ d a b =>
    wfG d && wfG a && wfG b
  | .mov _ _ d a | .neg _ _ d a | .abs _ _ d a | .notB _ _ d a | .exp _ _ d a | .norm _ _ d a => wfG d && wfG a
  | .addi _ _ d a i | .andi _ _ d a i | .ori _ _ d a i | .xori _ _ d a i | .shli _ _ d a i | .shri _ _ d a i
  | .shrui _ _ d a i => wfG d && wfG a && wfImm 15 i
  | .ldi _ _ d i | .ldih _ _ d i => wfG d && i < 2 ^ 32
  | .mul _ _ d a b sh => wfG d && wfG a && wfG b && sh < 128
  | .mac _ _ n a b | .msu _ _ n a b => wfAcc n && wfG a && wfG b
  | .macl _ _ n a b px py _ _ | .msul _ _ n a b px py _ _ => wfAcc n && wfG a && wfG b && wfP px && wfP py
  | .sata _ _ d n sh => wfG d && wfAcc n && sh < 128
  | .lda _ _ n a sh => wfAcc n && wfG a && sh ≤ 71
  | .adda _ _ n m => wfAcc n && wfAcc m
  | .clra _ _ n => wfAcc n
  | .expa _ _ d n => wfG d && wfAcc n
  | .ld _ _ d p mode z sg => wfG d && wfP p && mode < 4 && wfSize z sg
  | .st _ _ r p mode z => wfG r && wfP p && mode < 4 && z < 4
  | .ldxy _ _ d e px mx py my => wfG d && wfG e && wfP px && mx < 4 && wfP py && my < 4
  | .ldd _ _ d a i z sg => wfG d && wfG a && wfImm 12 i && wfSize z sg
  | .std _ _ r a i z => wfG r && wfG a && wfImm 12 i && z < 4
  | .setp _ _ p a | .setm _ _ p a => wfP p && wfG a
  | .setc _ _ p a b => wfP p && wfG a && wfG b
  | .getp _ _ d p | .getm _ _ d p => wfG d && wfP p
  | .ldr _ _ d a z sg => wfG d && wfG a && wfSize z sg
  | .str _ _ r a z => wfG r && wfG a && z < 4
  | .br _ _ o | .call _ _ o => wfImm 24 o
  | .bz _ _ a o | .bnz _ _ a o => wfG a && wfImm 14 o
  | .beq _ _ a b o | .bne _ _ a b o | .blt _ _ a b o | .bge _ _ a b o => wfG a && wfG b && wfImm 14 o
  | .jmp _ _ a => wfG a
  | .repi _ _ c l => c < 65536 && 1 ≤ l && l ≤ 16
  | .repr _ _ a l => wfG a && 1 ≤ l && l ≤ 16
  | .movsRead _ _ d => wfG d
  | .movsWrite _ _ a => wfG a
  | .lock _ _ d l => wfG d && l < 256
  | .unlock _ _ l => l < 256
  | .notify _ _ a => wfG a
  | .trace _ _ i => i < 65536
  | _ => true

/-! ### Every command -/

/-- A command is well formed: its numbers name things that exist (a core, an axis, a port, a queue …), a master number is
one of 16 bits (Table 16.8), and a signal-core instruction has an encoding. -/
def Instr.wf : Instr → Bool
  | .t0 _ | .feedbackClose _ _ _ _ | .cwStart _ | .cwEnd _ | .tr _ | .dlEnd _ | .tick _ | .vfixedWalkStep _ |
    .housekeepingEdge _ _ _ _ _ _ _ _ | .dtWrap _ | .refLost _ | .refRestored _ | .rateEvaluation _ | .ppsInEdge
    _ | .ref10Gate _ _ | .ppsOutPulse _ | .copyDone _ | .contextPrefetch _ | .xuInvalAll _ | .invalidationDone _
  | .pwLinkDown _ | .mirroredWrite _ _ _ | .coreFaultDeclared _ _ | .bulkCopyDone _ _ _ _ | .standbyReady _ |
    .overtemp _ | .hkWatchdog _ | .regulator _ _ _ | .shutdown _ | .checkDone _ _ _ | .perst _ | .hotReset _ |
    .functionLevelReset _ | .d3hotEntry _ | .hpLinkDown _ | .mpWrite _ _ _ | .mpRead _ _ |
    .hkBoot _ _ | .pairWaitExpiry _ | .jtagBypass _ | .jtagIdcode _ | .samplePreload _ _ _ | .extest _ |
    .configSpaceWrite _ _ _ | .ppsPresentTimeout _ => true
  | .cycleEnable _ m | .cycleDisable _ m | .cycSnapTake _ m | .sgEnable _ m | .sgDisable _ m | .sgStatsReset _
    m | .sgHistSnapTake _ m | .timePageEnable _ m | .tuSnapTake _ m | .ptpEnable _ m | .ptpDisable _ m |
    .fbeEnable _ m | .fbeDisable _ m | .fbeSnapTake _ m | .qePageEnable _ m | .lePageEnable _ m | .leSnapTake _
    m | .pgEnable _ m | .pgDisable _ m | .pgGroupStop _ m _ | .epochRequest _ m | .epochCancel _ m |
    .aePageEnable _ m | .aeSnapTake _ m | .angPageEnable _ m | .ksDisable _ m | .ksSnapTake _ m | .memSnapTake _
    m | .pwEnable _ m | .switch _ m | .silence _ m | .twSnapTake _ m | .disA _ m _ | .disB _ m _ | .pageEnable _
    m _ | .evtMaskWrite _ m _ _ | .guardSelWrite _ m _ _ | .guardAWrite _ m _ _ | .guardBWrite _ m _ _ |
    .ehDisable _ m | .autoCleared _ m | .restartWarm _ m | .restartClear _ m | .trcEnable _ m => m < 65536
  | .lateHold _ a | .fbLost _ a | .settled _ a | .following _ a => a < 512
  | .repSyncDone _ a => a.axis < 512 && a.entries.length ≤ 8192 && a.entries.all (fun v => v < 2 ^ 32)
  | .tscorrWrite _ n _ => n < 10
  | .rearm _ n | .delayReqSend _ n | .syncReceiptTimeout _ n | .announceReceiptTimeout _ n | .feedGood _ n |
    .feedOvReturn _ n | .heLinkUp _ n | .heLinkDown _ n => n < 2
  | .syncReceived _ he _ _ _ _ _ _ _ _ | .announceMsgReceived _ he _ _ _ _ _ _ _ _ | .delayRespReceived _ he _ _ _ _ _ |
    .registerAccessRequest _ he _ _ _ _ _ _ _ _ _ _ | .arpRequest _ he _ _ => he.port < 2
  | .pdelayReqReceived _ he => he.port < 2
  | .pdelayRespReceived _ he _ _ _ => he.port < 2
  | .feedbackStart _ m a | .feedbackStop _ m a | .axisEnable _ m a | .axisDisable _ m a | .repSync _ m a => m < 65536 && a < 512
  | .qeChannelEnable _ m n _ | .inject _ m n | .clrFaults _ m n | .reguard _ m n | .qeSnapTake _ m n |
    .groupEnable _ m n _ | .groupDisable _ m n _ | .restart _ m n => m < 65536 && n < 32
  | .qeEdge _ n a b z => n < 32 && a < 8 && b < 8 && z < 8
  | .qeTrip _ n | .qeClean _ n => n < 32
  | .axisStepComplete _ n => n < 16
  | .withdraw _ m n | .restore _ m n => m < 65536 && n < 16
  | .fpEnable _ m p | .fpDisable _ m p | .discoveryStart _ m p | .fpSnapTake _ m p | .fpGsnapTake _ m p |
    .commit _ m p | .release _ m p => m < 65536 && p < 8
  | .linkUp _ p | .linkDown _ p | .announceReceived _ p _ _ | .discoverTimeout _ p | .aloneDiscover _ p |
    .discoverReceived _ p _ | .uplinkReceived _ p _ _ | .sensorReceived _ p _ _ | .downlinkReceived _ p _ _ |
    .ringHealed _ p | .relayFrameReceived _ p _ | .claimReceived _ p _ _ => p < 8
  | .nodeMuted _ p j | .nodeEpochStop _ p j => p < 8 && j < 32
  | .mute _ m p j | .unmute _ m p j => m < 65536 && p < 8 && j < 32
  | .channelEnable _ m c | .channelDisable _ m c | .histogramEnable _ m c | .histogramDisable _ m c |
    .copyHistogram _ m c _ => m < 65536 && c < 4096
  | .trigOutPulse _ pin | .trigPinEdge _ pin _ => pin < 8
  | .triggerUnitEnable _ m u _ => m < 65536 && u < 64
  | .streamStart _ m n | .streamStop _ m n | .streamRestart _ m n => m < 65536 && n < 256
  | .packetFlush _ n | .mappingInterval _ n | .recordTruncated _ n => n < 256
  | .angleChannelEnable _ m g | .angleChannelDisable _ m g => m < 65536 && g < 512
  | .angleRecordWrite _ g => g < 512
  | .copyMap _ m k _ => m < 65536 && k < 1024
  | .scEnable _ m n | .scDisable _ m n | .scSnapTake _ m n => m < 65536 && n < 8
  | .ldrDataReturn _ n | .remoteTimeout _ n | .preemption _ n | .contextSaveDone _ n | .dormant _ n | .wake _
    n | .remoteStoreAck _ n => n < 8
  | .cxStart _ m c | .cxResume _ m c | .cxReset _ m c | .cxNotify _ m c => m < 65536 && c < 1024
  | .flowEnable _ m f | .flowDisable _ m f | .flowPost _ m f => m < 65536 && f < 64
  | .dlInsert _ m tag _ _ | .dlCancel _ m tag => m < 65536 && tag < 65536
  | .acquire _ m l owner | .lockRelease _ m l owner => m < 65536 && l < 256 && owner < 1024
  | .quotaWrite _ c _ => c < 1024
  | .creditReturn _ (.context c) => c < 1024
  | .creditReturn _ (.stream n) => n ≤ 4096
  | .xuInvalRange _ first n => first < 2 ^ 36 && n < 4096
  | .dmaRingEnable _ m n k | .dmaRingDisable _ m n k | .dmaResume _ m n k | .dmaAbort _ m n k | .dmaContinue _
    m n k => m < 65536 && n < 16 && k < 2
  | .dmaPost _ m n k wr => m < 65536 && n < 16 && k < 2 && wr < 2 ^ 32
  | .dmaDone _ n k => n < 16 && k < 2
  | .queueEnable _ m q | .queueDisable _ m q | .qPush _ m q _ | .qCommit _ m q | .qAbandon _ m q _ | .qMark _
    m q | .qRewind _ m q | .qPop _ m q => m < 65536 && q < 64
  | .qPopTimeout _ q => q < 64
  | .scrubRead _ _ flaw => flaw < 3
  | .pwLinkUp _ lanes _ _ role twinId => lanes < 16 && role < 8 && twinId < 2
  | .pwLaneDown _ lane => lane < 4
  | .hpLinkUp _ width speed => (width = 1 || width = 2 || width = 4 || width = 8) && 1 ≤ speed && speed ≤ 4
  | .heartbeatReceived _ cycle role _ _ _ x =>
      cycle < 2 ^ 32 && role < 8 && x.acks.all (fun x => x.1 < 8 && x.2.1 < 32 && x.2.2 < 256)
  | .stateCopyApplied _ cycle _ | .declarationReceived _ _ cycle => cycle < 2 ^ 32
  | .shadowEvaluation _ a cycle e1 e2 _ _ _ _ _ _ => a < 512 && cycle < 2 ^ 32 && e1 < 16 && e2 < 16
  | .registerWrite _ m a n _ => m < 65536 && 1 ≤ n && n + a % 8 ≤ 8
  | .groupClose _ q | .ehRdWrite _ q _ => q < 16
  | .ehQueueEnable _ m q _ | .ehQueueDisable _ m q _ => m < 65536 && q < 16
  | .msixUnmask _ v => v < 64
  | .hostAccess _ sp off n _ => sp < 3 && 1 ≤ n && n + off % 8 ≤ 8
  | .bootSelWrite _ m image => m < 65536 && image < 2
  | .startStage _ n => n < 14
  | .stageWaitExpiry _ n p => n < 14 && p < 8
  | .jtagDebug _ sp _ _ => sp < 3
  | .add t n d a b => n < 8 && scWf (.add t n d a b)
  | .sub t n d a b => n < 8 && scWf (.sub t n d a b)
  | .minS t n d a b => n < 8 && scWf (.minS t n d a b)
  | .maxS t n d a b => n < 8 && scWf (.maxS t n d a b)
  | .andB t n d a b => n < 8 && scWf (.andB t n d a b)
  | .orB t n d a b => n < 8 && scWf (.orB t n d a b)
  | .xorB t n d a b => n < 8 && scWf (.xorB t n d a b)
  | .shl t n d a b => n < 8 && scWf (.shl t n d a b)
  | .shr t n d a b => n < 8 && scWf (.shr t n d a b)
  | .shru t n d a b => n < 8 && scWf (.shru t n d a b)
  | .slt t n d a b => n < 8 && scWf (.slt t n d a b)
  | .seq t n d a b => n < 8 && scWf (.seq t n d a b)
  | .mov t n d a => n < 8 && scWf (.mov t n d a)
  | .neg t n d a => n < 8 && scWf (.neg t n d a)
  | .abs t n d a => n < 8 && scWf (.abs t n d a)
  | .notB t n d a => n < 8 && scWf (.notB t n d a)
  | .exp t n d a => n < 8 && scWf (.exp t n d a)
  | .norm t n d a => n < 8 && scWf (.norm t n d a)
  | .addi t n d a imm => n < 8 && scWf (.addi t n d a imm)
  | .andi t n d a imm => n < 8 && scWf (.andi t n d a imm)
  | .ori t n d a imm => n < 8 && scWf (.ori t n d a imm)
  | .xori t n d a imm => n < 8 && scWf (.xori t n d a imm)
  | .shli t n d a imm => n < 8 && scWf (.shli t n d a imm)
  | .shri t n d a imm => n < 8 && scWf (.shri t n d a imm)
  | .shrui t n d a imm => n < 8 && scWf (.shrui t n d a imm)
  | .ldi t n d imm => n < 8 && scWf (.ldi t n d imm)
  | .ldih t n d imm => n < 8 && scWf (.ldih t n d imm)
  | .mul t n d a b sh => n < 8 && scWf (.mul t n d a b sh)
  | .mac t n acc a b => n < 8 && scWf (.mac t n acc a b)
  | .msu t n acc a b => n < 8 && scWf (.msu t n acc a b)
  | .macl t n acc a b px py mx my => n < 8 && scWf (.macl t n acc a b px py mx my)
  | .msul t n acc a b px py mx my => n < 8 && scWf (.msul t n acc a b px py mx my)
  | .sata t n d acc sh => n < 8 && scWf (.sata t n d acc sh)
  | .lda t n acc a sh => n < 8 && scWf (.lda t n acc a sh)
  | .adda t n acc src => n < 8 && scWf (.adda t n acc src)
  | .clra t n acc => n < 8 && scWf (.clra t n acc)
  | .expa t n d acc => n < 8 && scWf (.expa t n d acc)
  | .ld t n d p mode size sign => n < 8 && scWf (.ld t n d p mode size sign)
  | .st t n r p mode size => n < 8 && scWf (.st t n r p mode size)
  | .ldxy t n d e px mx py my => n < 8 && scWf (.ldxy t n d e px mx py my)
  | .ldd t n d a imm size sign => n < 8 && scWf (.ldd t n d a imm size sign)
  | .std t n r a imm size => n < 8 && scWf (.std t n r a imm size)
  | .setp t n p a => n < 8 && scWf (.setp t n p a)
  | .setm t n p a => n < 8 && scWf (.setm t n p a)
  | .setc t n p a b => n < 8 && scWf (.setc t n p a b)
  | .getp t n d p => n < 8 && scWf (.getp t n d p)
  | .getm t n d p => n < 8 && scWf (.getm t n d p)
  | .ldr t n d a size sign => n < 8 && scWf (.ldr t n d a size sign)
  | .str t n r a size => n < 8 && scWf (.str t n r a size)
  | .fence t n => n < 8 && scWf (.fence t n)
  | .br t n off => n < 8 && scWf (.br t n off)
  | .call t n off => n < 8 && scWf (.call t n off)
  | .bz t n a off => n < 8 && scWf (.bz t n a off)
  | .bnz t n a off => n < 8 && scWf (.bnz t n a off)
  | .beq t n a b off => n < 8 && scWf (.beq t n a b off)
  | .bne t n a b off => n < 8 && scWf (.bne t n a b off)
  | .blt t n a b off => n < 8 && scWf (.blt t n a b off)
  | .bge t n a b off => n < 8 && scWf (.bge t n a b off)
  | .jmp t n a => n < 8 && scWf (.jmp t n a)
  | .repi t n count len => n < 8 && scWf (.repi t n count len)
  | .repr t n a len => n < 8 && scWf (.repr t n a len)
  | .nop t n => n < 8 && scWf (.nop t n)
  | .movsRead t n d => n < 8 && scWf (.movsRead t n d)
  | .movsWrite t n a => n < 8 && scWf (.movsWrite t n a)
  | .lock t n d l => n < 8 && scWf (.lock t n d l)
  | .unlock t n l => n < 8 && scWf (.unlock t n l)
  | .notify t n a => n < 8 && scWf (.notify t n a)
  | .wait t n => n < 8 && scWf (.wait t n)
  | .yield t n => n < 8 && scWf (.yield t n)
  | .endProg t n => n < 8 && scWf (.endProg t n)
  | .breakPoint t n => n < 8 && scWf (.breakPoint t n)
  | .trace t n imm => n < 8 && scWf (.trace t n imm)

end Sys2Proof
end

