-- ==== Sys2Proof/Machine/Cores.lean ====
section
/-! DEFINITION. What the signal-core instructions share: issue, faults, operands, pointers, local loads and the
store buffer, delayed results, branches and repeats, and the switch of contexts (chapter 12). -/

namespace Sys2Proof.Machine

/-- Signal core `n`. -/
def State.core (s : State) (n : Nat) : CoreSt := s.cores.look n

/-- The master number of core `n` (Table 16.8). -/
def coreMaster (n : Nat) : Nat := 0x10 + n

/-! ### Store buffer (R315 to R317) -/

/-- Writes one store of core `n` to its data memory. -/
def storeDrain (s : State) (n : Nat) (e : StoreEntry) : State :=
  memWrite s (coreMaster n) (dataAddr n e.addr) e.data e.size

/-- The `k` oldest entries drain. -/
def drainSome (s : State) (n : Nat) : Nat → State
  | 0 => s
  | k + 1 =>
    match (s.core n).stores with
    | [] => s
    | e :: r => drainSome (storeDrain (s.onCore n (fun c => { c with stores := r })) n e) n k

/-- The buffer drains completely (R317). -/
def drainAll (s : State) (n : Nat) : State := drainSome s n (s.core n).stores.length

/-- Bank of a data address (R300). -/
def bankOf (a : Nat) : Nat := getBits a 3 3

/-! ### Operands -/

/-- General register `r`. -/
def Arch.gN (x : Arch) (r : Nat) : Nat := (x.g.look r).toNat

/-- General register `r`, signed. -/
def Arch.gI (x : Arch) (r : Nat) : Int := (x.g.look r).toInt

/-- Writes general register `r`. -/
def Arch.setG (x : Arch) (r : Nat) (v : Nat) : Arch := { x with g := x.g.set r (BitVec.ofNat 64 v) }

/-- Accumulator `n` as SATA, EXPA and the source of ADDA read it (Table 12.3). -/
def Arch.accOld (x : Arch) (n : Nat) : Int := (x.a.look n).toInt

/-- Accumulator `n` as an accumulating instruction sees it: with its delayed result (Table 12.3). -/
def Arch.accNew (x : Arch) (n : Nat) : Int :=
  match x.delA with
  | some (m, v) => if m = n then v.toInt else x.accOld n
  | none => x.accOld n

/-- Sets CSR.SAT (bit 0) or CSR.ASAT (bit 1) (R312). -/
def Arch.setCsr (x : Arch) (b : Nat) (c : Bool) : Arch :=
  if c then { x with csr := x.csr ||| BitVec.ofNat 64 (2 ^ b) } else x

/-- Writes a 64-bit saturated result to `r`, with CSR.SAT (R312). -/
def Arch.setSat (x : Arch) (r : Nat) (i : Int) : Arch :=
  (x.setCsr 0 (satS 64 i ≠ i)).setG r (ofS 64 (satS 64 i))

/-- The number of bits below the top bit of a `w`-bit value that repeat it (R314). -/
def signRun (w : Nat) (i : Int) : Nat :=
  let m := if i < 0 then -i - 1 else i
  w - 1 - (if m = 0 then 0 else Nat.log2 m.toNat + 1)

/-! ### Pointers (R309 to R311) -/

/-- The low `w` bits of `v` in reverse order. -/
def revBits : Nat → Nat → Nat
  | 0, _ => 0
  | w + 1, v => (v % 2) * 2 ^ w + revBits w (v / 2)

/-- Pointer `n` after an access of `z` bytes in MODE `mode`; `none` for RANGE (R309, R310). -/
def modPtr (x : Arch) (n mode z : Nat) : Option Nat :=
  let p := (x.p.look n).toNat
  let b := (x.b.look n).toNat
  let l := (x.l.look n).toNat
  let m : Int := (x.m.look n).toInt
  let step (d : Int) : Nat :=
    if l = 0 then ofS 32 (p + d) else ofS 32 (b + ((p : Int) - b + d) % (l : Int))
  match mode with
  | 0 => some p
  | 1 => some (step z)
  | 2 => some (step m)
  | _ =>
    if l < 2 * z || 2 ^ Nat.log2 l ≠ l then none
    else
      let k := Nat.log2 z
      let w := Nat.log2 l - k
      let o := ofS w (shr ((p : Int) - b) k)
      let q := (revBits w o + revBits w (ofS w (shr m k))) % 2 ^ w
      some (ofS 32 ((b : Int) + (revBits w q * 2 ^ k : Nat)))

/-- Writes pointer `n`. -/
def Arch.setP (x : Arch) (n v : Nat) : Arch := { x with p := x.p.set n (BitVec.ofNat 32 v) }

/-- A delayed pointer write takes effect (R304). -/
def applyPtr (x : Arch) : DelPtr → Arch
  | .ptr n v => { x with p := x.p.set n v }
  | .modifier n v => { x with m := x.m.set n v }
  | .circ n b l => { x with b := x.b.set n b, l := x.l.set n l }

/-- The delayed results of the instruction before take effect (R304). -/
def applyDelayed (x : Arch) (g : List (Nat × BitVec 64)) (a : Option (Nat × BitVec 136)) (p : List DelPtr) : Arch :=
  let x := g.foldl (fun x e => { x with g := x.g.set e.1 e.2 }) x
  let x := match a with
    | some (n, v) => { x with a := x.a.set n v }
    | none => x
  p.foldl applyPtr x

/-! ### Local loads (R299, R311, R316) -/

/-- The check of a local address (R311): the cause, or 0. -/
def localCheck (a z : Nat) : Nat := if a > 0x3FFFF then 4 else if a % z ≠ 0 then 3 else 0

/-- The bytes that the store buffer holds over a value read at `a`, `z` bytes, applied oldest first. -/
def overlay (l : List StoreEntry) (a z v : Nat) : Nat :=
  let one (v : Nat) (e : StoreEntry) : Nat :=
    (List.range z).foldl (fun v i =>
      let b := a + i
      if e.addr ≤ b && b < e.addr + e.size then
        setBits v (8 * i) 8 (getBits e.data (8 * (b - e.addr)) 8) else v) v
  l.foldl one v

/-- The index of the youngest entry that shares a byte with a load, and whether it has the load's address and size. -/
def youngest (l : List StoreEntry) (a z : Nat) : Option (Nat × Bool) :=
  let go (acc : Option (Nat × Bool) × Nat) (e : StoreEntry) : Option (Nat × Bool) × Nat :=
    (if e.addr < a + z && a < e.addr + e.size then some (acc.2, e.addr = a && e.size = z) else acc.1, acc.2 + 1)
  (l.foldl go (none, 0)).1

/-- What a local load gives: its value, the buffer entries that drain first and its stall (Table 12.4). -/
structure Loaded where
  value : Nat
  drains : Nat
  stall : Nat
  /-- The bank that it reads: none where its data are forwarded. -/
  bank : List Nat
deriving DecidableEq, Repr, Inhabited

/-- A load of `z` bytes at data address `a` of core `n`: what it gives, or a fault's cause (R311, R316). -/
def localLoad (s : State) (n a z : Nat) : Except Nat Loaded :=
  let c := localCheck a z
  let l := (s.core n).stores
  if c ≠ 0 then .error c
  else
    match youngest l a z with
    | some (_, true) => .ok ⟨overlay l a z 0, 0, 0, []⟩
    | some (i, false) =>
      let s := drainSome s n (i + 1)
      if s.poisoned (dataAddr n a) then .error 7
      else .ok ⟨s.bytesAt (dataAddr n a) z, i + 1, i + 2, [bankOf a]⟩
    | none => if s.poisoned (dataAddr n a) then .error 7 else .ok ⟨s.bytesAt (dataAddr n a) z, 0, 0, [bankOf a]⟩

/-- What names the fault of a load with cause `c`: the address, or for an uncorrectable word its place (R326, R359). -/
def loadFault (n c a : Nat) : Nat := if c = 7 then dataAddr n a else a

/-! ### Results of an instruction -/

/-- What an instruction does when it does not fault: the registers it writes at once, its delayed results, the banks
it reads, its store, its stalls, and the branch it makes (R304, R305). -/
structure ScOut where
  arch : Arch
  delG : List (Nat × BitVec 64)
  delA : Option (Nat × BitVec 136)
  delP : List DelPtr
  banks : List Nat
  /-- The banks read in a further step: the Y operand of a bank conflict (R300). -/
  later : List (List Nat)
  drains : Nat
  stalls : Nat
  store : Option StoreEntry
  /-- A branch: where execution continues after the second delay slot. -/
  branch : Option (BitVec 14)
  /-- A repeat begins: count, or the PC continues after a body that runs no time (R307). -/
  rep : Option (Nat × Nat)
  /-- Free values used. -/
  frees : Nat
deriving DecidableEq, Repr, Inhabited

/-- The result of an instruction's own work: what it does, or a fault with its cause and address. -/
inductive ScRes where
  | ok (o : ScOut)
  | fault (cause addr : Nat)
deriving DecidableEq, Repr

/-- An instruction that only changes registers at once. -/
def scPlain (x : Arch) : ScRes := .ok { (default : ScOut) with arch := x }

/-- An instruction with one delayed general-register result. -/
def scDelG (x : Arch) (r v : Nat) : ScRes :=
  .ok { (default : ScOut) with arch := x, delG := [(r, BitVec.ofNat 64 v)] }

/-- An instruction with a delayed accumulator result, saturated to 136 bits with CSR.ASAT (R312). -/
def scDelA (x : Arch) (n : Nat) (i : Int) : ScRes :=
  let v := satS 136 i
  .ok { (default : ScOut) with arch := x.setCsr 1 (v ≠ i), delA := some (n, BitVec.ofInt 136 v) }

/-- An instruction with a delayed pointer write. -/
def scDelP (x : Arch) (p : DelPtr) : ScRes := .ok { (default : ScOut) with arch := x, delP := [p] }

/-! ### Two loads at once (LDXY, MACL, MSUL) -/

/-- Writes two registers or pointers of one instruction: where both name the same one and the values differ, the
result is not stated and is free. -/
def bothOr (same : Bool) (v w free : Nat) : Nat × Nat := if same && v ≠ w then (free, free) else (v, w)

/-- X and Y loads of 64 bits through two pointers, into `d` and `e` (R300, R309, R316). -/
def loadXY (s : State) (n : Nat) (x : Arch) (d e px mx py my : Nat) : ScRes :=
  let ax := (x.p.look px).toNat
  let ay := (x.p.look py).toNat
  match localLoad s n ax 8 with
  | .error c => .fault c (loadFault n c ax)
  | .ok vx =>
    match modPtr x px mx 8 with
    | none => .fault 4 ax
    | some nx =>
      -- the Y operand meets the buffer that the X operand's stall has left (R316)
      match localLoad (drainSome s n vx.drains) n ay 8 with
      | .error c => .fault c (loadFault n c ay)
      | .ok vy =>
        match modPtr x py my 8 with
        | none => .fault 4 ay
        | some ny =>
          let f1 := (Config.freeValue s.free).toNat
          let f2 := (Config.freeValue (s.free + 1)).toNat
          let (wd, we) := bothOr (d = e) vx.value vy.value f1
          let (qx, qy) := bothOr (px = py) nx ny f2
          let x := ((x.setG d wd).setG e we)
          let x := (x.setP px qx).setP py qy
          let conflict := vx.bank ≠ [] && vx.bank = vy.bank && ax / 8 ≠ ay / 8
          .ok { (default : ScOut) with
            arch := x
            banks := if conflict then vx.bank else vx.bank ++ vy.bank
            later := if conflict then [vy.bank] else []
            drains := vx.drains + vy.drains
            stalls := vx.stall + vy.stall + b2n conflict
            frees := 2 }

/-- A load through a pointer, or directly, into `d` (R309, R311). -/
def loadOne (s : State) (n : Nat) (x : Arch) (d a z : Nat) (sign : Bool) (after : Option Arch) : ScRes :=
  match localLoad s n a z with
  | .error c => .fault c (loadFault n c a)
  | .ok v =>
    match after with
    | none => .fault 4 a
    | some x' =>
      let _ := x
      let w := if sign then ofS 64 (toS (8 * z) v.value) else v.value
      .ok { (default : ScOut) with
        arch := x'.setG d w, banks := v.bank, drains := v.drains, stalls := v.stall }

/-- A store of `z` bytes at `a` (R311, R315). -/
def storeOne (r a z : Nat) (x : Arch) (after : Option Arch) : ScRes :=
  let c := localCheck a z
  if c ≠ 0 then .fault c a
  else
    match after with
    | none => .fault 4 a
    | some x' =>
      .ok { (default : ScOut) with arch := x', store := some ⟨a, z, x.gN r % 2 ^ (8 * z)⟩ }

/-! ### Faults and departures (R320, R326) -/

/-- The resident context is to leave in the state given (R320): the buffer drains, the save waits for R319. -/
def scLeave (s : State) (n st cause : Nat) (head : Bool) (lock : Option Nat) : State :=
  (drainAll s n).onCore n (fun k => { k with wait := .leaving st cause head lock })

/-- Whether a cause is recoverable (Table 12.6). -/
def recoverable (cause : Nat) : Bool := cause = 5 || cause = 9

/-- A fault or stop of core `n`'s context at its PC (R326). SC_FAULT is event 1 of the page, SC_BREAK event 2. -/
def scFault (s : State) (n cause addr : Nat) : State :=
  match (s.core n).resident with
  | none => s
  | some c =>
    let pc := (s.core n).arch.pc
    let fa := if cause = 3 || cause = 4 || cause = 5 || cause = 6 then addr else 0
    let s := s.onCore n (fun k => { k with faultPc := pc, faultAddr := fa })
    let s := trcRecord s n 6 c cause
    let s := raisePage2 s (pSC n) (if cause = 9 then 2 else 1) (c + (cause <<< 16)) fa pc.toNat
    let s := if recoverable cause then s else qOwnerGone (flowFinish (lockAbandonAll (lockLeave s c) c) c true) c
    scLeave s n (if recoverable cause then 6 else 7) cause false none

/-! ### Issue -/

/-- How an instruction meets R306 and R308. -/
inductive ScKind where
  /-- Allowed in a repeat body and in a delay slot. -/
  | plain
  /-- Not allowed in a repeat body. -/
  | slot
  /-- Allowed in neither. -/
  | control
deriving DecidableEq, Repr

/-- The word that core `n` fetches at `pc`: from the repeat cache while a repeat runs (R301, R307). -/
def fetchWord (s : State) (n pc : Nat) : Nat :=
  let k := s.core n
  match (if k.arch.repOn then k.cache.find? (fun e => e.1 = pc) else none) with
  | some (_, w) => w
  | none => s.bytesAt (progAddr n pc) 4

/-- The word index after `pc`, `k` words on. -/
def pcPlus (pc : BitVec 14) (k : Nat) : BitVec 14 := pc + BitVec.ofNat 14 k

/-- The PC, delay slots and repeat after an instruction of `words` words has completed (R305, R307). -/
def archNext (x : Arch) (words : Nat) (o : ScOut) : Arch :=
  let pc := pcPlus x.pc words
  match o.rep with
  | some (0, len) => { x with pc := pcPlus pc len }
  | some (count, len) => { x with pc := pc, repOn := true, repCount := count, repStart := pc, repLen := len }
  | none =>
    match o.branch with
    | some t => { x with pc := pc, slots := 2, target := t }
    | none =>
      if x.slots ≠ 0 then
        (if x.slots = 1 then { x with pc := x.target, slots := 0, target := 0 } else { x with pc := pc, slots := x.slots - 1 })
      else if x.repOn && (pc - x.repStart).toNat ≥ x.repLen then
        (if x.repCount ≤ 1 then
          { x with pc := pc, repOn := false, repCount := 0, repStart := 0, repLen := 0 }
         else { x with pc := x.repStart, repCount := x.repCount - 1 })
      else { x with pc := pc }

/-- The instruction at the PC completes: the results of the one before are written, its own become pending. -/
def archRetire (x : Arch) (words : Nat) (delP : List DelPtr) (o : ScOut) : Arch :=
  let y := applyDelayed o.arch x.delG x.delA delP
  archNext { y with delG := o.delG, delA := o.delA } words o

/-- A step that reads the banks `l`: the oldest entry drains where its bank is free (R300, R315). -/
def drainStep (s : State) (n : Nat) (l : List Nat) : State :=
  match (s.core n).stores with
  | e :: _ => if l.contains (bankOf e.addr) then s else drainSome s n 1
  | [] => s

/-- The store buffer in the steps of an instruction (R315, R316): the entries that a load waits for, then one for each step that
reads. A store that finds the buffer full waits for the step in which the oldest entry drains; that stall is returned. -/
def scBuffer (s : State) (n : Nat) (o : ScOut) : State × Nat :=
  let s := drainSome s n o.drains
  let full := o.store.isSome && (s.core n).stores.length ≥ 4
  let s := if full then drainStep s n [] else s
  let s := forEach (fun l s => drainStep s n l) (o.banks :: o.later) s
  match o.store with
  | none => (s, 0)
  | some e => (s.onCore n (fun k => { k with stores := k.stores ++ [e] }), b2n full)

/-- An instruction of core `n` retires (R303, R304). -/
def scRetire (s : State) (n words : Nat) (o : ScOut) : State :=
  let k := s.core n
  let pc := k.arch.pc
  let w := fetchWord s n pc.toNat
  let w2 := fetchWord s n ((pc.toNat + 1) % 16384)
  let (s, full) := scBuffer s n o
  let s := { s with free := s.free + o.frees }
  s.onCore n (fun k =>
    let arch := archRetire k.arch words k.delP o
    { k with
      arch := arch
      delP := o.delP
      cache := if arch.repOn && k.arch.repOn && !k.cache.any (fun e => e.1 = pc.toNat) then
          (if words = 2 then [((pc.toNat + 1) % 16384, w2)] else []) ++ (pc.toNat, w) :: k.cache
        else if arch.repOn then k.cache else []
      retired := k.retired + 1
      stalls := k.stalls + o.stalls + full
      lastCtx := k.resident.getD 0
      lastPc := pc })

/-- The word at `pc` is fetched from memory and is uncorrectable there (R299). -/
def fetchBad (s : State) (n pc : Nat) : Bool :=
  s.poisoned (progAddr n pc) && !((s.core n).arch.repOn && (s.core n).cache.any (fun e => e.1 = pc))

/-- The cause that keeps the word at the PC from executing, before the instruction's own work; 0 for none:
a breakpoint, an uncorrectable fetch, an encoding that is not legal, R306 and R308. -/
def issueCause (s : State) (n : Nat) (kind : ScKind) (legal : Bool) : Nat :=
  let x := (s.core n).arch
  let pc := x.pc.toNat
  let w := fetchWord s n pc
  if s.gb (F.SC_BRK_EN n) && s.g (F.SC_BRK_PC n) = pc then 9
  else if fetchBad s n pc || (scWordCount w = 2 && fetchBad s n ((pc + 1) % 16384)) then 7
  else if !legal || (scDecode 0 n w (fetchWord s n ((pc + 1) % 16384))).isNone then 1
  else if x.repOn && kind ≠ .plain then 2
  else if x.slots ≠ 0 && kind = .control then 2
  else 0

/-- Whether pre-emption is allowed at the core's present boundary (R321). -/
def preemptAllowed (k : CoreSt) : Bool :=
  k.arch.slots = 0 && (!k.arch.repOn || k.arch.pc = k.arch.repStart) &&
  (k.wait = .running || k.wait = .str || k.wait = .fence)

/-- Whether core `n` issues instructions: a context is resident and waits for nothing, and no request for pre-emption is to be taken
at this boundary (R321); a core that a power failure has stopped, neither in service nor leaving it, issues nothing (Table 15.7). -/
def coreIssues (s : State) (n : Nat) : Bool :=
  n < 8 && (s.core n).resident.isSome && (s.core n).wait = .running && !((s.core n).preempt && preemptAllowed (s.core n)) &&
  ((s.core n).inService || (s.core n).closing)

/-- The word whose uncorrectable fetch is reported (R359). -/
def fetchFault (s : State) (n : Nat) : Nat :=
  let pc := (s.core n).arch.pc.toNat
  progAddr n (if fetchBad s n pc then pc else (pc + 1) % 16384)

/-- Core `n` issues an instruction at its PC: `go` acts once nothing keeps the word from executing. -/
def scIssue (s : State) (n : Nat) (kind : ScKind) (legal : Bool) (go : State → State) : State :=
  if !coreIssues s n then s
  else
    let s := trcBoundary s n
    let c := issueCause s n kind legal
    if c ≠ 0 then scFault (if c = 7 then raiseUe s (coreMaster n) (fetchFault s n) else s) n c 0 else go s

/-- An instruction of `words` words whose work is `run` on the architectural state. -/
def scRun (s : State) (i : Instr) (n words : Nat) (kind : ScKind) (run : State → Arch → ScRes) : State :=
  scIssue s n kind (scWf i) (fun s =>
    match run s (s.core n).arch with
    | .fault c a => scFault (if c = 7 then raiseUe s (coreMaster n) a else s) n c a
    | .ok o => scRetire s n words o)

/-- The outcome of a branch that has retired is traced, and the target of a taken JMP with it (R447, Table 17.6): the PC of a SYNC
that falls due here is that of the next instruction to issue. -/
def trcTaken (s : State) (n : Nat) (jump taken : Bool) (target : BitVec 14) : State :=
  let s := trcBranch s n taken
  if jump && taken then trcRecord s n 3 (trcCtx s n) target.toNat else s

/-- A branch: its outcome is traced, and execution continues at the target after two delay slots (R305, R447). `jump`: the
target comes from a register. -/
def scBranchBy (jump : Bool) (s : State) (i : Instr) (n : Nat) (run : State → Arch → Bool × BitVec 14 × Arch) : State :=
  scIssue s n .control (scWf i) (fun s =>
    let x := (s.core n).arch
    let (taken, target, y) := run s x
    let pc1 := pcPlus x.pc 1
    let l1 := scWordCount (fetchWord s n pc1.toNat)
    let pc2 := pcPlus pc1 l1
    let l2 := scWordCount (fetchWord s n pc2.toNat)
    let t := if taken then target else pcPlus pc2 l2
    trcTaken (scRetire s n 1 { (default : ScOut) with arch := y, branch := some t }) n jump taken target)

/-- A branch whose target is an offset from its own word. -/
def scBranch (s : State) (i : Instr) (n : Nat) (run : State → Arch → Bool × BitVec 14 × Arch) : State :=
  scBranchBy false s i n run

/-- The word index after the second delay slot of a branch at the PC (R305). -/
def afterSlots (s : State) (n : Nat) : BitVec 14 :=
  let pc1 := pcPlus (s.core n).arch.pc 1
  let pc2 := pcPlus pc1 (scWordCount (fetchWord s n pc1.toNat))
  pcPlus pc2 (scWordCount (fetchWord s n pc2.toNat))

/-- A target given as an offset from the branch's own word (R305). -/
def branchTarget (x : Arch) (off : Int) : BitVec 14 := x.pc + BitVec.ofInt 14 off

/-! ### Remote access (R318, R319). `bw s master addr value bytes` and `br s master addr bytes` go through the bus. -/

/-- What a bus read gives: the data and whether they are uncorrectable; `none` while it waits. -/
abbrev BusData := Option (Nat × Bool)

/-- LDR (R318). The banks are free while the core waits for a credit or for data, and the buffer drains (R315); the wait lasts at
least the four steps that this takes, and the access reaches its target after them (UNVERIFIED, notes/assumptions/40). -/
def scLdr (br : State → Nat → Nat → Nat → State × BusData) (s : State) (i : Instr) (n d a size : Nat) (sign : Bool) :
    State :=
  scIssue s n .slot (scWf i) (fun s =>
    let ad := (s.core n).arch.gN a
    let z := 2 ^ size
    let c := ((s.core n).resident).getD 0
    if ad % z ≠ 0 then scFault s n 3 ad
    else match xlate s ad with
      | .fault k l => scFault (raiseXuFault s (coreMaster n) k l ad) n 5 ad
      | _ =>
        match creditTake s c with
        | none => (drainAll s n).onCore n (fun k => { k with wait := .str })
        | some s =>
          let since := s.dt
          let s := (drainAll s n).onCore n (fun k => { k with wait := .ldr d z sign ad since 0 false false })
          let (s, r) := br (xuTouch s ad) (coreMaster n) ad z
          match r with
          | none => s
          | some (v, p) => s.onCore n (fun k => { k with wait := .ldr d z sign ad since v p true }))

/-- The data of an LDR arrive (R318). -/
def ldrReturn (s : State) (n : Nat) : State :=
  let k := s.core n
  match k.wait with
  | .ldr d z sign ad _ v p true =>
    let s := { (s.onCore n (fun k => { k with
      wait := .running, remoteSteps := k.remoteSteps + (Config.freeValue s.free).toNat % 2 ^ 32 })) with free := s.free + 1 }
    if p then scFault s n 7 ad
    else
      let w := if sign then ofS 64 (toS (8 * z) v) else v % 2 ^ (8 * z)
      scRetire s n 1 { (default : ScOut) with arch := k.arch.setG d w }
  | _ => s

/-- STR (R318). -/
def scStr (bw : State → Nat → Nat → Nat → Nat → State) (s : State) (i : Instr) (n r a size : Nat) : State :=
  scIssue s n .slot (scWf i) (fun s =>
    let x := (s.core n).arch
    let ad := x.gN a
    let z := 2 ^ size
    let c := ((s.core n).resident).getD 0
    if ad % z ≠ 0 then scFault s n 3 ad
    else match xlate s ad with
      | .fault k l => scFault (raiseXuFault s (coreMaster n) k l ad) n 5 ad
      | _ =>
        match creditTake s c with
        | none => (drainAll s n).onCore n (fun k => { k with wait := .str })
        | some s =>
          let now := s.dt
          let s := scRetire s n 1 { (default : ScOut) with arch := x }
          let s := s.onCore n (fun k => { k with remote := k.remote ++ [(ad, now)] })
          bw (xuTouch s ad) (coreMaster n) ad (x.gN r % 2 ^ (8 * z)) z)

/-- FENCE (R319). -/
def scFence (s : State) (i : Instr) (n : Nat) : State :=
  scIssue s n .slot (scWf i) (fun s =>
    let s := drainAll s n
    if (s.core n).remote = [] then scRetire s n 1 { (default : ScOut) with arch := (s.core n).arch }
    else s.onCore n (fun k => { k with wait := .fence }))

/-- The target acknowledges the oldest remote store of core `n` (R319). -/
def remoteAck (s : State) (n : Nat) : State :=
  match (s.core n).remote with
  | [] => s
  | _ :: r =>
    let s := s.onCore n (fun k => { k with remote := r })
    let w := (s.core n).wait
    if r = [] && (w = .fence || w = .note) then
      let s := { (s.onCore n (fun k => { k with
        wait := .running, remoteSteps := k.remoteSteps + (Config.freeValue s.free).toNat % 2 ^ 32 })) with free := s.free + 1 }
      let s := if w = .note then s.cxPut ((s.core n).resident.getD 0) F.CX_STATE_PENDING 0 else s
      scRetire s n 1 { (default : ScOut) with arch := (s.core n).arch }
    else s

/-- REMOTE_TIMEOUT of core `n`, in DT units. -/
def remoteLimit (s : State) (n : Nat) : Nat := nsUnits (100 * s.g (F.SC_CFG_REMOTE_TIMEOUT n))

/-- The limit of an LDR, a FENCE or a save has passed (R318, R319). -/
def remoteTimeout (s : State) (n : Nat) : State :=
  let k := s.core n
  let ovr (d : DT) : Bool := dtDiff s.dt d ≥ (remoteLimit s n : Int)
  match k.wait with
  | .ldr _ _ _ ad since _ _ _ =>
    if ovr since then scFault (s.onCore n (fun k => { k with wait := .running })) n 6 ad else s
  | .fence | .note =>
    (match k.remote with
     | (ad, d) :: r =>
       if ovr d then scFault (s.onCore n (fun k => { k with remote := r, wait := .running })) n 6 ad else s
     | [] => s)
  | .leaving st _ _ _ =>
    (match k.remote with
     | (ad, d) :: r =>
       if ovr d then
         let s := s.onCore n (fun k => { k with remote := r })
         if st = 7 then s else scFault s n 6 ad
       else s
     | [] => s)
  | _ => s

/-! ### Locks, notices, and the switch (R321 to R325) -/

/-- LOCK (R325): a context that is refused joins the lock's queue now, in the order of arrival (R347). -/
def scLock (s : State) (i : Instr) (n d l : Nat) : State :=
  scIssue s n .control (scWf i) (fun s =>
    let x := (s.core n).arch
    let c := ((s.core n).resident).getD 0
    let done (s : State) (v : Nat) : State := scRetire s n 1 { (default : ScOut) with arch := x.setG d v }
    let g := s.ks.granted.look c
    if g.1 = l + 1 && lockHeldBy s l c then
      done (s.onKs (fun k => { k with granted := k.granted.set c default })) (b2n g.2)
    else if lockHeldBy s l c then scFault s n 8 0
    else if !s.gb (F.KS_LOCK_HELD l) then
      let ab := s.g (F.KS_LOCK_ABANDONED l)
      done (lockGive s l c) ab
    else scLeave (lockJoin s l c) n 5 0 false (some l))

/-- UNLOCK (R325, R347). -/
def scUnlock (s : State) (i : Instr) (n l : Nat) : State :=
  scIssue s n .control (scWf i) (fun s =>
    let c := ((s.core n).resident).getD 0
    if !lockHeldBy s l c then scFault s n 8 0
    else
      let s := scRetire s n 1 { (default : ScOut) with arch := (s.core n).arch }
      lockPass s l false)

/-- NOTIFY (R334). -/
def scNotify (s : State) (i : Instr) (n a : Nat) : State :=
  scIssue s n .slot (scWf i) (fun s =>
    let x := (s.core n).arch
    let s := scRetire s n 1 { (default : ScOut) with arch := x }
    sendNotice s (x.gN a % 1024))

/-- WAIT (R319, R324): with a notice pending the notice is consumed and execution continues, once the buffer has drained and
the remote stores are acknowledged. -/
def scWait (s : State) (i : Instr) (n : Nat) : State :=
  scIssue s n .control (scWf i) (fun s =>
    let c := ((s.core n).resident).getD 0
    if s.cx c F.CX_STATE_PENDING ≠ 0 then
      let s := drainAll s n
      if (s.core n).remote = [] then
        scRetire (s.cxPut c F.CX_STATE_PENDING 0) n 1 { (default : ScOut) with arch := (s.core n).arch }
      else s.onCore n (fun k => { k with wait := .note })
    else scLeave s n 4 0 false none)

/-- YIELD and END: the context leaves once the instruction's waits are over (R320, R335, R341). -/
def scDepart (s : State) (i : Instr) (n st : Nat) : State :=
  scIssue s n .control (scWf i) (fun s => scLeave s n st 0 false none)

/-- A pre-emption request is taken (R321). -/
def scPreempt (s : State) (n : Nat) : State :=
  let k := s.core n
  if n < 8 && k.preempt && k.resident.isSome && preemptAllowed k then scLeave s n 1 0 true none else s

/-- The state of Table 13.1 in which `settleContext` leaves a context that departs in `st`: a flow worker's END leaves it WAITING, a
notice or the lock granted meanwhile makes it READY (R334, R341, R347). -/
def settledState (s : State) (c st : Nat) (lock : Option Nat) : Nat :=
  if st = 0 && (s.ks.cfg.look c).flow ≠ 0 then 4
  else if st = 4 && s.cx c F.CX_STATE_PENDING ≠ 0 then 1
  else if st = 5 && lock.any (fun l => (s.ks.granted.look c).1 = l + 1) then 1
  else st

/-- Where the departing context goes (Table 13.1, R335, R341, R347), and how. `st` is the state it leaves in. -/
def settleContext (s : State) (c st cause : Nat) (head : Bool) (lock : Option Nat) : State :=
  let s := s.cxOffCore c
  if st = 0 then
    let f := (s.ks.cfg.look c).flow
    (if f ≠ 0 then flowHandAll (setCxState (flowFinish s c false) c 4) f else setCxState s c 0)
  else if st = 1 then makeReady s c head
  else if st = 4 then
    (if s.cx c F.CX_STATE_PENDING ≠ 0 then makeReady (s.cxPut c F.CX_STATE_PENDING 0) c false
     else
      let s := setCxState s c 4
      let f := (s.ks.cfg.look c).flow
      if f ≠ 0 then flowHandAll s f else s)
  else if st = 5 then
    (if lock.any (fun l => (s.ks.granted.look c).1 = l + 1) then makeReady s c false else setCxState s c 5)
  else (setCxState s c st).cxPut c F.CX_STATE_CAUSE cause

/-- The core takes up what comes after a departure: it leaves service, or its prefetched context runs (R330, R338). -/
def coreAfter (s : State) (n : Nat) : State :=
  if (s.core n).closing then
    let s := takeBack s n
    trcRecord (s.onCore n (fun k => { k with closing := false, dormant := true })) n 8 (s.core n).lastCtx 0
  else placeResident s n

/-- The save is complete: the save area is written, delayed pointer writes are kept delayed (R304, notes/assumptions/40), the next
context becomes resident, and this one settles (R323, R337, R338). -/
def contextSaved (s : State) (n : Nat) : State :=
  let k := s.core n
  match k.wait, k.resident with
  | .leaving st cause head lock, some c =>
    if n ≥ 8 || k.remote ≠ [] then s
    else
      let retired := st = 0 || st = 4 || (st = 1 && !head)
      let arch := if retired then archRetire k.arch 1 k.delP { (default : ScOut) with arch := k.arch }
        else k.arch
      let base := s.word (cxBase c + 8)
      let s := s.noteReadsBy ksMaster ((cxBase c + 8) :: (match xlate s (base + 8 * 69), xlate s (base + 8 * 70) with
        | .mem a, .mem b => [a, b]
        | .mem a, _ => [a]
        | _, .mem b => [b]
        | _, _ => []))
      let old := xuWord s (base + 8 * 69)
      let fault := st = 6 || st = 7
      let ws := archWords arch (if fault then cause else getBits old 56 8)
        (if fault then k.faultPc.toNat else getBits old 0 14)
        (if fault then k.faultAddr else xuWord s (base + 8 * 70))
      let s := ksWrites s base ws
      let reset := k.resetting
      let now := s.dt
      let s := trcRecord s n 5 c (if reset then 0 else settledState s c st lock)
      let s := s.onCore n (fun k => { k with
        resident := none, arch := default, delP := [], wait := .running, preempt := false, resetting := false,
        cache := [], switches := k.switches + 1, idleSince := now
        retired := if retired then k.retired + 1 else k.retired
        lastCtx := if retired then c else k.lastCtx
        lastPc := if retired then k.arch.pc else k.lastPc })
      let s := if st = 1 && head then s.onKs (fun k => { k with preempts := k.preempts + 1 }) else s
      let s := s.onKs (fun ks => { ks with heldPtr := ks.heldPtr.set c (if retired then [] else k.delP) })
      -- the next context is resident when this one settles, so that one made READY may pre-empt it (R337)
      let s := coreAfter s n
      if reset then cxToIdle (s.cxOffCore c) c else settleContext s c st cause head lock
  | _, _ => s

/-! ### Dormancy and service (R327, R330) -/

/-- A core that has held no context for 50 µs becomes dormant (R327). -/
def coreDormant (s : State) (n : Nat) : State :=
  let k := s.core n
  if n < 8 && k.inService && !k.dormant && s.gb (F.SC_CFG_DORMANT_EN n) && k.resident.isNone && k.prefetch.isNone &&
      dtDiff s.dt k.idleSince ≥ (nsUnits 50000 : Int) then
    trcRecord (s.onCore n (fun k => { k with dormant := true })) n 8 k.lastCtx 0
  else s

/-- A dormant core wakes when its prefetch slot is filled (R327, R449). -/
def coreWake (s : State) (n : Nat) : State :=
  let k := s.core n
  match k.prefetch with
  | some c =>
    if n < 8 && k.inService && k.dormant then
      let s := trcRecord (s.onCore n (fun k => { k with dormant := false })) n 9 c 0
      placeResident s n
    else s
  | none => s

/-- The checks of an SCn page's ENABLE (Table 12.9). `pass`: the self-check passes. -/
def scCheck (s : State) (n : Nat) (pass : Bool) : Nat :=
  let t := s.g (F.SC_CFG_REMOTE_TIMEOUT n)
  firstReason [test (!pass) 0x0801, test (t < 5 || t > 500) 0x0802]

/-- Core `n` enters service (R330). -/
def scEnable (s : State) (n : Nat) : State :=
  let now := s.dt
  let slept := (s.core n).dormant
  let s := (s.put (F.CTRL_ENABLE (pSC n)) 1).onCore n (fun k => { k with
    inService := true, dormant := false, closing := false, idleSince := now
    retired := 0, stalls := 0, remoteSteps := 0, switches := 0 })
  if slept then trcWithSync s n 9 (s.core n).lastCtx 0 else s

/-- Core `n` leaves service (R330). -/
def scDisable (s : State) (n : Nat) : State :=
  let s := s.put (F.CTRL_ENABLE (pSC n)) 0
  let s := takeBack (s.onCore n (fun k => { k with inService := false })) n
  match (s.core n).resident with
  | some _ => s.onCore n (fun k => { k with preempt := true, closing := true })
  | none =>
    if (s.core n).dormant then s
    else trcRecord (s.onCore n (fun k => { k with dormant := true })) n 8 (s.core n).lastCtx 0

/-- STATE of an SCn page. -/
def scState (s : State) (n : Nat) : Nat :=
  let k := s.core n
  let waits := match k.wait with
    | .ldr .. => true
    | .fence => true
    | .note => true
    | _ => false
  (k.resident.getD (s.openBits 0 10) <<< 32) + (b2n k.prefetch.isSome <<< 4) + (b2n k.dormant <<< 3) +
  (b2n waits <<< 2) + (b2n k.resident.isSome <<< 1) + b2n k.inService

/-- SC_PC. -/
def scPcWord (s : State) (n : Nat) : Nat := ((s.core n).lastCtx <<< 44) + (s.core n).lastPc.toNat

/-- The set of SC_SNAP. -/
def scSnapWords (s : State) (n : Nat) : List (Nat × Nat) :=
  let k := s.core n
  [((F.SC_SNAP_RETIRED n).adr, k.retired), ((F.SC_SNAP_STALLS n).adr, k.stalls),
   ((F.SC_SNAP_REMOTE n).adr, k.remoteSteps), ((F.SC_SNAP_SWITCHES n).adr, k.switches),
   ((F.SC_SNAP_DT n).adr, s.dtN)]

end Sys2Proof.Machine
end

