-- ==== Sys2Proof/Machine/Dma.lean ====
section
/-! DEFINITION. The DMA engines (R367 to R375, R381). `bw s master addr value bytes` and `br s master addr bytes`
go through the bus. -/

namespace Sys2Proof.Machine

/-- A write through the bus. -/
abbrev BusW := State → Nat → Nat → Nat → Nat → State
/-- A read through the bus. -/
abbrev BusR := State → Nat → Nat → Nat → State × BusData

/-- Ring `k` of engine `n` in the table of rings. -/
def ringIx (n k : Nat) : Nat := 2 * n + k

/-- Changes a ring. -/
def State.onRing (s : State) (i : Nat) (f : DmaRing → DmaRing) : State :=
  { s with dma := s.dma.set i (f (s.dma.look i)) }

/-- The master number of a ring's engine. -/
def dmaMaster (i : Nat) : Nat := 0x20 + i / 2

/-- DMn_WRk. -/
def dmaWr (s : State) (i : Nat) : Nat :=
  getBits (s.reg (if i % 2 = 0 then (F.DM_WR0 (i / 2)).adr else (F.DM_WR1 (i / 2)).adr)) 0 32

/-- A field of the descriptor in progress: `n` bytes from `o`. -/
def descField (r : DmaRing) (o n : Nat) : Nat := (r.desc.drop o).take n |>.foldr (fun b v => v * 256 + b) 0

/-- Address of the descriptor in progress (R368). -/
def descAddr (r : DmaRing) : Nat := r.base + 64 * (r.rd % 2 ^ r.sizeLog2)

/-- Source, destination, length and operation of the descriptor in progress (Table 14.6). -/
def descSrc (r : DmaRing) : Nat := descField r 0 8
/-- Destination. -/
def descDst (r : DmaRing) : Nat := descField r 8 8
/-- LENGTH. -/
def descLen (r : DmaRing) : Nat := descField r 16 4
/-- OP. -/
def descOp (r : DmaRing) : Nat := descField r 20 1
/-- DFLAGS bit `b`. -/
def descFlag (r : DmaRing) (b : Nat) : Bool := bit (descField r 21 1) b

/-- Whether an XU address lies in the register range (R370). -/
def inRegisters (s : State) (a : Nat) : Bool :=
  a < 0x4000000 || (match xlate s a with | .reg _ => true | _ => false)

/-- The queue whose word at offset `k` of its four lies at `a`: 0 Q_PUSH, 8 Q_POP. -/
def queueWord (s : State) (a k : Nat) : Option Nat :=
  match xlate s a with
  | .reg o => if pQ + 0x800 ≤ o && o < pQ + 0x1000 && o % 0x20 = k then some ((o - (pQ + 0x800)) / 0x20) else none
  | _ => none

/-- The queue whose Q_PUSH lies at `a`. -/
def pushQueue (s : State) (a : Nat) : Option Nat := queueWord s a 0

/-- The queue whose Q_POP lies at `a`. -/
def popQueue (s : State) (a : Nat) : Option Nat := queueWord s a 8

/-- A ring is suspended at `a` (R371). DMA_SUSPENDED is event 1 of the DMA page. -/
def dmaSuspend (s : State) (i a : Nat) : State :=
  let n := i / 2
  let s := s.onRing i (fun r => { r with state := 4, faultAddr := a })
  let s := (s.setReg (F.DM_FAULT n).adr a).put (F.DM_STATE_FAULT_RING n) (i % 2)
  raisePage s pDMA 1 n

/-- A translation fault of a ring is reported (R365). -/
def dmaFault (s : State) (i kind level a : Nat) : State := raiseXuFault s (dmaMaster i) kind level a

/-- The next state of a ring whose descriptor has ended: ACTIVE while descriptors wait, else IDLE (R368). -/
def dmaNext (s : State) (i : Nat) : State :=
  let more := (s.dma.look i).rd % 2 ^ 32 ≠ dmaWr s i
  s.onRing i (fun r => { r with
    state := if more then 2 else 1, fetched := false, desc := [], written := 0, held := [], finish := none,
    waiting := false, paid := [] })

/-- RD advances past the descriptor (R368). -/
def dmaAdvance (s : State) (i : Nat) : State :=
  let s := s.onRing i (fun r => { r with rd := (r.rd + 1) % 2 ^ 32 })
  s.put (if i % 2 = 0 then F.DM_RD_RD0 (i / 2) else F.DM_RD_RD1 (i / 2)) (s.dma.look i).rd

/-- Owner tag of the packet that the descriptor in progress of ring `i` opens in a queue (R381). -/
def descOwner (s : State) (i : Nat) : Nat := 0x1000000 + (i <<< 32) + (s.dma.look i).rd

/-- A credit for flit `k` of side `side` of ring `i`, unless that flit has been charged already: 0 is the descriptor's fetch, 1 the
source, 2 the destination, 3 the status, 4 the completion write (R350, R374; what counts as a flit is a DESIGN CHOICE,
notes/assumptions/45). The device engines use reserved credits. -/
def dmaPay (s : State) (i side k : Nat) : Option State :=
  if i / 2 ≥ 12 || (s.dma.look i).paid.look side = k + 1 then some s
  else (creditTake s (s.g (F.DM_CFG_CONTEXT (i / 2)))).map
    (fun s => s.onRing i (fun r => { r with paid := r.paid.set side (k + 1) }))

/-- How a write of the engine's own for a descriptor ends: made, stopped by a translation fault, or waiting for a credit. -/
inductive DmaWrite where
  | done
  | fault (kind level addr : Nat)
  | waits
deriving DecidableEq, Repr

/-- The write-back of a descriptor: STATUS and DONE_DT (R369). -/
def dmaWriteBack (bw : BusW) (s : State) (i code : Nat) : State × DmaWrite :=
  let r := s.dma.look i
  let a := descAddr r + 48
  match xlate s a with
  | .fault k l => (s, .fault k l a)
  | _ =>
    match dmaPay s i 3 0 with
    | none => (s, .waits)
    | some s =>
      let s' := bw (xuTouch s a) (dmaMaster i) a (statusWord s code r.written) 8
      (bw s'.nextFree (dmaMaster i) (a + 8) s.dtN 8, .done)

/-- A queue packet that the descriptor has opened is committed or abandoned (R381): the engine, as its master, acts for it. -/
def dmaQueueEnd (bw : BusW) (s : State) (i : Nat) (ok : Bool) : State :=
  let r := s.dma.look i
  match (if descFlag r 2 && descFlag r 1 then pushQueue s (descDst r) else none) with
  | none => s
  | some q =>
    if (s.queue q).openPkt.isSome && (s.queue q).owner = descOwner s i then
      bw (s.onQueue q (fun k => { k with owner := dmaMaster i })) (dmaMaster i) (descDst r + 0x10) ((if ok then 1 else 2) <<< 61) 8
    else s

/-- The descriptor has ended with an error (R370, R371, R373). ABORTED (3) goes on with the next descriptor; the other
errors halt the ring. DMA_HALTED is event 2 of the DMA page. -/
def dmaEndError (bw : BusW) (s : State) (i code : Nat) : State :=
  let s := dmaAdvance (dmaQueueEnd bw s i false) i
  if code = 3 then dmaNext s i
  else
    let s := s.onRing i (fun r => { r with state := 5, finish := none, waiting := false })
    raisePage s pDMA 2 (i / 2)

/-- `finish` of a ring whose status is written back and whose completion write is still to be made (R371). -/
def dmaCpl : Nat := 8

/-- `finish` of a ring whose writes are acknowledged and whose status is still to be written back (R371). -/
def dmaAcked : Nat := 9

/-- `finish` of a ring that is disabled and whose descriptor is still to be written back as ABORTED (R382). -/
def dmaOff : Nat := 10

/-- The descriptor ends with an error once its status is written back; on a device engine a write-back that faults is dropped
(R371, R373, R375). -/
def dmaError (bw : BusW) (s : State) (i code : Nat) : State :=
  match dmaWriteBack bw s i code with
  | (s, .done) => dmaEndError bw s i code
  | (s, .waits) => s.onRing i (fun r => { r with finish := some code })
  | (s, .fault k l a) =>
    let s := dmaFault s i k l a
    if i / 2 ≥ 12 then dmaEndError bw s i code else dmaSuspend (s.onRing i (fun r => { r with finish := some code })) i a

/-- A translation fault meets a ring at `a`: SUSPENDED, or on the device engines ABORTED (R371, R375). -/
def dmaStop (bw : BusW) (s : State) (i kind level a : Nat) : State :=
  let s := dmaFault s i kind level a
  if i / 2 ≥ 12 then dmaError bw s i 3 else dmaSuspend s i a

/-- What follows the write-back of a descriptor that is done: the completion write, as an aligned 64-bit write, and the
event; only then RD advances. A translation fault of the completion write suspends the ring before it, or ends a device
engine's transfer as ABORTED (R369, R371, R375). The low bits of a CPL_ADDR that is not aligned are passed over
(DESIGN CHOICE, notes/assumptions/39). DMA_DONE is event 3. -/
def dmaComplete (bw : BusW) (s : State) (i : Nat) : State :=
  let r := s.dma.look i
  let cpl := descField r 24 8
  let done (s : State) : State :=
    let s := if descFlag r 3 then raisePage2 s pDMA 3 (i / 2 + ((i % 2) <<< 4)) (descField r 40 4) 0 else s
    dmaNext (dmaAdvance s i) i
  if cpl = 0 then done s
  else match xlate s cpl with
    | .fault kd lv => dmaStop bw (s.onRing i (fun r => { r with finish := some dmaCpl })) i kd lv cpl
    | _ =>
      match dmaPay s i 4 0 with
      | none => s.onRing i (fun r => { r with finish := some dmaCpl })
      | some s => done (bw (xuTouch s cpl) (dmaMaster i) (cpl / 8 * 8) (descField r 32 8) 8)

/-- Every write of the descriptor has been acknowledged: its status is written back, and what follows (R369). -/
def dmaFinish (bw : BusW) (s : State) (i : Nat) : State :=
  match dmaWriteBack bw s i 0 with
  | (s, .done) => dmaComplete bw (dmaQueueEnd bw s i true) i
  | (s, .waits) => s.onRing i (fun r => { r with finish := some dmaAcked })
  | (s, .fault k l a) =>
    let s := dmaFault s i k l a
    if i / 2 ≥ 12 then dmaEndError bw s i 3 else dmaSuspend (s.onRing i (fun r => { r with finish := some dmaAcked })) i a

/-- What a span of memory gives: its bytes, a fault at an address, an uncorrectable word, or a wait. -/
inductive SpanRead where
  | bytes (l : List Nat)
  | fault (kind level addr : Nat)
  | poison
  | waits
deriving DecidableEq, Repr

/-- Reads `n` bytes from `a`, word by word. -/
def readSpan (br : BusR) (s : State) (m a n : Nat) : Nat → State × SpanRead
  | 0 => (s, .bytes [])
  | fuel + 1 =>
    if n = 0 then (s, .bytes [])
    else
      let k := min n (8 - a % 8)
      match xlate s a with
      | .fault kd l => (s, .fault kd l a)
      | _ =>
        match br (xuTouch s a) m a k with
        | (s, none) => (s, .waits)
        | (s, some (_, true)) => (s, .poison)
        | (s, some (v, false)) =>
          match readSpan br s m (a + k) (n - k) fuel with
          | (s, .bytes l) => (s, .bytes ((List.range k).map (fun j => getBits v (8 * j) 8) ++ l))
          | q => q

/-- Whether a side of the descriptor moves in whole words (R370). -/
def wordSide (s : State) (fixed : Bool) (a : Nat) : Bool := fixed || inRegisters s a

/-- R370 and the operation: the error with which a descriptor ends at once, or 0. -/
def descCheck (s : State) (r : DmaRing) : Nat :=
  let bad (fixed : Bool) (a : Nat) : Bool := wordSide s fixed a && (a % 8 ≠ 0 || descLen r % 8 ≠ 0)
  if descOp r > 1 then 4
  else if (descOp r = 0 && bad (descFlag r 0) (descSrc r)) || bad (descFlag r 1) (descDst r) then 1
  else 0

/-- The address of byte `o` of a side. -/
def sideAddr (fixed : Bool) (a o : Nat) : Nat := if fixed then a else a + o

/-- The flit of byte `o` of a side: 64 aligned bytes, or one word of a FIXED side. -/
def sideFlit (fixed : Bool) (a o : Nat) : Nat := if fixed then o else (a + o) / 64

/-- Bytes up to the next word boundary of the destination, within the descriptor: what the next destination word takes. -/
def pieceLen (r : DmaRing) : Nat :=
  min (descLen r - r.written) (8 - sideAddr (descFlag r 1) (descDst r) r.written % 8)

/-- The first byte of the source not yet read, and the bytes from it up to the end of its word, within the descriptor. -/
def sourceNext (r : DmaRing) : Nat × Nat :=
  let o := r.written + r.held.length
  (o, min (descLen r - o) (8 - sideAddr (descFlag r 0) (descSrc r) o % 8))

/-- Bytes go into the hold buffer of ring `i`. -/
def dmaHeld (s : State) (i : Nat) (l : List Nat) : State :=
  s.onRing i (fun r => { r with held := r.held ++ l.map (BitVec.ofNat 8) })

/-- How reading the source ends. -/
inductive DmaRead where
  | done
  | fault (kind level addr : Nat)
  | poison
  /-- Q_POP answered VALID = 0 (R381). -/
  | empty
  | waits
deriving DecidableEq, Repr

/-- The next source word is read, once, into the hold buffer (R369). -/
def dmaReadWord (br : BusR) (s : State) (i : Nat) : State × DmaRead :=
  let r := s.dma.look i
  let (o, n) := sourceNext r
  if descOp r = 1 then (dmaHeld s i ((List.range n).map (fun j => getBits (descSrc r) (8 * ((o + j) % 8)) 8)), .done)
  else
    let a := sideAddr (descFlag r 0) (descSrc r) o
    match xlate s a with
    | .fault k l => (s, .fault k l a)
    | _ =>
      match dmaPay s i 1 (sideFlit (descFlag r 0) (descSrc r) o) with
      | none => (s, .waits)
      | some s =>
        match br (xuTouch s a) (dmaMaster i) a n with
        | (s, none) => (s.onRing i (fun r => { r with waiting := true }), .waits)
        | (s, some (_, true)) => (s, .poison)
        | (s, some (v, false)) =>
          if (popQueue s a).isSome && !bit (ownCopy s (dmaMaster i) F.Q_POPSTAT.adr) 63 then (s, .empty)
          else (dmaHeld s i ((List.range n).map (fun j => getBits v (8 * j) 8)), .done)

/-- Source words are read until `n` bytes are held. -/
def dmaHold (br : BusR) (s : State) (i n : Nat) : Nat → State × DmaRead
  | 0 => (s, .done)
  | fuel + 1 =>
    if (s.dma.look i).held.length ≥ n then (s, .done)
    else match dmaReadWord br s i with
      | (s, .done) => dmaHold br s i n fuel
      | q => q

/-- The run-ahead of a suspension at the destination: source words of memory read into the hold buffer, at most
512 bytes beyond the first byte not yet written (R371). -/
def readAhead (br : BusR) (s : State) (i : Nat) : Nat → State
  | 0 => s
  | fuel + 1 =>
    let r := s.dma.look i
    let (o, n) := sourceNext r
    let open_ := match xlate s (descSrc r + o) with
      | .mem m => !s.poisoned m
      | .host _ => true
      | _ => false
    if n = 0 || r.held.length + n > 512 || descOp r ≠ 0 || descFlag r 0 || !open_ then s
    else match dmaReadWord br s i with
      | (s, .done) => readAhead br s i fuel
      | (s, _) => s

/-- The next destination word is written, once: a push of the descriptor's own where the destination is Q_PUSH with DST_FIXED
(R369, R381). -/
def dmaPut (bw : BusW) (s : State) (i n : Nat) : State :=
  let r := s.dma.look i
  let d := sideAddr (descFlag r 1) (descDst r) r.written
  let v := (r.held.take n).foldr (fun b v => v * 256 + b.toNat) 0
  let s := match (if descFlag r 1 then pushQueue s d else none) with
    | some q => qPushBy s q (descOwner s i) v
    | none => bw (xuTouch s d) (dmaMaster i) d v n
  s.onRing i (fun r => { r with written := r.written + n, held := r.held.drop n })

/-- Moves the data of the descriptor in progress, word by word, until it is done or the ring stops. -/
def dmaMove (bw : BusW) (br : BusR) (s : State) (i : Nat) : Nat → State
  | 0 => s
  | fuel + 1 =>
    let r := s.dma.look i
    if r.waiting || r.state ≠ 2 then s
    else if r.written ≥ descLen r then s.onRing i (fun r => { r with finish := some 0 })
    else
      let n := pieceLen r
      match dmaHold br s i n 9 with
      | (s, .waits) => s
      | (s, .poison) => dmaError bw s i 2
      | (s, .empty) => dmaError bw s i 1
      | (s, .fault k l a) => dmaStop bw s i k l a
      | (s, .done) =>
        let d := sideAddr (descFlag r 1) (descDst r) r.written
        match xlate s d with
        | .fault k l =>
          if i / 2 ≥ 12 then dmaStop bw s i k l d
          else dmaSuspend (readAhead br (dmaFault s i k l d) i 129) i d
        | _ =>
          match dmaPay s i 2 (sideFlit (descFlag r 1) (descDst r) r.written) with
          | none => s
          | some s => dmaMove bw br (dmaPut bw s i n) i fuel

/-- Fetches the descriptor at RD (R368). -/
def dmaFetch (bw : BusW) (br : BusR) (s : State) (i : Nat) : State :=
  let r := s.dma.look i
  let clear (s : State) (l : List Nat) : State :=
    s.onRing i (fun r => { r with fetched := true, desc := l, written := 0, held := [], finish := none })
  match xlate s (descAddr r) with
  | .fault k l =>
    let s := dmaFault s i k l (descAddr r)
    if i / 2 ≥ 12 then dmaNext (dmaAdvance s i) i else dmaSuspend s i (descAddr r)
  | _ =>
    match dmaPay s i 0 0 with
    | none => s
    | some s =>
      match readSpan br s (dmaMaster i) (descAddr r) 64 9 with
      | (s, .bytes l) =>
        let s := clear s l
        let e := descCheck s (s.dma.look i)
        if e ≠ 0 then dmaError bw s i e else s
      | (s, .fault k l a) => dmaStop bw s i k l a
      | (s, .poison) => dmaError bw (clear s []) i 2
      | (s, .waits) => s

/-- A ring goes OFF: its descriptor's packet is abandoned (R381, R382). -/
def dmaRingOff (bw : BusW) (s : State) (i : Nat) : State :=
  (dmaQueueEnd bw s i false).onRing i (fun r => { (default : DmaRing) with rd := r.rd, turn := r.turn })

/-- A ring that is disabled while SUSPENDED: its descriptor is written back as ABORTED, which may wait for a credit; a write-back
that faults is reported and dropped; then the ring is OFF (R371, R374, R382). -/
def dmaRingEnd (bw : BusW) (s : State) (i : Nat) : State :=
  match dmaWriteBack bw s i 3 with
  | (s, .waits) => s.onRing i (fun r => { r with state := 2, fetched := true, finish := some dmaOff })
  | (s, .fault k l a) => dmaRingOff bw (dmaFault s i k l a) i
  | (s, .done) => dmaRingOff bw s i

/-- A ring that is ACTIVE goes on with its descriptor: fetch, then move; or the write-back that it still owes. -/
def dmaPass (bw : BusW) (br : BusR) (s : State) (i : Nat) : State :=
  let other := i / 2 * 2 + (1 - i % 2)
  if (s.dma.look i).state ≠ 2 || (s.dma.look other).waiting then s
  else
    let s := if (s.dma.look i).fetched then s else dmaFetch bw br s i
    let r := s.dma.look i
    if r.state ≠ 2 || !r.fetched then s
    else match r.finish with
      | some c =>
        if c = 0 then s
        else if c = dmaCpl then dmaComplete bw s i
        else if c = dmaAcked then dmaFinish bw s i
        else if c = dmaOff then dmaRingEnd bw s i
        else dmaError bw s i c
      | none => dmaMove bw br s i (descLen r + 2)

/-- Runs a ring that is ACTIVE: descriptor after descriptor, as far as it comes; a ring has at most 2^15 of them. -/
def dmaRun (bw : BusW) (br : BusR) (s : State) (i : Nat) : Nat → State
  | 0 => s
  | fuel + 1 =>
    let u := dmaPass bw br s i
    if (u.dma.look i).state = 2 && (u.dma.look i).rd ≠ (s.dma.look i).rd then dmaRun bw br u i fuel else u

/-- Whether ring 1 lets ring 0 run (R372). -/
def ring1Idle (s : State) (n : Nat) : Bool :=
  let st := (s.dma.look (ringIx n 1)).state
  st ≠ 2

/-- Both rings of an engine go on: ring 1 first; ring 0 is PREEMPTED while ring 1 is ACTIVE (R372). -/
def dmaRings (bw : BusW) (br : BusR) (s : State) (n : Nat) : State :=
  let s := dmaRun bw br s (ringIx n 1) 32769
  let i := ringIx n 0
  let st := (s.dma.look i).state
  if ring1Idle s n then
    let s := if st = 3 then s.onRing i (fun r => { r with state := 2 }) else s
    dmaRun bw br s i 32769
  else if st = 2 then s.onRing i (fun r => { r with state := 3 }) else s

/-- A ring of engine `n` is ACTIVE or PREEMPTED. -/
def dmaBusy (s : State) (n : Nat) : Bool :=
  [ringIx n 0, ringIx n 1].any (fun i => (s.dma.look i).state = 2 || (s.dma.look i).state = 3)

/-- Engine `n` is carrying out a step, and its `turn` becomes `v`. -/
def State.dmaTurn (s : State) (n v : Nat) : State := s.onRing (ringIx n 0) (fun r => { r with turn := v })

/-- Engine `n` carries out `f` and goes on; and again, at most `k` times, where one of its own writes has told it to. Within a step each
word is written once, whatever its write brings about (R369). -/
def dmaTurns (bw : BusW) (br : BusR) (n : Nat) : Nat → (State → State) → State → State
  | 0, _, s => s.dmaTurn n 0
  | k + 1, f, s =>
    let s := dmaRings bw br (f (s.dmaTurn n 1)) n
    if (s.dma.look (ringIx n 0)).turn = 2 then dmaTurns bw br n k (fun s => s) s else s.dmaTurn n 0

/-- Engine `n` does `f`, then both its rings go on. What reaches it during a step of its own waits for the end of the step. -/
def dmaStep (bw : BusW) (br : BusR) (s : State) (n : Nat) (f : State → State) : State :=
  if (s.dma.look (ringIx n 0)).turn ≠ 0 then (f s).dmaTurn n 2 else dmaTurns bw br n 8 f s

/-- Engine `n` goes on, where one of its rings is ACTIVE or PREEMPTED. -/
def dmaEngine (bw : BusW) (br : BusR) (s : State) (n : Nat) : State :=
  if dmaBusy s n then dmaStep bw br s n (fun s => s) else s

/-- Every engine goes on: after credits or queue words have become available (R374, R379). -/
def dmaKick (bw : BusW) (br : BusR) (s : State) : State :=
  forEach (fun n s => dmaEngine bw br s n) (List.range 16) s

/-- Whether a write by `m` to a register of engine `n` is set aside (R26, R367). -/
def dmaRefuses (m n : Nat) : Bool := n ≥ 12 && m ≠ 5

/-- DMn_WRk is written (R368). -/
def dmaPost (bw : BusW) (br : BusR) (s : State) (m n k wr : Nat) : State :=
  if dmaRefuses m n || n ≥ 16 || k ≥ 2 then s
  else
    let i := ringIx n k
    let s := s.setReg (if k = 0 then (F.DM_WR0 n).adr else (F.DM_WR1 n).adr) (wr % 2 ^ 32)
    let r := s.dma.look i
    let s := if r.state = 1 && r.rd % 2 ^ 32 ≠ wr % 2 ^ 32 then s.onRing i (fun r => { r with state := 2 }) else s
    let s := if k = 1 && (s.dma.look i).state = 2 && (s.dma.look (ringIx n 0)).state = 2 then
        s.onRing (ringIx n 0) (fun r => { r with state := 3 }) else s
    dmaEngine bw br s n

/-- The descriptor of a ring completes: every write has been acknowledged (R369). -/
def dmaDone (bw : BusW) (br : BusR) (s : State) (n k : Nat) : State :=
  let i := ringIx n k
  let r := s.dma.look i
  if n ≥ 16 || k ≥ 2 || r.state ≠ 2 || r.finish ≠ some 0 then s
  else dmaStep bw br s n (fun s => dmaFinish bw s i)

/-! ### Ring commands (R371, R373, R382) -/

/-- The checks of DMn_CTL (Table 14.9). `op` is that of DMn_CTL. -/
def dmaCtlCheck (s : State) (n k op : Nat) : Nat :=
  let r := s.dma.look (ringIx n k)
  let base := s.reg (if k = 0 then (F.DM_BASE0 n).adr else (F.DM_BASE1 n).adr)
  let lg := if k = 0 then s.g (F.DM_CFG_SIZE_LOG2_0 n) else s.g (F.DM_CFG_SIZE_LOG2_1 n)
  firstReason [
    test (!s.enabled pDMA) 0x0910,
    test (op = 1 && (base % 64 ≠ 0 || lg < 2)) 0x0911,
    test ((op = 1 && r.state ≠ 0) || (op = 2 && (r.state = 2 || r.state = 3)) ||
      ((op = 3 || op = 4) && r.state ≠ 4) || (op = 5 && r.state ≠ 5)) 0x0912]

/-- ENABLE of a ring: base and size are read; descriptors already posted are taken up (R368). -/
def dmaEnable (bw : BusW) (br : BusR) (s : State) (n k : Nat) : State :=
  let i := ringIx n k
  let base := s.reg (if k = 0 then (F.DM_BASE0 n).adr else (F.DM_BASE1 n).adr)
  let lg := if k = 0 then s.g (F.DM_CFG_SIZE_LOG2_0 n) else s.g (F.DM_CFG_SIZE_LOG2_1 n)
  let s := s.onRing i (fun r => { (default : DmaRing) with base := base, sizeLog2 := lg, rd := r.rd, state := 1, turn := r.turn })
  let s := if (s.dma.look i).rd % 2 ^ 32 ≠ dmaWr s i then s.onRing i (fun r => { r with state := 2 }) else s
  dmaEngine bw br s n

/-- DISABLE of a ring: a SUSPENDED one first writes its descriptor back as ABORTED, which abandons the packet that the
descriptor owns (R381, R382). -/
def dmaDisable (bw : BusW) (br : BusR) (s : State) (n k : Nat) : State :=
  let i := ringIx n k
  if (s.dma.look i).state = 4 then dmaStep bw br s n (fun s => dmaRingEnd bw s i)
  else dmaEngine bw br (s.onRing i (fun r => { (default : DmaRing) with rd := r.rd, turn := r.turn })) n

/-- RESUME: the faulting step is retried (R371). -/
def dmaResume (bw : BusW) (br : BusR) (s : State) (n k : Nat) : State :=
  dmaEngine bw br (s.onRing (ringIx n k) (fun r => { r with state := 2 })) n

/-- ABORT: the descriptor ends as ABORTED with the bytes written so far, the held words are discarded (R371). A descriptor whose
fetch was suspended is not fetched again. -/
def dmaAbort (bw : BusW) (br : BusR) (s : State) (n k : Nat) : State :=
  let i := ringIx n k
  dmaStep bw br s n (fun s => dmaError bw (s.onRing i (fun r => { r with state := 2, held := [], fetched := true })) i 3)

/-- CONTINUE: the next descriptor starts (R373). -/
def dmaContinue (bw : BusW) (br : BusR) (s : State) (n k : Nat) : State :=
  dmaEngine bw br (dmaNext s (ringIx n k)) n

/-! ### Status words -/

/-- DMn_STATE. -/
def dmaStateWord (s : State) (n : Nat) : Nat :=
  let r0 := s.dma.look (ringIx n 0)
  let r1 := s.dma.look (ringIx n 1)
  (r1.held.length <<< 32) + (r0.held.length <<< 16) + (s.g (F.DM_STATE_FAULT_RING n) <<< 6) + (r1.state <<< 3) + r0.state

/-- DMn_PROGRESSk. -/
def dmaProgress (s : State) (n k : Nat) : Nat :=
  let r := s.dma.look (ringIx n k)
  (r.rd <<< 32) + r.written % 2 ^ 32

/-- STATE of the DMA page. -/
def dmaPageState (s : State) : Nat :=
  (List.range 16).foldl (fun v n =>
    let has (st : Nat) : Nat :=
      b2n ((s.dma.look (ringIx n 0)).state = st || (s.dma.look (ringIx n 1)).state = st)
    v + (has 5 <<< (16 + n)) + (has 4 <<< n)) 0

end Sys2Proof.Machine
end

