-- ==== Sys2Proof/Machine/MemUnit.lean ====
section
/-! DEFINITION. The XU page and the memory page: invalidation, scrubbing, error counts (R358 to R361, R366). -/

namespace Sys2Proof.Machine

/-- The check of the XU page's ENABLE (Table 14.9). -/
def xuCheck (s : State) : Nat :=
  let r := s.reg F.XU_ROOT.adr
  test (r % 4096 ≠ 0 || !inMemory r) 0x0901

/-- An invalidation is requested: all translations, or a range of 4 KiB pages (R366). -/
def xuInval (s : State) (range : Option (Nat × Nat)) : State :=
  { s with ms := { s.ms with invals := s.ms.invals ++ [⟨range⟩] } }

/-- Whether a cached translation or table pointer covers one of `n` 4 KiB pages from `first`. -/
def xuCovers (e : XuEntry) (first n : Nat) : Bool :=
  let lo := (e.page <<< e.sizeLog2) >>> 12
  let k := 2 ^ (e.sizeLog2 - 12)
  lo < first + n && first < lo + k

/-- The oldest invalidation completes (R366). -/
def xuInvalDone (s : State) : State :=
  match s.ms.invals with
  | [] => s
  | v :: r =>
    let cache := match v.range with
      | none => []
      | some (first, n) => s.ms.cache.filter (fun e => !xuCovers e first n)
    { s with ms := { s.ms with invals := r, cache := cache } }

/-- The check of the memory page's ENABLE (Table 14.9). -/
def memCheck (s : State) : Nat :=
  let a := s.g F.MEM_SCRUB_SRAM_S
  let b := s.g F.MEM_SCRUB_DRAM_H
  test (a < 1 || a > 3600 || b < 1 || b > 255) 0x0930

/-- The memory page is enabled: scrubbing runs (R360). -/
def memEnable (s : State) : State :=
  let s := s.put (F.CTRL_ENABLE pMEM) 1
  { s with ms := { s.ms with scrubSram := true, scrubDram := true } }

/-- The memory page's ENABLE is cleared. -/
def memDisable (s : State) : State :=
  let s := s.put (F.CTRL_ENABLE pMEM) 0
  { s with ms := { s.ms with scrubSram := false, scrubDram := false } }

/-- A corrected error of the word at `a`: counted, and raised at most once per millisecond for each memory (R361).
MEM_CE is event 1 of the memory page; INFO names the memory, 0 SRAM and 1 DRAM. -/
def memCe (s : State) (a : Nat) : State :=
  let dram := inDram a
  let last := if dram then s.ms.ceEvtDram else s.ms.ceEvtSram
  let due := match last with
    | none => true
    | some d => dtDiff s.dt d ≥ (nsUnits 1000000 : Int)
  let now := s.dt
  let s := if dram then { s with ms := { s.ms with ceDram := s.ms.ceDram + 1 } }
    else { s with ms := { s.ms with ceSram := s.ms.ceSram + 1 } }
  if !due then s
  else
    let s := if dram then { s with ms := { s.ms with ceEvtDram := some now } }
      else { s with ms := { s.ms with ceEvtSram := some now } }
    raisePage s pMEM 1 (b2n dram)

/-- The word at `a` is found uncorrectable: it is poisoned from now on (R358). -/
def memPoison (s : State) (a : Nat) : State := { s with poison := nsAdd s.poison (a / 8 * 8) }

/-- The patrol scrubber reads the word at direct address `a` (R360), unless the LPDDR5 is in self-refresh (Table 15.7). `flaw`: 0 the word is sound, 1 it had a
single-bit error, which is corrected, 2 it is uncorrectable. The scrubber's master number is that of block type 9. -/
def scrubRead (s : State) (a flaw : Nat) : State :=
  let runs := if inDram a then s.ms.scrubDram && !s.ms.selfRefresh else s.ms.scrubSram
  if !runs || !inMemory a then s
  else if flaw = 2 || s.poisoned a then raiseUe (memPoison s a) 0x49 a
  else if flaw = 1 then memCe s a
  else s

/-- STATE of the memory page. -/
def memState (s : State) : Nat :=
  (b2n ((List.range 16).any (fun k => s.gb (F.MEM_POISON_VALID k))) <<< 2) + (b2n s.ms.scrubDram <<< 1) +
  b2n s.ms.scrubSram

/-- The set of MEM_SNAP. -/
def memSnapWords (s : State) : List (Nat × Nat) :=
  [(F.MEM_SNAP_CE_SRAM.adr, s.ms.ceSram), (F.MEM_SNAP_UE_SRAM.adr, s.ms.ueSram),
   (F.MEM_SNAP_CE_DRAM.adr, s.ms.ceDram), (F.MEM_SNAP_UE_DRAM.adr, s.ms.ueDram)]

end Sys2Proof.Machine
end

