-- ==== Sys2Proof/Machine/Ptp.lean ====
section
/-! DEFINITION. Device time beside its count: the reference, the network time domains, the wall-time mapping, the rate
comparison, and the time inputs and outputs (R61, R64 to R86). Offsets and wall times are in units of 2^-16 ns. -/

namespace Sys2Proof.Machine

/-- Changes the time unit's state. -/
def State.onTu (s : State) (f : TuSt → TuSt) : State := { s with tu := f s.tu }

/-- Domain slot `n`. -/
def State.dom (s : State) (n : Nat) : PtpDom := if n = 0 then s.tu.dom0 else s.tu.dom1

/-- Changes domain slot `n`. -/
def State.onDom (s : State) (n : Nat) (f : PtpDom → PtpDom) : State :=
  if n = 0 then s.onTu (fun t => { t with dom0 := f t.dom0 }) else s.onTu (fun t => { t with dom1 := f t.dom1 })

/-- Seconds in units of 2^-16 ns. -/
def secUnits : Int := 65536000000000

/-! ### The reference (R64) -/

/-- The on-die PLLs, which all derive from the reference, are not locked while it is lost: of the time clock, the sampling clock, the
field ports, the party wall and the Ethernet ports (R15, R64; DEDUCED, notes/assumptions/33). -/
def pllsLock (s : State) (lost : Bool) : State :=
  let s := { s with tu := { s.tu with refLost := lost, unlocked := lost }, fb := { s.fb with noSampling := lost },
                    tw := { s.tw with noClock := lost } }
  let s := forEach (fun p s => s.onPort p (fun q => { q with noClock := lost })) (List.range 8) s
  forEach (fun n s => { s with he := s.he.set n { s.he.look n with noClock := lost } }) (List.range 2) s

/-- The reference is lost: the PLLs hold, and the loss is a core fault of Table 15.5. -/
def refLost (s : State) : State :=
  if s.tu.refLost then s else detect (raisePage (pllsLock s true) pTU 1 0) 4

/-- The reference returns, and the PLLs relock. -/
def refRestored (s : State) : State :=
  if s.tu.refLost then raisePage (pllsLock s false) pTU 2 0 else s

/-! ### Instants that stay behind

A DT that is kept lies behind the present one. Kept for longer than half the range of DT it would read as one ahead (R62): before that
comes about it is taken to lie 2^62 counts of 2^-16 ns, some 19 hours, back, which is beyond every span that is asked of it. -/

/-- How far the instant `e` lies behind the present one; one that lies just ahead, as a stamp may, is not behind. -/
def ageOf (now e : DT) : Nat := if (now - e).toNat < 2 ^ 64 - 2 ^ 60 then (now - e).toNat else 0

/-- The instant `e` of the past, kept within 2^62 counts. -/
def aged (now e : DT) : DT := if ageOf now e < 2 ^ 62 then e else now - BitVec.ofNat 64 (2 ^ 62)

/-- What a slot keeps of its masters and of its last Sync. -/
def PtpDom.age (now : DT) (d : PtpDom) : PtpDom :=
  { d with syncAt := aged now d.syncAt, masters := d.masters.map (fun m => { m with last := aged now m.last }) }

/-- What the time unit keeps: the last evaluation, ENABLE, the last step and the last pulse stay behind; a correction replaced so long
ago concerns no frame (R68, R70, R78, R83). -/
def TuSt.age (now : DT) (t : TuSt) : TuSt :=
  { t with
    dom0 := t.dom0.age now, dom1 := t.dom1.age now
    evalAt := aged now t.evalAt, onAt := aged now t.onAt
    stepAt := t.stepAt.map (aged now), ppsLast := t.ppsLast.map (aged now)
    corrOld := t.corrOld.filterMap (fun e =>
      let l := e.2.filter (fun c => ageOf now c.1 < 2 ^ 62)
      if l = [] then none else some (e.1, l)) }

/-! ### The wall-time mapping (R73) -/

/-- The span from `a` to a later DT `b`. -/
def span (a b : DT) : Int := ((b - a).toNat : Int)

/-- A span at a rate in 2^-48. -/
def atRate (d rate : Int) : Int := d + shr (d * rate) 48

/-- Wall time at DT `t`, not before the anchor (R73): a slew ends within the span when its end has passed. -/
def wallAt (s : State) (t : DT) : Int :=
  let m := s.tu
  match m.slewEnd with
  | some e =>
    if dtDiff t e ≥ 0 then m.mapW + atRate (span m.mapD e) m.rate + atRate (span e t) m.baseRate
    else m.mapW + atRate (span m.mapD t) m.rate
  | none => m.mapW + atRate (span m.mapD t) m.rate

/-- The mapping is anchored at the present DT, as it is captured; a slew whose end has come is over (R73, R75). -/
def anchor (s : State) : State :=
  if s.tu.tstate = 0 then s
  else
    let w := wallAt s s.stamp
    let ovr := match s.tu.slewEnd with | some e => decide (dtDiff s.stamp e ≥ 0) | none => false
    s.onTu (fun t => { t with
      mapW := w, mapD := s.stamp, mapCycle := s.time.cycle
      rate := if ovr then t.baseRate else t.rate
      slewEnd := if ovr then none else t.slewEnd
      tstate := if ovr && t.tstate = 2 then 1 else t.tstate })

/-- A slew whose end has passed is over: carried out before every command. -/
def tuSettle (s : State) : State :=
  match s.tu.slewEnd with
  | some e => if dtDiff s.stamp e ≥ 0 then anchor s else s
  -- a mapping of long ago is anchored again, so that its span stays within the range of DT
  | none => if ageOf s.stamp s.tu.mapD < 2 ^ 62 then s else anchor s

/-- A rate in 1/256 ppb as one in 2^-48. -/
def rate48 (r : Int) : Int := fdiv (shl r 40) 1000000000

/-- The mapping steps to wall time `w` at the present DT (R75, R76). The size of the first step from FREE, before which
no mapping exists, is a free value. REF10_OUT keeps its phase until the next rising edge of PPS_OUT (R84). -/
def timeStep (s : State) (w rate : Int) : State :=
  let jump := if s.tu.tstate = 0 then 0 else w - wallAt s s.stamp
  let (f, s) := if s.tu.tstate = 0 then s.freeWord else (ofS 64 jump, s)
  let s := s.onTu (fun t => { t with
    ref10Off := t.ref10Off - jump, mapW := w, mapD := s.stamp, mapCycle := s.time.cycle, rate := rate, baseRate := rate, slewEnd := none, tstate := 1
    gen := t.gen + 1, stepDue := false, stepAt := some s.stamp })
  discontinuity (raisePage2 s pPTP 6 s.tu.gen.toNat f 0) s.stamp

/-- The mapping slews to wall time `w` at the target's `rate` (R75). `st` is the time state while it does. -/
def slewTo (s : State) (w rate : Int) (st : Nat) : State :=
  let s := anchor s
  let off := w - s.tu.mapW
  let ppm : Int := s.g F.PTP_LIMITS_SLEW_PPM
  let k := fdiv (ppm * 2 ^ 48) 1000000
  if off = 0 || ppm = 0 then
    s.onTu (fun t => { t with rate := rate, baseRate := rate, slewEnd := none, tstate := 1 })
  else
    let len := -(fdiv (-(mag off * 1000000)) ppm)
    s.onTu (fun t => { t with
      rate := if off > 0 then rate + k else rate - k, baseRate := rate, slewEnd := some (dtAdd s.stamp len), tstate := st })

/-- STEP_LIMIT in 2^-16 ns. -/
def stepLimit (s : State) : Int := (s.g F.PTP_LIMITS_STEP_LIMIT : Int) * 65536000

/-- Wall time at the present DT by the servo of slot `n`, and its rate in 2^-48. -/
def servoNow (s : State) (n : Nat) : Int × Int :=
  let d := s.dom n
  let h := d.hist.map (fun e => (e.1.toNat, e.2))
  let f := s.g (F.PTP_DOM_CFG_FILTER n)
  (Config.servoOffset f h + (s.dtN : Int) + (s.time.era.toNat : Int) * 2 ^ 64, rate48 (Config.servoRate f h))

/-- The mapping has a new target, slot `n` (R75): it slews now, or steps at the slot's next servo update. While a step is
awaited the mapping goes on as it is and is SLEWING, or FREE where none has existed (notes/assumptions/37). -/
def newTarget (s : State) (n : Nat) : State :=
  let (w, r) := servoNow s n
  if s.tu.tstate = 0 then s.onTu (fun t => { t with stepDue := true })
  else if mag (w - wallAt s s.stamp) > stepLimit s then
    (anchor s).onTu (fun t => { t with stepDue := true, slewEnd := none, tstate := 2 })
  else (slewTo s w r 2).onTu (fun t => { t with stepDue := false })

/-- The rate of the local reference (R78, R80): of REF10_IN, while its gates find it, or ρh. -/
def localRate (s : State) : Option Int :=
  if s.gb F.PTP_SEL_HOLD_REF then
    (if s.tu.ref10Present then some (toS 32 (s.g F.TU_REFIN_MEAS_REF10_RATE)) else none)
  else if s.tu.rhoLearned then some s.tu.rhoH else none

/-- In HOLDOVER the mapping runs at the local reference's rate, also one that comes to be found or learned there (R80). -/
def holdRate (s : State) : State :=
  match localRate s with
  | some r =>
    if s.tu.tstate = 3 then (anchor s).onTu (fun t => { t with rate := rate48 r, baseRate := rate48 r }) else s
  | none => s

/-- No domain can be selected: HOLDOVER from the present value (R74, R77, R80). -/
def enterHoldover (s : State) : State :=
  if s.tu.tstate = 0 || s.tu.tstate = 3 then s.onTu (fun t => { t with stepDue := false })
  else
    let s := anchor s
    raisePage (holdRate (s.onTu (fun t => { t with
      tstate := 3, baseRate := t.rate, slewEnd := none, stepDue := false }))) pPTP 7 0

/-! ### Selection (R74) -/

/-- PRIMARY. -/
def primary (s : State) : Nat := s.g F.PTP_SEL_PRIMARY

/-- Slot `n` becomes selected (R74, R75, R80). -/
def selectDom (s : State) (n : Nat) : State :=
  let held := s.tu.tstate = 3
  let s := raisePage (s.onTu (fun t => { t with selected := some n })) pPTP 5 n
  let s := newTarget s n
  if held then raisePage s pPTP 8 0 else s

/-- A slot that is QUALIFIED, the primary first. -/
def candidate (s : State) : Option Nat :=
  let p := primary s
  if (s.dom p).state = 3 then some p else if (s.dom (1 - p)).state = 3 then some (1 - p) else none

/-- The selection after a slot's state has changed (R74, R77). -/
def reselect (s : State) : State :=
  let lost := match s.tu.selected with | some n => (s.dom n).state ≠ 3 | none => true
  if !lost then s
  else
    match candidate s with
    | some n => selectDom s n
    | none => enterHoldover (s.onTu (fun t => { t with selected := none }))

/-- With REVERT the selection returns to the primary after one full window without an outlier (R74): of 65 evaluations in a
row the first and the last lie 64 s apart. -/
def revert (s : State) : State :=
  let p := primary s
  if s.gb F.PTP_SEL_REVERT && s.tu.selected = some (1 - p) && (s.dom p).state = 3 && (s.dom p).clean ≥ 65 then
    selectDom s p
  else s

/-! ### Announce and the best master (R70 to R72) -/

/-- Slot `n` takes messages of HE port `he`, `domain`, `profile` and `transport`. -/
def slotTakes (s : State) (n he domain profile transport : Nat) : Bool :=
  s.enabled pPTP && (s.dom n).state ≠ 0 && s.g (F.PTP_DOM_CFG_PORT n) = he && s.g (F.PTP_DOM_CFG_DOMAIN n) = domain &&
  s.g (F.PTP_DOM_CFG_PROFILE n) = profile && s.g (F.PTP_DOM_CFG_TRANSPORT n) = transport

/-- The slots that a message reaches. -/
def takers (s : State) (he domain profile transport : Nat) : List Nat :=
  (List.range 2).filter (fun n => slotTakes s n he domain profile transport)

/-- 2^`log` seconds as a span of DT. -/
def logSpan (log : Int) : Int := if log ≥ 0 then secUnits * 2 ^ log.toNat else fdiv secUnits (2 ^ (-log).toNat)

/-- Dataset `a` is better than `b`: the first difference decides, the lower value wins. -/
def rankLess : List Nat → List Nat → Bool
  | [], _ => false
  | _, [] => false
  | a :: r, b :: q => if a < b then true else if b < a then false else rankLess r q

/-- A foreign master is qualified by two Announces within four of its intervals (PRESUMED IEEE 1588,
notes/assumptions/12). -/
def fmQualified (s : State) (m : ForeignMaster) : Bool := m.seen ≥ 2 && dtDiff s.dt m.last ≤ 4 * logSpan m.log

/-- The best qualified foreign master. -/
def bestMaster (s : State) : List ForeignMaster → Option ForeignMaster
  | [] => none
  | m :: r =>
    let b := bestMaster s r
    if !fmQualified s m then b
    else match b with
      | some c => if rankLess c.rank m.rank then b else some m
      | none => some m

/-- The slot's master becomes `m` (R71, R72). -/
def takeMaster (s : State) (n : Nat) (m : ForeignMaster) : State :=
  let d := s.dom n
  let changed := d.gm ≠ m.gm
  let same := d.src = m.src
  let s := s.onDom n (fun d => { d with
    gm := m.gm, utc := m.utc, annLog := m.log
    src := m.src, delayOk := d.delayOk && same, syncSeen := d.syncSeen && same
    hist := if same then d.hist else [], stepRun := if same then d.stepRun else []
    syncAt := if same then d.syncAt else s.dt })
  if d.state = 1 then s.onDom n (fun d => { d with state := 2, valid := 0, syncAt := s.dt })
  else if changed && d.state = 3 then
    reselect (raisePage (s.onDom n (fun d => { d with state := 2, valid := 0 })) pPTP 3 n)
  else if changed then s.onDom n (fun d => { d with valid := 0 })
  else s

/-- An Announce reaches a slot. -/
def announceSlot (s : State) (n src gm : Nat) (rank : List Nat) (utc log : Int) : State :=
  let keep (d : PtpDom) : PtpDom :=
    let old := d.masters.find? (fun m => m.src = src)
    let seen := match old with
      | some m => if dtDiff s.dt m.last ≤ 4 * logSpan log then min 2 (m.seen + 1) else 1
      | none => 1
    let m : ForeignMaster := { src, rank, gm, utc, log, seen, last := s.dt }
    { d with masters := (d.masters.filter (fun m => m.src ≠ src)) ++ [m] }
  let s := s.onDom n keep
  match bestMaster s (s.dom n).masters with
  | some m => takeMaster s n m
  | none => s

/-- A PTP Announce (R70). -/
def ptpAnnounce (s : State) (he domain profile transport src gm : Nat) (rank : List Nat) (utc log : Int) : State :=
  if log < -3 || log > 3 then s
  else forEach (fun n s => announceSlot s n src gm rank utc log) (takers s he domain profile transport) s

/-! ### Sync and the servo (R71, R75, R76) -/

/-- phy_ingress and phy_egress of HE port `he` (Table 3.2). -/
def hePhy (s : State) (he : Nat) : Int × Int :=
  if s.gb (F.HE_LINKCFG_MODE he) then (2044723, 1572864) else (3460300, 2726297)

/-- The ingress stamp of a frame whose delimiter crosses at `d` on HE port `he` (R60, R67). -/
def heIngress (s : State) (he : Nat) (d : DT) : DT := dtAdd (dtCount d) (-((hePhy s he).1 + ingressCorr s (8 + he) d))

/-- The egress stamp of a frame whose delimiter leaves at `d` (R67). -/
def heEgress (s : State) (he : Nat) (d : DT) : DT :=
  dtAdd (dtCount d) ((hePhy s he).2 + toS 32 (s.g (F.TU_TSCORR_EGRESS (8 + he))))

/-- A DT at or before the present as a number that does not wrap with DT. -/
def extDt (s : State) (d : DT) : Int := (s.time.era.toNat : Int) * 2 ^ 64 + (s.dt.toNat : Int) - dtDiff s.dt d

/-- The largest less the least of a list. -/
def spread : List Int → Int
  | [] => 0
  | x :: r => r.foldl max x - r.foldl min x

/-- The published mapping follows the servo of the selected slot `n` at a servo update (R75, R76): it steps where a step is
due or confirmed, slews toward a target within STEP_LIMIT, and goes on as it is where the target lies further off. While it slews
off an offset of ordinary tracking the time state stays LOCKED (DESIGN CHOICE, notes/assumptions/43). -/
def follow (s : State) (n : Nat) : State :=
  let k := s.g F.PTP_LIMITS_STEP_CONFIRM
  let d := s.dom n
  let run := d.stepRun.take k
  if s.tu.stepDue then
    let (w, r) := servoNow s n
    timeStep s w r
  else if run.length ≥ k && k ≠ 0 && spread run ≤ 65536000 then
    let s := s.onDom n (fun d => { d with stepRun := [], hist := d.hist.take k })
    let (w, r) := servoNow s n
    timeStep s w r
  else
    let (w, r) := servoNow s n
    if mag (w - wallAt s s.stamp) > stepLimit s then anchor s else slewTo s w r (if s.tu.tstate = 2 then 2 else 1)

/-- A valid offset measurement: the master's time at the ingress stamp `t` less DT is `theta`. -/
def offsetMeasured (s : State) (n : Nat) (t : DT) (theta : Int) : State :=
  let d := s.dom n
  let off := if s.tu.tstate = 0 then 0 else theta + extDt s t - (wallAt s s.stamp - atRate (dtDiff s.stamp t) s.tu.rate)
  let beyond := s.tu.tstate ≠ 0 && mag off > stepLimit s
  let qual := s.g (F.PTP_DOM_CFG_QUAL n)
  let hist := ((t, theta) :: d.hist).take 128
  let rises := d.state = 2 && d.valid + 1 ≥ qual
  let s := s.onDom n (fun d => { d with
    valid := min 15 (d.valid + 1), hist := hist, offset := satS 32 (toNs off)
    servo := Config.servoRate (s.g (F.PTP_DOM_CFG_FILTER n)) (hist.map (fun e => (e.1.toNat, e.2)))
    stepRun := if beyond then (off :: d.stepRun).take 15 else []
    secSum := d.secSum + theta, secCount := d.secCount + 1
    state := if rises then 3 else d.state, clean := if rises then 0 else d.clean })
  let s := if rises then raisePage s pPTP 1 n else s
  if s.tu.selected = some n then follow s n else reselect s

/-- A Sync, with its Follow_Up where it has one, reaches slot `n` from `src`: origin time and correction, capture. -/
def syncSlot (s : State) (n src : Nat) (origin corr : Int) (capture : DT) (log : Int) : State :=
  let d := s.dom n
  if d.state < 2 || d.src ≠ src then s
  else
    let t := heIngress s (s.g (F.PTP_DOM_CFG_PORT n)) capture
    let s := s.onDom n (fun d => { d with syncOrigin := origin + corr, syncIn := t, syncSeen := true, syncAt := s.dt, syncLog := log })
    if d.delayOk then offsetMeasured s n t (origin + corr + d.delay - extDt s t) else s

/-- A Sync message (R70, R76). -/
def syncReceived (s : State) (he domain profile transport src : Nat) (origin corr : Int) (capture : DT) (log : Int) :
    State :=
  if log < -7 || log > 1 then s
  else forEach (fun n s => syncSlot s n src origin corr capture log) (takers s he domain profile transport) s

/-! ### Delay measurement (R70) -/

/-- The TU sends a Delay_Req or a Pdelay_Req for slot `n`. -/
def delayReqSend (s : State) (n : Nat) : State :=
  let d := s.dom n
  if n ≥ 2 || !s.enabled pPTP || d.state = 0 || (d.state = 1 && !s.gb (F.PTP_DOM_CFG_PROFILE n)) then s
  else
    let he := s.g (F.PTP_DOM_CFG_PORT n)
    let s := s.onDom n (fun d => { d with reqOut := some (heEgress s he s.dt) })
    { s with out := s.out ++ [.ptp he n (b2n (s.gb (F.PTP_DOM_CFG_PROFILE n))) 0] }

/-- A Delay_Resp with the receive time `rx`, its correction taken off (R70). The delay follows from it and a Sync of the
same master. -/
def delayResp (s : State) (n src : Nat) (rx : Int) : State :=
  let d := s.dom n
  match d.reqOut with
  | some t3 =>
    if d.state < 2 || d.src ≠ src || !d.syncSeen || s.gb (F.PTP_DOM_CFG_PROFILE n) then s
    else
      let v := fdiv ((extDt s d.syncIn - d.syncOrigin) + (rx - extDt s t3)) 2
      s.onDom n (fun d => { d with delay := v, delayOk := true, reqOut := none })
  | none => s

/-- A Delay_Resp (R70). -/
def delayRespReceived (s : State) (he domain profile transport src : Nat) (rx : Int) : State :=
  forEach (fun n s => delayResp s n src rx) (takers s he domain profile transport) s

/-- The slot of HE port `he` that runs 802.1AS in `domain`: DOMAIN_CLASH leaves one at most (R71). -/
def asSlot (s : State) (n he domain : Nat) : Bool :=
  s.enabled pPTP && (s.dom n).state ≠ 0 && s.g (F.PTP_DOM_CFG_PORT n) = he && s.g (F.PTP_DOM_CFG_DOMAIN n) = domain &&
  s.gb (F.PTP_DOM_CFG_PROFILE n)

/-- A Pdelay_Req is answered, always two-step, where a slot of the port runs 802.1AS in its domain (R70): the response
carries the ingress stamp of the request, the follow-up the egress stamp of the response. -/
def pdelayReq (s : State) (he domain : Nat) (capture : DT) : State :=
  match (List.range 2).find? (fun n => asSlot s n he domain) with
  | some n => { s with out := s.out ++ [.ptp he n 2 (heIngress s he capture), .ptp he n 3 (heEgress s he s.dt)] }
  | none => s

/-- A Pdelay_Resp and its follow-up answer the request of the slot of their domain (R71): the neighbour's receive and
transmit times, and the capture (R70). -/
def pdelayResp (s : State) (he domain : Nat) (t2 t3 : Int) (capture : DT) : State :=
  let one (n : Nat) (s : State) : State :=
    match (s.dom n).reqOut with
    | some t1 =>
      if asSlot s n he domain then
        let t4 := heIngress s he capture
        let v := fdiv ((extDt s t4 - extDt s t1) - (t3 - t2)) 2
        s.onDom n (fun d => { d with delay := v, delayOk := true, reqOut := none })
      else s
    | none => s
  forEach one (List.range 2) s

/-! ### Loss (R72) -/

/-- The domain falls back to LISTENING; a DEMOTED one stays DEMOTED (R72). -/
def domainLost (s : State) (n : Nat) : State :=
  let d := s.dom n
  if d.state = 2 || d.state = 3 then
    let s := s.onDom n (fun d => { d with state := 1, gm := 0, src := 0, masters := [], valid := 0, delayOk := false, syncSeen := false, clean := 0 })
    reselect (raisePage s pPTP 2 n)
  else s

/-- Four Sync intervals have passed without a valid Sync (R72). -/
def syncTimeout (s : State) (n : Nat) : State :=
  let d := s.dom n
  if n < 2 && s.enabled pPTP && dtDiff s.dt d.syncAt ≥ 4 * logSpan d.syncLog then domainLost s n else s

/-- Three Announce intervals have passed without an Announce of the master (R70, R72). -/
def announceTimeout (s : State) (n : Nat) : State :=
  let d := s.dom n
  let last := (d.masters.find? (fun m => m.src = d.src)).map (fun m => m.last)
  match last with
  | some l => if n < 2 && s.enabled pPTP && dtDiff s.dt l ≥ 3 * logSpan d.annLog then domainLost s n else s
  | none => if n < 2 && s.enabled pPTP then domainLost s n else s

/-- REARM of a DEMOTED slot (Table 3.4). -/
def rearm (s : State) (n : Nat) : State :=
  if (s.dom n).state = 4 then s.onDom n (fun d => { d with state := 2, valid := 0, clean := 0 }) else s

/-! ### The page (R77, R85) -/

/-- The checks of the TU time page's ENABLE (Table 3.7). -/
def timeCheck (s : State) : Nat :=
  let w := s.g F.TU_REF_CFG_PPS_WIDTH
  test (w = 0 || w > 500) 0x0610

/-- The checks of the PTP page's ENABLE (Table 3.7). -/
def ptpCheck (s : State) : Nat :=
  let en (n : Nat) : Bool := s.gb (F.PTP_DOM_CFG_EN n)
  let ons := (List.range 2).filter en
  let lim := s.g F.PTP_LIMITS_LIMIT_PPB
  let step := s.g F.PTP_LIMITS_STEP_LIMIT
  let ppm := s.g F.PTP_LIMITS_SLEW_PPM
  firstReason
    [test (ons = []) 0x0620, test (ons.any (fun n => !s.enabled (pHE (s.g (F.PTP_DOM_CFG_PORT n))))) 0x0621,
     test (s.g (F.PTP_DOM_CFG_PORT 0) = s.g (F.PTP_DOM_CFG_PORT 1) &&
       s.g (F.PTP_DOM_CFG_DOMAIN 0) = s.g (F.PTP_DOM_CFG_DOMAIN 1) &&
       s.g (F.PTP_DOM_CFG_PROFILE 0) = s.g (F.PTP_DOM_CFG_PROFILE 1)) 0x0622,
     test ((List.range 2).any (fun n => s.gb (F.PTP_DOM_CFG_TRANSPORT n) && s.gb (F.PTP_DOM_CFG_PROFILE n))) 0x0623,
     test (s.gb F.PTP_SEL_HOLD_REF && !s.tu.ref10Present) 0x0624,
     test (lim = 0 || lim > 10000 || step = 0 || step > 10000 || ppm = 0 || ppm > 1000 ||
       s.g F.PTP_LIMITS_STEP_CONFIRM = 0) 0x0625]

/-- The time page's ENABLE has passed its check: pulses begin after it (R83). -/
def timeEnable (s : State) : State := s.onTu (fun t => { t with onAt := s.dt })

/-- The time page's ENABLE is cleared: no gate and no edge finds the inputs from here on (R81, R82). -/
def timeDisable (s : State) : State := s.onTu (fun t => { t with ref10Present := false, ppsPresent := false, ppsInSeen := false })

/-- The PTP page's ENABLE has passed its checks: the slots with EN = 1 listen. -/
def ptpEnable (s : State) : State :=
  forEach (fun n s => s.onDom n (fun _ =>
    { (default : PtpDom) with state := b2n (s.gb (F.PTP_DOM_CFG_EN n)) })) (List.range 2) s

/-- The PTP page's ENABLE is cleared (R77). No evaluation follows, and ρh keeps its value: no window that ended before counts
for it any more (R78). -/
def ptpDisable (s : State) : State :=
  let s := forEach (fun n s => s.onDom n (fun _ => default)) (List.range 2) s
  timeFollowed (fun s => enterHoldover (s.onTu (fun t => { t with selected := none, rhoWait := [] }))) s

/-! ### The three-way comparison (R78, R79) -/

/-- Seconds in a row in which a slot at its announced Sync interval may bring no measurement. -/
def gapOk (log : Int) : Nat := if log ≥ 1 then 1 else 0

/-- No more than `g` of the seconds in a row lack a measurement; `run` of them have lacked one so far. -/
def noGap (g : Nat) : List (Option Int) → Nat → Bool
  | [], _ => true
  | some _ :: r, _ => noGap g r 0
  | none :: r, run => run < g && noGap g r (run + 1)

/-- The average of the second that ends joins the slot's seconds, and the rate over 64 s is formed where the measurements
have been valid throughout and both ends of the window hold one (R78). -/
def secondEnds (s : State) (n : Nat) : State :=
  s.onDom n (fun d =>
    let secs := ((if d.secCount = 0 then none else some (fdiv d.secSum d.secCount)) :: d.secs).take 65
    let full := secs.length = 65 && noGap (gapOk d.syncLog) secs 0
    let now := match secs.head?, secs[64]? with
      | some (some a), some (some b) => if full then some (satS 32 (fdiv (a - b) 16384)) else none
      | _, _ => none
    { d with secs := secs, secSum := 0, secCount := 0, winNow := now.isSome
             window := if now.isSome then now else if full then d.window else none })

/-- A slot's rate, where the slot takes part (R78). -/
def partRate (s : State) (n : Nat) : Option Int :=
  if ((s.dom n).state = 3 || (s.dom n).state = 4) && (s.dom n).winNow then (s.dom n).window else none

/-- Two participants disagree (R79). -/
def apart (s : State) (a b : Int) : Bool := mag (a - b) > 256 * (s.g F.PTP_LIMITS_LIMIT_PPB : Int)

/-- A domain is DEMOTED (R79, R77). -/
def demote (s : State) (n : Nat) : State :=
  if (s.dom n).state = 4 then s
  else
    let s := s.onDom n (fun d => { d with state := 4, stepRun := [], clean := 0 })
    reselect (raisePage s pPTP 4 n)

/-- The outcome of an evaluation: 0 nothing, 1 RATE_DISAGREE, 2 RATE_AMBIGUOUS, 3 the local reference stands out,
4 + n domain n stands out (Table 3.5). -/
def outcome (s : State) : Nat :=
  match partRate s 0, partRate s 1, localRate s with
  | some a, some b, some l =>
    let ab := apart s a b
    let al := apart s a l
    let bl := apart s b l
    if ab && al && bl then 2 else if ab && al then 4 else if ab && bl then 5 else if al && bl then 3 else 0
  | some a, some b, none => b2n (apart s a b)
  | some a, none, some l => b2n (apart s a l)
  | none, some b, some l => b2n (apart s b l)
  | _, _, _ => 0

/-- An evaluation at `d` lies 64 s before the present one: between 64 and 65 s. -/
def secsBefore64 (s : State) (d : DT) : Bool :=
  decide (64 * secUnits ≤ dtDiff s.dt d) && decide (dtDiff s.dt d < 65 * secUnits)

/-- ρh of the evaluation: the selected domain's rate over the window that ended 64 s before, where that window's own
evaluation was clean (R78). -/
def learnRho (s : State) : State :=
  match s.tu.rhoWait.find? (fun e => secsBefore64 s e.1) with
  | some (_, r, true) => s.onTu (fun t => { t with rhoH := r, rhoLearned := true })
  | _ => s

/-- The rate of the selected domain joins those that wait 64 s, with whether the evaluation found no outlier and no
ambiguity. -/
def queueRho (s : State) (clean : Bool) : State :=
  let now := match s.tu.selected with
    | some n => (match partRate s n with | some r => (s.dt, r, clean) | none => (s.dt, 0, false))
    | none => (s.dt, 0, false)
  s.onTu (fun t => { t with rhoWait := (now :: t.rhoWait).take 65 })

/-- An evaluation is due: a second of DT has passed since the last (R78). -/
def evalDue (s : State) : Bool := s.enabled pPTP && decide (dtDiff s.dt s.tu.evalAt ≥ secUnits)

/-- Once a second of DT (R78, R79). Where the local reference stands out, ρh is not updated. RATE_DISAGREE and RATE_AMBIGUOUS alone
set STATE.DISAGREE, an evaluation that finds an outlier does not (DESIGN CHOICE, notes/assumptions/43). -/
def rateEvaluation (s : State) : State :=
  let s := anchor s
  if !evalDue s then s
  else
    let s := (secondEnds (secondEnds s 0) 1).onTu (fun t => { t with evalAt := s.dt })
    let learned := learnRho s
    let o := outcome learned
    let s := queueRho (if o = 3 then s else learned) (o ≠ 2 && o < 3)
    let s := s.onTu (fun t => { t with disagree := o = 1 || o = 2 })
    let s := forEach (fun n s => s.onDom n (fun d => { d with
      clean := if d.state = 3 && o ≠ 4 + n then min 65 (d.clean + 1) else 0 })) (List.range 2) s
    let s := if o = 1 then raisePage s pPTP 9 0
      else if o = 2 then raisePage s pPTP 10 0
      else if o = 3 then raisePage s pPTP 11 0
      else if o ≥ 4 then demote s (o - 4)
      else s
    let s := if s.gb F.PTP_SEL_HOLD_REF then s else holdRate s
    revert s

/-! ### Inputs and outputs (R81 to R84) -/

/-- Wall time less the nearest whole second, in whole ns. Wall time reads 0 while FREE. -/
def wallError (s : State) : Int :=
  if s.tu.tstate = 0 then 0
  else
    let w := wallAt s s.stamp
    toNs (w - fdiv (w + secUnits / 2) secUnits * secUnits)

/-- A rising edge on PPS_IN (R81). -/
def ppsIn (s : State) : State :=
  if !(s.enabled pTU && s.gb F.TU_REF_CFG_PPS_IN_EN) then s
  else
    let gap := dtDiff (dtCount s.dt) (BitVec.ofNat 64 (s.reg F.TU_PPS_IN_DT.adr))
    let good := s.tu.ppsInSeen && mag (gap - secUnits) ≤ (nsUnits 1000000 : Int)
    let e := wallError s
    let far := mag e > (s.g F.TU_REF_CFG_PPS_ERR_LIMIT : Int)
    let s := s.setReg F.TU_PPS_IN_DT.adr (dtCount s.dt).toNat
    let s := s.puti F.TU_REFIN_MEAS_PPS_ERR (satS 32 e)
    let s := s.onTu (fun t => { t with ppsInSeen := true, ppsPresent := good, ppsInError := far })
    if far then raisePage s pTU 3 0 else s

/-- 1 s and 1 ms pass after an edge without another (R81). -/
def ppsTimeout (s : State) : State :=
  let gap := dtDiff s.dt (BitVec.ofNat 64 (s.reg F.TU_PPS_IN_DT.adr))
  if s.tu.ppsInSeen && gap > secUnits + (nsUnits 1000000 : Int) then s.onTu (fun t => { t with ppsPresent := false })
  else s

/-- A gate of 1 s ends with the measured rate of REF10_IN (R82). -/
def ref10Gate (s : State) (rate : Int) : State :=
  if !(s.enabled pTU && s.gb F.TU_REF_CFG_REF10_IN_EN) then s
  else
    let s := s.puti F.TU_REFIN_MEAS_REF10_RATE (satS 32 rate)
    let s := s.onTu (fun t => { t with ref10Present := mag rate ≤ 51200000 })
    if s.gb F.PTP_SEL_HOLD_REF then holdRate s else s

/-- The DT of the last whole second: of wall time, or of DT (R83). -/
def lastSecond (s : State) : DT :=
  if s.gb F.TU_REF_CFG_PPS_OUT_SRC then dtAdd s.dt (-((s.dt.toNat : Int) % secUnits))
  else
    let w := wallAt s s.dt
    let ovr := w - fdiv w secUnits * secUnits
    dtAdd s.dt (-(fdiv (ovr * 2 ^ 48) (2 ^ 48 + s.tu.rate)))

/-- A second at `d` gives a pulse (R83): it lies after the page's ENABLE and has given none; in wall mode it lies after the last
step, and no less than 0.5 s after the previous pulse of wall mode, or the previous pulse at all where the step came after. -/
def ppsFits (s : State) (d : DT) : Bool :=
  let wall := !s.gb F.TU_REF_CFG_PPS_OUT_SRC
  let stepAfter (l : DT) : Bool := match s.tu.stepAt with | some t => decide (dtDiff t l ≥ 0) | none => false
  let soon := match s.tu.ppsLast with
    | some l => decide (dtDiff d l ≤ 0) ||
      (wall && (s.tu.ppsWall || stepAfter l) && decide (dtDiff d l < fdiv secUnits 2))
    | none => false
  let stepped := match s.tu.stepAt with | some t => wall && decide (dtDiff d t < 0) | none => false
  decide (dtDiff d s.tu.onAt ≥ 0) && !stepped && !soon

/-- PPS_OUT rises at the whole second just passed; REF10_OUT re-phases with it (R83, R84). -/
def ppsOut (s : State) : State :=
  let wall := !s.gb F.TU_REF_CFG_PPS_OUT_SRC
  if !(s.enabled pTU && s.gb F.TU_REF_CFG_PPS_OUT_EN) || (wall && s.tu.tstate = 0) then s
  else
    let d := lastSecond s
    if !ppsFits s d then s
    else
      let s := s.onTu (fun t => { t with ppsLast := some d, ppsWall := wall, ref10Off := if wall then 0 else t.ref10Off })
      let ref := s.gb F.TU_REF_CFG_REF10_OUT_EN && !s.gb F.TU_REF_CFG_REF10_OUT_SRC && wall
      { s with out := s.out ++ [.pulse 8 d (s.g F.TU_REF_CFG_PPS_WIDTH * 1000000)] ++
          (if ref then [.ref10 d s.tu.rate] else []) }

/-- The level of REF10_OUT at DT `t` (R84): in wall mode 10 MHz × (1 + RATE × 2^-48), which is a phase that runs with wall time,
a rising edge with that of PPS_OUT and low while FREE; in DT mode the time clock divided by 125, without interruption where DT
wraps. -/
def ref10Level (s : State) (t : DT) : Bool :=
  let half (d : Int) : Bool := fdiv d 3276800 % 2 = 0
  if !(s.enabled pTU && s.gb F.TU_REF_CFG_REF10_OUT_EN) then false
  else if s.gb F.TU_REF_CFG_REF10_OUT_SRC then half (extDt s t)
  else if s.tu.tstate = 0 then false
  else half (wallAt s t + s.tu.ref10Off)

/-! ### Views -/

/-- STATE of the TU time page. -/
def tuState (s : State) : Nat :=
  (b2n s.tu.ppsInError <<< 3) + (b2n s.tu.ppsPresent <<< 2) + (b2n s.tu.ref10Present <<< 1) + b2n s.tu.refLost

/-- STATE of the PTP page. -/
def ptpState (s : State) : Nat :=
  (b2n s.tu.disagree <<< 7) + (b2n (s.tu.dom0.state = 4 || s.tu.dom1.state = 4) <<< 6) +
  ((s.tu.selected.getD 3) <<< 4) + s.tu.tstate

/-- The words of TU_SNAP (R66). -/
def tuSnapWords (s : State) : List (Nat × Nat) :=
  let free := s.tu.tstate = 0
  let w : Int := if free then 0 else wallAt s s.stamp
  let sec := fdiv w secUnits
  let rest := (w - sec * secUnits).toNat
  let utc := match s.tu.selected with | some n => (s.dom n).utc | none => 0
  [(F.TU_SNAP_DT.adr, s.dtN),
   (F.TU_SNAP_INFO.adr, (s.tu.gen.toNat <<< 48) + (s.time.era.toNat <<< 32) + s.cycN),
   (F.TU_SNAP_WS.adr, (b2n (!free) <<< 63) + (s.tu.tstate <<< 60) + ofS 48 sec),
   (F.TU_SNAP_WNS.adr, (ofS 16 utc <<< 48) + ((rest / 65536) <<< 16) + rest % 65536),
   (F.TU_SNAP_RATE.adr, ofS 64 (if free then 0 else s.tu.rate))]

/-- PTP_DOMn_STATE, _GM and _RATE as they read. -/
def domWords (s : State) (n : Nat) : Nat × Nat × Nat :=
  let d := s.dom n
  (((ofS 32 d.offset) <<< 32) + d.state, d.gm % 2 ^ 64,
   ((ofS 32 (d.window.getD 0)) <<< 32) + ofS 32 (satS 32 d.servo))

end Sys2Proof.Machine
end

