-- ==== Sys2Proof/Machine/Actions.lean ====
section
/-! DEFINITION. The actions of the pages: their checks in table order, what an action that passed does, and the end of a
check with the held actions that follow it (R413 to R415, R418). -/

namespace Sys2Proof.Machine

/-! ### Checks that join several chapters -/

/-- Whether LAW_CFG of axis `a` names a bound node of a committed schedule and one of its set-point records (0x0215). -/
def dlBound (s : State) (c : LawCfg) : Bool :=
  scheduled s c.seg && s.gb (F.FP_GNODE_STATE_BOUND c.seg c.node) &&
  c.record < s.g (F.FP_NODE_CAP_SP_RECORDS c.seg c.node)

/-- The axes other than `a` that are enabled from the next T0 on. -/
def othersToBe (s : State) (a : Nat) : List Nat := (axesToBe s).filter (fun b => b != a)

/-- The reason of Table 6.3 for which the enable of axis `a` is refused; 0 for none. -/
def axisRepReason (s : State) (a : Nat) : Nat :=
  let c := lawRead s a
  if c.repEn then
    repCheck s a c.struct (((othersToBe s a).filter (fun b => (willCfg s b).repEn)).map (fun b => (willCfg s b).repCfg))
  else 0

/-- The checks of an axis enable (Table 5.7). Every axis is judged by the state it has from the next T0 on (R141). -/
def axisEnableCheck (s : State) (a : Nat) : Nat :=
  let c := lawRead s a
  let others := othersToBe s a
  let n := others.length + 1
  firstReason
    [test (!s.enabled pLE) 0x0210, test (willBeOn s a) 0x0211, test (!fbWill s a) 0x0212, test (c.struct ≥ 4) 0x0213,
     test (c.struct = 3 && (c.pvAxis = a || !fbWill s c.pvAxis)) 0x0214, test (!dlBound s c) 0x0215,
     test (others.any (fun b => recKey (willCfg s b) = recKey c)) 0x0216,
     test (axisRepReason s a ≠ 0) 0x0217,
     test (s.time.running && !windowOk n s.time.live) 0x0218, test (s.time.running && !rateOk n s.time.live) 0x0219,
     bankCheck s a (s.axb a F.AX_STATUS_BANK_LIVE) c.struct]

/-- The checks of an epoch-change request in the order of R241: the code, the segment and the axis concerned. -/
def epochRequestCheck (s : State) : Nat × Nat × Nat :=
  let c := nextWritten s
  let own := firstReason [epochOwnCheck s, schedCheck c (axesToBe s).length, test (!slotFit s c) 0x0609]
  if own ≠ 0 then (own, 0, 0)
  else match fbBwFail s c.period with
    | some a => (0x0314, 0, a)
    | none => match epochSlotCheck s c with
      | some (p, r) => (r, p, 0)
      | none => (0, 0, 0)

/-- The checks of EH_QqCFG.EN (Table 16.7); `v` is the value written. -/
def ehQueueCheck (s : State) (q v : Nat) : Nat :=
  let z := getBits v 32 4
  let w := getBits v 0 14
  firstReason
    [test (!s.enabled pEH) 0x0B01, test (s.reg (F.EH_QBASE q).adr % 64 ≠ 0 || (z ≠ 0 && z < 6)) 0x0B02,
     test (w = 0 || w > 10000) 0x0B03, test (bit v 62 && s.cx (getBits v 48 10) F.CX_CFG_FLOW ≠ 0) 0x0B04]

/-- The checks of an HEn page's ENABLE (Table 17.7). -/
def heCheck (s : State) (n : Nat) : Nat :=
  let ip := s.g (F.HE_IP_IP n)
  firstReason
    [test (s.he.look n).noClock 0x0C01,
     test (ip = 0 || getBits ip 28 4 = 14 || (s.gb (F.HE_RACFG_EN n) && s.g (F.HE_RACFG_PORT n) = 0)) 0x0C02]

/-- The check of the TRC page's ENABLE (Table 17.7). -/
def trcCheck (s : State) : Nat :=
  let z := s.g F.TRC_CFG_SIZE_LOG2
  test (s.reg F.TRC_BASE.adr % 64 ≠ 0 || z < 8 || z > 24) 0x0D01

/-! ### Pages -/

/-- Instance of the page at `p` in its group of 4 KiB pages. -/
def pageIx (p : Nat) : Nat := p / 0x1000 % 16

/-- Whether `p` is the page of a field port. -/
def isPort (p : Nat) : Bool := pFP 0 ≤ p && p < pEpoch
/-- Whether `p` is the page of a signal core. -/
def isCore (p : Nat) : Bool := pSC 0 ≤ p && p < pXU
/-- Whether `p` is the page of a host Ethernet port. -/
def isHe (p : Nat) : Bool := p = pHE 0 || p = pHE 1

/-- The checks of a page's ENABLE, written at `d` with value `v`: for the cycle page that is the CYC_START_DT held at the
write (R35). `pass` tells which parts pass a self-check: bit n for engine n of the LE
page and for core n (R149, R330). -/
def enableCheck (s : State) (p pass v : Nat) (d : DT) : Nat :=
  if p = pCyc then cycleCheck s (BitVec.ofNat 64 v) d
  else if p = pTU then timeCheck s
  else if p = pPTP then ptpCheck s
  else if p = pSG then sgCheck s
  else if p = pKS then ksCheck s
  else if p = pLE then test (pass % 65536 = 0) 0x0201
  else if p = pFBE then fbeCheck s
  else if p = pQE then qePageCheck s
  else if p = pPG then pgCheck s
  else if isPort p then fpCheck s (pageIx p)
  else if p = pAE then test s.fb.noSampling 0x0701
  else if p = pANG then test (!s.enabled pAE) 0x0740
  else if isCore p then scCheck s (pageIx p) (bit pass (pageIx p))
  else if p = pXU then xuCheck s
  else if p = pMEM then memCheck s
  else if p = pPW then pwCheck s
  else if isHe p then heCheck s (pageIx p - 1)
  else if p = pTRC then trcCheck s
  else 0

/-- What a page's ENABLE that passed its checks does. -/
def enableApply (s : State) (p pass v : Nat) : State :=
  let s := s.put (F.CTRL_ENABLE p) 1
  if p = pCyc then cycleStart s (BitVec.ofNat 64 v)
  else if p = pTU then timeEnable s
  else if p = pPTP then ptpEnable s
  else if p = pSG then sgEnable s
  else if p = pKS then ksEnable s
  else if p = pLE then leEnablePage s pass
  else if p = pFBE then fbeEnable s
  else if p = pPG then pgEnable s
  else if isPort p then fpEnable s (pageIx p)
  else if p = pAE then aeEnable s
  else if isCore p then scEnable s (pageIx p)
  else if p = pMEM then memEnable s
  else if p = pPW then pwEnable s
  else s

/-- Queue `q` of the event hub stops (R432): each open group discarded counts as one record lost. -/
def ehQueueOff (s : State) (q : Nat) : State :=
  let s := s.put (F.EH_QCFG_EN q) 0
  let l := (s.eh.look q).groups
  let s := { s with eh := s.eh.set q { s.eh.look q with groups := [] } }
  forEach (fun g s => loseRecord s q g.first) l s

/-- Clearing ENABLE of the EH page clears EN of every queue (R432). -/
def ehDisable (s : State) : State := forEach (fun q s => ehQueueOff s q) (List.range 16) (s.put (F.CTRL_ENABLE pEH) 0)

/-- What clearing a page's ENABLE does. The chip, HP and MP pages ignore it (R453), and Keystone while the cycle
runs (R355). On the LE page only the bit is cleared: its engines and axes go on (R413 leaves the effect to the chapter, which gives none:
DESIGN CHOICE, notes/assumptions/43). -/
def disableApply (s : State) (p : Nat) : State :=
  if p = pChip || p = pHP || p = pMP then s
  else if p = pKS then ksDisable s
  else if p = pEH then ehDisable s
  else
    let s := s.put (F.CTRL_ENABLE p) 0
    if p = pCyc then cycleStop s
    else if p = pTU then timeDisable s
    else if p = pPTP then ptpDisable s
    else if p = pFBE then fbeDisable s
    else if p = pPG then pgDisable s
    else if isPort p then fpDisable s (pageIx p)
    else if isCore p then scDisable s (pageIx p)
    else if p = pMEM then memDisable s
    else if p = pTRC then trcSweep s
    else s

/-! ### Restarts (R466) -/

/-- HK_RESTART: an ACTIVE unit first declares SILENCED, and the restart follows 10 ms later; any other unit restarts
now. RESTART_CLEAR sets COUNT to 0. The start in progress stops (R461). -/
def restartApply (s : State) (clear : Bool) : State :=
  let s := if clear then { s.put F.HK_FAILCNT_COUNT 0 with hk := { s.hk with log := (4, 0) :: s.hk.log } } else s
  let s := stopStart s
  let wait : Nat := if s.tw.role = 2 then 10000000 else 0
  let s := if s.tw.role = 2 then declare s 8 else s
  { s with hk := { s.hk with restartAt := some (dtAdd s.dt (nsUnits wait)) } }

/-! ### One action -/

/-- BAR0 offset of the register whose write asks for the action. -/
def actReg (a : Action) : Nat :=
  match a.kind with
  | .pageEnable | .pageDisable => a.page + 8
  | .feedbackStart | .feedbackStop => F.FBE_AXCTL_AXIS.adr
  | .qeChannelEnable => (F.QE_CFG_EN a.idx).adr
  | .axisEnable | .axisDisable => F.LE_AXEN_AXIS.adr
  | .restore | .withdraw => (F.LE_SVC_RESTORE a.idx).adr
  | .groupEnable | .groupDisable | .groupRestart => (F.PG_GRP_CFG_EN a.idx).adr
  | .discoveryStart => (F.FP_DISC_START a.idx).adr
  | .commit | .release => (F.FP_COMMIT_OP a.idx).adr
  | .epochRequest | .epochCancel => F.FP_EPOCH_CMD_OP.adr
  | .channelEnable | .channelDisable => F.AE_CH_CTL_OP.adr
  | .triggerEnable => (F.AE_TRG_CFG_EN a.idx).adr
  | .streamStart | .streamStop | .streamRestart => F.AE_ST_CTL_OP.adr
  | .angleEnable | .angleDisable => F.AE_ANG_CTL_OP.adr
  | .histEnable | .histDisable => F.AE_HIST_CTL_OP.adr
  | .copyHist | .copyMap => F.ANG_COPY_OP.adr
  | .cxStart | .cxResume | .cxReset | .cxNotify => F.KS_CXCTL_OP.adr
  | .flowEnable | .flowDisable => F.KS_FLOWCTL_OP.adr
  | .dmaEnable | .dmaDisable | .dmaResume | .dmaAbort | .dmaContinue => (F.DM_CTL_OP a.idx).adr
  | .queueEnable | .queueDisable => F.Q_CTL_OP.adr
  | .twSwitch | .twSilence => F.TW_ROLE_OP.adr
  | .disA | .disB => F.FS_FEED_DIS_DIS_A.adr
  | .ehQueueEnable | .ehQueueDisable => (F.EH_QCFG_EN a.idx).adr
  | .qeChannelDisable => (F.QE_CFG_EN a.idx).adr
  | .triggerDisable => (F.AE_TRG_CFG_EN a.idx).adr
  | .onA | .onB => F.FS_FEED_DIS_DIS_A.adr
  | .nothing => a.page + a.guarded.getD 0
  | .bootSel => F.BOOT_SEL_IMAGE.adr
  | .restartWarm | .restartClear => F.HK_RESTART_OP.adr

/-- The block's own checks of an action (R413). `pass` tells the outcome of a self-check, of the header CRC of a boot
image, where the action has one. -/
def ownCheck (s : State) (a : Action) (pass : Nat) : Nat :=
  let i := a.idx
  match a.kind with
  | .pageEnable => enableCheck s a.page pass a.val a.at_
  | .feedbackStart => fbStartCheck s i
  | .qeChannelEnable => qeChannelCheck s a.val
  | .axisEnable => axisEnableCheck s i
  | .restore => test (!bit pass i) 0x0202
  | .groupEnable => groupCheck s i a.val
  | .groupRestart => restartCheck s i
  | .discoveryStart => discCheck s i
  | .commit => commitCheck s i
  | .release => releaseCheck s i
  | .epochRequest => (epochRequestCheck s).1
  | .epochCancel => cancelCheck s
  | .channelEnable => chCheck s i
  | .triggerEnable => trgCheck s i a.val
  | .streamStart => strStartCheck s i (bit a.val 0)
  | .streamStop => test (strBusy s i (bit a.val 0)) 0x0721
  | .streamRestart => strRestartCheck s i (bit a.val 0)
  | .angleEnable => angCheck s i
  | .histEnable => histCheck s i
  | .copyHist => copyCheck s 1 i
  | .copyMap => copyCheck s 2 i
  | .cxStart => cxStartCheck s i
  | .cxResume => cxResumeCheck s i
  | .flowEnable => flowCheck s i
  | .dmaEnable => dmaCtlCheck s i a.val 1
  | .dmaDisable => dmaCtlCheck s i a.val 2
  | .dmaResume => dmaCtlCheck s i a.val 3
  | .dmaAbort => dmaCtlCheck s i a.val 4
  | .dmaContinue => dmaCtlCheck s i a.val 5
  | .queueEnable => qEnableCheck s i
  | .queueDisable => qDisableCheck s
  | .twSwitch => switchCheck s
  | .disA => disCheck s 0
  | .disB => disCheck s 1
  | .ehQueueEnable => ehQueueCheck s i (s.reg (F.EH_QCFG_EN i).adr)
  | .bootSel => test (!bit pass i) 0x1201
  | _ => 0

/-- The reason of an action's check: the common ones of Table 16.2 first, then the block's. -/
def actionCheck (s : State) (a : Action) (pass : Nat) : Nat :=
  firstReason [commonReason s a.page (actReg a) a.master, ownCheck s a pass]

/-- Whether the action has a check (R413). -/
def hasCheck (k : ActKind) : Bool :=
  match k with
  | .pageDisable | .feedbackStop | .axisDisable | .withdraw | .groupDisable | .channelDisable
  | .angleDisable | .histDisable | .cxReset | .cxNotify | .flowDisable | .twSilence
  | .restartWarm | .restartClear | .qeChannelDisable | .triggerDisable | .ehQueueDisable | .onA | .onB | .nothing => false
  | _ => true

/-- Bit `n` of FS_FEED_DIS is cleared: the feed supervises itself again from ABSENT (R408). -/
def feedOn (s : State) (n : Nat) : State :=
  let f := if n = 0 then F.FS_FEED_DIS_DIS_A else F.FS_FEED_DIS_DIS_B
  if s.gb f then (s.put f 0).onFeed n (fun f => { f with state := 0, since := none }) else s

/-- What an action without a check does. -/
def plainApply (a : Action) (s : State) : State :=
  let i := a.idx
  match a.kind with
  | .pageDisable => if s.enabled a.page then disableApply s a.page else s
  | .feedbackStop => fbStop s i
  | .axisDisable => leDisable s i
  | .withdraw => leWithdraw s i
  | .groupDisable => grpDisable s i
  | .channelDisable => chDisable s i
  | .angleDisable => angDisable s i
  | .histDisable => histDisable s i
  | .cxReset => cxReset s i
  | .cxNotify => sendNotice s i
  | .flowDisable => flowDisable s i
  | .twSilence => declare s 8
  | .restartWarm => restartApply s false
  | .restartClear => restartApply s true
  | .qeChannelDisable => s.put (F.QE_CFG_EN i) 0
  | .triggerDisable => (s.put (F.AE_TRG_CFG_EN i) 0).put (F.AE_TRG_STATE_ARMED i) 0
  | .ehQueueDisable => if s.gb (F.EH_QCFG_EN i) then ehQueueOff s i else s
  | .onA => feedOn s 0
  | .onB => feedOn s 1
  | _ => s

/-- What an action that passed its check does. `bw` and `br` go through the bus. -/
def passApply (bw : BusW) (br : BusR) (s : State) (a : Action) (pass : Nat) : State :=
  let i := a.idx
  match a.kind with
  | .pageEnable => enableApply s a.page pass a.val
  | .feedbackStart => fbStart s i
  | .qeChannelEnable => qeEnable s i
  | .axisEnable => leEnable s i
  | .restore => leRestore s i
  | .groupEnable => grpEnable s i
  | .groupRestart => grpRestart s i
  | .discoveryStart => discApply s i
  | .commit => commitApply s i
  | .release => releaseApply s i
  | .epochRequest => epochAccept s s.time.cycle
  | .epochCancel => epochCancel s
  | .channelEnable => chEnable s i
  | .triggerEnable => trgEnable s i a.val
  | .streamStart => strStart s i
  | .streamStop => strStop s i
  | .streamRestart => strRestart s i
  | .angleEnable => angEnable s i
  | .histEnable => histEnable s i
  | .copyHist => copyTake s 1 i (bit a.val 0)
  | .copyMap => copyTake s 2 i (bit a.val 0)
  | .cxStart => cxStart s i
  | .cxResume => cxResume s i
  | .flowEnable => flowEnable s i
  | .dmaEnable => dmaEnable bw br s i a.val
  | .dmaDisable => dmaDisable bw br s i a.val
  | .dmaResume => dmaResume bw br s i a.val
  | .dmaAbort => dmaAbort bw br s i a.val
  | .dmaContinue => dmaContinue bw br s i a.val
  | .queueEnable => qEnable s i
  | .queueDisable => dmaKick bw br (qDisable s i)
  | .twSwitch => switchApply s
  | .disA => disApply s 0
  | .disB => disApply s 1
  | .ehQueueEnable => s.put (F.EH_QCFG_EN i) 1
  | .bootSel => s.put F.BOOT_SEL_IMAGE i
  | _ => plainApply a s

/-- What a refused action leaves beside CHECK: REP_STATUS.REASON (R169), 0 where REP_CONFIG did not refuse, the diagnosis and the FBE's CHECK of an epoch
request (R241), WRITE_REFUSED (Table 16.2). -/
def refusedNote (s : State) (a : Action) (code : Nat) : State :=
  let s := if code % 256 = 0xF1 then raiseWriteRefused s else s
  match a.kind with
  | .axisEnable => s.axPut a.idx F.REP_STATUS_REASON (if code = 0x0217 then axisRepReason s a.idx else 0)
  | .epochRequest =>
    let (c, p, x) := epochRequestCheck s
    if c = code then
      let s := if code = 0x0314 || code ≥ 0x0524 && code ≤ 0x052C then s.setReg F.FP_EPOCH_DIAG.adr ((p <<< 40) + x) else s
      if code = 0x0314 then autoCheck s pFBE code else s
    else s
  | _ => s

/-- An accepted operation of a mirrored range reaches the standby as its accepted effect (R390). -/
def mirrorAct (s : State) (a : Action) : State := if a.kind = .nothing then s else mirrorOut s (actReg a / 8 * 8) a.val

/-- A stream action that meets one of the same stream is marked: it is refused as busy (R274). -/
def streamMark (s : State) (a : Action) : Action :=
  let same (b : Action) : Bool :=
    b.idx = a.idx && (b.kind = .streamStart || b.kind = .streamRestart || b.kind = .streamStop)
  let c := s.checks.look a.page
  let busy := match c.running with
    | some b => same b || c.held.any same
    | none => false
  match a.kind with
  | .streamStart | .streamRestart | .streamStop => if busy then { a with val := 1 } else a
  | _ => a

/-- The value of a guarded write goes to its register as the action is taken up (R417): the operation fields that
Table 0.2 makes readable. The other GW fields (ENABLE, DIS_A, DIS_B, IMAGE) change with their actions. -/
def opWrite (s : State) (a : Action) : State :=
  match a.guarded, a.kind with
  | some off, .axisEnable | some off, .axisDisable | some off, .commit | some off, .release | some off, .epochRequest
  | some off, .epochCancel | some off, .twSwitch | some off, .twSilence | some off, .restartWarm
  | some off, .restartClear => s.setReg (a.page + off) a.val
  | some off, .nothing => if a.idx = 1 then s.setReg (a.page + off) a.val else s
  | _, _ => s

/-- The EN that the action sets is set already: that runs no check and has no effect (R413). -/
def alreadyOn (s : State) (a : Action) : Bool :=
  match a.kind with
  | .pageEnable => s.enabled a.page
  | .qeChannelEnable => s.gb (F.QE_CFG_EN a.idx)
  | .groupEnable => s.gb (F.PG_GRP_CFG_EN a.idx)
  | .triggerEnable => s.gb (F.AE_TRG_CFG_EN a.idx)
  | .ehQueueEnable => s.gb (F.EH_QCFG_EN a.idx)
  | .disA => s.gb F.FS_FEED_DIS_DIS_A
  | .disB => s.gb F.FS_FEED_DIS_DIS_B
  | _ => false

/-- An action reaches its page (R413). An ENABLE that is set already does nothing. -/
def act (s : State) (a : Action) : State :=
  let s := if (s.checks.look a.page).running = none then opWrite s a else s
  if (s.checks.look a.page).running = none && alreadyOn s a then
    (match a.guarded with
     | some off => guardResult s a.page a.master off 1 false
     | none => s)
  else if a.kind = .restore && (s.checks.look a.page).running = none && !restoreRuns s a.idx then s
  else if hasCheck a.kind then submit s (streamMark s a)
  else submitPlain s a (fun s => mirrorAct (plainApply a s) a)

/-- An action asked for now by `master`. -/
def actNow (s : State) (kind : ActKind) (page idx val master : Nat) (guarded : Option Nat) : State :=
  act s { kind, page, idx, val, master, guarded, at_ := s.dt }

/-! ### The end of a check (R413, R418) -/

/-- The held actions of the page are taken up in arrival order: those without a check are carried out, until one with a
check begins it. `n` bounds their number. -/
def takeHeld (s : State) (p : Nat) : Nat → State
  | 0 => s
  | n + 1 =>
    let c := s.checks.look p
    match c.running, c.held with
    | none, a :: r =>
      takeHeld (act { s with checks := s.checks.set p { c with held := r } } a) p n
    | _, _ => s

/-- The words of the descriptor that the check of an action reads. -/
def descWords (a : Action) : List Nat :=
  let from_ (base n : Nat) : List Nat := (List.range n).map (fun i => base + 8 * i)
  match a.kind with
  | .channelEnable => from_ (chBase a.idx) 4
  | .streamStart => from_ (stBase a.idx) 16
  | .angleEnable => from_ (angBase a.idx) 16
  | .histEnable => from_ (monBase a.idx) 1
  | .cxStart | .cxResume => from_ (cxBase a.idx) 4
  | .flowEnable => from_ (flowBase a.idx) 8
  | .queueEnable => from_ (queueBase a.idx) 4
  | .axisEnable | .feedbackStart => from_ (axisBase a.idx) 256
  | _ => []

/-- The uncorrectable words among them are reported: the block uses the value 0 (Table 14.2, R359). -/
def descUe (s : State) (a : Action) : State :=
  forEach (fun w s => if s.poisoned w then raiseUe s (recordBlock w) w else s) (descWords a) s

/-- A check on the page at `p` ends: the action takes effect or is refused, and the held actions follow. -/
def checkDone (bw : BusW) (br : BusR) (s : State) (p pass : Nat) : State :=
  match (s.checks.look p).running with
  | none => s
  | some a =>
    let code := actionCheck s a pass
    let s := endCheck (descUe s a) a code
    let s := if code = 0 then mirrorAct (passApply bw br s a pass) a else refusedNote s a code
    takeHeld s p (s.checks.look p).held.length

end Sys2Proof.Machine
end

