-- ==== Sys2Proof/Machine/Views.lean ====
section
/-! DEFINITION. What a read of a BAR0 page returns: STATE and the other registers that the hardware forms from its own
state, the snapshot copies and the registers that hold what was written (chapters 2 to 18; R416, R419, R420). -/

namespace Sys2Proof.Machine

/-! ### STATE of the pages -/

/-- STATE of the EH page. -/
def ehState (s : State) : Nat :=
  (List.range 16).foldl (fun v q =>
    v + (b2n ((s.eh.look q).lostCount > 0) <<< (16 + q)) +
      (b2n (s.g (F.EH_QWR_COUNT q) ≠ s.g (F.EH_QRD_COUNT q)) <<< q)) 0

/-- STATE of the HP page. -/
def hpState (s : State) : Nat := (b2n s.hp.d3hot <<< 2) + (b2n s.hp.busMaster <<< 1) + b2n s.hp.link

/-- STATE of the HK page. -/
def hkState (s : State) : Nat :=
  (b2n s.hk.minimal <<< 3) + (b2n (s.g F.HK_START_STATE_SKIPPED ≠ 0) <<< 2) + (b2n s.hk.started <<< 1) + b2n s.hk.starting

/-- STATE of the page at `p`. The field-port and epoch pages hold theirs as a register; pages without a STATE table
read 0. -/
def pageState (s : State) (p : Nat) : Nat :=
  if p = pChip then b2n s.hk.corePower
  else if p = pHK then hkState s
  else if p = pFS then fsState s
  else if p = pSG then sgState s
  else if p = pKS then ksState s
  else if p = pLE then leState s
  else if p = pFBE then fbeState s
  else if p = pQE then qeState s
  else if p = pPG then pgState s
  else if isPort p || p = pEpoch then s.reg (p + 0x10)
  else if p = pTU then tuState s
  else if p = pCyc then cycState s
  else if p = pPTP then ptpState s
  else if p = pAE then aeState s
  else if p = pANG then angState s
  else if isCore p then scState s (pageIx p)
  else if p = pXU then b2n (s.ms.invals ≠ [])
  else if p = pDMA then dmaPageState s
  else if p = pQ then qPageState s
  else if p = pMEM then memState s
  else if p = pPW then pwState s
  else if p = pEH then ehState s
  else if p = pHP then hpState s
  else if p = pMP then b2n s.hk.corePower
  else 0

/-- The level conditions of the page at `p`, at the places of their EVT_MASK bits (R416; the EVT_MASK sentence under each
STATE table). -/
def levelBits (s : State) (p : Nat) : Nat :=
  let v := pageState s p
  if p = pPTP then (getBits v 6 2 <<< 6) + b2n (s.tu.tstate = 3)
  else if isPort p then
    getBits v 0 4 + (getBits (fpGstate s (pageIx p)) 0 3 <<< 4) + (getBits v 4 1 <<< 7)
  else if p = pPG then getBits v 0 3 + (getBits v 32 32 <<< 32)
  else if p = pFS then getBits v 8 4 <<< 8
  else if p = pQE || p = pQ then v
  else if p = pDMA || p = pEH then getBits v 0 32
  else if p = pPW then getBits v 0 8
  else if p = pSG || isCore p then getBits v 0 5
  else if p = pTU || p = pHK then getBits v 0 4
  else if p = pFBE || p = pAE then getBits v 0 2
  else if p = pCyc || p = pLE || p = pEpoch || p = pANG || p = pKS || p = pMEM || p = pHP then getBits v 0 3
  else if p = pChip || p = pXU || p = pMP then getBits v 0 1
  else 0

/-- EVT_LEVEL of the page at `p`. -/
def evtLevel (s : State) (p : Nat) : Nat := Nat.land (levelBits s p) (s.reg (F.EVT_MASK p).adr)

/-! ### Snapshots -/

/-- Words of FBE_SNAP (R119). -/
def fbeSnapWords (s : State) : List (Nat × Nat) :=
  [(F.FBE_SNAP_ACCEPT.adr, s.fb.accepted), (F.FBE_SNAP_EXTRAP.adr, s.fb.extrapolated),
   (F.FBE_SNAP_REJECT.adr, s.fb.rejected), (pFBE + 0xA8, s.fb.closeCycle)]

/-- The words that a TAKE written to the register at `a` captures; `v` is the value written (the channel of QE_SNAP). -/
def snapWords (s : State) (a v : Nat) : List (Nat × Nat) :=
  let p := a / 0x1000 * 0x1000
  if a = F.CYC_SNAP_TAKE.adr then cycSnapWords s
  else if a = F.SG_HIST_SNAP_TAKE.adr then sgHistWords s
  else if a = F.TU_SNAP_TAKE.adr then tuSnapWords s
  else if a = F.FBE_SNAP_TAKE.adr then fbeSnapWords s
  else if a = F.QE_SNAP_TAKE.adr then qeSnapWords s (getBits v 0 5)
  else if a = F.LE_SNAP_TAKE.adr then leSnapWords s
  else if a = F.AE_SNAP_TAKE.adr then aeSnapWords s
  else if a = F.KS_SNAP_TAKE.adr then ksSnapWords s
  else if a = F.MEM_SNAP_TAKE.adr then memSnapWords s
  else if a = F.TW_SNAP_TAKE.adr then twSnapWords s
  else if isPort p && a = p + 0xA0 then fpSnapWords s (pageIx p)
  else if isPort p && a = p + 0xE0 then fpGsnapWords s (pageIx p)
  else if isCore p && a = p + 0x98 then scSnapWords s (pageIx p)
  else []

/-- A TAKE: the writing master's copies are captured at one instant (R58, R66, R119, R420). -/
def snapTake (s : State) (m a v : Nat) : State := takeSnap s m a (snapWords s a v)

/-- The TAKE register that captures the copy at `a`, where `a` is a snapshot copy. -/
def snapOf (a : Nat) : Option Nat :=
  let p := a / 0x1000 * 0x1000
  let o := a % 0x1000
  let within (lo hi take : Nat) : Option Nat := if lo ≤ o && o ≤ hi then some (p + take) else none
  if p = pCyc then within 0xB0 0xC8 0xA8
  else if p = pSG then within 0x100 0x138 0xD0
  else if p = pTU then within 0x90 0xB0 0x88
  else if p = pFBE then within 0x90 0xA8 0x88
  else if p = pQE then within 0x88 0xA0 0x80
  else if p = pLE then within 0x308 0x318 0x300
  else if isPort p then
    (match within 0xA8 0xD0 0xA0 with
     | some t => some t
     | none => within 0xE8 0x130 0xE0)
  else if p = pAE then within 0xA0 0xC0 0x98
  else if isCore p then within 0xA0 0xC0 0x98
  else if p = pKS then within 0x108 0x130 0x100
  else if p = pMEM then within 0x90 0xA8 0x88
  else if p = pPW then within 0xC8 0xE8 0xC0
  else none

/-! ### Registers -/

/-- Registers of which every master has a copy of its own (R345, R348, R352, R378). -/
def isOwn (a : Nat) : Bool :=
  (pKS + 0xA0 ≤ a && a ≤ pKS + 0xB8) || a = pKS + 0xC8 || a = pKS + 0xD0 || a = pKS + 0xE0 || a = F.Q_POPSTAT.adr

/-- What a read by master `m` of the register at `a` (a multiple of 8) returns. Q_POP is not read here. -/
def regRead (s : State) (m a : Nat) : Nat :=
  let p := a / 0x1000 * 0x1000
  let o := a % 0x1000
  let i := pageIx p
  if pageTypeInst p = none then 0
  else if o = 0x10 then pageState s p
  else if o = 0x28 then evtLevel s p
  else match snapOf a with
  | some t => readSnap s m t a
  | none =>
    if isOwn a then ownCopy s m a
    else if a = pCyc + 0x98 then periodLive s
    else if a = pCyc + 0xA0 then phaseLive s
    else if a = pSG + 0xB0 then s.reg a + (b2n (sgSettling s) <<< 8)
    else if a = pTU + 0x80 then s.dtN
    else if p = pPTP && 0x80 ≤ o && o < 0xC0 then
      (let (st, gm, rate) := domWords s ((o - 0x80) / 0x20)
       if o % 0x20 = 8 then st else if o % 0x20 = 0x10 then gm else if o % 0x20 = 0x18 then rate else s.reg a)
    else if a = pPTP + 0xC0 then (ofS 32 (satS 32 s.tu.rhoH) <<< 32) + s.reg a
    else if p = pLE && 0x200 ≤ o && o < 0x280 then leSvc s ((o - 0x200) / 8)
    else if isPort p && o = 0x138 then fpGstate s i
    else if isPort p && o = 0x158 then fpSpare s i
    else if isCore p && o = 0x90 then scPcWord s i
    else if a = pKS + 0x88 then s.reg a + (s.ks.poolUse <<< 32)
    else if p = pDMA && 0x100 ≤ o && o < 0x900 then
      (let n := (o - 0x100) / 0x80
       let k := (o - 0x100) % 0x80
       if k = 0x28 then ((s.dma.look (ringIx n 1)).rd <<< 32) + (s.dma.look (ringIx n 0)).rd
       else if k = 0x38 then dmaStateWord s n
       else if k = 0x48 then dmaProgress s n 0
       else if k = 0x50 then dmaProgress s n 1
       else s.reg a)
    else if p = pQ && 0x800 ≤ o then (if o % 0x20 = 0x18 then qStateWord s ((o - 0x800) / 0x20) else 0)
    else if a = pPW + 0x98 then ofS 64 (mapOff s s.dt)
    else if a = pPW + 0xA0 then (if s.tw.role = 2 then 0 else ofS 32 s.tw.dtRate)
    else if p = pEH && 0x100 ≤ o && o < 0x500 && o % 0x40 = 0x20 then
      s.reg a + ((s.eh.look ((o - 0x100) / 0x40)).groups.length <<< 56)
    else if a = pHP + 0x80 then (if s.hp.link then (s.hp.width <<< 8) + s.hp.speed else 0)
    else if a = pHP + 0xC00 then
      s.hp.msixPending.foldl (fun v k => v + 2 ^ k) 0
    else s.reg a

/-- What a read of bytes returns: `n` bytes from `a`, all of one register. -/
def regBytes (s : State) (m a n : Nat) : Nat := getBits (regRead s m (a / 8 * 8)) (8 * (a % 8)) (8 * n)

end Sys2Proof.Machine
end

