-- ==== Sys2Proof/Machine/Bus.lean ====
section
/-! DEFINITION. Writes and reads by address: what a write of each register does (chapters 2 to 18), the writes that a
standby does not take (R390), memory words that a block watches, and the bus that every master shares (R26, R27, R412). -/

namespace Sys2Proof.Machine

/-! ### Plain register writes -/

/-- The RW bits of the register at `a` (Table 0.2). -/
def rwMask (a : Nat) : Nat :=
  match accessRows.find? (fun r => accessRowHas r a) with
  | some r => r.rw
  | none => 0

/-- Every bit. -/
def allBits : Nat := 2 ^ 64 - 1

/-- The bits of the register at `a` whose writes are ignored in the present state (R54, R85, R222, R432 and the
descriptions of the fields). -/
def lockMask (s : State) (a : Nat) : Nat :=
  let p := a / 0x1000 * 0x1000
  let o := a % 0x1000
  let i := pageIx p
  let on := s.enabled p
  let when (c : Bool) (m : Nat) : Nat := if c then m else 0
  if p = pSG || p = pPTP || p = pMEM then when on allBits
  else if p = pTU then when (on && !(0x100 ≤ o && o < 0x180)) allBits
  else if p = pQE && 0x100 ≤ o && o < 0x300 then when (qeOn s ((o - 0x100) / 0x10)) ((7 <<< 8) + (3 <<< 2))
  else if a = pPG + 0x80 then when on allBits
  else if p = pPG && 0x800 ≤ o && o % 0x40 = 0 then
    when (s.gb (F.PG_GRP_CFG_EN ((o - 0x800) / 0x40))) ((3 <<< 59) + (0x1FF <<< 32))
  else if isPort p && o = 0x80 then when on ((0xFFFF <<< 48) + 3)
  else if isPort p && (o = 0x88 || o = 0x90) then when on allBits
  else if isPort p && o = 0x140 then when (scheduled s i) 0xFFFFFFFF
  else if isPort p && 0xC00 ≤ o then when (slotLocked s i ((o - 0xC00) / 0x200)) allBits
  else if a = pEpoch + 0x80 then when (epochPending s) allBits
  else if a = pAE + 0x80 then when on allBits
  else if p = pAE && 0x800 ≤ o && o % 0x20 = 0 then when (s.gb (F.AE_TRG_CFG_EN ((o - 0x800) / 0x20))) (2 ^ 63 - 1)
  else if isCore p && o = 0x80 then when on allBits
  else if a = pXU + 0x80 || a = pPW + 0x80 || a = pTRC + 0x88 then when on allBits
  else if a = pTRC + 0x80 then when on (0x1F <<< 32)
  else if isHe p && (o = 0x80 || o = 0x88) then when on allBits
  else if p = pEH && 0x100 ≤ o && o < 0x500 then
    (let q := (o - 0x100) / 0x40
     let en := s.gb (F.EH_QCFG_EN q)
     if o % 0x40 = 0 then when en (2 ^ 63 - 1) else if o % 0x40 = 8 then when en allBits else 0)
  else 0

/-- Master `m` sets the RW fields of the register at `a`, those of `keep` apart (Table 0.2, R390). -/
def setRw (s : State) (m a v keep : Nat) : State :=
  if standbyRefuses s m a then raiseWriteRefused s
  else
    let mask := without (without (rwMask a) (lockMask s a)) keep
    let nv := blend (s.reg a) v mask
    mirrorOut (s.setReg a nv) a nv

/-! ### Actions -/

/-- An action asked for by `m`: without a check it is set aside in a mirrored range of a standby (R390), with one the
check refuses it (Table 16.2). -/
def reqAct (s : State) (kind : ActKind) (page idx val m : Nat) (guarded : Option Nat) : State :=
  let a := actReg { kind, page, idx, val, master := m, guarded, at_ := s.dt }
  if !hasCheck kind && standbyRefuses s m a then raiseWriteRefused s else actNow s kind page idx val m guarded

/-- What the ENABLE of the page at `p` carries to its check: the value written, for the cycle page the CYC_START_DT held at the
write (R35). -/
def enableVal (s : State) (p v : Nat) : Nat := if p = pCyc then s.reg F.CYC_START_DT.adr else v

/-- A write of CTRL.ENABLE (R413): setting a set bit and clearing a clear one do nothing. -/
def ctrlWrite (s : State) (m p v : Nat) (guarded : Option Nat) : State :=
  if bit v 0 then actNow s .pageEnable p 0 (enableVal s p v) m guarded
  else if s.enabled p || (s.checks.look p).running ≠ none then actNow s .pageDisable p 0 v m guarded
  else match guarded with
    | some off => guardResult s p m off 1 false
    | none => s

/-- A guarded write of `v` without an effect of its own is applied, or held while a check runs (R418); `op` 1 where the register
holds the operation that it names. -/
def guardedNothing (s : State) (m p off op v : Nat) : State := actNow s .nothing p op v m (some off)

/-- FS_FEED_DIS takes the value `v` through a guarded write (R408): a bit set disables its feed after the check, a bit
cleared lets the feed supervise itself again from ABSENT. While a check runs, a bit that is set is set behind what is held (R413). -/
def feedDisWrite (s : State) (m off v : Nat) : State :=
  let busy := (s.checks.look pFS).running ≠ none
  let was (n : Nat) : Bool := s.gb (if n = 0 then F.FS_FEED_DIS_DIS_A else F.FS_FEED_DIS_DIS_B)
  let sets (n : Nat) : Bool := bit v n && (!was n || busy)
  let clears (n : Nat) : Bool := !bit v n && (was n || busy)
  let one (n : Nat) (s : State) : State :=
    if sets n then actNow s (if n = 0 then .disA else .disB) pFS n v m (some off)
    else if clears n then actNow s (if n = 0 then .onA else .onB) pFS n v m (some off)
    else s
  if sets 0 || sets 1 || clears 0 || clears 1 then one 1 (one 0 s) else guardedNothing s m pFS off 0 v

/-- A guarded write of `v` reaches the register at offset `off` of page `p` (R417). -/
def guardedWrite (s : State) (m p off v : Nat) : State :=
  let a := p + off
  let op := getBits v 0 2
  let g : Option Nat := some off
  if off = 8 then ctrlWrite s m p v g
  else if a = F.LE_AXEN_AXIS.adr then
    reqAct s (if bit v 9 then .axisEnable else .axisDisable) pLE (getBits v 0 9) (getBits v 0 10) m g
  else if isPort p && off = 0x148 then
    (if op = 1 then reqAct s .commit p (pageIx p) 1 m g
     else if op = 2 then reqAct s .release p (pageIx p) 2 m g
     else guardedNothing s m p off 1 op)
  else if a = F.FP_EPOCH_CMD_OP.adr then
    (if op = 1 then reqAct s .epochRequest pEpoch 0 1 m g
     else if op = 2 then reqAct s .epochCancel pEpoch 0 2 m g
     else guardedNothing s m p off 1 op)
  else if a = F.TW_ROLE_OP.adr then
    (if op = 1 then reqAct s .twSwitch pPW 0 1 m g
     else if op = 2 then reqAct s .twSilence pPW 0 2 m g
     else guardedNothing s m p off 1 op)
  else if a = F.FS_FEED_DIS_DIS_A.adr then feedDisWrite s m off v
  else if a = F.BOOT_SEL_IMAGE.adr then reqAct s .bootSel pBoot (getBits v 0 1) (getBits v 0 1) m g
  else if a = F.HK_RESTART_OP.adr then
    (if op = 1 then reqAct s .restartWarm pHK 0 1 m g
     else if op = 2 then reqAct s .restartClear pHK 0 2 m g
     else guardedNothing s m p off 1 op)
  else guardedNothing s m p off 0 v

/-! ### Registers with an effect of their own -/

/-- A channel register of the QE page: EN acts by its check or clears at once, the rest is set (R120, R98, R118). -/
def qeCfgWrite (s : State) (m n v : Nat) : State :=
  let a := (F.QE_CFG_EN n).adr
  let was := qeOn s n
  let s' := setRw s m a v 1
  let busy := (s.checks.look pQE).running ≠ none
  if bit v 0 && (!was || busy) then reqAct s' .qeChannelEnable pQE n v m none
  else if !bit v 0 && (was || busy) && !standbyRefuses s m a then
    reqAct s' .qeChannelDisable pQE n (v / 2 * 2) m none
  else s'

/-- QE_CTRLn: what the next T0 takes up (R98, R100, R118). -/
def qeCtrl (s : State) (m n : Nat) (inject clr reguard : Bool) : State :=
  let a := (F.QE_CTRL n).adr
  if standbyRefuses s m a then raiseWriteRefused s
  else
    let s := s.onQe n (fun c =>
      { c with inject := c.inject || inject, clr := c.clr || clr, reguard := c.reguard || reguard })
    mirrorOut s a ((b2n inject <<< 2) + (b2n clr <<< 1) + b2n reguard)

/-- FBE_AXCTL (R88). Of a START and a STOP in one write the STOP comes second (notes/assumptions/24). -/
def axctlWrite (s : State) (m v : Nat) : State :=
  let a := getBits v 0 9
  let s := if bit v 63 then reqAct s .feedbackStart pFBE a ((1 <<< 63) + a) m none else s
  if bit v 62 then reqAct s .feedbackStop pFBE a ((1 <<< 62) + a) m none else s

/-- PG_GRPn_CFG (R189, R192). -/
def grpCfgWrite (s : State) (m n v : Nat) : State :=
  let a := (F.PG_GRP_CFG_EN n).adr
  let was := s.gb (F.PG_GRP_CFG_EN n)
  let busy := (s.checks.look pPG).running ≠ none
  let s := setRw s m a v (1 <<< 63)
  let s := if bit v 63 && (!was || busy) then reqAct s .groupEnable pPG n v m none
    else if !bit v 63 && (was || busy) then reqAct s .groupDisable pPG n v m none else s
  if bit v 62 then reqAct s .groupRestart pPG n v m none else s

/-- PG_GROUP_STOP (R189). -/
def groupStopWrite (s : State) (m v : Nat) : State :=
  let a := pPG + 0x88
  if standbyRefuses s m a then raiseWriteRefused s
  else
    let s := forEach (fun n s => if bit v n then grpRequest s n 1 else s) (List.range 32) s
    mirrorOut s a (getBits v 0 32)

/-- AE_TRGu_CFG (R265). -/
def trgCfgWrite (s : State) (m u v : Nat) : State :=
  let a := (F.AE_TRG_CFG u).adr
  let was := s.gb (F.AE_TRG_CFG_EN u)
  let busy := (s.checks.look pAE).running ≠ none
  let s := setRw s m a v (1 <<< 63)
  if bit v 63 && (!was || busy) then reqAct s .triggerEnable pAE u (blend 0 v (rwMask a)) m none
  else if !bit v 63 && (was || busy) then reqAct s .triggerDisable pAE u 0 m none
  else s

/-- EH_QqCFG (R432). -/
def ehCfgWrite (s : State) (m q v : Nat) : State :=
  let a := (F.EH_QCFG_EN q).adr
  let was := s.gb (F.EH_QCFG_EN q)
  let busy := (s.checks.look pEH).running ≠ none
  let s := setRw s m a v (1 <<< 63)
  if bit v 63 && (!was || busy) then reqAct s .ehQueueEnable pEH q v m none
  else if !bit v 63 && (was || busy) then reqAct s .ehQueueDisable pEH q 0 m none
  else s

/-- EH_QqRD (R431): the queue is armed, and fires at once if it is still not empty. -/
def ehRdWrite (s : State) (q v : Nat) : State :=
  let s := (s.put (F.EH_QRD_COUNT q) v).put (F.EH_QSTATE_ARMED q) 1
  if s.g (F.EH_QWR_COUNT q) ≠ s.g (F.EH_QRD_COUNT q) then fireQueue s q else s

/-- The mask bit of vector `v` has been cleared: a pending message is sent (R435). -/
def unmasked (s : State) (v : Nat) : State :=
  if nsHas s.hp.msixPending v && !msixMasked s v && s.hpReach then
    msixWrite { s with hp := { s.hp with msixPending := nsDel s.hp.msixPending v } } v
  else s

/-- A write to the MSI-X table (R434, R435): of the second word the data and the mask bit are kept. -/
def msixTableWrite (s : State) (a v : Nat) : State :=
  if a % 16 = 0 then s.setReg a (v / 4 * 4)
  else unmasked (s.setReg a (getBits v 0 33)) ((a - (pHP + 0x800)) / 16)

/-- HK_START (R454, R461): clearing AUTO while stages run ends the sequence. -/
def hkStartWrite (s : State) (m v : Nat) : State :=
  let was := s.gb F.HK_START_AUTO
  let s := setRw s m F.HK_START_AUTO.adr v 0
  if was && !bit v 63 && s.hk.starting then { s with hk := { s.hk with ending := true } } else s

/-- AE_CH_CTL, AE_ST_CTL, AE_ANG_CTL, AE_HIST_CTL, ANG_COPY (R251, R258, R281, R294, R296). -/
def aeCtlWrite (s : State) (m a v : Nat) : State :=
  let op := getBits v 62 2
  if a = F.AE_CH_CTL_OP.adr then
    (let c := getBits v 0 12
     if op = 1 then reqAct s .channelEnable pAE c 0 m none
     else if op = 2 then reqAct s .channelDisable pAE c 0 m none else s)
  else if a = F.AE_ST_CTL_OP.adr then
    (let n := getBits v 0 8
     if op = 1 then reqAct s .streamStart pAE n 0 m none
     else if op = 2 then reqAct s .streamStop pAE n 0 m none
     else if op = 3 then reqAct s .streamRestart pAE n 0 m none else s)
  else if a = F.AE_ANG_CTL_OP.adr then
    (let g := getBits v 0 9
     if op = 1 then reqAct s .angleEnable pANG g 0 m none
     else if op = 2 then reqAct s .angleDisable pANG g 0 m none else s)
  else if a = F.AE_HIST_CTL_OP.adr then
    (let c := getBits v 0 12
     if op = 1 then reqAct s .histEnable pANG c 0 m none
     else if op = 2 then reqAct s .histDisable pANG c 0 m none else s)
  else if a = F.ANG_COPY_OP.adr then
    (let i := getBits v 0 12
     let clear := getBits v 61 1
     if op = 1 then reqAct s .copyHist pANG i clear m none
     else if op = 2 then reqAct s .copyMap pANG i clear m none else s)
  else s

/-- Credits may have become available: cores and engines that wait for one go on (R350, R351, R374). -/
def creditsUp (bw : BusW) (br : BusR) (s : State) : State := dmaKick bw br (wakeCredit s)

/-- The command registers of the KS page (R333, R340, R341, R344, R345, R348). -/
def ksWrite (s : State) (m a v : Nat) : State :=
  let op2 := getBits v 62 2
  if a = F.KS_CXCTL_OP.adr then
    (let c := getBits v 0 10
     let op := getBits v 61 3
     if op = 1 then reqAct s .cxStart pKS c 0 m none
     else if op = 2 then reqAct s .cxResume pKS c 0 m none
     else if op = 3 then reqAct s .cxReset pKS c 0 m none
     else if op = 4 then reqAct s .cxNotify pKS c 0 m none else s)
  else if a = F.KS_LOCK_CMD_OP.adr then
    (let n := getBits v 0 8
     let o := getBits v 16 10
     if op2 = 1 then lockAcquire s m n o else if op2 = 2 then lockRelease s m n o else s)
  else if a = F.KS_DL_CTL_OP.adr then
    (let tag := getBits v 0 16
     if op2 = 1 then dlInsert s m (bit v 61) (bit v 60) tag else if op2 = 2 then dlCancel s m tag else s)
  else if a = F.KS_FLOW_POST_FLOW.adr then flowPost s m (getBits v 0 6)
  else if a = F.KS_FLOWCTL_OP.adr then
    (let f := getBits v 0 6
     if op2 = 1 then reqAct s .flowEnable pKS f 0 m none
     else if op2 = 2 then reqAct s .flowDisable pKS f 0 m none else s)
  else if isOwn a then
    (if a = F.KS_LOCK_RESULT.adr || a = F.KS_DL_RESULT.adr || a = F.KS_POST_RESULT.adr then s else setOwn s m a v)
  else setRw s m a v 0

/-- XU_INVAL (R366). -/
def xuInvalWrite (s : State) (v : Nat) : State :=
  let op := getBits v 62 2
  if op = 1 then xuInval s none
  else if op = 2 then xuInval s (some (getBits v 12 36, getBits v 0 12 + 1))
  else s

/-- A commit, and the commit write that follows it, an aligned 64-bit write (R377, R380); a translation fault drops it with XU_FAULT.
The low bits of an address that is not aligned are passed over (DESIGN CHOICE, notes/assumptions/39). -/
def queueCommit (bw : BusW) (br : BusR) (s : State) (q m : Nat) : State :=
  let (s, ok) := qCommit s q m
  let k := s.queue q
  let s := if ok && k.notifyAddr ≠ 0 then bw s 0x49 (k.notifyAddr / 8 * 8) k.notifyVal 8 else s
  dmaKick bw br s

/-- The queue page: Q_CTL, Q_PUSH and Q_CMD (R376 to R380). -/
def queueWrite (bw : BusW) (br : BusR) (s : State) (m a v : Nat) : State :=
  let o := a % 0x1000
  let q := (o - 0x800) / 0x20
  if a = F.Q_CTL_OP.adr then
    (let op := getBits v 62 2
     if op = 1 then reqAct s .queueEnable pQ (getBits v 0 6) 0 m none
     else if op = 2 then reqAct s .queueDisable pQ (getBits v 0 6) 0 m none else s)
  else if o < 0x800 then s
  else if o % 0x20 = 0 then qPush s q m v
  else if o % 0x20 = 0x10 then
    (let op := getBits v 61 3
     if op = 1 then queueCommit bw br s q m
     else if op = 2 then qAbandon s q m (bit v 60)
     else if op = 3 then qMark s q
     else if op = 4 then dmaKick bw br (qRewind s q) else s)
  else s

/-- The operation of DMn_CTL as an action. -/
def dmaOp (op : Nat) : Option ActKind :=
  if op = 1 then some .dmaEnable else if op = 2 then some .dmaDisable else if op = 3 then some .dmaResume
  else if op = 4 then some .dmaAbort else if op = 5 then some .dmaContinue else none

/-- The DMA page (R367 to R373). -/
def dmaWrite (bw : BusW) (br : BusR) (s : State) (m a v : Nat) : State :=
  let o := a % 0x1000
  if o < 0x100 || 0x900 ≤ o then s
  else
    let n := (o - 0x100) / 0x80
    let k := (o - 0x100) % 0x80
    if dmaRefuses m n then s
    else if k = 0x18 then dmaPost bw br s m n 0 v
    else if k = 0x20 then dmaPost bw br s m n 1 v
    else if k = 0x30 then
      (match dmaOp (getBits v 61 3) with
       | some kind => reqAct s kind pDMA n (getBits v 60 1) m none
       | none => s)
    else setRw s m a v 0

/-- The field-port pages (R212, R234, R119, R232). -/
def portWrite (s : State) (m p a v : Nat) : State :=
  let o := a % 0x1000
  let i := pageIx p
  if o = 0x98 then
    (let s := setRw s m a v 0
     if bit v 63 then reqAct s .discoveryStart p i v m none else s)
  else if o = 0xA0 || o = 0xE0 then (if bit v 0 then snapTake s m a v else s)
  else if o = 0x150 then
    (let op := getBits v 8 2
     if standbyRefuses s m a then raiseWriteRefused s
     else if op = 1 || op = 2 then
       mirrorOut (muteCtl s i (getBits v 0 5) (op = 1)) a (getBits v 0 10)
     else s)
  else setRw s m a v 0

/-- Whether the register at `a` is a TAKE, and the bit that triggers it. -/
def takeBit (a : Nat) : Option Nat :=
  let p := a / 0x1000 * 0x1000
  if a = F.QE_SNAP_TAKE.adr then some 8
  else if a = F.CYC_SNAP_TAKE.adr || a = F.SG_HIST_SNAP_TAKE.adr || a = F.TU_SNAP_TAKE.adr || a = F.FBE_SNAP_TAKE.adr ||
    a = F.LE_SNAP_TAKE.adr || a = F.AE_SNAP_TAKE.adr || a = F.KS_SNAP_TAKE.adr || a = F.MEM_SNAP_TAKE.adr ||
    a = F.TW_SNAP_TAKE.adr || (isCore p && a % 0x1000 = 0x98) then some 0
  else none

/-- What a block's own registers (0x080 and up) do with a write. -/
def blockWrite (bw : BusW) (br : BusR) (s : State) (m p a v : Nat) : State :=
  let o := a % 0x1000
  match takeBit a with
  | some b => if bit v b then snapTake s m a v else s
  | none =>
    if isPort p then portWrite s m p a v
    else if a = F.KS_POOL_SIZE.adr then creditsUp bw br (setRw s m a v 0)
    else if p = pKS then ksWrite s m a v
    else if p = pDMA then dmaWrite bw br s m a v
    else if p = pQ then queueWrite bw br s m a v
    else if p = pAE && o ≥ 0x800 && o % 0x20 = 0 then trgCfgWrite s m ((o - 0x800) / 0x20) v
    else if (p = pAE || p = pANG) && rwMask a = 0 then aeCtlWrite s m a v
    else if p = pQE && 0x100 ≤ o && o < 0x300 then
      (if o % 0x10 = 0 then qeCfgWrite s m ((o - 0x100) / 0x10) v
       else qeCtrl s m ((o - 0x100) / 0x10) (bit v 2) (bit v 1) (bit v 0))
    else if a = F.FBE_AXCTL_AXIS.adr then axctlWrite s m v
    else if p = pLE && 0x200 ≤ o && o < 0x280 then
      (let n := (o - 0x200) / 8
       let s := if bit v 63 then reqAct s .withdraw pLE n 0 m none else s
       if bit v 62 then reqAct s .restore pLE n 0 m none else s)
    else if a = pPG + 0x88 then groupStopWrite s m v
    else if p = pPG && 0x800 ≤ o && o % 0x40 = 0 then grpCfgWrite s m ((o - 0x800) / 0x40) v
    else if p = pEH && 0x100 ≤ o && o < 0x500 && o % 0x40 = 0 then ehCfgWrite s m ((o - 0x100) / 0x40) v
    else if p = pEH && 0x100 ≤ o && o < 0x500 && o % 0x40 = 0x18 then ehRdWrite s ((o - 0x100) / 0x40) v
    else if p = pHP && 0x800 ≤ o && o < 0xC00 then msixTableWrite s a v
    else if a = F.SG_STATS_RESET_RESET.adr then (if bit v 0 then sgStatsReset s else s)
    else if p = pTU && 0x100 ≤ o && o < 0x150 then tscorrWrite s ((o - 0x100) / 8) v
    else if p = pPTP && (o = 0x80 || o = 0xA0) then
      (let s := setRw s m a v 0
       if bit v 63 then rearm s ((o - 0x80) / 0x20) else s)
    else if a = pXU + 0x90 then xuInvalWrite s v
    else if a = F.HK_START_AUTO.adr then hkStartWrite s m v
    else if a = pTRC + 0x80 then trcSweep (setRw s m a v 0)
    else setRw s m a v 0

/-- What a write of the register at BAR0 offset `a`, a multiple of 8, by master `m` does (R412, R417, R418). -/
def regWriteOn (bw : BusW) (br : BusR) (s : State) (m a v : Nat) : State :=
  let p := a / 0x1000 * 0x1000
  let o := a % 0x1000
  if pageTypeInst p = none then s
  else if o = 0x08 then (if isPort p then guardPlain s p m o else ctrlWrite s m p v none)
  else if o = 0x20 then s.setReg a v
  else if o = 0x30 then guardSel s p m v
  else if o = 0x38 then guardA s p m v
  else if o = 0x40 then
    (match guardB s p m v with
     | .error s => s
     | .ok (s, off, w) => guardedWrite s m p off w)
  else if o < 0x80 then s
  else
    let s := blockWrite bw br s m p a v
    if hasGw p o then guardPlain s p m o else s

/-- Master `m` writes the register at BAR0 offset `a`, where its supply is up (R26). -/
def regWrite (bw : BusW) (br : BusR) (s : State) (m a v : Nat) : State := supplied s m a (fun s => regWriteOn bw br s m a v)

/-! ### Memory by address -/

/-- Direct address `d` lies in CX_QUOTA of a context. -/
def quotaWord (d : Nat) : Bool :=
  cxBase 0 ≤ d / 8 * 8 && d / 8 * 8 < cxBase 1024 && (d / 8 * 8 - cxBase 0) % 0x100 = 0x10

/-- What a block that watches a memory word does when it has been written: the consumer's index of a flow lets items
leave (R342), QUOTA of a context applies (R351). -/
def memWatch (s : State) (d : Nat) : State :=
  let w := d / 8 * 8
  if flowBase 0 ≤ w && w < flowBase 64 && (w - flowBase 0) % 0x40 = 0x10 then flowReleaseAll s ((w - flowBase 0) / 0x40)
  else if quotaWord d then wakeCredit (quotaEval s ((w - cxBase 0) / 0x100) true)
  else s

/-- BAR0 offset of the axis-record word at direct address `d`, if it is one (R150). -/
def recordOffset (d : Nat) : Option Nat :=
  if sramBase ≤ d && d < sramBase + 0x100000 then some (0x100000 + (d - sramBase)) else none

/-- A word of an axis record has been written at BAR0 offset `off`: REP_CMD.SYNC starts the copy of R168, and LE_AXMAPn and
LE_FAULTMAPn show the ENABLED and FAULT that AX_STATUS holds (R7). -/
def recordWatch (s : State) (off : Nat) : State :=
  let a := (off - 0x100000) / 0x800
  let o := off / 8 * 8 % 0x800
  if o = 0x278 then repSync s a
  else if o = 0x10 then statusFollow s a
  else s

/-- Master `m` writes `n` bytes at direct address `d`, within one word (R26, R358, R390). -/
def memStore (s : State) (m d v n : Nat) : State :=
  match recordOffset d with
  | some off =>
    if standbyRefuses s m off then raiseWriteRefused s
    else
      let s := memWrite s m d v n
      let s := mirrorOut s (off / 8 * 8) (s.word (d / 8 * 8))
      recordWatch s off
  | none => memWatch (memWrite s m d v n) d

/-- Master `m` sets REP_CMD.SYNC of axis `a` (R168). -/
def repSyncWrite (s : State) (m a : Nat) : State :=
  memStore s m (axisBase a + F.REP_CMD_SYNC.adr) (setBits (s.word (axisBase a + F.REP_CMD_SYNC.adr)) 63 1 1) 8

/-! ### The bus -/

/-- Reads `n` bytes within one word at XU address `a` (R359, R362, R378). A read of Q_POP may wait. -/
def busRead (s : State) (m a n : Nat) : State × BusData :=
  match xlate s a with
  | .fault k l => (raiseXuFault s m k l a, some (0, false))
  | .reg o =>
    if !powered s o then (s.emit (.noPower m), some (0, false))
    else if pQ + 0x800 ≤ o && o < pQ + 0x1000 && o % 0x20 = 8 then
      (match qPop s ((o - (pQ + 0x800)) / 0x20) m with
       | (s, some v) => (s, some (v % 2 ^ (8 * n), false))
       | (s, none) => (s, none))
    else (s, some (regBytes s m o n, false))
  | .mem d =>
    if !powered s d then (s.emit (.noPower m), some (0, false))
    else if s.poisoned d then (raiseUe s m d, some (s.bytesAt d n, true)) else (s, some (s.bytesAt d n, false))
  | .host h => (s.nextFree, some (s.hostBytes h n, false))

/-- Writes the low `n` bytes of `v` within one word at XU address `a`. A write to part of a register keeps the bytes that
the register reads elsewhere (notes/assumptions/25). `fuel` bounds the writes that follow from writes: a queue's commit
write, a DMA completion that posts to another engine. -/
def busWriteN : Nat → State → Nat → Nat → Nat → Nat → State
  | 0, s, _, _, _, _ => s
  | fuel + 1, s, m, a, v, n =>
    match xlate s a with
    | .fault k l => raiseXuFault s m k l a
    | .reg o =>
      let w := o / 8 * 8
      let full := if n = 8 then v % 2 ^ 64 else setBits (regRead s m w) (8 * (o % 8)) (8 * n) v
      regWrite (busWriteN fuel) busRead s m w full
    | .mem d => supplied s m d (fun s =>
        let s := memStore s m d (v % 2 ^ (8 * n)) n
        if quotaWord d then dmaKick (busWriteN fuel) busRead s else s)
    | .host h => s.setHostBytes h v n

/-- A write through the bus; eight writes may follow from one another (notes/assumptions/25). -/
def busWrite (s : State) (m a v n : Nat) : State := busWriteN 8 s m a v n

/-! ### Mirrored writes on the standby (R390) -/

/-- The standby applies a mirrored write of cycle `c`: the accepted effect, without repeating the checks. `copied`: the copy of that cycle
has been applied, and of a gear group only the words are the write's. -/
def mirrorApply (s : State) (c : BitVec 32) (copied : Bool) (off v : Nat) : State :=
  let p := off / 0x1000 * 0x1000
  let o := off % 0x1000
  let i := pageIx p
  let a0 (kind : ActKind) (idx val : Nat) : State :=
    let x : Action := { kind, page := p, idx, val, master := 6, guarded := none, at_ := s.dt }
    passApply busWrite busRead s x 0
  let rw (keep : Nat) : State := s.setReg off (blend (s.reg off) v (without (rwMask off) keep))
  if 0x100000 ≤ off && off < 0x200000 then memStore s 6 (sramBase + (off - 0x100000)) v 8
  else if off = F.FBE_AXCTL_AXIS.adr then
    (if bit v 62 then a0 .feedbackStop (getBits v 0 9) v else a0 .feedbackStart (getBits v 0 9) v)
  else if off = F.LE_AXEN_AXIS.adr then
    (if bit v 9 then a0 .axisEnable (getBits v 0 9) v else a0 .axisDisable (getBits v 0 9) v)
  else if p = pQE && 0x100 ≤ o && o < 0x300 && o % 0x10 = 0 then
    (let n := (o - 0x100) / 0x10
     let was := qeOn s n
     let s := rw 1
     if bit v 0 && !was then qeEnable s n else if !bit v 0 then s.put (F.QE_CFG_EN n) 0 else s)
  else if p = pQE && 0x100 ≤ o && o < 0x300 then qeCtrl s 6 ((o - 0x100) / 0x10) (bit v 2) (bit v 1) (bit v 0)
  else if off = pPG + 0x88 then groupStopWrite s 6 v
  else if p = pPG && 0x800 ≤ o && o % 0x40 = 0 then
    (if copied then rw 0 else
     let n := (o - 0x800) / 0x40
     let was := s.gb (F.PG_GRP_CFG_EN n)
     let s := rw (1 <<< 63)
     let s := if bit v 63 && !was then grpEnable s n else if !bit v 63 && was then grpDisable s n else s
     if bit v 62 then grpRestart s n else s)
  else if isPort p && o = 0x148 then (if getBits v 0 2 = 1 then commitApply s i else releaseApply s i)
  else if isPort p && o = 0x150 then muteCtl s i (getBits v 0 5) (getBits v 8 2 = 1)
  else if off = F.FP_EPOCH_CMD_OP.adr then (if getBits v 0 2 = 1 then epochAccept s c else epochCancel s)
  else rw 0

/-- The copy of the cycle before `c` is settled, so that the mirrored writes of `c` can be applied (R390); a unit that is active, or
whose cycle does not run, waits for none. -/
def mirrorReady (s : State) (c : BitVec 32) : Bool :=
  !s.standby || !s.time.running || match s.tw.copyClosed with
    | none => true
    | some k => decide ((k + 1 - c).toInt ≥ 0)

/-- The copy of cycle `c` has been applied. -/
def copyHad (s : State) (c : BitVec 32) : Bool :=
  match s.tw.copyCycle with
  | some k => decide ((k - c).toInt ≥ 0)
  | none => false

/-- What a mirrored write of cycle `c` at BAR0 offset `off` would change is held by the copy of that cycle, already applied: the copy
prevails (R390). That is so of the copied words, of an epoch command, of PG_GROUP_STOP and of a mute; of a COMMIT and a RELEASE once the
T0 at which they act has passed. -/
def mirrorStale (s : State) (c : BitVec 32) (off : Nat) : Bool :=
  copyHad s c &&
  (if 0x100000 ≤ off && off < 0x200000 then copiedWord (off % 0x800 / 8 * 8) && axisEnabled s ((off - 0x100000) / 0x800)
   else copyMask off = 2 ^ 64 - 1 || off = F.FP_EPOCH_CMD_OP.adr || off = pPG + 0x88 ||
     (isPort (off / 0x1000 * 0x1000) && (off % 0x1000 = 0x150 || (off % 0x1000 = 0x148 && s.time.cycle ≠ c))))

/-- The mirrored writes at the head of `l` that can be applied are, in their order; what is left waits. -/
def mirrorRun (s : State) : List (BitVec 32 × Nat × Word) → State × List (BitVec 32 × Nat × Word)
  | [] => (s, [])
  | e :: l =>
    if mirrorReady s e.1 then
      mirrorRun (if mirrorStale s e.1 e.2.1 then s else mirrorApply s e.1 (copyHad s e.1) e.2.1 e.2.2.toNat) l
    else (s, e :: l)

/-- The mirrored writes that wait are applied as far as their order lets them (R390). -/
def mirrorDrain (s : State) : State :=
  let (s, l) := mirrorRun s s.tw.mirrors
  s.onTw (fun t => { t with mirrors := l })

/-- A mirrored write of cycle `c` arrives at a standby. -/
def mirrorTake (s : State) (c : BitVec 32) (off : Nat) (v : Word) : State :=
  if s.standby && s.tw.link then mirrorDrain (s.onTw (fun t => { t with mirrors := t.mirrors ++ [(c, off, v)] })) else s

end Sys2Proof.Machine
end

