-- ==== Sys2Proof/Machine/Hk.lean ====
section
/-! DEFINITION. The housekeeping controller: boot, the configuration block, the start stages, failed starts, minimal mode,
restarts and shutdown (R409, R444 to R446, R453 to R467). -/

namespace Sys2Proof.Machine

/-- Changes the HK's state. -/
def State.onHk (s : State) (f : HkSt → HkSt) : State := { s with hk := f s.hk }

/-- The HK's master number (Table 16.8). -/
def hkMaster : Nat := 5

/-- Milliseconds in DT units. -/
def msUnits (n : Nat) : Nat := nsUnits (1000000 * n)

/-! ### What a restart leaves (R466, notes/assumptions/26) -/

/-- Whether the register at `a` lies in a page of the always-on domain: chip, HK, boot, FS, MP. -/
def alwaysOn (a : Nat) : Bool := a < pSG || (pMP ≤ a && a < pMP + 0x1000)

/-- The checks and guarded sequences of the pages that are kept have ended. -/
def quietPages (s : State) : State :=
  forEach (fun p s =>
    (((((s.put (F.CHECK_BUSY p) 0).put (F.GUARD_STATE_OPEN p) 0).put (F.GUARD_STATE_PENDING p) 0).setReg
      (F.GUARD_SEL p).adr 0).setReg (F.GUARD_A p).adr 0).setReg (F.GUARD_B p).adr 0)
    [pChip, pHK, pBoot, pFS, pMP] s

/-- The registers that a restart leaves: those of the always-on domain, and CHECK.SEQ of every page, which counts from power-on
(R414). -/
def keptRegs (l : List (Nat × Word)) : List (Nat × Word) :=
  l.filterMap (fun e =>
    if alwaysOn e.1 then some e
    else if pageTypeInst (e.1 / 0x1000 * 0x1000) ≠ none && e.1 % 0x1000 = 0x18 && getBits e.2.toNat 16 16 ≠ 0 then
      some (e.1, BitVec.ofNat 64 (getBits e.2.toNat 16 16 <<< 16))
    else none)

/-- The state from which a boot, or minimal mode, begins: everything is at its reset value but DT, the always-on domain
and what lies outside the device; the reference is as it was. -/
def restartBase (s : State) : State :=
  let base (k : State) : State := if s.tu.refLost then pllsLock k true else k
  askTime (quietPages (base { State.reset with
    pending := s.pending
    time := s.time
    regs := keptRegs s.regs
    hostMem := s.hostMem
    free := s.free
    out := s.out
    jtag := s.jtag
    mpStatus := s.mpStatus
    fs := s.fs
    tw := { (default : TwSt) with image := s.tw.image }
    hk := { (default : HkSt) with
      corePower := true, booted := true, feedsAt := s.hk.feedsAt, pairSince := s.hk.pairSince, log := s.hk.log }
    cyc := { (default : CycleSt) with ask := s.cyc.ask } })) .halt

/-! ### Minimal mode and failed starts (R462 to R465) -/

/-- The chip, HP and MP pages are enabled, each by an automatic check (R414, R453). -/
def bootPages (s : State) : State :=
  forEach (fun p s => autoCheck (s.put (F.CTRL_ENABLE p) 1) p 0) [pChip, pHP, pMP] s

/-- Address `a` lies in the records and descriptors of the blocks (R123, R250, R280, R332, Table 13.4, Table 14.8). -/
def recordMem (a : Nat) : Bool :=
  (sramBase ≤ a && a < sramBase + 0x140000) || (sramBase + 0x1F00000 ≤ a && a < sramBase + 0x1F42000)

/-- Minimal mode (R465): the chip, HP and MP pages are enabled, the role is SILENT, memory and the host links go on, the records of the
blocks, which are off, at their reset values (DEDUCED, notes/assumptions/26). The strap TWIN_ID is held from the boot (R478). -/
def minimalMode (s : State) : State :=
  let k := (restartBase s).put F.TW_CFG_TWIN_ID (s.g F.TW_CFG_TWIN_ID)
  let k := { k with
    mem := s.mem.filter (fun c => !recordMem c.1), poison := s.poison.filter (fun a => !recordMem a), hp := s.hp, he := s.he
    tw := { k.tw with role := 5 }
    hk := { k.hk with minimal := true } }
  bootPages k

/-- An entry of the HK start log (R463). -/
def logStart (s : State) (outcome : Nat) (w : Word) : State := s.onHk (fun h => { h with log := (outcome, w) :: h.log })

/-- The consecutive failed starts of a log, the latest entry first (R463): a completion, but not one after a fallback, and
RESTART_CLEAR set the count to 0. -/
def logCount : List (Nat × Word) → Nat
  | [] => 0
  | (k, _) :: r => if k = 1 || k = 4 then 0 else if k = 2 then min 3 (logCount r + 1) else logCount r

/-- A failed start is counted and logged, the latest first (R462, R463). START_FAILED is event 2 of the HK page. -/
def noteFail (s : State) (cause stage reason item : Nat) : State :=
  let s := s.put F.HK_FAILCNT_COUNT (min 3 (s.g F.HK_FAILCNT_COUNT + 1))
  let s := s.put F.HK_FAILCNT_TOTAL (satInc 16 (s.g F.HK_FAILCNT_TOTAL))
  let log (k : Nat) : Nat := (F.HK_FAILLOG_CAUSE k).adr
  let s := s.setReg (log 2) (s.reg (log 1))
  let s := s.setReg (log 1) (s.reg (log 0))
  let w := (cause <<< 56) + (stage <<< 48) + (s.g F.BOOT_STATUS_RUNNING <<< 47) + (reason <<< 16) + item
  raisePage (logStart (s.setReg (log 0) w) 2 (BitVec.ofNat 64 w)) pHK 2 cause

/-- A start fails (R462, R464): only its first cause is counted; then a warm restart, or minimal mode at the third. -/
def failStart (s : State) (cause stage reason item : Nat) : State :=
  let s := if s.hk.imageFail then s else noteFail s cause stage reason item
  let s := s.onHk (fun h => { h with starting := false })
  if s.g F.HK_FAILCNT_COUNT = 3 then minimalMode s
  else s.onHk (fun h => { h with restartAt := some s.dt })

/-- The start is complete with STAGE `n` (R454, R463). START_COMPLETE is event 1 of the HK page. -/
def completeStart (s : State) (n : Nat) : State :=
  let s := s.onHk (fun h => { h with starting := false, started := true, ending := false })
  let s := if s.hk.imageFail then logStart s 3 0 else logStart (s.put F.HK_FAILCNT_COUNT 0) 1 0
  raisePage (s.put F.HK_START_STATE_STAGE n) pHK 1 0

/-! ### Writes by the HK -/

/-- The check that a write of the HK started on page `p` ends at once. `pass` is the outcome of its self-check. -/
def hkSettle (s : State) (p pass : Nat) : State := checkDone busWrite busRead s p pass

/-- The three writes of a guarded write by the HK (R417). -/
def hkGuarded (s : State) (p off v : Nat) : State :=
  match guardSeq s p hkMaster off v with
  | .error s => s
  | .ok (s, off, w) => guardedWrite s hkMaster p off w

/-- One entry of the configuration block; the reason with which it was refused (R445). -/
def applyEntry (s : State) (b : BootIn) (e : CfgEntry) : State × Option Nat :=
  let p := e.offset / 0x1000 * 0x1000
  let pass := if p = pLE then b.engines else if isCore p then b.cores
    else if p = pBoot then b2n b.okA + 2 * b2n b.okB else 0
  let seq := s.g (F.CHECK_SEQ p)
  let s := if e.guarded then hkGuarded s p (e.offset % 0x1000) e.value.toNat
    else busWrite s hkMaster e.offset e.value.toNat 8
  let s := hkSettle s p pass
  let refused := s.g (F.CHECK_SEQ p) ≠ seq && s.gb (F.CHECK_REFUSED p)
  if pageTypeInst p ≠ none && refused then (s, some (s.g (F.CHECK_REASON p)))
  else if e.guarded && s.g (F.GUARD_STATE_RESULT p) ≠ 1 then (s, some 0)
  else (s, none)

/-- The entries in order from index `k`; the index and the reason of the first refused one. -/
def applyEntries (s : State) (b : BootIn) : List CfgEntry → Nat → State × Option (Nat × Nat)
  | [], _ => (s, none)
  | e :: r, k =>
    match applyEntry s b e with
    | (s, some why) => (s, some (k, why))
    | (s, none) => applyEntries s b r (k + 1)

/-! ### Boot (R444 to R446, Table 17.5) -/

/-- The configuration copy that the HK uses: its number and its entries (R445). Without a valid copy there is nothing to
apply (notes/assumptions/26). -/
def chooseCfg (b : BootIn) : Nat × List CfgEntry :=
  match b.cfg0, b.cfg1 with
  | some (a, l), some (c, m) => if (BitVec.ofNat 32 c - BitVec.ofNat 32 a).toInt > 0 then (1, m) else (0, l)
  | some (_, l), none => (0, l)
  | none, some (_, m) => (1, m)
  | none, none => (0, [])

/-- The factory record and the straps (R453, R442). -/
def factory (s : State) (b : BootIn) : State :=
  let s := ((s.put F.CHIP_ID_DIE_REV b.dieRev).put F.CHIP_SERIAL_SERIAL b.serial).put F.CHIP_GRADE_CASE_MAX b.caseMax
  ((s.put F.CHIP_GRADE_GRADE b.grade).put F.MP_ADDR_ADDRESS (0x40 + b.mpStrap % 4)).put F.TW_CFG_TWIN_ID b.twinId

/-- The configuration block is applied, and the stages begin or the start is complete (R445, R454). -/
def applyBlock (s : State) (b : BootIn) : State :=
  let (copy, l) := chooseCfg b
  let s := s.put F.BOOT_STATUS_CFG_COPY copy
  match applyEntries s b l 0 with
  | (s, some (k, why)) =>
    let s := (s.put F.BOOT_STATUS_CFG_STOPPED 1).put F.BOOT_STATUS_REASON why
    let s := (s.put F.BOOT_STATUS_ENTRY k).put F.HK_START_STATE_FAILED_STAGE 2
    let s := (s.put F.HK_START_STATE_REASON why).put F.HK_START_STATE_ITEM k
    failStart s (if why = 0x0201 || why = 0x0801 then 2 else 4) 2 why k
  | (s, none) =>
    if s.gb F.HK_START_AUTO then
      ((s.put F.HK_START_STATE_STAGE 2).put F.HK_START_STATE_SKIPPED 0).onHk (fun h => { h with starting := true })
    else completeStart s 13

/-- The HK configures ring 0 of DM12 to DM15 (R367). Where their descriptors lie, and how many, the spec does not say: free values
(notes/assumptions/45). -/
def deviceEngines (s : State) : State :=
  forEach (fun n s =>
    let (base, s) := s.freeWord
    let (size, s) := s.freeWord
    let lg := 2 + size % 14
    let s := (s.setReg (F.DM_BASE0 n).adr (base / 64 * 64)).put (F.DM_CFG_SIZE_LOG2_0 n) lg
    { s with dma := s.dma.set (2 * n) { (default : DmaRing) with base := base / 64 * 64, sizeLog2 := lg, state := 1 } })
    [12, 13, 14, 15] s

/-- The boot with a good image `img` (R446). IMAGE_FALLBACK is event 1 of the boot page. -/
def bootImage (s : State) (b : BootIn) (img : Nat) (fallback : Bool) : State :=
  let s := (s.setReg F.BOOT_STATUS_RUNNING.adr 0).put F.BOOT_STATUS_RUNNING img
  let s := s.put F.BOOT_STATUS_VERSION (if img = 0 then b.versionA else b.versionB)
  let s := if fallback then
      (noteFail (raisePage (s.put F.BOOT_STATUS_FALLBACK 1) pBoot 1 0) 1 2 0 0).onHk (fun h => { h with imageFail := true })
    else s
  if s.g F.HK_FAILCNT_COUNT = 3 then minimalMode s
  else if !b.selfTest then failStart s 2 2 0 0
  else
    applyBlock (deviceEngines (autoCheck (ksEnable (bootPages s)) pKS 0)) b

/-- HK_BOOT is due: a feed is GOOD and the module has not booted, or a restart is due. -/
def bootDue (s : State) : Bool :=
  anyGood s && (!s.hk.booted || (match s.hk.restartAt with | some d => decide (dtDiff s.dt d ≥ 0) | none => false))

/-- The HK boots (R446, R463 to R466). Of HK_START_STATE only STAGE begins anew; what the last refusal left stays (R466), and the skipped
segments are those of the last start until the stages begin again (notes/assumptions/26). -/
def hkBoot (s : State) (b : BootIn) : State :=
  if !bootDue s then s
  else
    let since := match s.hk.restartAt with | some d => d | none => s.hk.feedsAt
    let s := (restartBase s).onHk (fun h => { h with feedsAt := since })
    let s := logStart (factory (s.put F.HK_START_STATE_STAGE 0) b) 0 0
    let sel := s.g F.BOOT_SEL_IMAGE
    let ok (n : Nat) : Bool := if n = 0 then b.okA else b.okB
    if s.g F.HK_FAILCNT_COUNT = 3 then minimalMode s
    else if ok sel then bootImage s b sel false
    else if ok (1 - sel) then bootImage s b (1 - sel) true
    else minimalMode (noteFail s 1 2 0 0)

/-! ### The start stages (R454 to R460, Table 18.1) -/

/-- The ports to bring up that have not been skipped (R454, R460). -/
def startPorts (s : State) : List Nat :=
  (List.range 8).filter (fun p => bit (s.g F.HK_START_SEGMENTS) p && !bit (s.g F.HK_START_STATE_SKIPPED) p)

/-- The axes of HK_AXMAPn whose segment has not been skipped (R460). -/
def startAxes (s : State) : List Nat :=
  (mapList s (F.HK_AXMAP 0).adr 8).filter (fun a => !bit (s.g F.HK_START_STATE_SKIPPED) (lawRead s a).seg)

/-- SINGLE, or an ACTIVE without a partner: one that became ACTIVE alone goes on as SINGLE would (R455). -/
def alone (s : State) : Bool := s.tw.role = 0 || (s.tw.role = 2 && (s.hk.single || !s.tw.link))

/-- The stages that the unit runs by its role (R455). -/
def stageRuns (s : State) (n : Nat) : Bool :=
  let r := s.tw.role
  if r = 0 then 4 ≤ n && n ≤ 12 && n ≠ 5 && n ≠ 7
  else if r = 1 then n = 3 || n = 4
  else if r = 2 then 3 ≤ n && n ≤ 12 && !(alone s && (n = 5 || n = 7))
  else if r = 3 || r = 4 then n = 3 || n = 4 || n = 5 || n = 7
  else false

/-- The stages that stage `n` waits for (Table 18.1). -/
def stageWaits (n : Nat) : List Nat :=
  if n = 5 then [3] else if n = 6 then [3, 4] else if n = 7 then [5, 6] else if n = 8 then [6, 7]
  else if 9 ≤ n && n ≤ 12 then [n - 1] else []

/-- Stage `n` can begin. -/
def stageReady (s : State) (n : Nat) : Bool :=
  s.hk.starting && !s.hk.ending && stageRuns s n && !nsHas s.hk.begun n &&
  (stageWaits n).all (fun k => !stageRuns s k || nsHas s.hk.stagesDone k)

/-- Stage 9 is over for port `p`: the schedule is committed, a DOWNLINK has left, and every bound node has reported ALIGNED, bit 2 of its
STATUS (Table 18.1, Table 8.6). -/
def portAligned (s : State) (p : Nat) : Bool :=
  scheduled s p && (s.port p).lastTr.isSome && (boundNodes s p).all (fun j => bit (s.g (F.FP_NODE_STATE_STATUS p j)) 2)

/-- The condition that ends stage `n`. Stage 7 ends when its frames are sent: the delays are the standby's to compute
(notes/assumptions/26). -/
def stageMet (s : State) (n : Nat) : Bool :=
  if n = 3 then s.tw.role ≠ 1
  else if n = 4 then (startPorts s).all (fun p => s.gb (F.FP_STATE_LINK_UP p))
  else if n = 5 then s.tw.locked
  else if n = 6 then (startPorts s).all (fun p => segState s p ≥ 3)
  else if n = 7 then true
  else if n = 8 then s.time.running
  else if n = 9 then (startPorts s).all (fun p => portAligned s p)
  else if n = 10 then (startAxes s).all (fun a => fbIsActive s a)
  else if n = 11 then (startAxes s).all (fun a => s.axb a F.FB_STATUS_SETTLED)
  else (startAxes s).all (fun a => axisEnabled s a)

/-- The stages whose condition has come true are done; a sequence that is to end ends (R461). -/
def noteStages (s : State) : State :=
  if !s.hk.starting then s
  else
    let met := s.hk.begun.filter (fun n => !nsHas s.hk.stagesDone n && stageMet s n)
    let s := s.onHk (fun h => { h with
      stagesDone := met.foldl nsAdd h.stagesDone
      stage10At := if nsHas met 10 then s.dt else h.stage10At })
    if s.hk.ending && s.hk.begun.all (fun n => nsHas s.hk.stagesDone n) then completeStart s 14 else s

/-- The actions of stage `n` (R457 to R459), by the HK. -/
def stageActions (s : State) (n : Nat) : State :=
  if n = 6 then
    forEach (fun p s => if segState s p = 0 then reqAct s .discoveryStart (pFP p) p (1 <<< 63) hkMaster none else s)
      (startPorts s) s
  else if n = 7 then
    (if s.standby then s
     else forEach (fun p s => forEach (fun j s => forEach (fun _ s => sendDiscover s p j 1) (List.range 16) s)
       (numberedNodes s p) s) (startPorts s) s)
  else if n = 8 then
    ctrlWrite (s.setReg F.CYC_START_DT.adr (dtAdd (BitVec.ofNat 64 s.dtN) (msUnits 1)).toNat) hkMaster pCyc 1 none
  else if n = 9 then forEach (fun p s => hkGuarded s (pFP p) 0x148 1) (startPorts s) s
  else if n = 10 then forEach (fun a s => axctlWrite s hkMaster ((1 <<< 63) + a)) (startAxes s) s
  else if n = 12 then forEach (fun a s => hkGuarded s pLE 0x80 ((1 <<< 9) + a)) (startAxes s) s
  else s

/-- Stage `n` begins, once the stages it waits for are done (R454). -/
def startStage (s : State) (n : Nat) : State :=
  if !stageReady s n then s
  else
    let s := (s.put F.HK_START_STATE_STAGE n).onHk (fun h => { h with begun := nsAdd h.begun n })
    stageActions s n

/-- Segment `p` is skipped (R460). SEGMENT_SKIPPED is event 3 of the HK page. -/
def skipSegment (s : State) (p : Nat) : State :=
  raisePage (s.put F.HK_START_STATE_SKIPPED (setBits (s.g F.HK_START_STATE_SKIPPED) p 1 1)) pHK 3 p

/-- A stage action is refused with `code`, or its wait has expired (code 0) (R460, R462). -/
def stageRefused (s : State) (stage code item : Nat) : State :=
  let s := (s.put F.HK_START_STATE_FAILED_STAGE stage).put F.HK_START_STATE_REASON code
  let s := s.put F.HK_START_STATE_ITEM item
  if s.gb F.HK_START_PARTIAL && (stage = 4 || stage = 6 || stage = 9) then skipSegment s item
  else failStart s 4 stage code item

/-- The stage that an action of the HK belongs to. -/
def stageOf (a : Action) : Nat :=
  match a.kind with
  | .discoveryStart => 6
  | .pageEnable => 8
  | .commit => 9
  | .feedbackStart => 10
  | .axisEnable => 12
  | _ => 0

/-- A check on the page at `p` ends; a refusal of an action of the start counts against it (R413, R461). -/
def checkEnds (s : State) (p pass : Nat) : State :=
  match (s.checks.look p).running with
  | none => s
  | some a =>
    let code := actionCheck s a pass
    let s := checkDone busWrite busRead s p pass
    if code ≠ 0 && a.master = hkMaster && s.hk.starting && stageOf a ≠ 0 then stageRefused s (stageOf a) code a.idx else s

/-- The wait limit of a stage expires (R460): of stage 4 or 6 for port `p`, or of stage 11. -/
def stageExpiry (s : State) (n p : Nat) : State :=
  let open_ := s.hk.starting && nsHas s.hk.begun n && !nsHas s.hk.stagesDone n
  let after (d : DT) (ms : Nat) : Bool := decide (dtDiff s.dt d ≥ (msUnits ms : Int))
  if !open_ then s
  else if (n = 4 || n = 6) && (startPorts s).contains p && after s.hk.feedsAt (s.g F.HK_START_PORT_WAIT) &&
      !(if n = 4 then s.gb (F.FP_STATE_LINK_UP p) else decide (segState s p ≥ 3)) then
    stageRefused s n 0 p
  else if n = 11 && after s.hk.stage10At (s.g F.HK_START_SETTLE_WAIT) then
    stageRefused s 11 0 (((startAxes s).find? (fun a => !s.axb a F.FB_STATUS_SETTLED)).getD 0)
  else s

/-- PAIR_WAIT has passed since the PW page was enabled and the unit is still PAIRING (R455). -/
def pairExpiry (s : State) : State :=
  if s.enabled pPW && s.tw.role = 1 && dtDiff s.dt s.hk.pairSince ≥ (msUnits (s.g F.HK_START_PAIR_WAIT) : Int) then
    (if s.g F.TW_CFG_TWIN_ID = 0 then (s.onTw (fun t => { t with role := 2 })).onHk (fun h => { h with single := true }) else s)
  else s

/-- T0 with the completion of the start: the first T0 at which every axis is enabled (R459); on a SYNCING unit, which runs
no stage 12, once its stage 7 is done (notes/assumptions/26). -/
def hkT0 (s : State) : State :=
  let last := if s.standby then nsHas s.hk.stagesDone 7 else nsHas s.hk.begun 12
  if s.hk.starting && last && (startAxes s).all (fun a => axisEnabled s a) then completeStart s 13 else s

/-! ### Watchdog and shutdown (R409, R463) -/

/-- The firmware watchdog has not been served within 2 s: before the completion the start fails, after it this is the core
fault HK_WATCHDOG and the module restarts (R462, R463). A start that was stopped counts neither as complete nor as failed (R461): its
lapse is the core fault too. Minimal mode runs no firmware. -/
def hkWatchdog (s : State) : State :=
  if !s.hk.booted || s.hk.minimal || s.hk.restartAt.isSome then s
  else if s.hk.started || s.g F.HK_START_STATE_STAGE = 14 then (detect s 3).onHk (fun h => { h with restartAt := some s.dt })
  else failStart s 3 (s.g F.HK_START_STATE_STAGE) 0 0

/-- What power-on takes from the start log: COUNT, TOTAL and the last three failed starts (R463). -/
def fromLog (s : State) (log : List (Nat × Word)) : State :=
  let fails := log.filter (fun e => e.1 = 2)
  let s := (s.put F.HK_FAILCNT_COUNT (logCount log)).put F.HK_FAILCNT_TOTAL (min 65535 fails.length)
  forEach (fun k s => s.setReg (F.HK_FAILLOG_CAUSE k).adr ((fails[k]?.map (fun e => e.2.toNat)).getD 0)) (List.range 3) s

/-- HOLDUP has fallen below 24 V in a power failure: the module shuts down (R409). Only what the flash log, the boot
header and the outside keep is left; power comes back to it. -/
def shutdown (s : State) : State :=
  if s.fs.powerFail && s.g F.FS_AUX_HOLDUP < 2400 then
    askTime (fromLog { State.reset with
      pending := s.pending
      time := s.time
      regs := s.regs.filter (fun e => e.1 = F.BOOT_SEL_IMAGE.adr)
      hostMem := s.hostMem
      free := s.free
      out := s.out
      fs := { s.fs with shutdown := true, powerFail := false, a := { (default : FeedSt) with volts := s.fs.a.volts }
                        b := { (default : FeedSt) with volts := s.fs.b.volts } }
      hk := { (default : HkSt) with log := s.hk.log }
      cyc := { (default : CycleSt) with ask := s.cyc.ask } } s.hk.log) .off
  else s

end Sys2Proof.Machine
end

