-- ==== Sys2Proof/Machine/Host.lean ====
section
/-! DEFINITION. The host's ways in: the PCIe endpoint, the host Ethernet ports, the management target and JTAG
(R433 to R443, R450). -/

namespace Sys2Proof.Machine

/-- Changes the endpoint's state. -/
def State.onHp (s : State) (f : HpSt → HpSt) : State := { s with hp := f s.hp }

/-- Changes a host Ethernet port. -/
def State.onHe (s : State) (n : Nat) (f : HeSt → HeSt) : State := { s with he := s.he.set n (f (s.he.look n)) }

/-- Master `m` reads Q_POP of queue `q`: the answer leaves the device now, or when the read has waited (R378, R379). -/
def queueRead (s : State) (m q : Nat) : State :=
  match qPop s q m with
  | (s, some v) => s.emit (.popped m (BitVec.ofNat 64 v) (bit (ownCopy s m F.Q_POPSTAT.adr) F.Q_POPSTAT_VALID.lo))
  | (s, none) => s

/-! ### Spaces (Tables 17.2 and 17.3) -/

/-- Size of a space: 0 BAR0, 1 BAR2, 2 BAR4. -/
def spaceSize (sp : Nat) : Nat := if sp = 0 then 0x4000000 else if sp = 1 then 0x2000000 else if sp = 2 then 0x400000000 else 0

/-- The XU address of an offset in a space, where it lies in it. -/
def spaceAddr (sp off : Nat) : Option Nat :=
  if off < spaceSize sp then some ((if sp = 0 then 0 else if sp = 1 then sramBase else dramBase) + off) else none

/-! ### PCIe endpoint (R433 to R437) -/

/-- HP carries inbound requests: the link is up and the function is in D0. -/
def hpInbound (s : State) : Bool := s.hp.link && !s.hp.d3hot

/-- A posted write meets the full ingress buffer of 32 KiB: it is discarded whole, counted, and an event of the HP page
raised; the spec gives the event no code (R21, notes/assumptions/35). -/
def hpDiscard (s : State) : State :=
  let (code, s) := s.freeWord
  raisePage (s.onHp (fun h => { h with discards := h.discards + 1 })) pHP (code % 256) 0

/-- Master `m` waits for the answer of a queue that it reads (R379). -/
def masterWaits (s : State) (m : Nat) : Bool := s.queues.any (fun e => e.2.waits.any (fun w => w.master = m))

/-- The present DT is that of a cycle boundary or a Keystone tick that has yet to be carried out: what reaches a page at that very
instant takes effect at the one after (R421). -/
def atBoundary (s : State) : Bool :=
  (t0Due s && s.dt = t0Next s) || (s.enabled pKS && s.ks.ticked && s.dt = nextTickDt s)

/-- The access `e` cannot be made yet: behind a waiting read of its master (R27, R379), at the instant of a boundary that has yet to be
carried out (R421), or behind one of its master that waits for either. -/
def heldUp (s : State) (e : HeldAccess) : Bool :=
  masterWaits s e.master || (atBoundary s && e.writes) || s.accHeld.any (fun h => h.master = e.master)

/-- The access `e` with the effect `make` is made, or waits behind those held already. -/
def behind (s : State) (e : HeldAccess) (make : State → State) : State :=
  if heldUp s e then { s with accHeld := s.accHeld ++ [e] } else make s

/-- A write that came as a poisoned TLP (R433): Advanced Error Reporting shows it at its PCI Express bit, 12; the words of SRAM and DRAM
that it names become poisoned, and a register takes nothing of it (DESIGN CHOICE, notes/assumptions/42). -/
def poisonedWrite (s : State) (a : Nat) : State :=
  let s := s.onHp (fun h => { h with aer := h.aer ||| 2 ^ 12 })
  match xlate s a with
  | .mem d => if standbyRefuses s 0 ((recordOffset d).getD 0) then raiseWriteRefused s else memPoison s d
  | _ => s

/-- The access of the host is made. A read that waits (R379) is answered later. An access to a target whose supply is down is not
made, and the host is told (R26). A poisoned word is read with the EP bit set (R436). -/
def hostMake (s : State) (sp off n : Nat) (write : Option (Word × Bool)) : State :=
  match spaceAddr sp off with
  | none => s
  | some a =>
    supplied s 0 a (fun s => match write with
      | some (_, true) => poisonedWrite s a
      | some (v, false) => busWrite s 0 a v.toNat n
      | none =>
        match busRead s 0 a n with
        | (s, some (v, p)) => s.emit (.hostReply p (BitVec.ofNat 64 v))
        | (s, none) => s.onHp (fun h => { h with reading := true }))

/-- A host read or write of `n` bytes within one word (R434). -/
def hostAccess (s : State) (sp off n : Nat) (write : Option (Word × Bool)) (full : Bool) : State :=
  match spaceAddr sp off with
  | none => s
  | some a =>
    if !hpInbound s || n = 0 || n > 8 - a % 8 then s
    else if full && write.isSome then hpDiscard s
    else behind s (.host sp off n write) (fun s => hostMake s sp off n write)

/-- Messages that wait and can be carried now are sent (R435). -/
def hpFlush (s : State) : State := forEach (fun v s => unmasked s v) (List.range 64) s

/-- HP alone is reset (R437): the configuration space, the MSI-X table and the pending messages; the course-layout registers of the HP
page, its ENABLE and EVT_MASK among them, keep their values (R10 names none that such a reset re-initialises: DESIGN CHOICE,
notes/assumptions/42). HOST_RESET is event 3 of the HP page. `link` tells whether the link stays up, `d3` whether the function is in D3hot. -/
def hpReset (s : State) (link d3 : Bool) : State :=
  let was := s.hp.link
  let regs := s.regs.filter (fun e => !(pHP + 0x800 ≤ e.1 && e.1 < pHP + 0xC00))
  let s := { s with regs := regs }.onHp (fun h =>
    { h with busMaster := false, msixOn := false, msixMask := false, aer := 0, msixPending := [], d3hot := d3, link := h.link && link
             width := if link then h.width else 0, speed := if link then h.speed else 0 })
  let s := if was && !link then raisePage s pHP 2 0 else s
  raisePage s pHP 3 0

/-- The link comes up with `width` lanes at the rate of code `speed` (R433, HP_LINK). LINK_UP is event 1. -/
def hpLinkUp (s : State) (width speed : Nat) : State :=
  if s.hp.link || !(width = 1 || width = 2 || width = 4 || width = 8) || speed = 0 || speed > 4 then s
  else
    let s := s.onHp (fun h => { h with link := true, width := width, speed := speed })
    hpFlush (raisePage s pHP 1 0)

/-- The link is lost: HP is reset (R437). LINK_DOWN is event 2. -/
def hpLinkDown (s : State) : State := if s.hp.link then hpReset s false false else s

/-- The host writes Bus Master Enable, MSI-X Enable and Function Mask, and may return the function to D0 (R433, R437). -/
def configWrite (s : State) (c : HpConfig) (d0 : Bool) : State :=
  if !s.hp.link then s
  else hpFlush (s.onHp (fun h =>
    { h with busMaster := c.busMaster, msixOn := c.msixOn, msixMask := c.msixMask, d3hot := h.d3hot && !d0 }))

/-! ### Host Ethernet ports (R438 to R441) -/

/-- The link of port `n` comes up. LINK_UP is event 1 of its page. -/
def heLinkUp (s : State) (n : Nat) : State :=
  if n < 2 && s.enabled (pHE n) && !(s.he.look n).link && !(s.he.look n).noClock then
    raisePage (s.onHe n (fun h => { h with link := true })) (pHE n) 1 0
  else s

/-- The link of port `n` goes down. LINK_DOWN is event 2. -/
def heLinkDown (s : State) (n : Nat) : State :=
  if n < 2 && (s.he.look n).link then raisePage (s.onHe n (fun h => { h with link := false })) (pHE n) 2 0 else s

/-- Port `n` receives frames. -/
def heOpen (s : State) (n : Nat) : Bool := n < 2 && s.enabled (pHE n) && (s.he.look n).link

/-- A frame arrives at a port: one that is closed, or a frame of fewer than 64 or more than 1,536 bytes, takes nothing (R438). Where the
port's ingress buffer of 16 KiB is `full`, the whole frame is discarded, counted, and an event of the port's page raised; the spec
gives the event no code (R21, notes/assumptions/35). -/
def heTakes (s : State) (h : HeIn) (f : State → State) : State :=
  let n := h.port
  if !heOpen s n || h.size < 64 || 1536 < h.size then s
  else if h.full then
    let (code, s) := s.freeWord
    raisePage (s.onHe n (fun h => { h with discards := h.discards + 1 })) (pHE n) (code % 256) 0
  else f s

/-- An ARP request for HE_IP is answered with the port's MAC address (R438). -/
def arpRequest (s : State) (n sender target : Nat) : State :=
  if heOpen s n && target = s.g (F.HE_IP_IP n) then s.emit (.arpReply n sender (s.g (F.HE_LINKCFG_MAC n))) else s

/-- A check that runs on the page at `p`, and those held behind it, end; `n` bounds their number. The port waits for them
before it reads GUARD_STATE (notes/assumptions/27). -/
def settleAll (s : State) (p pass : Nat) : Nat → State
  | 0 => s
  | n + 1 => if (s.checks.look p).running = none then s else settleAll (checkEnds s p pass) p pass n

/-- The three writes of R440 by master `m`, with the checks that follow; GUARD_STATE after them. Where no page lies they are ignored
(R412). -/
def guardedBy (s : State) (m p off v pass : Nat) : State :=
  if pageTypeInst p = none then s
  else match guardSeq s p m off v with
  | .error s => s
  | .ok (s, off, w) =>
    let s := guardedWrite s m p off w
    settleAll s p pass ((s.checks.look p).held.length + 1)

/-- One operation of a register-access request: its state, STATUS and VALUE (Table 17.3, R439, R440), or none while a read of a
queue waits (R379). An access to a target whose supply is down is NOT_DONE (R26). -/
def raOp (s : State) (n pass : Nat) (e : Nat × Nat × Nat × Word) : State × Option (Nat × Nat) :=
  let (op, sp, off, v) := e
  let m := 1 + n
  if off % 8 ≠ 0 then (s, some (2, 0))
  else if op = 3 then
    (if sp ≠ 0 then (s, some (4, 0))
     else if !powered s off then (s, some (3, 0))
     else
       let p := off / 0x1000 * 0x1000
       let s := guardedBy s m p (off % 0x1000) v.toNat pass
       (s, some (if s.g (F.GUARD_STATE_RESULT p) = 1 then 0 else 4, s.reg (F.GUARD_STATE p).adr)))
  else match spaceAddr sp off with
    | none => (s, some (0, 0))
    | some a =>
      if !powered s a then (s, some (3, 0))
      else if op = 2 then (busWrite s m a v.toNat 8, some (0, v.toNat))
      else if op = 1 then
        (match busRead s m a 8 with
         | (s, some (w, p)) => (s, some (b2n p, w))
         | (s, none) => (s, none))
      else (s, some (3, 0))

/-- The operations in order after the results `done`: the results, and the operations that follow one that waits. After one
whose STATUS is not OK the rest is NOT_DONE (R440). -/
def raOps (s : State) (n pass : Nat) (done : List (Nat × Nat)) :
    List (Nat × Nat × Nat × Word) → State × List (Nat × Nat) × Option (List (Nat × Nat × Nat × Word))
  | [] => (s, done, none)
  | e :: r =>
    match raOp s n pass e with
    | (s, none) => (s, done, some r)
    | (s, some (st, v)) =>
      if st = 0 then raOps s n pass (done ++ [(st, v)]) r
      else (s, done ++ (st, v) :: r.map (fun _ => (3, 0)), none)

/-- The first word of a reply: MAGIC, VERSION with bit 7 set, OPS and SEQ (Table 17.3). -/
def raHead (count seq : Nat) : Nat := 0xEC51 + (0x81 <<< 16) + (count <<< 24) + (seq <<< 32)

/-- The two words of an operation in a reply: the request's OP, SPACE and OFFSET with STATUS, and VALUE (Table 17.3). -/
def raWord (e : Nat × Nat × Nat × Word) (r : Nat × Nat) : Nat × Nat :=
  (e.1 + (r.1 <<< 8) + (e.2.1 <<< 16) + (e.2.2.1 <<< 18), r.2)

/-- A reply leaves and is cached for its source; a seventeenth source replaces the least recently served (R439, R441). -/
def raSend (s : State) (n : Nat) (q : RaReq) (rep : List (Nat × Nat)) : State :=
  let others := (s.he.look n).replies.filter (fun r => !(r.ip = q.ip && r.port = q.port))
  let kept := if others.length ≥ 16 then others.drop 1 else others
  (s.onHe n (fun h => { h with replies := kept ++ [⟨q.ip, q.port, q.seq, rep⟩] })).emit
    (.raReply n q.ip q.port (raHead rep.length q.seq) rep)

/-- The reply to a request whose operations ended with the results `rep`. -/
def raReply (s : State) (n : Nat) (q : RaReq) (rep : List (Nat × Nat)) : State :=
  raSend s n q (List.zipWith raWord q.all rep)

/-- The cached reply to a request that repeats the SEQ of its source's last one (R441). -/
def raCached (s : State) (n : Nat) (q : RaReq) : Option (List (Nat × Nat)) :=
  ((s.he.look n).replies.find? (fun r => r.ip = q.ip && r.port = q.port && r.seq = q.seq)).map (·.reply)

/-- The request `q` writes. -/
def RaReq.writes (q : RaReq) : Bool := q.ops.any (fun e => e.1 ≠ 1)

/-- The requests of port `n` are served in order, up to one whose read waits, or one that writes at the instant of a boundary (R421);
`fuel` bounds their number (R439). -/
def raServe (s : State) (n : Nat) : Nat → State
  | 0 => s
  | fuel + 1 =>
    match (s.he.look n).reqs with
    | [] => s
    | q :: l =>
      if (q.waits && q.answer.isNone) || (atBoundary s && q.writes) then s
      else
        let s := s.onHe n (fun h => { h with reqs := l })
        match (if q.waits then none else raCached s n q) with
        | some rep => raServe (raSend s n q rep) n fuel
        | none =>
          let done := match q.answer with | some v => q.done ++ [(0, v)] | none => q.done
          match raOps s n q.pass done q.ops with
          | (s, rep, none) => raServe (raReply s n q rep) n fuel
          | (s, done, some r) =>
            s.onHe n (fun h => { h with reqs := { q with ops := r, done := done, waits := true, answer := none } :: h.reqs })

/-- Whether the request in progress at port `n` holds the answer of a queue. -/
def raAnswered (s : State) (n : Nat) : Bool := (s.he.look n).reqs.any (fun q => q.answer.isSome)

/-- The requests of both ports go on after a queue has answered: `old` is the state before the command, `s` its effect. -/
def raGoOn (old s : State) : State :=
  forEach (fun n s =>
    if raAnswered s n && !raAnswered old n then raServe s n (s.he.look n).reqs.length else s) [0, 1] s

/-- A register-access datagram (R439 to R441): its addresses, MAGIC, VERSION, OPS, SEQ and operations. RA_DISCARD is event 3
of the page. -/
def raRequest (s : State) (n ip port target dport magic version count seq pass : Nat)
    (ops : List (Nat × Nat × Nat × Word)) : State :=
  if !(heOpen s n && target = s.g (F.HE_IP_IP n) && dport = s.g (F.HE_RACFG_PORT n) && s.gb (F.HE_RACFG_EN n)) then s
  else if magic ≠ 0xEC51 || version ≠ 1 || count = 0 || count > 64 || ops.length ≠ count then raisePage s (pHE n) 3 0
  else
    let q : RaReq := { ip, port, seq, pass, all := ops, ops, done := [], waits := false, answer := none }
    let s := s.onHe n (fun h => { h with reqs := h.reqs ++ [q] })
    raServe s n (s.he.look n).reqs.length

/-! ### Management target (R442, R443) -/

/-- Why MP cannot make an access: its status, or 0. -/
def mpStatusOf (s : State) (sp off : Nat) : Nat :=
  if off ≥ spaceSize sp then 4
  else if off % 8 ≠ 0 then 2
  else if !(spaceAddr sp off).all (powered s) then 3
  else 0

/-- Write 0x01 of MP is carried out. A failure is kept for the next read. -/
def mpWriteMake (s : State) (addr : Word) (v : Word) : State :=
  let sp := getBits addr.toNat 62 2
  let off := getBits addr.toNat 0 62
  let st := mpStatusOf s sp off
  match st, spaceAddr sp off with
  | 0, some a => busWrite s 3 a v.toNat 8
  | _, _ => { s with mpStatus := st }

/-- Read 0x02 of MP is carried out. -/
def mpReadMake (s : State) (addr : Word) : State :=
  let sp := getBits addr.toNat 62 2
  let off := getBits addr.toNat 0 62
  let st := mpStatusOf s sp off
  let kept := s.mpStatus
  let s := { s with mpStatus := 0 }
  let status (own : Nat) : Nat := if kept ≠ 0 then kept else own
  match st, spaceAddr sp off with
  | 0, some a =>
    (match busRead s 3 a 8 with
     | (s, some (v, p)) => mpAnswer s (status (b2n p)) v
     | (s, none) => { s with mpWait := some kept })
  | _, _ => mpAnswer s (status st) 0

/-- The bytes of a block write to MP before its PEC byte: address, command, count, data. -/
def mpBlock (s : State) (cmd : Nat) (l : List Word) : List Nat :=
  [2 * s.g F.MP_ADDR_ADDRESS, cmd, 8 * l.length] ++ l.flatMap (fun v => (List.range 8).map (fun j => getBits v.toNat (8 * j) 8))

/-- A message to MP with a PEC byte that does not fit is not taken (R442; PRESUMED from SMBus, notes/assumptions/42). -/
def mpTaken (s : State) (cmd : Nat) (l : List Word) (pec : Option Byte) : Bool :=
  pec.all (fun b => decide (b.toNat = pecOf (mpBlock s cmd l)))

/-- Write 0x01 of MP. -/
def mpWrite (s : State) (i : MpIn) (v : Word) : State :=
  if mpTaken s 1 [i.addr, v] i.pec then behind s (.mpWrite i.addr v) (fun s => mpWriteMake s i.addr v) else s

/-- Read 0x02 of MP. -/
def mpRead (s : State) (i : MpIn) : State :=
  if mpTaken s 2 [i.addr] i.pec then behind s (.mpRead i.addr) (fun s => mpReadMake s i.addr) else s

/-! ### JTAG (R450) -/

/-- Changes the JTAG port. -/
def State.onJtag (s : State) (f : JtagSt → JtagSt) : State := { s with jtag := f s.jtag }

/-- BYPASS. -/
def jtagBypass (s : State) : State := s.onJtag (fun j => { j with ir := 0 })

/-- IDCODE returns the code of the die. -/
def jtagIdcode (s : State) : State :=
  (s.onJtag (fun j => { j with ir := 1 })).emit (.jtag 0x1E512C3D)

/-- SAMPLE/PRELOAD: the pin levels `pins` are shifted out, `v` is loaded for EXTEST. -/
def jtagSample (s : State) (pins v : Word) : State :=
  (s.onJtag (fun j => { j with ir := 2, boundary := v })).emit (.jtag pins)

/-- Whether EXTEST is carried out. -/
def extestAllowed (s : State) : Bool := s.hk.minimal || (!s.time.running && s.tw.role = 0)

/-- EXTEST is loaded: it drives the loaded values while it is carried out, and acts as BYPASS at any other time. -/
def jtagExtest (s : State) : State := s.onJtag (fun j => { j with ir := 3 })

/-- The pins that EXTEST drives: the loaded values, while it is carried out (R450). -/
def extestDrives (s : State) : Option Word := if s.jtag.ir = 3 && extestAllowed s then some s.jtag.boundary else none

/-- The access of DEBUG is made, by BAR offset as master 4. A poisoned word completes with an error (Table 14.2): no data are given
for it. -/
def jtagMake (s : State) (sp off : Nat) (write : Option Word) : State :=
  match spaceAddr sp (off / 8 * 8) with
  | none => s
  | some a =>
    supplied s 4 a (fun s => match write with
      | some v => busWrite s 4 a v.toNat 8
      | none =>
        match busRead s 4 a 8 with
        | (s, some (v, p)) => s.emit (if p then .jtagError else .jtag (BitVec.ofNat 64 v))
        | (s, none) => s.onJtag (fun j => { j with reading := true }))

/-- DEBUG: an access by BAR offset. -/
def jtagDebug (s : State) (sp off : Nat) (write : Option Word) : State :=
  let s := s.onJtag (fun j => { j with ir := 4 })
  behind s (.jtag sp off write) (fun s => jtagMake s sp off write)

/-! ### Accesses that were held (R379) -/

/-- A guarded write of the register at offset `off` of the page at `p` by master `m`: the sequence of R417, complete and in time. On a
standby it is discarded in a mirrored range (R390, R418). -/
def guardedMake (s : State) (m p off v : Nat) : State :=
  supplied s m p (fun s => match guardSeq s p m off v with
    | .error s => s
    | .ok (s, off, w) => guardedWrite s m p off w)

/-- A held access is made. -/
def accMake (s : State) : HeldAccess → State
  | .reg m a v => regWrite busWrite busRead (qeCatchUp s false) m a v.toNat
  | .guarded m p off v => guardedMake s m p off v.toNat
  | .bus m a n v => busWrite (qeCatchUp s false) m a (v.toNat % 2 ^ (8 * n)) n
  | .pop m q => supplied s m pQ (fun s => queueRead s m q)
  | .sync m a => supplied s m pLE (fun s => repSyncWrite s m a)
  | .host sp off n w => hostMake s sp off n w
  | .mpWrite a v => mpWriteMake s a v
  | .mpRead a => mpReadMake s a
  | .jtag sp off w => jtagMake s sp off w

/-- The held accesses in their order: those of a master that `was` held up and waits no more are made, up to one whose read waits. -/
def accRun (was : Nat → Bool) (s : State) : List HeldAccess → State × List HeldAccess
  | [] => (s, [])
  | e :: l =>
    if was e.master && !masterWaits s e.master then accRun was (accMake s e) l
    else let (s, r) := accRun was s l; (s, e :: r)

/-- What follows an answer of a queue: the register-access requests go on, then the accesses held behind the read; and again, at most
`n` times, where one of these has answered a read in its turn. -/
def goOnN (old : State) : Nat → State → State
  | 0, s => raGoOn old s
  | n + 1, s =>
    let s := raGoOn old s
    let (u, l) := accRun (masterWaits old) { s with accHeld := [] } s.accHeld
    let r := { u with accHeld := l }
    if l.length = s.accHeld.length then r else goOnN old n r

/-- What an answer of a queue lets go on (R379, R439). -/
def goOn (old s : State) : State := goOnN old s.accHeld.length s

/-- A cycle boundary or a tick has been carried out: what came at its very instant is made now (R421), unless another boundary of the
same instant is still to come. -/
def boundaryOver (s : State) : State :=
  if atBoundary s then s
  else
    let (u, l) := accRun (fun _ => true) { s with accHeld := [] } s.accHeld
    forEach (fun n s => raServe s n (s.he.look n).reqs.length) [0, 1] { u with accHeld := l }

end Sys2Proof.Machine
end

