-- ==== Sys2Proof/Machine/Run.lean ====
section
/-! DEFINITION. How a command runs: device time comes to the command's instant, the command acts, what follows by level
from its effect is settled (R77, R396, R398, R416), and what it asked of the cycle is carried out on the time. -/

namespace Sys2Proof.Machine

/-! ### PAGE_LEVEL (R416) -/

/-- The pages with level conditions, the event hub last. -/
def levelPages : List Nat :=
  [pChip, pHK, pFS, pSG, pKS, pLE, pFBE, pQE, pPG] ++ (List.range 8).map pFP ++ [pEpoch, pTU, pCyc, pPTP, pAE, pANG] ++
  (List.range 8).map pSC ++ [pXU, pDMA, pQ, pMEM, pPW, pHP, pMP, pEH]

/-- No EVT_MASK holds a bit: no condition is selected anywhere. -/
def quiet (s : State) : Bool := s.regs.all (fun e => !(e.1 % 0x1000 = 0x20 && e.1 < 0x100000))

/-- Each page raises PAGE_LEVEL for the conditions that are selected in `new` and were not in `old`. -/
def levelPass (old new s : State) : State :=
  forEach (fun p s =>
    let now := evtLevel new p
    let fresh := without now (evtLevel old p)
    if fresh = 0 then s else raisePage2 s p 0xF0 0 fresh now) levelPages s

/-- No condition is selected in `new` that was not in `old`. -/
def settledLevels (old new : State) : Bool := levelPages.all (fun p => without (evtLevel new p) (evtLevel old p) = 0)

/-- The level events between `old` and `new`. An event can raise a condition of its own (a queue becomes not empty): they are looked
at again until none is new, at most `n` times. -/
def levelRounds : Nat → State → State → State
  | 0, _, new => new
  | n + 1, old, new => if settledLevels old new then new else levelRounds n new (levelPass old new new)

/-- The level events between `old` and `new`; a condition of a page rises in few rounds, and 256 are more than all conditions of the
hub and the cores together (notes/assumptions/13). -/
def levels (old new : State) : State := if quiet new then new else levelRounds 256 old new

/-! ### A command -/

/-- The state in which a command acts: nothing sent yet, the time `m`, the instants that the time unit keeps behind it, and a slew whose
end has passed ended (R75). -/
def begin_ (s : State) (m : Time) : State := tuSettle { s with out := [], time := m, tu := s.tu.age m.dt }

/-- What follows from the effect `r` of a command on `s`: uncorrectable reads that were due before it, and faults met on reading save
areas, are reported, ENGINES may be declared again, the protected image follows, start stages end, level conditions are raised. -/
def after (s r : State) : State :=
  levels s (noteStages (protFollow (enginesAgain (reportSaves (reportUe s.ueDue.length r)))))

/-- The command's queue and time: the queue is not the command's to change; the time is `m`, with what was asked. -/
def close_ (s r : State) (m : Time) : State :=
  { r with pending := s.pending, time := r.cyc.ask.foldl Time.ask m, cyc := { r.cyc with ask := [] } }

/-- A command with effect `f` runs on `s`, with time `m`; `last` is the time after it. -/
def runAt (s : State) (m last : Time) (f : State → State) : State :=
  close_ s (after s (f (begin_ s m))) last

/-- Writes of the device's own blocks are made through the bus, in their order. -/
def devWritten (l : List DevWrite) (s : State) : State :=
  forEach (fun e s => busWrite s e.master e.addr e.val.toNat 8) l s

/-- The writes to registers and watched words that the blocks have asked for are made, and those that follow from them, at most `n`
times. -/
def devRounds : Nat → State → State
  | 0, s => s
  | n + 1, s => if s.devNow = [] then s else devRounds n (devWritten s.devNow { s with devNow := [] })

/-- What the effect `r` of a command on `s` lets follow at once: the writes that blocks have asked for (R27, R363), and what an answer
of a queue lets go on (R379, R439). -/
def landed (s r : State) : State := goOn s (if r.devNow = s.devNow then r else devRounds 8 r)

/-- A command at DT `t` (R60 to R62). -/
def run (t : DT) (s : State) (f : State → State) : State :=
  runAt s (s.time.advance t) (s.time.advance t) (fun r => landed s (f r))

/-- A command by which a master makes the access `e`: it may be held up (R27, R379, R421). -/
def runBehind (t : DT) (s : State) (e : HeldAccess) (f : State → State) : State := run t s (fun s => behind s e f)

/-- A command by which a master makes the access `e` with the effect `f` to the page at `p`: where the page's supply is down it is not
made, and the master is told (R26). -/
def runOn (t : DT) (s : State) (p : Nat) (e : HeldAccess) (f : State → State) : State :=
  runBehind t s e (fun s => supplied s e.master p f)

/-- Whether an access is held up, or a register-access request waits. -/
def heldBack (s : State) : Bool := s.accHeld ≠ [] || (s.he.look 0).reqs ≠ [] || (s.he.look 1).reqs ≠ []

/-- A boundary on `old` has been carried out with the effect `r`: what it held up is made now (R421). -/
def boundaryPast (old r : State) : State := if heldBack old then boundaryOver r else r

/-- No command waits: the register writes of the event hub and the trace unit that are still to be made are made, in their order
(R363, notes/assumptions/42), uncorrectable reads are reported, and what a boundary held up that is past is made (R421); with none of
these the block idles. -/
def idle (s : State) : State :=
  if s.devQ = [] && s.ueDue = [] && s.accHeld = [] then s
  else runAt s s.time s.time (fun r => boundaryPast s (landed r (devWritten r.devQ { r with devQ := [] })))

/-- Phase `k` of the cycle has passed with effect `f`; a phase asks nothing of the cycle. -/
def phaseEffect (k : Nat) (f : State → State) (r : State) : State :=
  let u := landed r (f { r with cyc := { r.cyc with phase := k } })
  { u with cyc := { u.cyc with phase := k, ask := [] } }

/-- Phase `k` of the cycle, `n` steps after T0, or nothing but the time (R31). -/
def runPhase (t : DT) (s : State) (k n : Nat) (f : State → State) : State :=
  let m := phaseTime s t k n
  let due := phaseDue s k
  runAt s m (if due && k = 6 then m.dlEnd else m)
    (fun r => if due then phaseEffect k f r else r)

/-- T0 (R30, R34, R36), and behind it what came at its very instant (R421). -/
def runT0 (t : DT) (s : State) : State :=
  let due := t0Due s
  let m := if due then timeT0 s else s.time.advance t
  let first := s.time.starting || !s.time.running
  runAt s m m (fun r =>
    boundaryPast s (if due then phaseEffect 1 (fun r => hkT0 (mirrorDrain (copyEarly (cycleT0 r first)))) r else r))

/-! ### Commands that other chapters share -/

/-- A guarded write of `v` as one command of master `m`. -/
def runGuarded (t : DT) (s : State) (m p off v : Nat) : State :=
  runBehind t s (.guarded m p off (BitVec.ofNat 64 v)) (fun s => guardedMake s m p off v)

/-- A write of `v` to the register at `a` as one command of master `m`. -/
def runReg (t : DT) (s : State) (m a v : Nat) : State :=
  runBehind t s (.reg m a (BitVec.ofNat 64 v)) (fun s => regWrite busWrite busRead s m a v)

end Sys2Proof.Machine
end

