-- ==== Sys2Proof/Machine/CmdAcquire.lean ====
section
/-! DEFINITION. Acquisition streams, triggers and angle-domain monitoring (chapters 10 and 11). -/

namespace Sys2Proof.Machine

/-- AE_PAGE_ENABLE (R278): master `m` sets ENABLE of the AE page. -/
def execAePageEnable (t : DT) (m : Nat) (s : State) : Host.Outcome State Fault Refusal :=
  .next (runOn t s pAE (.reg m (pAE + 8) 1)
    (fun s => ctrlWrite s m pAE 1 none))

/-- CHANNEL_ENABLE (R251): master `m` enables channel `c` by AE_CH_CTL. -/
def execChannelEnable (t : DT) (m c : Nat) (s : State) : Host.Outcome State Fault Refusal :=
  .next (runOn t s F.AE_CH_CTL_OP.adr (.reg m F.AE_CH_CTL_OP.adr (BitVec.ofNat 64 ((1 <<< 62) + c % 4096)))
    (fun s => aeCtlWrite s m F.AE_CH_CTL_OP.adr ((1 <<< 62) + c % 4096)))

/-- CHANNEL_DISABLE (R251): master `m` disables channel `c` by AE_CH_CTL. -/
def execChannelDisable (t : DT) (m c : Nat) (s : State) : Host.Outcome State Fault Refusal :=
  .next (runOn t s F.AE_CH_CTL_OP.adr (.reg m F.AE_CH_CTL_OP.adr (BitVec.ofNat 64 ((2 <<< 62) + c % 4096)))
    (fun s => aeCtlWrite s m F.AE_CH_CTL_OP.adr ((2 <<< 62) + c % 4096)))

/-- TRIG_OUT_PULSE (R268): the pulse scheduled on pin `pin` begins. -/
def execTrigOutPulse (t : DT) (pin : Nat) (s : State) : Host.Outcome State Fault Refusal :=
  .next (run t s (fun s => if pin < 8 then pulseBegin s pin else s))

/-- TRIG_PIN_EDGE (R265, R266): a confirmed edge on TRIG_IN pin `pin`, with the DT that R92 gives it. -/
def execTrigPinEdge (t : DT) (pin : Nat) (rising : Bool) (s : State) : Host.Outcome State Fault Refusal :=
  .next (run t s (fun s => if pin < 8 then pinEdge s pin rising s.edgeStamp else s))

/-- TRIGGER_UNIT_ENABLE (R278): master `m` writes AE_TRGu_CFG with EN set and the other fields of `v`. -/
def execTriggerUnitEnable (t : DT) (m u : Nat) (v : Word) (s : State) : Host.Outcome State Fault Refusal :=
  .next (runOn t s pAE (.reg m (F.AE_TRG_CFG (u % 64)).adr (BitVec.ofNat 64 (setBits v.toNat 63 1 1)))
    (fun s => trgCfgWrite s m (u % 64) (setBits v.toNat 63 1 1)))

/-- STREAM_START (R258): master `m` starts stream `n` by AE_ST_CTL. -/
def execStreamStart (t : DT) (m n : Nat) (s : State) : Host.Outcome State Fault Refusal :=
  .next (runOn t s F.AE_ST_CTL_OP.adr (.reg m F.AE_ST_CTL_OP.adr (BitVec.ofNat 64 ((1 <<< 62) + n % 256)))
    (fun s => aeCtlWrite s m F.AE_ST_CTL_OP.adr ((1 <<< 62) + n % 256)))

/-- STREAM_STOP (R274): master `m` stops stream `n` by AE_ST_CTL. -/
def execStreamStop (t : DT) (m n : Nat) (s : State) : Host.Outcome State Fault Refusal :=
  .next (runOn t s F.AE_ST_CTL_OP.adr (.reg m F.AE_ST_CTL_OP.adr (BitVec.ofNat 64 ((2 <<< 62) + n % 256)))
    (fun s => aeCtlWrite s m F.AE_ST_CTL_OP.adr ((2 <<< 62) + n % 256)))

/-- STREAM_RESTART (R273): master `m` restarts stream `n` by AE_ST_CTL. -/
def execStreamRestart (t : DT) (m n : Nat) (s : State) : Host.Outcome State Fault Refusal :=
  .next (runOn t s F.AE_ST_CTL_OP.adr (.reg m F.AE_ST_CTL_OP.adr (BitVec.ofNat 64 ((3 <<< 62) + n % 256)))
    (fun s => aeCtlWrite s m F.AE_ST_CTL_OP.adr ((3 <<< 62) + n % 256)))

/-- PACKET_FLUSH (R260): the FLUSH time of the open packet of stream `n` has passed. -/
def execPacketFlush (t : DT) (n : Nat) (s : State) : Host.Outcome State Fault Refusal :=
  .next (run t s (fun s => if n < 256 then packetFlush (mapFollow s) n else s))

/-- MAPPING_INTERVAL (R262): MAP_INTERVAL of stream `n` has passed. -/
def execMappingInterval (t : DT) (n : Nat) (s : State) : Host.Outcome State Fault Refusal :=
  .next (run t s (fun s => if n < 256 then mappingInterval s n else s))

/-- RECORD_TRUNCATED (R269): the record of stream `n` has taken twice its expected time. -/
def execRecordTruncated (t : DT) (n : Nat) (s : State) : Host.Outcome State Fault Refusal :=
  .next (run t s (fun s => if n < 256 then recordTruncated s n else s))

/-- AE_SNAP_TAKE (R119): master `m` takes AE_SNAP. -/
def execAeSnapTake (t : DT) (m : Nat) (s : State) : Host.Outcome State Fault Refusal :=
  .next (runOn t s F.AE_SNAP_TAKE.adr (.reg m F.AE_SNAP_TAKE.adr 1)
    (fun s => snapTake s m F.AE_SNAP_TAKE.adr 1))

/-- ANG_PAGE_ENABLE (R297): master `m` sets ENABLE of the angle page. -/
def execAngPageEnable (t : DT) (m : Nat) (s : State) : Host.Outcome State Fault Refusal :=
  .next (runOn t s pANG (.reg m (pANG + 8) 1)
    (fun s => ctrlWrite s m pANG 1 none))

/-- ANGLE_CHANNEL_ENABLE (R281): master `m` enables angle channel `g` by AE_ANG_CTL. -/
def execAngleChannelEnable (t : DT) (m g : Nat) (s : State) : Host.Outcome State Fault Refusal :=
  .next (runOn t s F.AE_ANG_CTL_OP.adr (.reg m F.AE_ANG_CTL_OP.adr (BitVec.ofNat 64 ((1 <<< 62) + g % 512)))
    (fun s => aeCtlWrite s m F.AE_ANG_CTL_OP.adr ((1 <<< 62) + g % 512)))

/-- ANGLE_CHANNEL_DISABLE (R281): master `m` disables angle channel `g` by AE_ANG_CTL. -/
def execAngleChannelDisable (t : DT) (m g : Nat) (s : State) : Host.Outcome State Fault Refusal :=
  .next (runOn t s F.AE_ANG_CTL_OP.adr (.reg m F.AE_ANG_CTL_OP.adr (BitVec.ofNat 64 ((2 <<< 62) + g % 512)))
    (fun s => aeCtlWrite s m F.AE_ANG_CTL_OP.adr ((2 <<< 62) + g % 512)))

/-- ANGLE_RECORD_WRITE (R291): the oldest record of angle channel `g` is written once all it needs is held. -/
def execAngleRecordWrite (t : DT) (g : Nat) (s : State) : Host.Outcome State Fault Refusal :=
  .next (run t s (fun s => if g < 512 then angleRecordWrite s g else s))

/-- HISTOGRAM_ENABLE (R294): master `m` starts the histogram of channel `c` by AE_HIST_CTL. -/
def execHistogramEnable (t : DT) (m c : Nat) (s : State) : Host.Outcome State Fault Refusal :=
  .next (runOn t s F.AE_HIST_CTL_OP.adr (.reg m F.AE_HIST_CTL_OP.adr (BitVec.ofNat 64 ((1 <<< 62) + c % 4096)))
    (fun s => aeCtlWrite s m F.AE_HIST_CTL_OP.adr ((1 <<< 62) + c % 4096)))

/-- HISTOGRAM_DISABLE (R294): master `m` stops the histogram of channel `c` by AE_HIST_CTL. -/
def execHistogramDisable (t : DT) (m c : Nat) (s : State) : Host.Outcome State Fault Refusal :=
  .next (runOn t s F.AE_HIST_CTL_OP.adr (.reg m F.AE_HIST_CTL_OP.adr (BitVec.ofNat 64 ((2 <<< 62) + c % 4096)))
    (fun s => aeCtlWrite s m F.AE_HIST_CTL_OP.adr ((2 <<< 62) + c % 4096)))

/-- COPY_HISTOGRAM (R296): master `m` copies the histogram of channel `c` by ANG_COPY. -/
def execCopyHistogram (t : DT) (m c : Nat) (clear : Bool) (s : State) : Host.Outcome State Fault Refusal :=
  .next (runOn t s F.ANG_COPY_OP.adr (.reg m F.ANG_COPY_OP.adr (BitVec.ofNat 64 ((1 <<< 62) + (b2n clear <<< 61) + c % 4096)))
    (fun s => aeCtlWrite s m F.ANG_COPY_OP.adr ((1 <<< 62) + (b2n clear <<< 61) + c % 4096)))

/-- COPY_MAP (R296): master `m` copies map `k` by ANG_COPY. -/
def execCopyMap (t : DT) (m k : Nat) (clear : Bool) (s : State) : Host.Outcome State Fault Refusal :=
  .next (runOn t s F.ANG_COPY_OP.adr (.reg m F.ANG_COPY_OP.adr (BitVec.ofNat 64 ((2 <<< 62) + (b2n clear <<< 61) + k % 4096)))
    (fun s => aeCtlWrite s m F.ANG_COPY_OP.adr ((2 <<< 62) + (b2n clear <<< 61) + k % 4096)))

/-- COPY_DONE (R296): the copy is complete. -/
def execCopyDone (t : DT) (s : State) : Host.Outcome State Fault Refusal :=
  .next (run t s (fun s => copyDone s))

end Sys2Proof.Machine
end

