-- ==== Sys2Proof/Machine/CoreAlu.lean ====
section
/-! DEFINITION. The arithmetic, memory, pointer, branch and repeat instructions of the signal cores
(R304 to R316, Table 12.8). -/

namespace Sys2Proof.Machine

/-! ### Values of the class A and class I operations (Table 12.8, R312, R314) -/

/-- SHL: left shift by bits 5:0 of the count, exact; the caller saturates. -/
def shlExact (a : Int) (n : Nat) : Int := shl a (n % 64)
/-- SHR: arithmetic right shift toward minus infinity by bits 5:0 of the count. -/
def shrExact (a : Int) (n : Nat) : Int := shr a (n % 64)
/-- SHRU: logical right shift by bits 5:0 of the count. -/
def shruExact (a n : Nat) : Nat := a >>> (n % 64)
/-- A truth value as a register holds it. -/
def truth (b : Bool) : Nat := b2n b
/-- NORM: the value shifted left by its redundant sign bits. -/
def normExact (a : Int) : Int := shl a (signRun 64 a)
/-- A sign-extended 15-bit immediate as a 64-bit pattern. -/
def immWord (i : Int) : Nat := ofS 64 i

/-- A class A instruction with a saturating result. -/
def aluSat (s : State) (i : Instr) (n d : Nat) (f : Arch → Int) : State :=
  scRun s i n 1 .plain (fun _ x => scPlain (x.setSat d (f x)))

/-- A class A or I instruction with a result that cannot saturate. -/
def aluNat (s : State) (i : Instr) (n d : Nat) (f : Arch → Nat) : State :=
  scRun s i n 1 .plain (fun _ x => scPlain (x.setG d (f x)))

/-- A class A or M instruction with a delayed result that cannot saturate. -/
def aluDelayed (s : State) (i : Instr) (n d : Nat) (f : Arch → Nat) : State :=
  scRun s i n 1 .plain (fun _ x => scDelG x d (f x))

/-- MUL and SATA: a delayed saturated result (R312, R313). -/
def aluDelayedSat (s : State) (i : Instr) (n d : Nat) (f : Arch → Int) : State :=
  scRun s i n 1 .plain (fun _ x =>
    let v := f x
    scDelG (x.setCsr 0 (satS 64 v ≠ v)) d (ofS 64 (satS 64 v)))

/-- MAC, MSU and ADDA, LDA, CLRA: a delayed accumulator result (R313). -/
def aluAcc (s : State) (i : Instr) (n acc : Nat) (f : Arch → Int) : State :=
  scRun s i n 1 .plain (fun _ x => scDelA x acc (f x))

/-- MACL and MSUL: the accumulator with the present gA and gB, and two parallel loads into them (Table 12.8). -/
def aluMacl (s : State) (i : Instr) (n acc a b px py : Nat) (mx my : Bool) (sign : Int) : State :=
  scRun s i n 1 .plain (fun s x =>
    match loadXY s n x a b px (b2n mx + 1) py (b2n my + 1) with
    | .fault c ad => .fault c ad
    | .ok o =>
      let v := x.accNew acc + sign * (x.gI a * x.gI b)
      let w := satS 136 v
      .ok { o with arch := o.arch.setCsr 1 (w ≠ v), delA := some (acc, BitVec.ofInt 136 w) })

/-! ### Memory (R309 to R311) -/

/-- LD (R309). -/
def memLd (s : State) (i : Instr) (n d p mode size : Nat) (sign : Bool) : State :=
  scRun s i n 1 .plain (fun s x =>
    loadOne s n x d (x.p.look p).toNat (2 ^ size) sign ((modPtr x p mode (2 ^ size)).map (fun v => x.setP p v)))

/-- ST (R309, R315). -/
def memSt (s : State) (i : Instr) (n r p mode size : Nat) : State :=
  scRun s i n 1 .plain (fun _ x =>
    storeOne r (x.p.look p).toNat (2 ^ size) x ((modPtr x p mode (2 ^ size)).map (fun v => x.setP p v)))

/-- LDXY (R300, R309). -/
def memLdxy (s : State) (i : Instr) (n d e px mx py my : Nat) : State :=
  scRun s i n 1 .plain (fun s x => loadXY s n x d e px mx py my)

/-- The address of LDD and STD: gA + IMM12 in its low 32 bits (R311). -/
def directAddr (x : Arch) (a : Nat) (imm : Int) : Nat := ofS 32 (x.gI a + imm)

/-- LDD (R311). -/
def memLdd (s : State) (i : Instr) (n d a : Nat) (imm : Int) (size : Nat) (sign : Bool) : State :=
  scRun s i n 1 .plain (fun s x => loadOne s n x d (directAddr x a imm) (2 ^ size) sign (some x))

/-- STD (R311). -/
def memStd (s : State) (i : Instr) (n r a : Nat) (imm : Int) (size : Nat) : State :=
  scRun s i n 1 .plain (fun _ x => storeOne r (directAddr x a imm) (2 ^ size) x (some x))

/-! ### Pointers (R311, Table 12.3) -/

/-- The low 32 bits of general register `a`. -/
def low32 (x : Arch) (a : Nat) : BitVec 32 := BitVec.ofNat 32 (x.gN a)

/-- SETC: the length is a multiple of 8, at most 0x4_0000 (R311). -/
def ptrSetc (s : State) (i : Instr) (n p a b : Nat) : State :=
  scIssue s n .plain (scWf i) (fun s =>
    let x := (s.core n).arch
    let l := (low32 x b).toNat
    if l % 8 ≠ 0 || l > 0x40000 then
      -- FAULT_ADDR of a SETC fault is not stated: a free value
      scFault s.nextFree n 4 (Config.freeValue s.free).toNat
    else scRetire s n 1 { (default : ScOut) with arch := x, delP := [.circ p (low32 x a) (low32 x b)] })

/-- The pointer or modifier as GETP and GETM read it: a delayed write is seen at once (Table 12.3 names only
addresses as readers of the old value). -/
def Arch.seenPtr (x : Arch) (d : List DelPtr) : Arch := d.foldl applyPtr x

/-! ### Repeats (R307) -/

/-- REPI and REPR: the body that follows runs `count` times. -/
def repRun (s : State) (i : Instr) (n : Nat) (count : Arch → Nat) (len : Nat) : State :=
  scIssue s n .control (scWf i) (fun s =>
    let x := (s.core n).arch
    scRetire s n 1 { (default : ScOut) with arch := x, rep := some (count x, len) })

/-- REPR's count: 0 for a value of 0 or less, at most 2^32 - 1. -/
def repCountOf (v : Int) : Nat := (clampI 0 4294967295 v).toNat

/-- TRACE: a USER record where the core is traced (Tables 12.8 and 17.6). -/
def scTrace (s : State) (i : Instr) (n imm : Nat) : State :=
  scIssue s n .plain (scWf i) (fun s =>
    let x := (s.core n).arch
    scRetire (trcRecord s n 7 (((s.core n).resident).getD 0) imm) n 1 { (default : ScOut) with arch := x })

end Sys2Proof.Machine
end

