-- ==== Sys2Proof/Machine/CmdCoreAlu.lean ====
section
/-! DEFINITION. The signal-core instructions of classes A, I, L and M (chapter 12). -/

namespace Sys2Proof.Machine

/-- ADD (R329): core `n` issues ADD gd, ga, gb. -/
def execAdd (t : DT) (n d a b : Nat) (s : State) : Host.Outcome State Fault Refusal :=
  .next (run t s (fun s => aluSat s (.add t n d a b) n d (fun x => x.gI a + x.gI b)))

/-- SUB (R329): core `n` issues SUB gd, ga, gb. -/
def execSub (t : DT) (n d a b : Nat) (s : State) : Host.Outcome State Fault Refusal :=
  .next (run t s (fun s => aluSat s (.sub t n d a b) n d (fun x => x.gI a - x.gI b)))

/-- MIN (R329): core `n` issues MIN gd, ga, gb. -/
def execMin (t : DT) (n d a b : Nat) (s : State) : Host.Outcome State Fault Refusal :=
  .next (run t s (fun s => aluNat s (.minS t n d a b) n d (fun x => if x.gI a ≤ x.gI b then x.gN a else x.gN b)))

/-- MAX (R329): core `n` issues MAX gd, ga, gb. -/
def execMax (t : DT) (n d a b : Nat) (s : State) : Host.Outcome State Fault Refusal :=
  .next (run t s (fun s => aluNat s (.maxS t n d a b) n d (fun x => if x.gI a ≤ x.gI b then x.gN b else x.gN a)))

/-- AND (R329): core `n` issues AND gd, ga, gb. -/
def execAnd (t : DT) (n d a b : Nat) (s : State) : Host.Outcome State Fault Refusal :=
  .next (run t s (fun s => aluNat s (.andB t n d a b) n d (fun x => (x.g.look a &&& x.g.look b).toNat)))

/-- OR (R329): core `n` issues OR gd, ga, gb. -/
def execOr (t : DT) (n d a b : Nat) (s : State) : Host.Outcome State Fault Refusal :=
  .next (run t s (fun s => aluNat s (.orB t n d a b) n d (fun x => (x.g.look a ||| x.g.look b).toNat)))

/-- XOR (R329): core `n` issues XOR gd, ga, gb. -/
def execXor (t : DT) (n d a b : Nat) (s : State) : Host.Outcome State Fault Refusal :=
  .next (run t s (fun s => aluNat s (.xorB t n d a b) n d (fun x => (x.g.look a ^^^ x.g.look b).toNat)))

/-- SHL (R312): core `n` issues SHL gd, ga, gb. -/
def execShl (t : DT) (n d a b : Nat) (s : State) : Host.Outcome State Fault Refusal :=
  .next (run t s (fun s => aluSat s (.shl t n d a b) n d (fun x => shlExact (x.gI a) (x.gN b))))

/-- SHR (R312): core `n` issues SHR gd, ga, gb. -/
def execShr (t : DT) (n d a b : Nat) (s : State) : Host.Outcome State Fault Refusal :=
  .next (run t s (fun s => aluNat s (.shr t n d a b) n d (fun x => ofS 64 (shrExact (x.gI a) (x.gN b)))))

/-- SHRU (R329): core `n` issues SHRU gd, ga, gb. -/
def execShru (t : DT) (n d a b : Nat) (s : State) : Host.Outcome State Fault Refusal :=
  .next (run t s (fun s => aluNat s (.shru t n d a b) n d (fun x => shruExact (x.gN a) (x.gN b))))

/-- SLT (R329): core `n` issues SLT gd, ga, gb. -/
def execSlt (t : DT) (n d a b : Nat) (s : State) : Host.Outcome State Fault Refusal :=
  .next (run t s (fun s => aluNat s (.slt t n d a b) n d (fun x => truth (x.gI a < x.gI b))))

/-- SEQ (R329): core `n` issues SEQ gd, ga, gb. -/
def execSeq (t : DT) (n d a b : Nat) (s : State) : Host.Outcome State Fault Refusal :=
  .next (run t s (fun s => aluNat s (.seq t n d a b) n d (fun x => truth (x.gN a = x.gN b))))

/-- MOV (R329): core `n` issues MOV gd, ga. -/
def execMov (t : DT) (n d a : Nat) (s : State) : Host.Outcome State Fault Refusal :=
  .next (run t s (fun s => aluNat s (.mov t n d a) n d (fun x => x.gN a)))

/-- NEG (R312): core `n` issues NEG gd, ga. -/
def execNeg (t : DT) (n d a : Nat) (s : State) : Host.Outcome State Fault Refusal :=
  .next (run t s (fun s => aluSat s (.neg t n d a) n d (fun x => -x.gI a)))

/-- ABS (R312): core `n` issues ABS gd, ga. -/
def execAbs (t : DT) (n d a : Nat) (s : State) : Host.Outcome State Fault Refusal :=
  .next (run t s (fun s => aluSat s (.abs t n d a) n d (fun x => (x.gI a).natAbs)))

/-- NOT (R329): core `n` issues NOT gd, ga. -/
def execNot (t : DT) (n d a : Nat) (s : State) : Host.Outcome State Fault Refusal :=
  .next (run t s (fun s => aluNat s (.notB t n d a) n d (fun x => (~~~ x.g.look a).toNat)))

/-- EXP (R314): core `n` issues EXP gd, ga. -/
def execExp (t : DT) (n d a : Nat) (s : State) : Host.Outcome State Fault Refusal :=
  .next (run t s (fun s => aluDelayed s (.exp t n d a) n d (fun x => signRun 64 (x.gI a))))

/-- NORM (R314): core `n` issues NORM gd, ga. -/
def execNorm (t : DT) (n d a : Nat) (s : State) : Host.Outcome State Fault Refusal :=
  .next (run t s (fun s => aluDelayed s (.norm t n d a) n d (fun x => ofS 64 (normExact (x.gI a)))))

/-- ADDI (R329): core `n` issues ADDI gd, ga, imm. -/
def execAddi (t : DT) (n d a : Nat) (imm : Int) (s : State) : Host.Outcome State Fault Refusal :=
  .next (run t s (fun s => aluSat s (.addi t n d a imm) n d (fun x => x.gI a + imm)))

/-- ANDI (R329): core `n` issues ANDI gd, ga, imm. -/
def execAndi (t : DT) (n d a : Nat) (imm : Int) (s : State) : Host.Outcome State Fault Refusal :=
  .next (run t s (fun s => aluNat s (.andi t n d a imm) n d (fun x => (x.g.look a &&& BitVec.ofInt 64 imm).toNat)))

/-- ORI (R329): core `n` issues ORI gd, ga, imm. -/
def execOri (t : DT) (n d a : Nat) (imm : Int) (s : State) : Host.Outcome State Fault Refusal :=
  .next (run t s (fun s => aluNat s (.ori t n d a imm) n d (fun x => (x.g.look a ||| BitVec.ofInt 64 imm).toNat)))

/-- XORI (R329): core `n` issues XORI gd, ga, imm. -/
def execXori (t : DT) (n d a : Nat) (imm : Int) (s : State) : Host.Outcome State Fault Refusal :=
  .next (run t s (fun s => aluNat s (.xori t n d a imm) n d (fun x => (x.g.look a ^^^ BitVec.ofInt 64 imm).toNat)))

/-- SHLI (R329): core `n` issues SHLI gd, ga, imm. -/
def execShli (t : DT) (n d a : Nat) (imm : Int) (s : State) : Host.Outcome State Fault Refusal :=
  .next (run t s (fun s => aluSat s (.shli t n d a imm) n d (fun x => shlExact (x.gI a) (ofS 15 imm))))

/-- SHRI (R329): core `n` issues SHRI gd, ga, imm. -/
def execShri (t : DT) (n d a : Nat) (imm : Int) (s : State) : Host.Outcome State Fault Refusal :=
  .next (run t s (fun s => aluNat s (.shri t n d a imm) n d (fun x => ofS 64 (shrExact (x.gI a) (ofS 15 imm)))))

/-- SHRUI (R329): core `n` issues SHRUI gd, ga, imm. -/
def execShrui (t : DT) (n d a : Nat) (imm : Int) (s : State) : Host.Outcome State Fault Refusal :=
  .next (run t s (fun s => aluNat s (.shrui t n d a imm) n d (fun x => shruExact (x.gN a) (ofS 15 imm))))

/-- LDI (R329): core `n` issues LDI gd, imm32, the second word being `imm`. -/
def execLdi (t : DT) (n d imm : Nat) (s : State) : Host.Outcome State Fault Refusal :=
  .next (run t s (fun s =>
    scRun s (.ldi t n d imm) n 2 .plain (fun _ x => scPlain (x.setG d (ofS 64 (toS 32 (imm % 2 ^ 32)))))))

/-- LDIH (R329): core `n` issues LDIH gd, imm32, the second word being `imm`. -/
def execLdih (t : DT) (n d imm : Nat) (s : State) : Host.Outcome State Fault Refusal :=
  .next (run t s (fun s =>
    scRun s (.ldih t n d imm) n 2 .plain (fun _ x => scPlain (x.setG d (imm % 2 ^ 32 * 2 ^ 32 + x.gN d % 2 ^ 32)))))

/-- MUL (R313): core `n` issues MUL gd, ga, gb, sh. -/
def execMul (t : DT) (n d a b sh : Nat) (s : State) : Host.Outcome State Fault Refusal :=
  .next (run t s (fun s => aluDelayedSat s (.mul t n d a b sh) n d (fun x => shr (x.gI a * x.gI b) sh)))

/-- MAC (R313): core `n` issues MAC a(acc), ga, gb. -/
def execMac (t : DT) (n acc a b : Nat) (s : State) : Host.Outcome State Fault Refusal :=
  .next (run t s (fun s => aluAcc s (.mac t n acc a b) n acc (fun x => x.accNew acc + x.gI a * x.gI b)))

/-- MSU (R313): core `n` issues MSU a(acc), ga, gb. -/
def execMsu (t : DT) (n acc a b : Nat) (s : State) : Host.Outcome State Fault Refusal :=
  .next (run t s (fun s => aluAcc s (.msu t n acc a b) n acc (fun x => x.accNew acc - x.gI a * x.gI b)))

/-- MACL (R329): core `n` issues MACL; `mx` and `my` select MODE 2. -/
def execMacl (t : DT) (n acc a b px py : Nat) (mx my : Bool) (s : State) : Host.Outcome State Fault Refusal :=
  .next (run t s (fun s => aluMacl s (.macl t n acc a b px py mx my) n acc a b px py mx my 1))

/-- MSUL (R329): core `n` issues MSUL; `mx` and `my` select MODE 2. -/
def execMsul (t : DT) (n acc a b px py : Nat) (mx my : Bool) (s : State) : Host.Outcome State Fault Refusal :=
  .next (run t s (fun s => aluMacl s (.msul t n acc a b px py mx my) n acc a b px py mx my (-1)))

/-- SATA (R313): core `n` issues SATA gd, a(acc), sh. -/
def execSata (t : DT) (n d acc sh : Nat) (s : State) : Host.Outcome State Fault Refusal :=
  .next (run t s (fun s => aluDelayedSat s (.sata t n d acc sh) n d (fun x => shr (x.accOld acc) sh)))

/-- LDA (R313): core `n` issues LDA a(acc), ga, sh. -/
def execLda (t : DT) (n acc a sh : Nat) (s : State) : Host.Outcome State Fault Refusal :=
  .next (run t s (fun s => aluAcc s (.lda t n acc a sh) n acc (fun x => shl (x.gI a) sh)))

/-- ADDA (R313): core `n` issues ADDA a(acc), a(src). -/
def execAdda (t : DT) (n acc src : Nat) (s : State) : Host.Outcome State Fault Refusal :=
  .next (run t s (fun s => aluAcc s (.adda t n acc src) n acc (fun x => x.accNew acc + x.accOld src)))

/-- CLRA (R329): core `n` issues CLRA a(acc). -/
def execClra (t : DT) (n acc : Nat) (s : State) : Host.Outcome State Fault Refusal :=
  .next (run t s (fun s => aluAcc s (.clra t n acc) n acc (fun _ => 0)))

/-- EXPA (R314): core `n` issues EXPA gd, a(acc). -/
def execExpa (t : DT) (n d acc : Nat) (s : State) : Host.Outcome State Fault Refusal :=
  .next (run t s (fun s => aluDelayed s (.expa t n d acc) n d (fun x => signRun 136 (x.accOld acc))))

end Sys2Proof.Machine
end

