-- ==== Sys2Proof/Machine/CmdCoreFlow.lean ====
section
/-! DEFINITION. The signal-core instructions of classes B and S, and the service of a core (chapter 12). -/

namespace Sys2Proof.Machine

/-- BR (R305): core `n` issues BR off. -/
def execBr (t : DT) (n : Nat) (off : Int) (s : State) : Host.Outcome State Fault Refusal :=
  .next (run t s (fun s => scBranch s (.br t n off) n (fun _ x => (true, branchTarget x off, x))))

/-- CALL (R305): core `n` issues CALL off. -/
def execCall (t : DT) (n : Nat) (off : Int) (s : State) : Host.Outcome State Fault Refusal :=
  .next (run t s (fun s =>
    scBranch s (.call t n off) n (fun s x => (true, branchTarget x off, x.setG 31 (afterSlots s n).toNat))))

/-- BZ (R329): core `n` issues BZ ga, off. -/
def execBz (t : DT) (n a : Nat) (off : Int) (s : State) : Host.Outcome State Fault Refusal :=
  .next (run t s (fun s => scBranch s (.bz t n a off) n (fun _ x => (decide (x.gN a = 0), branchTarget x off, x))))

/-- BNZ (R329): core `n` issues BNZ ga, off. -/
def execBnz (t : DT) (n a : Nat) (off : Int) (s : State) : Host.Outcome State Fault Refusal :=
  .next (run t s (fun s => scBranch s (.bnz t n a off) n (fun _ x => (decide (x.gN a ≠ 0), branchTarget x off, x))))

/-- BEQ (R329): core `n` issues BEQ ga, gb, off. -/
def execBeq (t : DT) (n a b : Nat) (off : Int) (s : State) : Host.Outcome State Fault Refusal :=
  .next (run t s (fun s =>
    scBranch s (.beq t n a b off) n (fun _ x => (decide (x.gI a = x.gI b), branchTarget x off, x))))

/-- BNE (R329): core `n` issues BNE ga, gb, off. -/
def execBne (t : DT) (n a b : Nat) (off : Int) (s : State) : Host.Outcome State Fault Refusal :=
  .next (run t s (fun s =>
    scBranch s (.bne t n a b off) n (fun _ x => (decide (x.gI a ≠ x.gI b), branchTarget x off, x))))

/-- BLT (R329): core `n` issues BLT ga, gb, off. -/
def execBlt (t : DT) (n a b : Nat) (off : Int) (s : State) : Host.Outcome State Fault Refusal :=
  .next (run t s (fun s =>
    scBranch s (.blt t n a b off) n (fun _ x => (decide (x.gI a < x.gI b), branchTarget x off, x))))

/-- BGE (R329): core `n` issues BGE ga, gb, off. -/
def execBge (t : DT) (n a b : Nat) (off : Int) (s : State) : Host.Outcome State Fault Refusal :=
  .next (run t s (fun s =>
    scBranch s (.bge t n a b off) n (fun _ x => (decide (x.gI a ≥ x.gI b), branchTarget x off, x))))

/-- JMP (R329): core `n` issues JMP ga. -/
def execJmp (t : DT) (n a : Nat) (s : State) : Host.Outcome State Fault Refusal :=
  .next (run t s (fun s => scBranchBy true s (.jmp t n a) n (fun _ x => (true, BitVec.ofNat 14 (x.gN a), x))))

/-- REPI (R307): core `n` issues REPI count, len. -/
def execRepi (t : DT) (n count len : Nat) (s : State) : Host.Outcome State Fault Refusal :=
  .next (run t s (fun s => repRun s (.repi t n count len) n (fun _ => count) len))

/-- REPR (R307): core `n` issues REPR ga, len. -/
def execRepr (t : DT) (n a len : Nat) (s : State) : Host.Outcome State Fault Refusal :=
  .next (run t s (fun s => repRun s (.repr t n a len) n (fun x => repCountOf (x.gI a)) len))

/-- NOP (R329): core `n` issues NOP. -/
def execNop (t : DT) (n : Nat) (s : State) : Host.Outcome State Fault Refusal :=
  .next (run t s (fun s => scRun s (.nop t n) n 1 .plain (fun _ x => scPlain x)))

/-- MOVS_READ (R329): core `n` issues MOVS gd, CSR. -/
def execMovsRead (t : DT) (n d : Nat) (s : State) : Host.Outcome State Fault Refusal :=
  .next (run t s (fun s => aluNat s (.movsRead t n d) n d (fun x => x.csr.toNat)))

/-- MOVS_WRITE (R302): core `n` issues MOVS CSR, ga; the reserved bits stay 0. -/
def execMovsWrite (t : DT) (n a : Nat) (s : State) : Host.Outcome State Fault Refusal :=
  .next (run t s (fun s =>
    scRun s (.movsWrite t n a) n 1 .plain (fun _ x => scPlain { x with csr := BitVec.ofNat 64 (x.gN a % 4) })))

/-- LOCK (R325): core `n` issues LOCK gd, l. -/
def execLock (t : DT) (n d l : Nat) (s : State) : Host.Outcome State Fault Refusal :=
  .next (run t s (fun s => scLock s (.lock t n d l) n d l))

/-- UNLOCK (R347): core `n` issues UNLOCK l. -/
def execUnlock (t : DT) (n l : Nat) (s : State) : Host.Outcome State Fault Refusal :=
  .next (run t s (fun s => scUnlock s (.unlock t n l) n l))

/-- NOTIFY (R334): core `n` issues NOTIFY ga. -/
def execNotify (t : DT) (n a : Nat) (s : State) : Host.Outcome State Fault Refusal :=
  .next (run t s (fun s => scNotify s (.notify t n a) n a))

/-- WAIT (R324): core `n` issues WAIT. -/
def execWait (t : DT) (n : Nat) (s : State) : Host.Outcome State Fault Refusal :=
  .next (run t s (fun s => scWait s (.wait t n) n))

/-- YIELD (R335): core `n` issues YIELD. -/
def execYield (t : DT) (n : Nat) (s : State) : Host.Outcome State Fault Refusal :=
  .next (run t s (fun s => scDepart s (.yield t n) n 1))

/-- END (R341): core `n` issues END. -/
def execEnd (t : DT) (n : Nat) (s : State) : Host.Outcome State Fault Refusal :=
  .next (run t s (fun s => scDepart s (.endProg t n) n 0))

/-- BREAK (R326): core `n` issues BREAK. -/
def execBreak (t : DT) (n : Nat) (s : State) : Host.Outcome State Fault Refusal :=
  .next (run t s (fun s => scIssue s n .control (scWf (.breakPoint t n)) (fun s => scFault s n 9 0)))

/-- TRACE (R447): core `n` issues TRACE imm. -/
def execTrace (t : DT) (n imm : Nat) (s : State) : Host.Outcome State Fault Refusal :=
  .next (run t s (fun s => scTrace s (.trace t n imm) n imm))

/-- PREEMPTION (R321): core `n` takes the pre-emption request that Keystone has made. -/
def execPreemption (t : DT) (n : Nat) (s : State) : Host.Outcome State Fault Refusal :=
  .next (run t s (fun s => scPreempt s n))

/-- CONTEXT_SAVE_DONE (R323): core `n` has written the save area of the context that leaves. -/
def execContextSaveDone (t : DT) (n : Nat) (s : State) : Host.Outcome State Fault Refusal :=
  .next (run t s (fun s => contextSaved s n))

/-- DORMANT (R327): core `n` becomes dormant. -/
def execDormant (t : DT) (n : Nat) (s : State) : Host.Outcome State Fault Refusal :=
  .next (run t s (fun s => coreDormant s n))

/-- WAKE (R327): core `n` wakes. -/
def execWake (t : DT) (n : Nat) (s : State) : Host.Outcome State Fault Refusal :=
  .next (run t s (fun s => coreWake s n))

/-- SC_ENABLE (R330): master `m` sets ENABLE of the page of core `n`. -/
def execScEnable (t : DT) (m n : Nat) (s : State) : Host.Outcome State Fault Refusal :=
  .next (runOn t s (pSC (n % 8)) (.reg m ((pSC (n % 8)) + 8) 1)
    (fun s => ctrlWrite s m (pSC (n % 8)) 1 none))

/-- SC_DISABLE (R330): master `m` clears ENABLE of the page of core `n`. -/
def execScDisable (t : DT) (m n : Nat) (s : State) : Host.Outcome State Fault Refusal :=
  .next (runOn t s (pSC (n % 8)) (.reg m ((pSC (n % 8)) + 8) 0)
    (fun s => ctrlWrite s m (pSC (n % 8)) 0 none))

/-- SC_SNAP_TAKE (R420): master `m` writes SC_SNAP of core `n`. -/
def execScSnapTake (t : DT) (m n : Nat) (s : State) : Host.Outcome State Fault Refusal :=
  .next (runOn t s (pSC (n % 8) + 0x98) (.reg m (pSC (n % 8) + 0x98) 1)
    (fun s => snapTake s m (pSC (n % 8) + 0x98) 1))

end Sys2Proof.Machine
end

