-- ==== Sys2Proof/Machine/CmdCoreMem.lean ====
section
/-! DEFINITION. The signal-core instructions of classes X, P and G, and what follows from remote accesses (chapter 12). -/

namespace Sys2Proof.Machine

/-- LD (R309): core `n` issues LD.z gd, [pp], mode; the size is 2^size bytes. -/
def execLd (t : DT) (n d p mode size : Nat) (sign : Bool) (s : State) : Host.Outcome State Fault Refusal :=
  .next (run t s (fun s => memLd s (.ld t n d p mode size sign) n d p mode size sign))

/-- ST (R315): core `n` issues ST.z gr, [pp], mode; the size is 2^size bytes. -/
def execSt (t : DT) (n r p mode size : Nat) (s : State) : Host.Outcome State Fault Refusal :=
  .next (run t s (fun s => memSt s (.st t n r p mode size) n r p mode size))

/-- LDXY (R300): core `n` issues LDXY gd, ge, [px] mx, [py] my. -/
def execLdxy (t : DT) (n d e px mx py my : Nat) (s : State) : Host.Outcome State Fault Refusal :=
  .next (run t s (fun s => memLdxy s (.ldxy t n d e px mx py my) n d e px mx py my))

/-- LDD (R311): core `n` issues LDD.z gd, [ga + imm]. -/
def execLdd (t : DT) (n d a : Nat) (imm : Int) (size : Nat) (sign : Bool) (s : State) :
    Host.Outcome State Fault Refusal :=
  .next (run t s (fun s => memLdd s (.ldd t n d a imm size sign) n d a imm size sign))

/-- STD (R311): core `n` issues STD.z gr, [ga + imm]. -/
def execStd (t : DT) (n r a : Nat) (imm : Int) (size : Nat) (s : State) : Host.Outcome State Fault Refusal :=
  .next (run t s (fun s => memStd s (.std t n r a imm size) n r a imm size))

/-- SETP (R329): core `n` issues SETP pp, ga. -/
def execSetp (t : DT) (n p a : Nat) (s : State) : Host.Outcome State Fault Refusal :=
  .next (run t s (fun s => scRun s (.setp t n p a) n 1 .plain (fun _ x => scDelP x (.ptr p (low32 x a)))))

/-- SETM (R329): core `n` issues SETM pp, ga. -/
def execSetm (t : DT) (n p a : Nat) (s : State) : Host.Outcome State Fault Refusal :=
  .next (run t s (fun s => scRun s (.setm t n p a) n 1 .plain (fun _ x => scDelP x (.modifier p (low32 x a)))))

/-- SETC (R311): core `n` issues SETC pp, ga, gb. -/
def execSetc (t : DT) (n p a b : Nat) (s : State) : Host.Outcome State Fault Refusal :=
  .next (run t s (fun s => ptrSetc s (.setc t n p a b) n p a b))

/-- GETP (R329): core `n` issues GETP gd, pp. -/
def execGetp (t : DT) (n d p : Nat) (s : State) : Host.Outcome State Fault Refusal :=
  .next (run t s (fun s =>
    scRun s (.getp t n d p) n 1 .plain (fun s x =>
      scPlain (x.setG d ((x.seenPtr (s.core n).delP).p.look p).toNat))))

/-- GETM (R329): core `n` issues GETM gd, pp. -/
def execGetm (t : DT) (n d p : Nat) (s : State) : Host.Outcome State Fault Refusal :=
  .next (run t s (fun s =>
    scRun s (.getm t n d p) n 1 .plain (fun s x =>
      scPlain (x.setG d (ofS 64 ((x.seenPtr (s.core n).delP).m.look p).toInt)))))

/-- LDR (R318): core `n` issues LDR.z gd, [ga]. -/
def execLdr (t : DT) (n d a size : Nat) (sign : Bool) (s : State) : Host.Outcome State Fault Refusal :=
  .next (run t s (fun s => scLdr busRead (qeCatchUp s false) (.ldr t n d a size sign) n d a size sign))

/-- LDR_DATA_RETURN (R318): the data of core `n`'s LDR arrive. -/
def execLdrDataReturn (t : DT) (n : Nat) (s : State) : Host.Outcome State Fault Refusal :=
  .next (run t s (fun s => if n < 8 then ldrReturn s n else s))

/-- STR (R318): core `n` issues STR.z gr, [ga]. -/
def execStr (t : DT) (n r a size : Nat) (s : State) : Host.Outcome State Fault Refusal :=
  .next (run t s (fun s => scStr busWrite (qeCatchUp s false) (.str t n r a size) n r a size))

/-- FENCE (R319): core `n` issues FENCE. -/
def execFence (t : DT) (n : Nat) (s : State) : Host.Outcome State Fault Refusal :=
  .next (run t s (fun s => scFence s (.fence t n) n))

/-- REMOTE_STORE_ACK (R319): the target acknowledges the oldest remote store of core `n`. -/
def execRemoteStoreAck (t : DT) (n : Nat) (s : State) : Host.Outcome State Fault Refusal :=
  .next (run t s (fun s => if n < 8 then remoteAck s n else s))

/-- REMOTE_TIMEOUT (R318): the time limit of core `n`'s oldest remote access has passed. -/
def execRemoteTimeout (t : DT) (n : Nat) (s : State) : Host.Outcome State Fault Refusal :=
  .next (run t s (fun s => if n < 8 then remoteTimeout s n else s))

end Sys2Proof.Machine
end

