-- ==== Sys2Proof/Machine/CmdCycle.lean ====
section
/-! DEFINITION. The servo cycle, device time, the reference and the slack governor (chapters 2 and 3). -/

namespace Sys2Proof.Machine

/-- T0 (R30): the start of a cycle, where one is due. -/
def execT0 (t : DT) (s : State) : Host.Outcome State Fault Refusal :=
  .next (runT0 t s)

/-- FEEDBACK_CLOSE (R108): T0 + UL_END; `peer` is the set that the partner's digest stands for and that set
after the partner has compared it with its image (R397), `flawed` the protected words found uncorrectable, `flagged` whether the injected mismatch was flagged. -/
def execFeedbackClose (t : DT) (peer : Option (List (Nat × Word) × List (Nat × Word))) (flawed : List Nat) (flagged : Bool) (s : State) :
    Host.Outcome State Fault Refusal :=
  .next (runPhase t s 2 s.time.live.ulEnd (fun s => mirrorDrain (ulEnd s peer flawed flagged)))

/-- CW_START (R339): T0 + CW_START. -/
def execCwStart (t : DT) (s : State) : Host.Outcome State Fault Refusal :=
  .next (runPhase t s 3 s.time.live.cwStart cwStart)

/-- CW_END (R42): T0 + CW_END. -/
def execCwEnd (t : DT) (s : State) : Host.Outcome State Fault Refusal :=
  .next (runPhase t s 4 s.time.live.cwEnd cwEnd)

/-- TR (R170): T0 + TR. -/
def execTr (t : DT) (s : State) : Host.Outcome State Fault Refusal :=
  .next (runPhase t s 5 s.time.live.tr trPhase)

/-- DL_END (R52): T0 + DL_END, at which a cycle is complete. -/
def execDlEnd (t : DT) (s : State) : Host.Outcome State Fault Refusal :=
  .next (runPhase t s 6 s.time.live.dlEnd dlEnd)

/-- TICK (R343): a Keystone tick, and behind it what came at its very instant (R421). -/
def execTick (t : DT) (s : State) : Host.Outcome State Fault Refusal :=
  .next (run t s (fun s => boundaryPast s (ksTick (fun s m a v => busWrite s m a v 8) s)))

/-- VFIXED_WALK_STEP (R53): one step of the code toward VFIXED. -/
def execVfixedWalkStep (t : DT) (s : State) : Host.Outcome State Fault Refusal :=
  .next (run t s (fun s => sgWalk s))

/-- HOUSEKEEPING_EDGE (R419): an edge of the always-on domain, with the values measured. -/
def execHousekeepingEdge (t : DT) (vcore va ca vb cb holdup : Nat) (tj : Int) (s : State) :
    Host.Outcome State Fault Refusal :=
  .next (run t s (fun s => housekeeping (qeCatchUp s false) vcore va ca vb cb holdup tj))

/-- DT_WRAP (R61): DT passes to 0 and ERA counts. -/
def execDtWrap (_t : DT) (s : State) : Host.Outcome State Fault Refusal :=
  .next (runAt s s.time.wrap s.time.wrap id)

/-- REF_LOST (R64): the 25 MHz reference is lost. -/
def execRefLost (t : DT) (s : State) : Host.Outcome State Fault Refusal :=
  .next (run t s (fun s => refLost s))

/-- REF_RESTORED (R64): the reference returns. -/
def execRefRestored (t : DT) (s : State) : Host.Outcome State Fault Refusal :=
  .next (run t s (fun s => refRestored s))

/-- CYCLE_ENABLE (R34): master `m` sets ENABLE of the cycle page. -/
def execCycleEnable (t : DT) (m : Nat) (s : State) : Host.Outcome State Fault Refusal :=
  .next (runOn t s pCyc (.reg m (pCyc + 8) 1)
    (fun s => ctrlWrite s m pCyc 1 none))

/-- CYCLE_DISABLE (R35): master `m` clears ENABLE of the cycle page. -/
def execCycleDisable (t : DT) (m : Nat) (s : State) : Host.Outcome State Fault Refusal :=
  .next (runOn t s pCyc (.reg m (pCyc + 8) 0)
    (fun s => ctrlWrite s m pCyc 0 none))

/-- LATE_HOLD (R48): HOLD_RUN of axis `a` has reached 3. -/
def execLateHold (t : DT) (a : Nat) (s : State) : Host.Outcome State Fault Refusal :=
  .next (run t s (fun s => lateHold s (a % 512)))

/-- CYC_SNAP_TAKE (R58): master `m` takes CYC_SNAP. -/
def execCycSnapTake (t : DT) (m : Nat) (s : State) : Host.Outcome State Fault Refusal :=
  .next (runOn t s F.CYC_SNAP_TAKE.adr (.reg m F.CYC_SNAP_TAKE.adr 1)
    (fun s => snapTake s m F.CYC_SNAP_TAKE.adr 1))

/-- SG_ENABLE (R57): master `m` sets ENABLE of the SG page. -/
def execSgEnable (t : DT) (m : Nat) (s : State) : Host.Outcome State Fault Refusal :=
  .next (runOn t s pSG (.reg m (pSG + 8) 1)
    (fun s => ctrlWrite s m pSG 1 none))

/-- SG_DISABLE (R53): master `m` clears ENABLE of the SG page. -/
def execSgDisable (t : DT) (m : Nat) (s : State) : Host.Outcome State Fault Refusal :=
  .next (runOn t s pSG (.reg m (pSG + 8) 0)
    (fun s => ctrlWrite s m pSG 0 none))

/-- SG_STATS_RESET (R56): master `m` resets the SG statistics. -/
def execSgStatsReset (t : DT) (m : Nat) (s : State) : Host.Outcome State Fault Refusal :=
  .next (runReg t s m F.SG_STATS_RESET_RESET.adr 1)

/-- SG_HIST_SNAP_TAKE (R56): master `m` takes SG_HIST_SNAP. -/
def execSgHistSnapTake (t : DT) (m : Nat) (s : State) : Host.Outcome State Fault Refusal :=
  .next (runOn t s F.SG_HIST_SNAP_TAKE.adr (.reg m F.SG_HIST_SNAP_TAKE.adr 1)
    (fun s => snapTake s m F.SG_HIST_SNAP_TAKE.adr 1))

/-- TIME_PAGE_ENABLE (R85): master `m` sets ENABLE of the TU time page. -/
def execTimePageEnable (t : DT) (m : Nat) (s : State) : Host.Outcome State Fault Refusal :=
  .next (runOn t s pTU (.reg m (pTU + 8) 1)
    (fun s => ctrlWrite s m pTU 1 none))

/-- TU_SNAP_TAKE (R66): master `m` takes TU_SNAP. -/
def execTuSnapTake (t : DT) (m : Nat) (s : State) : Host.Outcome State Fault Refusal :=
  .next (runOn t s F.TU_SNAP_TAKE.adr (.reg m F.TU_SNAP_TAKE.adr 1)
    (fun s => snapTake s m F.TU_SNAP_TAKE.adr 1))

/-- TSCORR_WRITE (R68): a write of TU_TSCORRn. -/
def execTscorrWrite (t : DT) (n : Nat) (v : Word) (s : State) : Host.Outcome State Fault Refusal :=
  .next (run t s (fun s => if n < 10 then suppliedTo s pTU (fun s => tscorrWrite s n v.toNat) else s))

end Sys2Proof.Machine
end

