-- ==== Sys2Proof/Machine/CmdFeedback.lean ====
section
/-! DEFINITION. Position feedback and the local quadrature channels (chapter 4). -/

namespace Sys2Proof.Machine

/-- FBE_ENABLE (R120): master `m` sets ENABLE of the FBE page. -/
def execFbeEnable (t : DT) (m : Nat) (s : State) : Host.Outcome State Fault Refusal :=
  .next (runOn t s pFBE (.reg m (pFBE + 8) 1)
    (fun s => ctrlWrite s m pFBE 1 none))

/-- FBE_DISABLE (R88): master `m` clears ENABLE of the FBE page. -/
def execFbeDisable (t : DT) (m : Nat) (s : State) : Host.Outcome State Fault Refusal :=
  .next (runOn t s pFBE (.reg m (pFBE + 8) 0)
    (fun s => ctrlWrite s m pFBE 0 none))

/-- FEEDBACK_START (R88): master `m` writes FBE_AXCTL.START for axis `a`. -/
def execFeedbackStart (t : DT) (m a : Nat) (s : State) : Host.Outcome State Fault Refusal :=
  .next (runOn t s pFBE (.reg m F.FBE_AXCTL_AXIS.adr (BitVec.ofNat 64 ((1 <<< 63) + a % 512)))
    (fun s => axctlWrite s m ((1 <<< 63) + a % 512)))

/-- FEEDBACK_STOP (R88): master `m` writes FBE_AXCTL.STOP for axis `a`. -/
def execFeedbackStop (t : DT) (m a : Nat) (s : State) : Host.Outcome State Fault Refusal :=
  .next (runOn t s pFBE (.reg m F.FBE_AXCTL_AXIS.adr (BitVec.ofNat 64 ((1 <<< 62) + a % 512)))
    (fun s => axctlWrite s m ((1 <<< 62) + a % 512)))

/-- FBE_SNAP_TAKE (R119): master `m` takes FBE_SNAP. -/
def execFbeSnapTake (t : DT) (m : Nat) (s : State) : Host.Outcome State Fault Refusal :=
  .next (runOn t s F.FBE_SNAP_TAKE.adr (.reg m F.FBE_SNAP_TAKE.adr 1)
    (fun s => snapTake (qeCatchUp s false) m F.FBE_SNAP_TAKE.adr 1))

/-- FB_LOST (R109): MISS_RUN of axis `a` has reached MISS_LIMIT. -/
def execFbLost (t : DT) (a : Nat) (s : State) : Host.Outcome State Fault Refusal :=
  .next (run t s (fun s => fbLost (qeCatchUp s false) (a % 512)))

/-- SETTLED (R114): the measured updates of axis `a` have reached their count. -/
def execSettled (t : DT) (a : Nat) (s : State) : Host.Outcome State Fault Refusal :=
  .next (run t s (fun s => fbSettled (qeCatchUp s false) (a % 512)))

/-- QE_PAGE_ENABLE (R120): master `m` sets ENABLE of the QE page. -/
def execQePageEnable (t : DT) (m : Nat) (s : State) : Host.Outcome State Fault Refusal :=
  .next (runOn t s pQE (.reg m (pQE + 8) 1)
    (fun s => ctrlWrite s m pQE 1 none))

/-- QE_CHANNEL_ENABLE (R120): master `m` writes QE_CFGn with EN set and the other fields of `v`. -/
def execQeChannelEnable (t : DT) (m n : Nat) (v : Word) (s : State) : Host.Outcome State Fault Refusal :=
  .next (runOn t s pQE (.reg m (F.QE_CFG_EN (n % 32)).adr (BitVec.ofNat 64 (setBits v.toNat 0 1 1)))
    (fun s => qeCfgWrite s m (n % 32) (setBits v.toNat 0 1 1)))

/-- QE_EDGE (R92, R93): a 400 MHz sample of channel `n`: of A, B and Z the last three samples, the latest in bit 0. -/
def execQeEdge (t : DT) (n a b z : Nat) (s : State) : Host.Outcome State Fault Refusal :=
  .next (run t s (fun s => if n < 32 then qeEdge s n a b z else s))

/-- QE_TRIP (R98): the faults of channel `n` have reached FAULT_LIMIT. -/
def execQeTrip (t : DT) (n : Nat) (s : State) : Host.Outcome State Fault Refusal :=
  .next (run t s (fun s => if n < 32 then qeTrip (qeCatchUp s false) n else s))

/-- QE_CLEAN (R99): CLEAN_CYCLES cycles of channel `n` without a fault have passed. -/
def execQeClean (t : DT) (n : Nat) (s : State) : Host.Outcome State Fault Refusal :=
  .next (run t s (fun s => if n < 32 then qeClean (qeCatchUp s false) n else s))

/-- INJECT (R100): master `m` writes QE_CTRLn.INJECT. -/
def execInject (t : DT) (m n : Nat) (s : State) : Host.Outcome State Fault Refusal :=
  .next (runOn t s pQE (.reg m (F.QE_CTRL (n % 32)).adr 4)
    (fun s => qeCtrl s m (n % 32) true false false))

/-- CLR_FAULTS (R118): master `m` writes QE_CTRLn.CLR_FAULTS. -/
def execClrFaults (t : DT) (m n : Nat) (s : State) : Host.Outcome State Fault Refusal :=
  .next (runOn t s pQE (.reg m (F.QE_CTRL (n % 32)).adr 2)
    (fun s => qeCtrl s m (n % 32) false true false))

/-- REGUARD (R98): master `m` writes QE_CTRLn.REGUARD. -/
def execReguard (t : DT) (m n : Nat) (s : State) : Host.Outcome State Fault Refusal :=
  .next (runOn t s pQE (.reg m (F.QE_CTRL (n % 32)).adr 1)
    (fun s => qeCtrl s m (n % 32) false false true))

/-- QE_SNAP_TAKE (R119): master `m` takes QE_SNAP of channel `n`. -/
def execQeSnapTake (t : DT) (m n : Nat) (s : State) : Host.Outcome State Fault Refusal :=
  .next (runOn t s F.QE_SNAP_TAKE.adr (.reg m F.QE_SNAP_TAKE.adr (BitVec.ofNat 64 (256 + n % 32)))
    (fun s => snapTake (qeCatchUp s false) m F.QE_SNAP_TAKE.adr (256 + n % 32)))

end Sys2Proof.Machine
end

