-- ==== Sys2Proof/Machine/CmdField.lean ====
section
/-! DEFINITION. The Seluth segments: links, discovery, frames, slots, claims and mode epochs (chapters 8 and 9). -/

namespace Sys2Proof.Machine

/-- FP_ENABLE (R222): master `m` sets ENABLE of the page of port `p` by a guarded write. -/
def execFpEnable (t : DT) (m p : Nat) (s : State) : Host.Outcome State Fault Refusal :=
  .next (runGuarded t s m (pFP (p % 8)) 0x08 1)

/-- FP_DISABLE (R235): master `m` clears ENABLE of the page of port `p` by a guarded write. -/
def execFpDisable (t : DT) (m p : Nat) (s : State) : Host.Outcome State Fault Refusal :=
  .next (runGuarded t s m (pFP (p % 8)) 0x08 0)

/-- LINK_UP (R213): the link of port `p` comes up. -/
def execLinkUp (t : DT) (p : Nat) (s : State) : Host.Outcome State Fault Refusal :=
  .next (run t s (fun s => if p < 8 then linkUp s p else s))

/-- LINK_DOWN (R213): the link of port `p` goes down. -/
def execLinkDown (t : DT) (p : Nat) (s : State) : Host.Outcome State Fault Refusal :=
  .next (run t s (fun s => if p < 8 then linkDown s p else s))

/-- DISCOVERY_START (R212): master `m` writes FP_DISC.START of port `p`. -/
def execDiscoveryStart (t : DT) (m p : Nat) (s : State) : Host.Outcome State Fault Refusal :=
  .next (runOn t s (pFP (p % 8)) (.reg m (F.FP_DISC_START (p % 8)).adr (BitVec.ofNat 64 (setBits (s.reg (F.FP_DISC_START (p % 8)).adr) 63 1 1)))
    (fun s => reqAct s .discoveryStart (pFP (p % 8)) (p % 8) (1 <<< 63) m none))

/-- ANNOUNCE_RECEIVED (R212): an ANNOUNCE arrives at port `p`. -/
def execAnnounceReceived (t : DT) (p : Nat) (h : FrameHdr) (b : AnnounceBody) (s : State) :
    Host.Outcome State Fault Refusal :=
  .next (run t s (fun s => if p < 8 then announceReceived s p h b else s))

/-- DISCOVER_TIMEOUT (R212): 100 µs have passed since the last DISCOVER of port `p`. -/
def execDiscoverTimeout (t : DT) (p : Nat) (s : State) : Host.Outcome State Fault Refusal :=
  .next (run t s (fun s => if p < 8 then discTimeout s p else s))

/-- ALONE_DISCOVER (R214): 1 ms has passed in an ALONE segment. -/
def execAloneDiscover (t : DT) (p : Nat) (s : State) : Host.Outcome State Fault Refusal :=
  .next (run t s (fun s => if p < 8 then aloneDiscover s p else s))

/-- DISCOVER_RECEIVED (R212): a DISCOVER arrives at port `p` of the standby. -/
def execDiscoverReceived (t : DT) (p : Nat) (h : FrameHdr) (s : State) : Host.Outcome State Fault Refusal :=
  .next (run t s (fun s => if p < 8 then discoverReceived s p h else s))

/-- UPLINK_RECEIVED (R230): an UPLINK arrives at port `p`. -/
def execUplinkReceived (t : DT) (p : Nat) (h : FrameHdr) (b : UplinkBody) (s : State) :
    Host.Outcome State Fault Refusal :=
  .next (run t s (fun s => if p < 8 then uplinkReceived (qeCatchUp s false) p h b else s))

/-- SENSOR_RECEIVED (R254): a SENSOR frame arrives at port `p`. -/
def execSensorReceived (t : DT) (p : Nat) (h : FrameHdr) (b : SensorBody) (s : State) :
    Host.Outcome State Fault Refusal :=
  .next (run t s (fun s => if p < 8 then sensorReceived s p h b else s))

/-- DOWNLINK_RECEIVED (R394): a DOWNLINK arrives at port `p` of the standby. -/
def execDownlinkReceived (t : DT) (p : Nat) (h : FrameHdr) (b : DownlinkBody) (s : State) :
    Host.Outcome State Fault Refusal :=
  .next (run t s (fun s => if p < 8 then downlinkReceived s p h b else s))

/-- NODE_MUTED (R233): the faults of node `j` have reached MUTE_LIMIT. -/
def execNodeMuted (t : DT) (p j : Nat) (s : State) : Host.Outcome State Fault Refusal :=
  .next (run t s (fun s => if p < 8 && j < 32 then nodeMuted s p j else s))

/-- RING_HEALED (R218): the 64 cycles of R218 have passed. -/
def execRingHealed (t : DT) (p : Nat) (s : State) : Host.Outcome State Fault Refusal :=
  .next (run t s (fun s => if p < 8 then ringHealed s p else s))

/-- RELAY_FRAME_RECEIVED (R216): the party-wall link relays a frame or a record of segment `p`. -/
def execRelayFrameReceived (t : DT) (p : Nat) (b : RelayIn) (s : State) : Host.Outcome State Fault Refusal :=
  .next (run t s (fun s => pwTakes s b.full (fun s =>
    if p < 8 && s.tw.link then
      (match b.body with
       | .uplink h b => relayUplink s p h b
       | .sensor h b => relaySensor s p h b
       | .record node index axisWord flags main aux => relayRecord s p node index axisWord flags main aux
       | .epoch next cmd act => relayEpoch s p next cmd act)
    else s)))

/-- FP_SNAP_TAKE (R119): master `m` takes FP_SNAP of port `p`. -/
def execFpSnapTake (t : DT) (m p : Nat) (s : State) : Host.Outcome State Fault Refusal :=
  .next (runOn t s (F.FP_SNAP_TAKE (p % 8)).adr (.reg m (F.FP_SNAP_TAKE (p % 8)).adr 1)
    (fun s => snapTake s m (F.FP_SNAP_TAKE (p % 8)).adr 1))

/-- FP_GSNAP_TAKE (R232): master `m` takes FP_GSNAP of port `p`. -/
def execFpGsnapTake (t : DT) (m p : Nat) (s : State) : Host.Outcome State Fault Refusal :=
  .next (runOn t s (F.FP_GSNAP_TAKE (p % 8)).adr (.reg m (F.FP_GSNAP_TAKE (p % 8)).adr 1)
    (fun s => snapTake s m (F.FP_GSNAP_TAKE (p % 8)).adr 1))

/-- COMMIT (R228): master `m` commits the shadow bank of port `p` by a guarded FP_COMMIT. -/
def execCommit (t : DT) (m p : Nat) (s : State) : Host.Outcome State Fault Refusal :=
  .next (runGuarded t s m (pFP (p % 8)) 0x148 1)

/-- RELEASE (R228): master `m` releases the schedule of port `p` by a guarded FP_COMMIT. -/
def execRelease (t : DT) (m p : Nat) (s : State) : Host.Outcome State Fault Refusal :=
  .next (runGuarded t s m (pFP (p % 8)) 0x148 2)

/-- MUTE (R234): master `m` mutes node `j` by FP_MUTECTL. -/
def execMute (t : DT) (m p j : Nat) (s : State) : Host.Outcome State Fault Refusal :=
  .next (runOn t s (pFP (p % 8)) (.reg m (pFP (p % 8) + 0x150) (BitVec.ofNat 64 ((1 <<< 8) + j % 32)))
    (fun s => portWrite s m (pFP (p % 8)) (pFP (p % 8) + 0x150) ((1 <<< 8) + j % 32)))

/-- UNMUTE (R234): master `m` unmutes node `j` by FP_MUTECTL. -/
def execUnmute (t : DT) (m p j : Nat) (s : State) : Host.Outcome State Fault Refusal :=
  .next (runOn t s (pFP (p % 8)) (.reg m (pFP (p % 8) + 0x150) (BitVec.ofNat 64 ((2 <<< 8) + j % 32)))
    (fun s => portWrite s m (pFP (p % 8)) (pFP (p % 8) + 0x150) ((2 <<< 8) + j % 32)))

/-- CLAIM_RECEIVED (R236): a CLAIM arrives at port `p`. -/
def execClaimReceived (t : DT) (p : Nat) (h : FrameHdr) (b : AnnounceBody) (s : State) :
    Host.Outcome State Fault Refusal :=
  .next (run t s (fun s => if p < 8 then claimReceived s p h b else s))

/-- EPOCH_REQUEST (R241): master `m` requests an epoch change by a guarded FP_EPOCH_CMD. -/
def execEpochRequest (t : DT) (m : Nat) (s : State) : Host.Outcome State Fault Refusal :=
  .next (runGuarded t s m pEpoch 0x88 1)

/-- EPOCH_CANCEL (R244): master `m` cancels the pending change by a guarded FP_EPOCH_CMD. -/
def execEpochCancel (t : DT) (m : Nat) (s : State) : Host.Outcome State Fault Refusal :=
  .next (runGuarded t s m pEpoch 0x88 2)

/-- NODE_EPOCH_STOP (R247): node `j` has been in the wrong epoch for 16 cycles. -/
def execNodeEpochStop (t : DT) (p j : Nat) (s : State) : Host.Outcome State Fault Refusal :=
  .next (run t s (fun s => if p < 8 && j < 32 then nodeEpochStop s p j else s))

end Sys2Proof.Machine
end

