-- ==== Sys2Proof/Machine/CmdHost.lean ====
section
/-! DEFINITION. The host interfaces, the maintenance port, trace and JTAG (chapter 17). -/

namespace Sys2Proof.Machine

/-- PERST (R437): PERST# is asserted. -/
def execPerst (t : DT) (s : State) : Host.Outcome State Fault Refusal :=
  .next (run t s (fun s => hpReset s false false))

/-- HOT_RESET (R437): a hot reset. -/
def execHotReset (t : DT) (s : State) : Host.Outcome State Fault Refusal :=
  .next (run t s (fun s => hpReset s s.hp.link false))

/-- FUNCTION_LEVEL_RESET (R437): a Function Level Reset. -/
def execFunctionLevelReset (t : DT) (s : State) : Host.Outcome State Fault Refusal :=
  .next (run t s (fun s => hpReset s s.hp.link false))

/-- D3HOT_ENTRY (R437): the function enters D3hot. -/
def execD3hotEntry (t : DT) (s : State) : Host.Outcome State Fault Refusal :=
  .next (run t s (fun s => if s.hp.link then hpReset s true true else s))

/-- HP_LINK_UP (R452): the PCIe link comes up. -/
def execHpLinkUp (t : DT) (width speed : Nat) (s : State) : Host.Outcome State Fault Refusal :=
  .next (run t s (fun s => hpLinkUp s width speed))

/-- HP_LINK_DOWN (R437): the PCIe link goes down. -/
def execHpLinkDown (t : DT) (s : State) : Host.Outcome State Fault Refusal :=
  .next (run t s (fun s => hpLinkDown s))

/-- CONFIG_SPACE_WRITE (R437): the host writes Bus Master Enable and the MSI-X control, and may return the function to D0. -/
def execConfigSpaceWrite (t : DT) (bme : HpConfig) (d0 : Bool) (s : State) : Host.Outcome State Fault Refusal :=
  .next (run t s (fun s => configWrite s bme d0))

/-- HOST_ACCESS (R26): a host access of `n` bytes at offset `off` of space `sp`: a write of a value, or a read. -/
def execHostAccess (t : DT) (sp off n : Nat) (write : HostOp) (s : State) : Host.Outcome State Fault Refusal :=
  .next (run t s (fun s => match write with
    | .read => hostAccess (qeCatchUp s false) sp off n none false
    | .write v full poison => hostAccess (qeCatchUp s false) sp off n (some (v, poison)) full))

/-- HE_LINK_UP (R452): the link of HE port `n` comes up. -/
def execHeLinkUp (t : DT) (n : Nat) (s : State) : Host.Outcome State Fault Refusal :=
  .next (run t s (fun s => heLinkUp s n))

/-- HE_LINK_DOWN (R452): the link of HE port `n` goes down. -/
def execHeLinkDown (t : DT) (n : Nat) (s : State) : Host.Outcome State Fault Refusal :=
  .next (run t s (fun s => heLinkDown s n))

/-- REGISTER_ACCESS_REQUEST (R439): a register-access datagram arrives at HE port `n`; `pass` tells the outcome of
self-checks. -/
def execRegisterAccessRequest (t : DT) (n : HeIn) (ip port target dport magic version count seq pass : Nat) (ops : List (Nat × Nat × Nat × Word)) (s : State) :
    Host.Outcome State Fault Refusal :=
  .next (run t s (fun s => heTakes (qeCatchUp s false) n (fun s => raRequest s n.port ip port target dport magic version count seq pass ops)))

/-- ARP_REQUEST (R438): an ARP request arrives at HE port `n`. -/
def execArpRequest (t : DT) (n : HeIn) (sender target : Nat) (s : State) : Host.Outcome State Fault Refusal :=
  .next (run t s (fun s => heTakes s n (fun s => arpRequest s n.port sender target)))

/-- MP_WRITE (R442): MP command 0x01. -/
def execMpWrite (t : DT) (addr : MpIn) (v : Word) (s : State) : Host.Outcome State Fault Refusal :=
  .next (run t s (fun s => mpWrite (qeCatchUp s false) addr v))

/-- MP_READ (R442): MP command 0x02. -/
def execMpRead (t : DT) (addr : MpIn) (s : State) : Host.Outcome State Fault Refusal :=
  .next (run t s (fun s => mpRead (qeCatchUp s false) addr))

/-- TRC_ENABLE (R447): master `m` sets ENABLE of the TRC page. -/
def execTrcEnable (t : DT) (m : Nat) (s : State) : Host.Outcome State Fault Refusal :=
  .next (runOn t s pTRC (.reg m (pTRC + 8) 1)
    (fun s => ctrlWrite s m pTRC 1 none))

/-- JTAG_BYPASS (R450): The BYPASS instruction. -/
def execJtagBypass (t : DT) (s : State) : Host.Outcome State Fault Refusal :=
  .next (run t s (fun s => jtagBypass s))

/-- JTAG_IDCODE (R450): The IDCODE instruction returns 0x1E51_2C3D. -/
def execJtagIdcode (t : DT) (s : State) : Host.Outcome State Fault Refusal :=
  .next (run t s (fun s => jtagIdcode s))

/-- SAMPLE_PRELOAD (R450): SAMPLE/PRELOAD: the pins sampled and the value loaded. -/
def execSamplePreload (t : DT) (pins v : Word) (s : State) : Host.Outcome State Fault Refusal :=
  .next (run t s (fun s => jtagSample s pins v))

/-- EXTEST (R450): EXTEST, carried out only in minimal mode or a stopped SINGLE unit. -/
def execExtest (t : DT) (s : State) : Host.Outcome State Fault Refusal :=
  .next (run t s (fun s => jtagExtest s))

/-- DEBUG (R450): DEBUG: an access at offset `off` of space `sp`. -/
def execDebug (t : DT) (sp off : Nat) (write : Option Word) (s : State) : Host.Outcome State Fault Refusal :=
  .next (run t s (fun s => jtagDebug (qeCatchUp s false) sp off write))

end Sys2Proof.Machine
end

