-- ==== Sys2Proof/Machine/CmdKeystone.lean ====
section
/-! DEFINITION. Keystone: contexts, flows, the delay list, locks and credits (chapter 13). -/

namespace Sys2Proof.Machine

/-- KS_DISABLE (R355): master `m` clears ENABLE of the KS page. -/
def execKsDisable (t : DT) (m : Nat) (s : State) : Host.Outcome State Fault Refusal :=
  .next (runOn t s pKS (.reg m (pKS + 8) 0)
    (fun s => ctrlWrite s m pKS 0 none))

/-- CX_START (R333): master `m` starts context `c` by KS_CXCTL. -/
def execCxStart (t : DT) (m c : Nat) (s : State) : Host.Outcome State Fault Refusal :=
  .next (runOn t s F.KS_CXCTL_OP.adr (.reg m F.KS_CXCTL_OP.adr (BitVec.ofNat 64 ((1 <<< 61) + c % 1024)))
    (fun s => ksWrite s m F.KS_CXCTL_OP.adr ((1 <<< 61) + c % 1024)))

/-- CX_RESUME (R333): master `m` resumes context `c` by KS_CXCTL. -/
def execCxResume (t : DT) (m c : Nat) (s : State) : Host.Outcome State Fault Refusal :=
  .next (runOn t s F.KS_CXCTL_OP.adr (.reg m F.KS_CXCTL_OP.adr (BitVec.ofNat 64 ((2 <<< 61) + c % 1024)))
    (fun s => ksWrite s m F.KS_CXCTL_OP.adr ((2 <<< 61) + c % 1024)))

/-- CX_RESET (R333): master `m` resets context `c` by KS_CXCTL. -/
def execCxReset (t : DT) (m c : Nat) (s : State) : Host.Outcome State Fault Refusal :=
  .next (runOn t s F.KS_CXCTL_OP.adr (.reg m F.KS_CXCTL_OP.adr (BitVec.ofNat 64 ((3 <<< 61) + c % 1024)))
    (fun s => ksWrite s m F.KS_CXCTL_OP.adr ((3 <<< 61) + c % 1024)))

/-- CX_NOTIFY (R334): master `m` notifies context `c` by KS_CXCTL. -/
def execCxNotify (t : DT) (m c : Nat) (s : State) : Host.Outcome State Fault Refusal :=
  .next (runOn t s F.KS_CXCTL_OP.adr (.reg m F.KS_CXCTL_OP.adr (BitVec.ofNat 64 ((4 <<< 61) + c % 1024)))
    (fun s => ksWrite s m F.KS_CXCTL_OP.adr ((4 <<< 61) + c % 1024)))

/-- CONTEXT_PREFETCH (R336): Keystone fills an empty prefetch slot. -/
def execContextPrefetch (t : DT) (s : State) : Host.Outcome State Fault Refusal :=
  .next (run t s (fun s => prefetchNext s))

/-- FLOW_ENABLE (R340): master `m` enables flow `f` by KS_FLOWCTL. -/
def execFlowEnable (t : DT) (m f : Nat) (s : State) : Host.Outcome State Fault Refusal :=
  .next (runOn t s F.KS_FLOWCTL_OP.adr (.reg m F.KS_FLOWCTL_OP.adr (BitVec.ofNat 64 ((1 <<< 62) + f % 64)))
    (fun s => ksWrite s m F.KS_FLOWCTL_OP.adr ((1 <<< 62) + f % 64)))

/-- FLOW_DISABLE (R340): master `m` disables flow `f` by KS_FLOWCTL. -/
def execFlowDisable (t : DT) (m f : Nat) (s : State) : Host.Outcome State Fault Refusal :=
  .next (runOn t s F.KS_FLOWCTL_OP.adr (.reg m F.KS_FLOWCTL_OP.adr (BitVec.ofNat 64 ((2 <<< 62) + f % 64)))
    (fun s => ksWrite s m F.KS_FLOWCTL_OP.adr ((2 <<< 62) + f % 64)))

/-- FLOW_POST (R341): master `m` posts its KS_POST_ARG to flow `f`. -/
def execFlowPost (t : DT) (m f : Nat) (s : State) : Host.Outcome State Fault Refusal :=
  .next (runOn t s pKS (.reg m F.KS_FLOW_POST_FLOW.adr (BitVec.ofNat 64 (f % 64)))
    (fun s => flowPost s m (f % 64)))

/-- DL_INSERT (R344): master `m` inserts an entry of the delay list from its own registers. -/
def execDlInsert (t : DT) (m tag : Nat) (write discard : Bool) (s : State) : Host.Outcome State Fault Refusal :=
  .next (runOn t s pKS (.reg m F.KS_DL_CTL_OP.adr (BitVec.ofNat 64 ((1 <<< 62) + (b2n write <<< 61) + (b2n discard <<< 60) + tag % 65536)))
    (fun s => dlInsert s m write discard (tag % 65536)))

/-- DL_CANCEL (R346): master `m` cancels the entries with the tag. -/
def execDlCancel (t : DT) (m tag : Nat) (s : State) : Host.Outcome State Fault Refusal :=
  .next (runOn t s pKS (.reg m F.KS_DL_CTL_OP.adr (BitVec.ofNat 64 ((2 <<< 62) + tag % 65536)))
    (fun s => dlCancel s m (tag % 65536)))

/-- ACQUIRE (R348): master `m` acquires lock `l` for `owner`. -/
def execAcquire (t : DT) (m l owner : Nat) (s : State) : Host.Outcome State Fault Refusal :=
  .next (runOn t s pKS (.reg m F.KS_LOCK_CMD_OP.adr (BitVec.ofNat 64 ((1 <<< 62) + ((owner % 1024) <<< 16) + l % 256)))
    (fun s => lockAcquire s m (l % 256) (owner % 1024)))

/-- LOCK_RELEASE (R348): master `m` releases lock `l` of `owner`. -/
def execLockRelease (t : DT) (m l owner : Nat) (s : State) : Host.Outcome State Fault Refusal :=
  .next (runOn t s pKS (.reg m F.KS_LOCK_CMD_OP.adr (BitVec.ofNat 64 ((2 <<< 62) + ((owner % 1024) <<< 16) + l % 256)))
    (fun s => lockRelease s m (l % 256) (owner % 1024)))

/-- QUOTA_WRITE (R351): CX_QUOTA.QUOTA of context `c` is written. -/
def execQuotaWrite (t : DT) (c q : Nat) (s : State) : Host.Outcome State Fault Refusal :=
  .next (run t s (fun s => suppliedTo s sramBase (fun s => dmaKick busWrite busRead (quotaWrite s (c % 1024) q))))

/-- KS_SNAP_TAKE (R352): master `m` takes KS_SNAP. -/
def execKsSnapTake (t : DT) (m : Nat) (s : State) : Host.Outcome State Fault Refusal :=
  .next (runOn t s F.KS_SNAP_TAKE.adr (.reg m F.KS_SNAP_TAKE.adr 1)
    (fun s => snapTake s m F.KS_SNAP_TAKE.adr 1))

/-- CREDIT_RETURN (R20, R350): a consumer removes a flit of a context from a Mortar queue, or DM12 and DM13 remove flits from
the stream-packet queue. -/
def execCreditReturn (t : DT) (c : Credit) (s : State) : Host.Outcome State Fault Refusal :=
  .next (run t s (fun s => match c with
    | .context c => dmaKick busWrite busRead (creditReturn s (c % 1024))
    | .stream n => pathDrain s n))

end Sys2Proof.Machine
end

