-- ==== Sys2Proof/Machine/CmdLoop.lean ====
section
/-! DEFINITION. The loop engines and the repetitive controllers (chapters 5 and 6). -/

namespace Sys2Proof.Machine

/-- LE_PAGE_ENABLE (R149): master `m` sets ENABLE of the LE page. -/
def execLePageEnable (t : DT) (m : Nat) (s : State) : Host.Outcome State Fault Refusal :=
  .next (runOn t s pLE (.reg m (pLE + 8) 1)
    (fun s => ctrlWrite s m pLE 1 none))

/-- AXIS_ENABLE (R141): master `m` enables axis `a` by a guarded LE_AXEN. -/
def execAxisEnable (t : DT) (m a : Nat) (s : State) : Host.Outcome State Fault Refusal :=
  .next (runGuarded t s m pLE 0x80 ((1 <<< 9) + a % 512))

/-- AXIS_DISABLE (R143): master `m` disables axis `a` by a guarded LE_AXEN. -/
def execAxisDisable (t : DT) (m a : Nat) (s : State) : Host.Outcome State Fault Refusal :=
  .next (runGuarded t s m pLE 0x80 (a % 512))

/-- AXIS_STEP_COMPLETE (R44): engine `n` completes the item it executes. -/
def execAxisStepComplete (t : DT) (n : Nat) (s : State) : Host.Outcome State Fault Refusal :=
  .next (run t s (fun s => if n < 16 then engineComplete s n else s))

/-- WITHDRAW (R148): master `m` writes LE_SVCn.WITHDRAW. -/
def execWithdraw (t : DT) (m n : Nat) (s : State) : Host.Outcome State Fault Refusal :=
  .next (runReg t s m (F.LE_SVC_RESTORE (n % 16)).adr (1 <<< 63))

/-- RESTORE (R149): master `m` writes LE_SVCn.RESTORE. -/
def execRestore (t : DT) (m n : Nat) (s : State) : Host.Outcome State Fault Refusal :=
  .next (runReg t s m (F.LE_SVC_RESTORE (n % 16)).adr (1 <<< 62))

/-- LE_SNAP_TAKE (R151): master `m` takes LE_SNAP. -/
def execLeSnapTake (t : DT) (m : Nat) (s : State) : Host.Outcome State Fault Refusal :=
  .next (runOn t s F.LE_SNAP_TAKE.adr (.reg m F.LE_SNAP_TAKE.adr 1)
    (fun s => snapTake s m F.LE_SNAP_TAKE.adr 1))

/-- REP_SYNC (R168): master `m` sets REP_CMD.SYNC of axis `a`. -/
def execRepSync (t : DT) (m a : Nat) (s : State) : Host.Outcome State Fault Refusal :=
  .next (runOn t s pLE (.sync m (a % 512))
    (fun s => repSyncWrite s m (a % 512)))

/-- REP_SYNC_DONE (R168): the copy `a` of an axis's table is complete; the standby has received its entries and REP_SUM. -/
def execRepSyncDone (t : DT) (a : RepCopy) (s : State) : Host.Outcome State Fault Refusal :=
  .next (run t s (fun s => if s.standby then pwTakes s a.full (fun s => repSyncDone s (a.axis % 512) a.entries a.sum)
    else repSyncDone s (a.axis % 512) a.entries a.sum))

end Sys2Proof.Machine
end

