-- ==== Sys2Proof/Machine/CmdMemory.lean ====
section
/-! DEFINITION. Translation, the memories, the DMA engines and the queues (chapter 14). -/

namespace Sys2Proof.Machine

/-- XU_INVAL_ALL (R366): XU_INVAL with OP = 1. -/
def execXuInvalAll (t : DT) (s : State) : Host.Outcome State Fault Refusal :=
  .next (run t s (fun s => suppliedTo s pXU (fun s => xuInval s none)))

/-- XU_INVAL_RANGE (R366): XU_INVAL with OP = 2: `n` + 1 pages of 4 KiB from page `first`. -/
def execXuInvalRange (t : DT) (first n : Nat) (s : State) : Host.Outcome State Fault Refusal :=
  .next (run t s (fun s => suppliedTo s pXU (fun s => xuInval s (some (first % 2 ^ 36, n % 4096 + 1)))))

/-- INVALIDATION_DONE (R366): the oldest invalidation completes. -/
def execInvalidationDone (t : DT) (s : State) : Host.Outcome State Fault Refusal :=
  .next (run t s (fun s => xuInvalDone s))

/-- DMA_RING_ENABLE (R382): master `m` enables ring `k` of engine `n` by DMn_CTL. -/
def execDmaRingEnable (t : DT) (m n k : Nat) (s : State) : Host.Outcome State Fault Refusal :=
  .next (runOn t s (F.DM_CTL_OP (n % 16)).adr (.reg m (F.DM_CTL_OP (n % 16)).adr (BitVec.ofNat 64 ((1 <<< 61) + ((k % 2) <<< 60))))
    (fun s => dmaWrite busWrite busRead s m (F.DM_CTL_OP (n % 16)).adr ((1 <<< 61) + ((k % 2) <<< 60))))

/-- DMA_RING_DISABLE (R382): master `m` disables ring `k` of engine `n` by DMn_CTL. -/
def execDmaRingDisable (t : DT) (m n k : Nat) (s : State) : Host.Outcome State Fault Refusal :=
  .next (runOn t s (F.DM_CTL_OP (n % 16)).adr (.reg m (F.DM_CTL_OP (n % 16)).adr (BitVec.ofNat 64 ((2 <<< 61) + ((k % 2) <<< 60))))
    (fun s => dmaWrite busWrite busRead s m (F.DM_CTL_OP (n % 16)).adr ((2 <<< 61) + ((k % 2) <<< 60))))

/-- DMA_RESUME (R371): master `m` resumes ring `k` of engine `n` by DMn_CTL. -/
def execDmaResume (t : DT) (m n k : Nat) (s : State) : Host.Outcome State Fault Refusal :=
  .next (runOn t s (F.DM_CTL_OP (n % 16)).adr (.reg m (F.DM_CTL_OP (n % 16)).adr (BitVec.ofNat 64 ((3 <<< 61) + ((k % 2) <<< 60))))
    (fun s => dmaWrite busWrite busRead (qeCatchUp s false) m (F.DM_CTL_OP (n % 16)).adr ((3 <<< 61) + ((k % 2) <<< 60))))

/-- DMA_ABORT (R371): master `m` aborts the descriptor of ring `k` of engine `n` by DMn_CTL. -/
def execDmaAbort (t : DT) (m n k : Nat) (s : State) : Host.Outcome State Fault Refusal :=
  .next (runOn t s (F.DM_CTL_OP (n % 16)).adr (.reg m (F.DM_CTL_OP (n % 16)).adr (BitVec.ofNat 64 ((4 <<< 61) + ((k % 2) <<< 60))))
    (fun s => dmaWrite busWrite busRead s m (F.DM_CTL_OP (n % 16)).adr ((4 <<< 61) + ((k % 2) <<< 60))))

/-- DMA_CONTINUE (R373): master `m` continues ring `k` of engine `n` by DMn_CTL. -/
def execDmaContinue (t : DT) (m n k : Nat) (s : State) : Host.Outcome State Fault Refusal :=
  .next (runOn t s (F.DM_CTL_OP (n % 16)).adr (.reg m (F.DM_CTL_OP (n % 16)).adr (BitVec.ofNat 64 ((5 <<< 61) + ((k % 2) <<< 60))))
    (fun s => dmaWrite busWrite busRead s m (F.DM_CTL_OP (n % 16)).adr ((5 <<< 61) + ((k % 2) <<< 60))))

/-- DMA_POST (R368): master `m` writes DMn_WRk. -/
def execDmaPost (t : DT) (m n k wr : Nat) (s : State) : Host.Outcome State Fault Refusal :=
  .next (runOn t s pDMA (.reg m (if k % 2 = 0 then (F.DM_WR0 (n % 16)).adr else (F.DM_WR1 (n % 16)).adr) (BitVec.ofNat 64 (wr % 2 ^ 32)))
    (fun s => dmaPost busWrite busRead (qeCatchUp s false) m (n % 16) (k % 2) (wr % 2 ^ 32)))

/-- DMA_DONE (R369): every write of the present descriptor of ring `k` of engine `n` has been acknowledged. -/
def execDmaDone (t : DT) (n k : Nat) (s : State) : Host.Outcome State Fault Refusal :=
  .next (run t s (fun s => dmaDone busWrite busRead (qeCatchUp s false) n k))

/-- QUEUE_ENABLE (R376): master `m` enables queue `q` by Q_CTL. -/
def execQueueEnable (t : DT) (m q : Nat) (s : State) : Host.Outcome State Fault Refusal :=
  .next (runOn t s F.Q_CTL_OP.adr (.reg m F.Q_CTL_OP.adr (BitVec.ofNat 64 ((1 <<< 62) + q % 64)))
    (fun s => queueWrite busWrite busRead s m F.Q_CTL_OP.adr ((1 <<< 62) + q % 64)))

/-- QUEUE_DISABLE (R376): master `m` disables queue `q` by Q_CTL. -/
def execQueueDisable (t : DT) (m q : Nat) (s : State) : Host.Outcome State Fault Refusal :=
  .next (runOn t s F.Q_CTL_OP.adr (.reg m F.Q_CTL_OP.adr (BitVec.ofNat 64 ((2 <<< 62) + q % 64)))
    (fun s => queueWrite busWrite busRead s m F.Q_CTL_OP.adr ((2 <<< 62) + q % 64)))

/-- Q_PUSH (R377): master `m` pushes a word to queue `q`. -/
def execQPush (t : DT) (m q : Nat) (v : Word) (s : State) : Host.Outcome State Fault Refusal :=
  .next (runOn t s pQ (.reg m (pQ + 0x800 + 0x20 * (q % 64)) v)
    (fun s => qPush s (q % 64) m v.toNat))

/-- Q_COMMIT (R377): master `m` commits the packet of queue `q` by Q_CMD. -/
def execQCommit (t : DT) (m q : Nat) (s : State) : Host.Outcome State Fault Refusal :=
  .next (runOn t s (pQ + 0x810 + 0x20 * (q % 64)) (.reg m (pQ + 0x810 + 0x20 * (q % 64)) (BitVec.ofNat 64 ((1 <<< 61))))
    (fun s => queueWrite busWrite busRead s m (pQ + 0x810 + 0x20 * (q % 64)) ((1 <<< 61))))

/-- Q_ABANDON (R377): master `m` abandons the packet of queue `q` by Q_CMD. -/
def execQAbandon (t : DT) (m q : Nat) (force : Bool) (s : State) : Host.Outcome State Fault Refusal :=
  .next (runOn t s (pQ + 0x810 + 0x20 * (q % 64)) (.reg m (pQ + 0x810 + 0x20 * (q % 64)) (BitVec.ofNat 64 ((2 <<< 61) + (b2n force <<< 60))))
    (fun s => queueWrite busWrite busRead s m (pQ + 0x810 + 0x20 * (q % 64)) ((2 <<< 61) + (b2n force <<< 60))))

/-- Q_MARK (R378): master `m` marks queue `q` by Q_CMD. -/
def execQMark (t : DT) (m q : Nat) (s : State) : Host.Outcome State Fault Refusal :=
  .next (runOn t s (pQ + 0x810 + 0x20 * (q % 64)) (.reg m (pQ + 0x810 + 0x20 * (q % 64)) (BitVec.ofNat 64 ((3 <<< 61))))
    (fun s => queueWrite busWrite busRead s m (pQ + 0x810 + 0x20 * (q % 64)) ((3 <<< 61))))

/-- Q_REWIND (R378): master `m` rewinds queue `q` by Q_CMD. -/
def execQRewind (t : DT) (m q : Nat) (s : State) : Host.Outcome State Fault Refusal :=
  .next (runOn t s (pQ + 0x810 + 0x20 * (q % 64)) (.reg m (pQ + 0x810 + 0x20 * (q % 64)) (BitVec.ofNat 64 ((4 <<< 61))))
    (fun s => queueWrite busWrite busRead s m (pQ + 0x810 + 0x20 * (q % 64)) ((4 <<< 61))))

/-- Q_POP (R378): master `m` reads Q_POP of queue `q`; the answer leaves the device. -/
def execQPop (t : DT) (m q : Nat) (s : State) : Host.Outcome State Fault Refusal :=
  .next (runOn t s pQ (.pop m (q % 64))
    (fun s => queueRead s m (q % 64)))

/-- Q_POP_TIMEOUT (R379): the TIMEOUT of the oldest waiting read of queue `q` has passed. -/
def execQPopTimeout (t : DT) (q : Nat) (s : State) : Host.Outcome State Fault Refusal :=
  .next (run t s (fun s => dmaKick busWrite busRead (qTimeout s (q % 64))))

/-- SCRUB_READ (R360): the patrol scrubber reads the word at `a`: 0 sound, 1 corrected, 2 uncorrectable. -/
def execScrubRead (t : DT) (a flaw : Nat) (s : State) : Host.Outcome State Fault Refusal :=
  .next (run t s (fun s => scrubRead s (a / 8 * 8) flaw))

/-- MEM_SNAP_TAKE (R119): master `m` takes MEM_SNAP. -/
def execMemSnapTake (t : DT) (m : Nat) (s : State) : Host.Outcome State Fault Refusal :=
  .next (runOn t s F.MEM_SNAP_TAKE.adr (.reg m F.MEM_SNAP_TAKE.adr 1)
    (fun s => snapTake s m F.MEM_SNAP_TAKE.adr 1))

end Sys2Proof.Machine
end

