-- ==== Sys2Proof/Machine/CmdPage.lean ====
section
/-! DEFINITION. The common registers of every page, and the event hub (chapter 16). -/

namespace Sys2Proof.Machine

/-- PAGE_ENABLE (R413): master `m` sets ENABLE of the page at `p`. -/
def execPageEnable (t : DT) (m p : Nat) (s : State) : Host.Outcome State Fault Refusal :=
  .next (runReg t s m (p / 0x1000 * 0x1000 + 0x08) 1)

/-- CHECK_DONE (R413): the check of the page at `p` completes; `pass` tells the outcome of self-checks. -/
def execCheckDone (t : DT) (p pass : Nat) (s : State) : Host.Outcome State Fault Refusal :=
  .next (run t s (fun s => checkEnds s (p / 0x1000 * 0x1000) pass))

/-- EVT_MASK_WRITE (R416): master `m` writes EVT_MASK of the page at `p`. -/
def execEvtMaskWrite (t : DT) (m p : Nat) (v : Word) (s : State) : Host.Outcome State Fault Refusal :=
  .next (runReg t s m (p / 0x1000 * 0x1000 + 0x20) v.toNat)

/-- GUARD_SEL_WRITE (R418): master `m` writes GUARD_SEL of the page at `p`. -/
def execGuardSelWrite (t : DT) (m p : Nat) (v : Word) (s : State) : Host.Outcome State Fault Refusal :=
  .next (runReg t s m (p / 0x1000 * 0x1000 + 0x30) v.toNat)

/-- GUARD_A_WRITE (R418): master `m` writes GUARD_A of the page at `p`. -/
def execGuardAWrite (t : DT) (m p : Nat) (v : Word) (s : State) : Host.Outcome State Fault Refusal :=
  .next (runReg t s m (p / 0x1000 * 0x1000 + 0x38) v.toNat)

/-- GUARD_B_WRITE (R417): master `m` writes GUARD_B of the page at `p`. -/
def execGuardBWrite (t : DT) (m p : Nat) (v : Word) (s : State) : Host.Outcome State Fault Refusal :=
  .next (runReg t s m (p / 0x1000 * 0x1000 + 0x40) v.toNat)

/-- REGISTER_WRITE (R7): master `m` writes `n` bytes at XU address `a`, within one word. -/
def execRegisterWrite (t : DT) (m a n : Nat) (v : Word) (s : State) : Host.Outcome State Fault Refusal :=
  .next (if 1 ≤ n && n + a % 8 ≤ 8 then
      runBehind t s (.bus m a n v) (fun s => busWrite (qeCatchUp s false) m a (v.toNat % 2 ^ (8 * n)) n)
    else run t s (fun s => s))

/-- GROUP_CLOSE (R429): the window of the open groups of queue `q` has passed. -/
def execGroupClose (t : DT) (q : Nat) (s : State) : Host.Outcome State Fault Refusal :=
  .next (run t s (fun s => if q < 16 then closeDue s q 8 else s))

/-- EH_QUEUE_ENABLE (R432): master `m` writes EH_QqCFG with EN set and the other fields of `v`. -/
def execEhQueueEnable (t : DT) (m q : Nat) (v : Word) (s : State) : Host.Outcome State Fault Refusal :=
  .next (runOn t s pEH (.reg m (F.EH_QCFG_EN (q % 16)).adr (BitVec.ofNat 64 (setBits v.toNat 63 1 1)))
    (fun s => ehCfgWrite s m (q % 16) (setBits v.toNat 63 1 1)))

/-- EH_QUEUE_DISABLE (R432): master `m` writes EH_QqCFG with EN clear and the other fields of `v`. -/
def execEhQueueDisable (t : DT) (m q : Nat) (v : Word) (s : State) : Host.Outcome State Fault Refusal :=
  .next (runOn t s pEH (.reg m (F.EH_QCFG_EN (q % 16)).adr (BitVec.ofNat 64 (setBits v.toNat 63 1 0)))
    (fun s => ehCfgWrite s m (q % 16) (setBits v.toNat 63 1 0)))

/-- EH_DISABLE (R432): master `m` clears ENABLE of the EH page. -/
def execEhDisable (t : DT) (m : Nat) (s : State) : Host.Outcome State Fault Refusal :=
  .next (runOn t s pEH (.reg m (pEH + 8) 0)
    (fun s => ctrlWrite s m pEH 0 none))

/-- EH_RD_WRITE (R431): EH_QqRD is written. -/
def execEhRdWrite (t : DT) (q : Nat) (v : Word) (s : State) : Host.Outcome State Fault Refusal :=
  .next (run t s (fun s => suppliedTo s pEH (fun s => ehRdWrite s (q % 16) v.toNat)))

/-- MSIX_UNMASK (R435): the host clears the mask bit of vector `v`. -/
def execMsixUnmask (t : DT) (v : Nat) (s : State) : Host.Outcome State Fault Refusal :=
  .next (runOn t s pHP (.host 0 (pHP + 0x80C + 16 * v) 4 (some (0, false))) (fun s =>
    if v < 64 then unmasked (s.setReg (pHP + 0x808 + 16 * v) (setBits (s.reg (pHP + 0x808 + 16 * v)) 32 1 0)) v else s))

end Sys2Proof.Machine
end

