-- ==== Sys2Proof/Machine/CmdProfile.lean ====
section
/-! DEFINITION. The profile generator and its gear groups (chapter 7). -/

namespace Sys2Proof.Machine

/-- PG_ENABLE (R173): master `m` sets ENABLE of the PG page. -/
def execPgEnable (t : DT) (m : Nat) (s : State) : Host.Outcome State Fault Refusal :=
  .next (runOn t s pPG (.reg m (pPG + 8) 1)
    (fun s => ctrlWrite s m pPG 1 none))

/-- PG_DISABLE (R173): master `m` clears ENABLE of the PG page. -/
def execPgDisable (t : DT) (m : Nat) (s : State) : Host.Outcome State Fault Refusal :=
  .next (runOn t s pPG (.reg m (pPG + 8) 0)
    (fun s => ctrlWrite s m pPG 0 none))

/-- FOLLOWING (R186): FE_RUN of axis `a` has reached FE_CYCLES. -/
def execFollowing (t : DT) (a : Nat) (s : State) : Host.Outcome State Fault Refusal :=
  .next (run t s (fun s => following s (a % 512)))

/-- PG_GROUP_STOP (R189): master `m` writes PG_GROUP_STOP. -/
def execPgGroupStop (t : DT) (m : Nat) (v : Word) (s : State) : Host.Outcome State Fault Refusal :=
  .next (runOn t s pPG (.reg m (pPG + 0x88) v)
    (fun s => groupStopWrite s m v.toNat))

/-- GROUP_ENABLE (R192): master `m` writes PG_GRPn_CFG with EN set and the other fields of `v`. -/
def execGroupEnable (t : DT) (m n : Nat) (v : Word) (s : State) : Host.Outcome State Fault Refusal :=
  .next (runOn t s pPG (.reg m (F.PG_GRP_CFG_EN (n % 32)).adr (BitVec.ofNat 64 (setBits (setBits v.toNat 63 1 1) 62 1 0)))
    (fun s => grpCfgWrite s m (n % 32) (setBits (setBits v.toNat 63 1 1) 62 1 0)))

/-- GROUP_DISABLE (R192): master `m` writes PG_GRPn_CFG with EN clear and the other fields of `v`. -/
def execGroupDisable (t : DT) (m n : Nat) (v : Word) (s : State) : Host.Outcome State Fault Refusal :=
  .next (runOn t s pPG (.reg m (F.PG_GRP_CFG_EN (n % 32)).adr (BitVec.ofNat 64 (setBits v.toNat 62 2 0)))
    (fun s => grpCfgWrite s m (n % 32) (setBits v.toNat 62 2 0)))

/-- RESTART (R192): master `m` writes PG_GRPn_CFG.RESTART. -/
def execRestart (t : DT) (m n : Nat) (s : State) : Host.Outcome State Fault Refusal :=
  .next (runOn t s pPG (.reg m (F.PG_GRP_CFG_EN (n % 32)).adr (BitVec.ofNat 64 (setBits (s.reg (F.PG_GRP_CFG_EN (n % 32)).adr) 62 1 1)))
    (fun s => reqAct s .groupRestart pPG (n % 32) (1 <<< 62) m none))

end Sys2Proof.Machine
end

