-- ==== Sys2Proof/Machine/CmdPtp.lean ====
section
/-! DEFINITION. The PTP domains, wall time, PPS and the reference inputs (chapter 3). -/

namespace Sys2Proof.Machine

/-- PTP_ENABLE (R85): master `m` sets ENABLE of the PTP page. -/
def execPtpEnable (t : DT) (m : Nat) (s : State) : Host.Outcome State Fault Refusal :=
  .next (runOn t s pPTP (.reg m (pPTP + 8) 1)
    (fun s => ctrlWrite s m pPTP 1 none))

/-- PTP_DISABLE (R77): master `m` clears ENABLE of the PTP page. -/
def execPtpDisable (t : DT) (m : Nat) (s : State) : Host.Outcome State Fault Refusal :=
  .next (runOn t s pPTP (.reg m (pPTP + 8) 0)
    (fun s => ctrlWrite s m pPTP 0 none))

/-- REARM (R71): PTP_DOMn_CFG.REARM of slot `n`. -/
def execRearm (t : DT) (n : Nat) (s : State) : Host.Outcome State Fault Refusal :=
  .next (run t s (fun s => if n < 2 then suppliedTo s pPTP (fun s => rearm s n) else s))

/-- SYNC_RECEIVED (R76): a Sync with its Follow_Up arrives at HE port `he`: source port, origin time, correction
field, capture of its delimiter, interval. -/
def execSyncReceived (t : DT) (he : HeIn) (domain profile transport src : Nat) (origin corr : Int) (capture : DT) (log : Int) (s : State) :
    Host.Outcome State Fault Refusal :=
  .next (run t s (fun s =>
    if he.port < 2 then heTakes s he (timeFollowed (fun s => syncReceived s he.port domain profile transport src origin corr capture log)) else s))

/-- ANNOUNCE_MSG_RECEIVED (R70): a PTP Announce arrives at HE port `he`: source port, grandmaster, rank in the
comparison, UTC offset, interval. -/
def execAnnounceMsgReceived (t : DT) (he : HeIn) (domain profile transport src gm : Nat) (rank : List Nat) (utc log : Int) (s : State) :
    Host.Outcome State Fault Refusal :=
  .next (run t s (fun s => if he.port < 2 then heTakes s he (timeFollowed (fun s => ptpAnnounce s he.port domain profile transport src gm rank utc log)) else s))

/-- DELAY_RESP_RECEIVED (R70): a Delay_Resp arrives at HE port `he` with the master's receipt time. -/
def execDelayRespReceived (t : DT) (he : HeIn) (domain profile transport src : Nat) (rx : Int) (s : State) :
    Host.Outcome State Fault Refusal :=
  .next (run t s (fun s => if he.port < 2 then heTakes s he (timeFollowed (fun s => delayRespReceived s he.port domain profile transport src rx)) else s))

/-- PDELAY_REQ_RECEIVED (R70): a Pdelay_Req arrives at HE port `he`: its domain and the capture of its delimiter. -/
def execPdelayReqReceived (t : DT) (he : PdelayReqIn) (s : State) : Host.Outcome State Fault Refusal :=
  .next (run t s (fun s => if he.port < 2 then heTakes s he.toHeIn (fun s => pdelayReq s he.port he.domain he.capture) else s))

/-- PDELAY_RESP_RECEIVED (R70): a Pdelay_Resp with its follow-up arrives at HE port `he`. -/
def execPdelayRespReceived (t : DT) (he : PdelayIn) (t2 t3 : Int) (capture : DT) (s : State) :
    Host.Outcome State Fault Refusal :=
  .next (run t s (fun s => if he.port < 2 then heTakes s he.toHeIn (timeFollowed (fun s => pdelayResp s he.port he.domain t2 t3 capture)) else s))

/-- DELAY_REQ_SEND (R70): the message interval of slot `n` has passed. -/
def execDelayReqSend (t : DT) (n : Nat) (s : State) : Host.Outcome State Fault Refusal :=
  .next (run t s (fun s => if n < 2 then delayReqSend s n else s))

/-- SYNC_RECEIPT_TIMEOUT (R72): no valid Sync for slot `n`. -/
def execSyncReceiptTimeout (t : DT) (n : Nat) (s : State) : Host.Outcome State Fault Refusal :=
  .next (run t s (fun s => if n < 2 then timeFollowed (fun s => syncTimeout s n) s else s))

/-- ANNOUNCE_RECEIPT_TIMEOUT (R72): the Announce receipt timeout of slot `n`. -/
def execAnnounceReceiptTimeout (t : DT) (n : Nat) (s : State) : Host.Outcome State Fault Refusal :=
  .next (run t s (fun s => if n < 2 then timeFollowed (fun s => announceTimeout s n) s else s))

/-- RATE_EVALUATION (R78): the comparison of rates, once a second. -/
def execRateEvaluation (t : DT) (s : State) : Host.Outcome State Fault Refusal :=
  .next (run t s (timeFollowed rateEvaluation))

/-- PPS_IN_EDGE (R81): a rising edge on PPS_IN. -/
def execPpsInEdge (t : DT) (s : State) : Host.Outcome State Fault Refusal :=
  .next (run t s (fun s => ppsIn s))

/-- REF10_GATE (R82): a gate of REF10_IN ends with the rate `rate`. -/
def execRef10Gate (t : DT) (rate : Int) (s : State) : Host.Outcome State Fault Refusal :=
  .next (run t s (fun s => ref10Gate s rate))

/-- PPS_OUT_PULSE (R83): PPS_OUT rises where its second has come. -/
def execPpsOutPulse (t : DT) (s : State) : Host.Outcome State Fault Refusal :=
  .next (run t s (fun s => ppsOut s))

/-- PPS_PRESENT_TIMEOUT (R81): no edge on PPS_IN for 1 s plus 1 ms. -/
def execPpsPresentTimeout (t : DT) (s : State) : Host.Outcome State Fault Refusal :=
  .next (run t s (fun s => ppsTimeout s))

end Sys2Proof.Machine
end

