-- ==== Sys2Proof/Machine/CmdStart.lean ====
section
/-! DEFINITION. Boot, the start stages and restarts (chapters 17 and 18). -/

namespace Sys2Proof.Machine

/-- BOOT_SEL_WRITE (R446): master `m` names the image of the next boot by a guarded BOOT_SEL. -/
def execBootSelWrite (t : DT) (m image : Nat) (s : State) : Host.Outcome State Fault Refusal :=
  .next (runGuarded t s m pBoot 0x80 (image % 2))

/-- HK_BOOT (R446): the HK boots, with what it finds. -/
def execHkBoot (t : DT) (b : Machine.BootIn) (s : State) : Host.Outcome State Fault Refusal :=
  .next (run t s (fun s => hkBoot s b))

/-- START_STAGE (R454): start stage `n` begins. -/
def execStartStage (t : DT) (n : Nat) (s : State) : Host.Outcome State Fault Refusal :=
  .next (run t s (fun s => startStage s n))

/-- STAGE_WAIT_EXPIRY (R460): the wait limit of stage `n` has passed, for port `p` where the stage has one. -/
def execStageWaitExpiry (t : DT) (n p : Nat) (s : State) : Host.Outcome State Fault Refusal :=
  .next (run t s (fun s => stageExpiry s n p))

/-- PAIR_WAIT_EXPIRY (R455): PAIR_WAIT has passed. -/
def execPairWaitExpiry (t : DT) (s : State) : Host.Outcome State Fault Refusal :=
  .next (run t s (fun s => pairExpiry s))

/-- AUTO_CLEARED (R461): master `m` clears HK_START.AUTO. -/
def execAutoCleared (t : DT) (m : Nat) (s : State) : Host.Outcome State Fault Refusal :=
  .next (runOn t s pHK (.reg m F.HK_START_AUTO.adr (BitVec.ofNat 64 (setBits (s.reg F.HK_START_AUTO.adr) 63 1 0)))
    (fun s => hkStartWrite s m (setBits (s.reg F.HK_START_AUTO.adr) 63 1 0)))

/-- RESTART_WARM (R466): master `m` writes RESTART by a guarded HK_RESTART. -/
def execRestartWarm (t : DT) (m : Nat) (s : State) : Host.Outcome State Fault Refusal :=
  .next (runGuarded t s m pHK 0xB0 1)

/-- RESTART_CLEAR (R466): master `m` writes RESTART_CLEAR by a guarded HK_RESTART. -/
def execRestartClear (t : DT) (m : Nat) (s : State) : Host.Outcome State Fault Refusal :=
  .next (runGuarded t s m pHK 0xB0 2)

end Sys2Proof.Machine
end

