-- ==== Sys2Proof/Machine/CmdTwin.lean ====
section
/-! DEFINITION. The twin pair and the power feeds (chapter 15). -/

namespace Sys2Proof.Machine

/-- PW_ENABLE (R410): master `m` sets ENABLE of the PW page. -/
def execPwEnable (t : DT) (m : Nat) (s : State) : Host.Outcome State Fault Refusal :=
  .next (runOn t s pPW (.reg m (pPW + 8) 1)
    (fun s => ctrlWrite s m pPW 1 none))

/-- PW_LINK_UP (R387): the party-wall link comes up with the lanes and the partner's identity. -/
def execPwLinkUp (t : DT) (lanes serial rev role twinId : Nat) (s : State) : Host.Outcome State Fault Refusal :=
  .next (run t s (fun s => pwLinkUp s lanes serial rev role twinId))

/-- PW_LANE_DOWN (R384): lane `lane` fails. -/
def execPwLaneDown (t : DT) (lane : Nat) (s : State) : Host.Outcome State Fault Refusal :=
  .next (run t s (fun s => pwLaneDown s lane))

/-- PW_LINK_DOWN (R401): the party-wall link goes down. -/
def execPwLinkDown (t : DT) (s : State) : Host.Outcome State Fault Refusal :=
  .next (run t s (fun s => pwLinkDown s))

/-- HEARTBEAT_RECEIVED (R388): a heartbeat arrives, with the time exchange, the bitmaps of accepted nodes, their ACK_EPOCH and
the protected words that have changed. -/
def execHeartbeatReceived (t : DT) (cycle role : Nat) (off rate : Int) (locked : Bool) (seen : HeartbeatBody)
    (s : State) : Host.Outcome State Fault Refusal :=
  .next (run t s (fun s => pwTakes s seen.full (fun s => heartbeat s (BitVec.ofNat 32 cycle) role off rate locked seen)))

/-- MIRRORED_WRITE (R390): a mirrored write reaches the standby. -/
def execMirroredWrite (t : DT) (x : MirrorAt) (v : Word) (s : State) : Host.Outcome State Fault Refusal :=
  .next (run t s (fun s => pwTakes s x.full (fun s => mirrorTake s (BitVec.ofNat 32 x.cycle) x.off v)))

/-- STATE_COPY_APPLIED (R391): a complete state copy reaches the standby. -/
def execStateCopyApplied (t : DT) (cycle : Nat) (b : CopyBody) (s : State) : Host.Outcome State Fault Refusal :=
  .next (run t s (fun s => pwTakes s b.full (fun s => mirrorDrain (copyApply s (BitVec.ofNat 32 cycle) b))))

/-- SHADOW_EVALUATION (R394): the standby evaluates sampled axis `a` on two engines. -/
def execShadowEvaluation (t : DT) (a cycle e1 e2 : Nat) (words : List Int) (main aux : Int) (flags : Nat)
    (flaws : EngineFlaw × EngineFlaw) (pass : Nat) (s : State) : Host.Outcome State Fault Refusal :=
  .next (run t s (fun s => shadowEval s (a % 512) (BitVec.ofNat 32 cycle) e1 e2 words main aux flags flaws pass))

/-- SWITCH (R400): master `m` requests a planned switch by a guarded TW_ROLE. -/
def execSwitch (t : DT) (m : Nat) (s : State) : Host.Outcome State Fault Refusal :=
  .next (runGuarded t s m pPW 0x88 1)

/-- SILENCE (R398): master `m` silences the unit by a guarded TW_ROLE. -/
def execSilence (t : DT) (m : Nat) (s : State) : Host.Outcome State Fault Refusal :=
  .next (runGuarded t s m pPW 0x88 2)

/-- CORE_FAULT_DECLARED (R399): the core fault `cause` that stands is declared. -/
def execCoreFaultDeclared (t : DT) (cause : Nat) (s : State) : Host.Outcome State Fault Refusal :=
  .next (run t s (fun s => coreFaultDeclared s cause))

/-- DECLARATION_RECEIVED (R401): a declaration of the partner arrives. -/
def execDeclarationReceived (t : DT) (x : DeclIn) (cycle : Nat) (s : State) : Host.Outcome State Fault Refusal :=
  .next (run t s (fun s => pwTakes s x.full (fun s => declarationReceived s x.cause (BitVec.ofNat 32 cycle))))

/-- BULK_COPY_DONE (R405): the resynchronisation copy is complete. -/
def execBulkCopyDone (t : DT) (words regs : List (Nat × Nat)) (b : BulkRest) (s : State) :
    Host.Outcome State Fault Refusal :=
  .next (run t s (fun s => pwTakes s b.full (fun s => bulkDone s words regs b)))

/-- STANDBY_READY (R405): 64 consecutive copies have been applied. -/
def execStandbyReady (t : DT) (s : State) : Host.Outcome State Fault Refusal :=
  .next (run t s (fun s => standbyReady s))

/-- OVERTEMP (R398): Tj has been at or above 130 °C for 1 ms. -/
def execOvertemp (t : DT) (s : State) : Host.Outcome State Fault Refusal :=
  .next (run t s (fun s => overtempDetect s))

/-- HK_WATCHDOG (R398): the HK firmware watchdog has not been served for 2 s. -/
def execHkWatchdog (t : DT) (s : State) : Host.Outcome State Fault Refusal :=
  .next (run t s (fun s => hkWatchdog s))

/-- REGULATOR (R398): a conversion stage reports a fault, or no longer does. -/
def execRegulator (t : DT) (on vcore : Bool) (s : State) : Host.Outcome State Fault Refusal :=
  .next (run t s (fun s => regulator s on vcore))

/-- TW_SNAP_TAKE (R119): master `m` takes TW_SNAP. -/
def execTwSnapTake (t : DT) (m : Nat) (s : State) : Host.Outcome State Fault Refusal :=
  .next (runOn t s F.TW_SNAP_TAKE.adr (.reg m F.TW_SNAP_TAKE.adr 1)
    (fun s => snapTake s m F.TW_SNAP_TAKE.adr 1))

/-- FEED_GOOD (R407): feed `n` has been above 34 V for 10 ms. -/
def execFeedGood (t : DT) (n : Nat) (s : State) : Host.Outcome State Fault Refusal :=
  .next (run t s (fun s => feedGood s n))

/-- FEED_OV_RETURN (R407): feed `n` has been below 76 V for 10 ms. -/
def execFeedOvReturn (t : DT) (n : Nat) (s : State) : Host.Outcome State Fault Refusal :=
  .next (run t s (fun s => feedOvReturn s n))

/-- SHUTDOWN (R409): HOLDUP has fallen below 24 V. -/
def execShutdown (t : DT) (s : State) : Host.Outcome State Fault Refusal :=
  .next (run t s (fun s => shutdown s))

/-- DIS_A (R408): master `m` writes DIS_A by a guarded FS_FEED_DIS that keeps DIS_B. -/
def execDisA (t : DT) (m : Nat) (on : Bool) (s : State) : Host.Outcome State Fault Refusal :=
  .next (runGuarded t s m pFS 0x80 (s.g F.FS_FEED_DIS_DIS_B * 2 + b2n on))

/-- DIS_B (R408): master `m` writes DIS_B by a guarded FS_FEED_DIS that keeps DIS_A. -/
def execDisB (t : DT) (m : Nat) (on : Bool) (s : State) : Host.Outcome State Fault Refusal :=
  .next (runGuarded t s m pFS 0x80 (b2n on * 2 + s.g F.FS_FEED_DIS_DIS_A))

end Sys2Proof.Machine
end

