-- ==== Sys2Proof/Machine/Meanings.lean ====
section
/-! DEFINITION. Imports the meanings of every family. -/
end

