-- ==== Sys2Proof/Machine/Dispatch.lean ====
section
/-! DEFINITION. The dispatch: one arm per command, each one direct call of its meaning. -/

namespace Sys2Proof.Machine

/-- The effect of a command on everything but the queue. -/
def exec (i : Instr) (s : State) : Host.Outcome State Fault Refusal :=
  match i with
  | .t0 t => Sys2Proof.Machine.execT0 t s
  | .feedbackClose t peer flawed flagged => Sys2Proof.Machine.execFeedbackClose t peer flawed flagged s
  | .cwStart t => Sys2Proof.Machine.execCwStart t s
  | .cwEnd t => Sys2Proof.Machine.execCwEnd t s
  | .tr t => Sys2Proof.Machine.execTr t s
  | .dlEnd t => Sys2Proof.Machine.execDlEnd t s
  | .tick t => Sys2Proof.Machine.execTick t s
  | .vfixedWalkStep t => Sys2Proof.Machine.execVfixedWalkStep t s
  | .housekeepingEdge t vcore va ca vb cb holdup tj => Sys2Proof.Machine.execHousekeepingEdge t vcore va ca vb cb holdup tj s
  | .dtWrap t => Sys2Proof.Machine.execDtWrap t s
  | .refLost t => Sys2Proof.Machine.execRefLost t s
  | .refRestored t => Sys2Proof.Machine.execRefRestored t s
  | .cycleEnable t m => Sys2Proof.Machine.execCycleEnable t m s
  | .cycleDisable t m => Sys2Proof.Machine.execCycleDisable t m s
  | .lateHold t a => Sys2Proof.Machine.execLateHold t a s
  | .cycSnapTake t m => Sys2Proof.Machine.execCycSnapTake t m s
  | .sgEnable t m => Sys2Proof.Machine.execSgEnable t m s
  | .sgDisable t m => Sys2Proof.Machine.execSgDisable t m s
  | .sgStatsReset t m => Sys2Proof.Machine.execSgStatsReset t m s
  | .sgHistSnapTake t m => Sys2Proof.Machine.execSgHistSnapTake t m s
  | .timePageEnable t m => Sys2Proof.Machine.execTimePageEnable t m s
  | .tuSnapTake t m => Sys2Proof.Machine.execTuSnapTake t m s
  | .tscorrWrite t n v => Sys2Proof.Machine.execTscorrWrite t n v s
  | .ptpEnable t m => Sys2Proof.Machine.execPtpEnable t m s
  | .ptpDisable t m => Sys2Proof.Machine.execPtpDisable t m s
  | .rearm t n => Sys2Proof.Machine.execRearm t n s
  | .syncReceived t he domain profile transport src origin corr capture log => Sys2Proof.Machine.execSyncReceived t he domain profile transport src origin corr capture log s
  | .announceMsgReceived t he domain profile transport src gm rank utc log => Sys2Proof.Machine.execAnnounceMsgReceived t he domain profile transport src gm rank utc log s
  | .delayRespReceived t he domain profile transport src rx => Sys2Proof.Machine.execDelayRespReceived t he domain profile transport src rx s
  | .pdelayReqReceived t he => Sys2Proof.Machine.execPdelayReqReceived t he s
  | .pdelayRespReceived t he t2 t3 capture => Sys2Proof.Machine.execPdelayRespReceived t he t2 t3 capture s
  | .delayReqSend t n => Sys2Proof.Machine.execDelayReqSend t n s
  | .syncReceiptTimeout t n => Sys2Proof.Machine.execSyncReceiptTimeout t n s
  | .announceReceiptTimeout t n => Sys2Proof.Machine.execAnnounceReceiptTimeout t n s
  | .rateEvaluation t => Sys2Proof.Machine.execRateEvaluation t s
  | .ppsInEdge t => Sys2Proof.Machine.execPpsInEdge t s
  | .ref10Gate t rate => Sys2Proof.Machine.execRef10Gate t rate s
  | .ppsOutPulse t => Sys2Proof.Machine.execPpsOutPulse t s
  | .fbeEnable t m => Sys2Proof.Machine.execFbeEnable t m s
  | .fbeDisable t m => Sys2Proof.Machine.execFbeDisable t m s
  | .feedbackStart t m a => Sys2Proof.Machine.execFeedbackStart t m a s
  | .feedbackStop t m a => Sys2Proof.Machine.execFeedbackStop t m a s
  | .fbeSnapTake t m => Sys2Proof.Machine.execFbeSnapTake t m s
  | .fbLost t a => Sys2Proof.Machine.execFbLost t a s
  | .settled t a => Sys2Proof.Machine.execSettled t a s
  | .qePageEnable t m => Sys2Proof.Machine.execQePageEnable t m s
  | .qeChannelEnable t m n v => Sys2Proof.Machine.execQeChannelEnable t m n v s
  | .qeEdge t n a b z => Sys2Proof.Machine.execQeEdge t n a b z s
  | .qeTrip t n => Sys2Proof.Machine.execQeTrip t n s
  | .qeClean t n => Sys2Proof.Machine.execQeClean t n s
  | .inject t m n => Sys2Proof.Machine.execInject t m n s
  | .clrFaults t m n => Sys2Proof.Machine.execClrFaults t m n s
  | .reguard t m n => Sys2Proof.Machine.execReguard t m n s
  | .qeSnapTake t m n => Sys2Proof.Machine.execQeSnapTake t m n s
  | .lePageEnable t m => Sys2Proof.Machine.execLePageEnable t m s
  | .axisEnable t m a => Sys2Proof.Machine.execAxisEnable t m a s
  | .axisDisable t m a => Sys2Proof.Machine.execAxisDisable t m a s
  | .axisStepComplete t n => Sys2Proof.Machine.execAxisStepComplete t n s
  | .withdraw t m n => Sys2Proof.Machine.execWithdraw t m n s
  | .restore t m n => Sys2Proof.Machine.execRestore t m n s
  | .leSnapTake t m => Sys2Proof.Machine.execLeSnapTake t m s
  | .repSync t m a => Sys2Proof.Machine.execRepSync t m a s
  | .repSyncDone t a => Sys2Proof.Machine.execRepSyncDone t a s
  | .pgEnable t m => Sys2Proof.Machine.execPgEnable t m s
  | .pgDisable t m => Sys2Proof.Machine.execPgDisable t m s
  | .following t a => Sys2Proof.Machine.execFollowing t a s
  | .pgGroupStop t m v => Sys2Proof.Machine.execPgGroupStop t m v s
  | .groupEnable t m n v => Sys2Proof.Machine.execGroupEnable t m n v s
  | .groupDisable t m n v => Sys2Proof.Machine.execGroupDisable t m n v s
  | .restart t m n => Sys2Proof.Machine.execRestart t m n s
  | .fpEnable t m p => Sys2Proof.Machine.execFpEnable t m p s
  | .fpDisable t m p => Sys2Proof.Machine.execFpDisable t m p s
  | .linkUp t p => Sys2Proof.Machine.execLinkUp t p s
  | .linkDown t p => Sys2Proof.Machine.execLinkDown t p s
  | .discoveryStart t m p => Sys2Proof.Machine.execDiscoveryStart t m p s
  | .announceReceived t p h b => Sys2Proof.Machine.execAnnounceReceived t p h b s
  | .discoverTimeout t p => Sys2Proof.Machine.execDiscoverTimeout t p s
  | .aloneDiscover t p => Sys2Proof.Machine.execAloneDiscover t p s
  | .discoverReceived t p h => Sys2Proof.Machine.execDiscoverReceived t p h s
  | .uplinkReceived t p h b => Sys2Proof.Machine.execUplinkReceived t p h b s
  | .sensorReceived t p h b => Sys2Proof.Machine.execSensorReceived t p h b s
  | .downlinkReceived t p h b => Sys2Proof.Machine.execDownlinkReceived t p h b s
  | .nodeMuted t p j => Sys2Proof.Machine.execNodeMuted t p j s
  | .ringHealed t p => Sys2Proof.Machine.execRingHealed t p s
  | .relayFrameReceived t p b => Sys2Proof.Machine.execRelayFrameReceived t p b s
  | .fpSnapTake t m p => Sys2Proof.Machine.execFpSnapTake t m p s
  | .fpGsnapTake t m p => Sys2Proof.Machine.execFpGsnapTake t m p s
  | .commit t m p => Sys2Proof.Machine.execCommit t m p s
  | .release t m p => Sys2Proof.Machine.execRelease t m p s
  | .mute t m p j => Sys2Proof.Machine.execMute t m p j s
  | .unmute t m p j => Sys2Proof.Machine.execUnmute t m p j s
  | .claimReceived t p h b => Sys2Proof.Machine.execClaimReceived t p h b s
  | .epochRequest t m => Sys2Proof.Machine.execEpochRequest t m s
  | .epochCancel t m => Sys2Proof.Machine.execEpochCancel t m s
  | .nodeEpochStop t p j => Sys2Proof.Machine.execNodeEpochStop t p j s
  | .aePageEnable t m => Sys2Proof.Machine.execAePageEnable t m s
  | .channelEnable t m c => Sys2Proof.Machine.execChannelEnable t m c s
  | .channelDisable t m c => Sys2Proof.Machine.execChannelDisable t m c s
  | .trigOutPulse t pin => Sys2Proof.Machine.execTrigOutPulse t pin s
  | .trigPinEdge t pin rising => Sys2Proof.Machine.execTrigPinEdge t pin rising s
  | .triggerUnitEnable t m u v => Sys2Proof.Machine.execTriggerUnitEnable t m u v s
  | .streamStart t m n => Sys2Proof.Machine.execStreamStart t m n s
  | .streamStop t m n => Sys2Proof.Machine.execStreamStop t m n s
  | .streamRestart t m n => Sys2Proof.Machine.execStreamRestart t m n s
  | .packetFlush t n => Sys2Proof.Machine.execPacketFlush t n s
  | .mappingInterval t n => Sys2Proof.Machine.execMappingInterval t n s
  | .recordTruncated t n => Sys2Proof.Machine.execRecordTruncated t n s
  | .aeSnapTake t m => Sys2Proof.Machine.execAeSnapTake t m s
  | .angPageEnable t m => Sys2Proof.Machine.execAngPageEnable t m s
  | .angleChannelEnable t m g => Sys2Proof.Machine.execAngleChannelEnable t m g s
  | .angleChannelDisable t m g => Sys2Proof.Machine.execAngleChannelDisable t m g s
  | .angleRecordWrite t g => Sys2Proof.Machine.execAngleRecordWrite t g s
  | .histogramEnable t m c => Sys2Proof.Machine.execHistogramEnable t m c s
  | .histogramDisable t m c => Sys2Proof.Machine.execHistogramDisable t m c s
  | .copyHistogram t m c clear => Sys2Proof.Machine.execCopyHistogram t m c clear s
  | .copyMap t m k clear => Sys2Proof.Machine.execCopyMap t m k clear s
  | .copyDone t => Sys2Proof.Machine.execCopyDone t s
  | .scEnable t m n => Sys2Proof.Machine.execScEnable t m n s
  | .scDisable t m n => Sys2Proof.Machine.execScDisable t m n s
  | .scSnapTake t m n => Sys2Proof.Machine.execScSnapTake t m n s
  | .add t n d a b => Sys2Proof.Machine.execAdd t n d a b s
  | .sub t n d a b => Sys2Proof.Machine.execSub t n d a b s
  | .minS t n d a b => Sys2Proof.Machine.execMin t n d a b s
  | .maxS t n d a b => Sys2Proof.Machine.execMax t n d a b s
  | .andB t n d a b => Sys2Proof.Machine.execAnd t n d a b s
  | .orB t n d a b => Sys2Proof.Machine.execOr t n d a b s
  | .xorB t n d a b => Sys2Proof.Machine.execXor t n d a b s
  | .shl t n d a b => Sys2Proof.Machine.execShl t n d a b s
  | .shr t n d a b => Sys2Proof.Machine.execShr t n d a b s
  | .shru t n d a b => Sys2Proof.Machine.execShru t n d a b s
  | .slt t n d a b => Sys2Proof.Machine.execSlt t n d a b s
  | .seq t n d a b => Sys2Proof.Machine.execSeq t n d a b s
  | .mov t n d a => Sys2Proof.Machine.execMov t n d a s
  | .neg t n d a => Sys2Proof.Machine.execNeg t n d a s
  | .abs t n d a => Sys2Proof.Machine.execAbs t n d a s
  | .notB t n d a => Sys2Proof.Machine.execNot t n d a s
  | .exp t n d a => Sys2Proof.Machine.execExp t n d a s
  | .norm t n d a => Sys2Proof.Machine.execNorm t n d a s
  | .addi t n d a imm => Sys2Proof.Machine.execAddi t n d a imm s
  | .andi t n d a imm => Sys2Proof.Machine.execAndi t n d a imm s
  | .ori t n d a imm => Sys2Proof.Machine.execOri t n d a imm s
  | .xori t n d a imm => Sys2Proof.Machine.execXori t n d a imm s
  | .shli t n d a imm => Sys2Proof.Machine.execShli t n d a imm s
  | .shri t n d a imm => Sys2Proof.Machine.execShri t n d a imm s
  | .shrui t n d a imm => Sys2Proof.Machine.execShrui t n d a imm s
  | .ldi t n d imm => Sys2Proof.Machine.execLdi t n d imm s
  | .ldih t n d imm => Sys2Proof.Machine.execLdih t n d imm s
  | .mul t n d a b sh => Sys2Proof.Machine.execMul t n d a b sh s
  | .mac t n acc a b => Sys2Proof.Machine.execMac t n acc a b s
  | .msu t n acc a b => Sys2Proof.Machine.execMsu t n acc a b s
  | .macl t n acc a b px py mx my => Sys2Proof.Machine.execMacl t n acc a b px py mx my s
  | .msul t n acc a b px py mx my => Sys2Proof.Machine.execMsul t n acc a b px py mx my s
  | .sata t n d acc sh => Sys2Proof.Machine.execSata t n d acc sh s
  | .lda t n acc a sh => Sys2Proof.Machine.execLda t n acc a sh s
  | .adda t n acc src => Sys2Proof.Machine.execAdda t n acc src s
  | .clra t n acc => Sys2Proof.Machine.execClra t n acc s
  | .expa t n d acc => Sys2Proof.Machine.execExpa t n d acc s
  | .ld t n d p mode size sign => Sys2Proof.Machine.execLd t n d p mode size sign s
  | .st t n r p mode size => Sys2Proof.Machine.execSt t n r p mode size s
  | .ldxy t n d e px mx py my => Sys2Proof.Machine.execLdxy t n d e px mx py my s
  | .ldd t n d a imm size sign => Sys2Proof.Machine.execLdd t n d a imm size sign s
  | .std t n r a imm size => Sys2Proof.Machine.execStd t n r a imm size s
  | .setp t n p a => Sys2Proof.Machine.execSetp t n p a s
  | .setm t n p a => Sys2Proof.Machine.execSetm t n p a s
  | .setc t n p a b => Sys2Proof.Machine.execSetc t n p a b s
  | .getp t n d p => Sys2Proof.Machine.execGetp t n d p s
  | .getm t n d p => Sys2Proof.Machine.execGetm t n d p s
  | .ldr t n d a size sign => Sys2Proof.Machine.execLdr t n d a size sign s
  | .ldrDataReturn t n => Sys2Proof.Machine.execLdrDataReturn t n s
  | .str t n r a size => Sys2Proof.Machine.execStr t n r a size s
  | .fence t n => Sys2Proof.Machine.execFence t n s
  | .remoteTimeout t n => Sys2Proof.Machine.execRemoteTimeout t n s
  | .br t n off => Sys2Proof.Machine.execBr t n off s
  | .call t n off => Sys2Proof.Machine.execCall t n off s
  | .bz t n a off => Sys2Proof.Machine.execBz t n a off s
  | .bnz t n a off => Sys2Proof.Machine.execBnz t n a off s
  | .beq t n a b off => Sys2Proof.Machine.execBeq t n a b off s
  | .bne t n a b off => Sys2Proof.Machine.execBne t n a b off s
  | .blt t n a b off => Sys2Proof.Machine.execBlt t n a b off s
  | .bge t n a b off => Sys2Proof.Machine.execBge t n a b off s
  | .jmp t n a => Sys2Proof.Machine.execJmp t n a s
  | .repi t n count len => Sys2Proof.Machine.execRepi t n count len s
  | .repr t n a len => Sys2Proof.Machine.execRepr t n a len s
  | .nop t n => Sys2Proof.Machine.execNop t n s
  | .movsRead t n d => Sys2Proof.Machine.execMovsRead t n d s
  | .movsWrite t n a => Sys2Proof.Machine.execMovsWrite t n a s
  | .lock t n d l => Sys2Proof.Machine.execLock t n d l s
  | .unlock t n l => Sys2Proof.Machine.execUnlock t n l s
  | .notify t n a => Sys2Proof.Machine.execNotify t n a s
  | .wait t n => Sys2Proof.Machine.execWait t n s
  | .yield t n => Sys2Proof.Machine.execYield t n s
  | .endProg t n => Sys2Proof.Machine.execEnd t n s
  | .breakPoint t n => Sys2Proof.Machine.execBreak t n s
  | .trace t n imm => Sys2Proof.Machine.execTrace t n imm s
  | .preemption t n => Sys2Proof.Machine.execPreemption t n s
  | .contextSaveDone t n => Sys2Proof.Machine.execContextSaveDone t n s
  | .dormant t n => Sys2Proof.Machine.execDormant t n s
  | .wake t n => Sys2Proof.Machine.execWake t n s
  | .ksDisable t m => Sys2Proof.Machine.execKsDisable t m s
  | .cxStart t m c => Sys2Proof.Machine.execCxStart t m c s
  | .cxResume t m c => Sys2Proof.Machine.execCxResume t m c s
  | .cxReset t m c => Sys2Proof.Machine.execCxReset t m c s
  | .cxNotify t m c => Sys2Proof.Machine.execCxNotify t m c s
  | .contextPrefetch t => Sys2Proof.Machine.execContextPrefetch t s
  | .flowEnable t m f => Sys2Proof.Machine.execFlowEnable t m f s
  | .flowDisable t m f => Sys2Proof.Machine.execFlowDisable t m f s
  | .flowPost t m f => Sys2Proof.Machine.execFlowPost t m f s
  | .dlInsert t m tag write discard => Sys2Proof.Machine.execDlInsert t m tag write discard s
  | .dlCancel t m tag => Sys2Proof.Machine.execDlCancel t m tag s
  | .acquire t m l owner => Sys2Proof.Machine.execAcquire t m l owner s
  | .lockRelease t m l owner => Sys2Proof.Machine.execLockRelease t m l owner s
  | .quotaWrite t c q => Sys2Proof.Machine.execQuotaWrite t c q s
  | .ksSnapTake t m => Sys2Proof.Machine.execKsSnapTake t m s
  | .xuInvalAll t => Sys2Proof.Machine.execXuInvalAll t s
  | .xuInvalRange t first n => Sys2Proof.Machine.execXuInvalRange t first n s
  | .invalidationDone t => Sys2Proof.Machine.execInvalidationDone t s
  | .dmaRingEnable t m n k => Sys2Proof.Machine.execDmaRingEnable t m n k s
  | .dmaRingDisable t m n k => Sys2Proof.Machine.execDmaRingDisable t m n k s
  | .dmaResume t m n k => Sys2Proof.Machine.execDmaResume t m n k s
  | .dmaAbort t m n k => Sys2Proof.Machine.execDmaAbort t m n k s
  | .dmaContinue t m n k => Sys2Proof.Machine.execDmaContinue t m n k s
  | .dmaPost t m n k wr => Sys2Proof.Machine.execDmaPost t m n k wr s
  | .dmaDone t n k => Sys2Proof.Machine.execDmaDone t n k s
  | .queueEnable t m q => Sys2Proof.Machine.execQueueEnable t m q s
  | .queueDisable t m q => Sys2Proof.Machine.execQueueDisable t m q s
  | .qPush t m q v => Sys2Proof.Machine.execQPush t m q v s
  | .qCommit t m q => Sys2Proof.Machine.execQCommit t m q s
  | .qAbandon t m q force => Sys2Proof.Machine.execQAbandon t m q force s
  | .qMark t m q => Sys2Proof.Machine.execQMark t m q s
  | .qRewind t m q => Sys2Proof.Machine.execQRewind t m q s
  | .qPop t m q => Sys2Proof.Machine.execQPop t m q s
  | .qPopTimeout t q => Sys2Proof.Machine.execQPopTimeout t q s
  | .scrubRead t a flaw => Sys2Proof.Machine.execScrubRead t a flaw s
  | .memSnapTake t m => Sys2Proof.Machine.execMemSnapTake t m s
  | .pwEnable t m => Sys2Proof.Machine.execPwEnable t m s
  | .pwLinkUp t lanes serial rev role twinId => Sys2Proof.Machine.execPwLinkUp t lanes serial rev role twinId s
  | .pwLaneDown t lane => Sys2Proof.Machine.execPwLaneDown t lane s
  | .pwLinkDown t => Sys2Proof.Machine.execPwLinkDown t s
  | .heartbeatReceived t cycle role off rate locked seen => Sys2Proof.Machine.execHeartbeatReceived t cycle role off rate locked seen s
  | .mirroredWrite t off v => Sys2Proof.Machine.execMirroredWrite t off v s
  | .stateCopyApplied t cycle b => Sys2Proof.Machine.execStateCopyApplied t cycle b s
  | .shadowEvaluation t a cycle e1 e2 words main aux flags differ pass => Sys2Proof.Machine.execShadowEvaluation t a cycle e1 e2 words main aux flags differ pass s
  | .switch t m => Sys2Proof.Machine.execSwitch t m s
  | .silence t m => Sys2Proof.Machine.execSilence t m s
  | .coreFaultDeclared t cause => Sys2Proof.Machine.execCoreFaultDeclared t cause s
  | .declarationReceived t cause cycle => Sys2Proof.Machine.execDeclarationReceived t cause cycle s
  | .bulkCopyDone t words regs prot => Sys2Proof.Machine.execBulkCopyDone t words regs prot s
  | .standbyReady t => Sys2Proof.Machine.execStandbyReady t s
  | .overtemp t => Sys2Proof.Machine.execOvertemp t s
  | .hkWatchdog t => Sys2Proof.Machine.execHkWatchdog t s
  | .regulator t on vcore => Sys2Proof.Machine.execRegulator t on vcore s
  | .twSnapTake t m => Sys2Proof.Machine.execTwSnapTake t m s
  | .feedGood t n => Sys2Proof.Machine.execFeedGood t n s
  | .feedOvReturn t n => Sys2Proof.Machine.execFeedOvReturn t n s
  | .shutdown t => Sys2Proof.Machine.execShutdown t s
  | .disA t m on => Sys2Proof.Machine.execDisA t m on s
  | .disB t m on => Sys2Proof.Machine.execDisB t m on s
  | .pageEnable t m p => Sys2Proof.Machine.execPageEnable t m p s
  | .checkDone t p pass => Sys2Proof.Machine.execCheckDone t p pass s
  | .evtMaskWrite t m p v => Sys2Proof.Machine.execEvtMaskWrite t m p v s
  | .guardSelWrite t m p v => Sys2Proof.Machine.execGuardSelWrite t m p v s
  | .guardAWrite t m p v => Sys2Proof.Machine.execGuardAWrite t m p v s
  | .guardBWrite t m p v => Sys2Proof.Machine.execGuardBWrite t m p v s
  | .registerWrite t m a n v => Sys2Proof.Machine.execRegisterWrite t m a n v s
  | .groupClose t q => Sys2Proof.Machine.execGroupClose t q s
  | .ehQueueEnable t m q v => Sys2Proof.Machine.execEhQueueEnable t m q v s
  | .ehQueueDisable t m q v => Sys2Proof.Machine.execEhQueueDisable t m q v s
  | .ehDisable t m => Sys2Proof.Machine.execEhDisable t m s
  | .ehRdWrite t q v => Sys2Proof.Machine.execEhRdWrite t q v s
  | .msixUnmask t v => Sys2Proof.Machine.execMsixUnmask t v s
  | .perst t => Sys2Proof.Machine.execPerst t s
  | .hotReset t => Sys2Proof.Machine.execHotReset t s
  | .functionLevelReset t => Sys2Proof.Machine.execFunctionLevelReset t s
  | .d3hotEntry t => Sys2Proof.Machine.execD3hotEntry t s
  | .hpLinkUp t width speed => Sys2Proof.Machine.execHpLinkUp t width speed s
  | .hpLinkDown t => Sys2Proof.Machine.execHpLinkDown t s
  | .hostAccess t sp off n write => Sys2Proof.Machine.execHostAccess t sp off n write s
  | .heLinkUp t n => Sys2Proof.Machine.execHeLinkUp t n s
  | .heLinkDown t n => Sys2Proof.Machine.execHeLinkDown t n s
  | .registerAccessRequest t n ip port target dport magic version count seq pass ops => Sys2Proof.Machine.execRegisterAccessRequest t n ip port target dport magic version count seq pass ops s
  | .arpRequest t n sender target => Sys2Proof.Machine.execArpRequest t n sender target s
  | .mpWrite t addr v => Sys2Proof.Machine.execMpWrite t addr v s
  | .mpRead t addr => Sys2Proof.Machine.execMpRead t addr s
  | .bootSelWrite t m image => Sys2Proof.Machine.execBootSelWrite t m image s
  | .hkBoot t b => Sys2Proof.Machine.execHkBoot t b s
  | .startStage t n => Sys2Proof.Machine.execStartStage t n s
  | .stageWaitExpiry t n p => Sys2Proof.Machine.execStageWaitExpiry t n p s
  | .pairWaitExpiry t => Sys2Proof.Machine.execPairWaitExpiry t s
  | .autoCleared t m => Sys2Proof.Machine.execAutoCleared t m s
  | .restartWarm t m => Sys2Proof.Machine.execRestartWarm t m s
  | .restartClear t m => Sys2Proof.Machine.execRestartClear t m s
  | .trcEnable t m => Sys2Proof.Machine.execTrcEnable t m s
  | .jtagBypass t => Sys2Proof.Machine.execJtagBypass t s
  | .jtagIdcode t => Sys2Proof.Machine.execJtagIdcode t s
  | .samplePreload t pins v => Sys2Proof.Machine.execSamplePreload t pins v s
  | .extest t => Sys2Proof.Machine.execExtest t s
  | .jtagDebug t sp off write => Sys2Proof.Machine.execDebug t sp off write s
  | .remoteStoreAck t n => Sys2Proof.Machine.execRemoteStoreAck t n s
  | .creditReturn t c => Sys2Proof.Machine.execCreditReturn t c s
  | .configSpaceWrite t bme d0 => Sys2Proof.Machine.execConfigSpaceWrite t bme d0 s
  | .ppsPresentTimeout t => Sys2Proof.Machine.execPpsPresentTimeout t s

end Sys2Proof.Machine
end

