-- ==== Sys2Proof/Safety.lean ====
section
/-! DEFINITION. What a good state is, in the terms that statements use: the schedule of the cycle is one that R31 and R32
allow, a stop is under way only while the cycle runs, and the memories and the register file are in their one form. -/

namespace Sys2Proof

open Sys2Proof.Machine

/-- The schedule in force lies within R31 and R32, and a stop is under way only while the cycle runs (R35). -/
def Inv (s : State) : Prop := schedOk s.time.live = true ∧ (s.time.stopping = true → s.time.running = true)

/-- No request of the cycle is left over from a command: each is carried out in the command that makes it. -/
def Settled (s : State) : Prop := s.cyc.ask = []

/-- The registers that an event can change: the queues' counts and states in the event hub, the XU's fault record, the log of
poisoned words. -/
def hubReg (a : Nat) : Bool :=
  (pEH + 0x100 ≤ a && a < pEH + 0x500 && (a % 0x40 = 0x10 || a % 0x40 = 0x20)) || a = F.XU_FAULT_ADDR.adr || a = F.XU_FAULT_INFO.adr ||
  (pMEM + 0x100 ≤ a && a < pMEM + 0x180)

/-- The registers that the end of a start changes. -/
def startReg (a : Nat) : Bool := a = F.HK_START_STATE_STAGE.adr || a = F.HK_FAILCNT_COUNT.adr

/-- The registers that a command may leave changed behind its own effect. -/
def eventReg (a : Nat) : Bool := hubReg a || startReg a

/-- Address `b` lies in a word of the ring of an enabled event queue. Ring addresses from 2^47 are translated through tables
that stand in memory, and such a ring may lie anywhere. -/
def ringWord (s : State) (b : Nat) : Prop :=
  ∃ q x, q < 16 ∧ s.gb (F.EH_QCFG_EN q) = true ∧ s.reg (F.EH_QBASE q).adr ≤ x ∧
    x < s.reg (F.EH_QBASE q).adr + 16 * ringSlots s q ∧
    (0x800000000000 ≤ x ∨ ∃ m, directTarget s x = .mem m ∧ m / 8 = b / 8)

/-- Address `b` lies in the word CX_STATE of a context. -/
def contextWord (b : Nat) : Prop := ∃ c, b / 8 = (cxBase c + 0x18) / 8

/-- `u` is `s` with what may follow from any command: events recorded and sent, contexts notified, translation faults of save
areas and uncorrectable reads reported, start stages ended, the protected image brought up to date. Everything else is as in `s`:
a byte of memory can change only in the ring of an enabled event queue or in the state word of a notified context, a record may
ask for a write of a register where the ring lies there, and while the event hub is disabled neither does. Where `counted` holds,
the memory page counts nothing either. -/
structure Follows (counted : Prop) (s u : State) : Prop where
  regs : ∀ a, eventReg a = false → u.reg a = s.reg a
  cores : ∀ n, u.core n = { s.core n with
    prefetch := (u.core n).prefetch, preArch := (u.core n).preArch, preempt := (u.core n).preempt }
  hp : u.hp = { s.hp with msixPending := u.hp.msixPending }
  hk : u.hk = { s.hk with
    starting := u.hk.starting, started := u.hk.started, ending := u.hk.ending
    stagesDone := u.hk.stagesDone, stage10At := u.hk.stage10At, log := u.hk.log }
  start : s.hk.starting = false → u.hk = s.hk ∧ ∀ a, startReg a = true → u.reg a = s.reg a
  tw : u.tw = { s.tw with told := u.tw.told, followed := u.tw.followed, image := u.tw.image }
  ks : u.ks = { s.ks with ready := u.ks.ready, noticesLost := u.ks.noticesLost }
  out : s.out <+: u.out
  devQ : s.devQ <+: u.devQ
  mem : ∀ b, ¬ ringWord s b → ¬ contextWord b → u.byte b = s.byte b
  ms : u.ms = { s.ms with ueSram := u.ms.ueSram, ueDram := u.ms.ueDram }
  count : counted → u.ms = s.ms
  quiet : s.enabled pEH = false → u.mem = s.mem ∧ u.hostMem = s.hostMem ∧ u.ks = s.ks ∧ u.cores = s.cores ∧ u.devQ = s.devQ
  rest : u = { s with
    regs := u.regs, mem := u.mem, poison := u.poison, hostMem := u.hostMem, free := u.free, out := u.out
    eh := u.eh, cores := u.cores, ks := u.ks, hp := u.hp, hk := u.hk, tw := u.tw, devQ := u.devQ, saveFaults := u.saveFaults
    ms := u.ms, ueDue := u.ueDue }

/-- The state in which a command at DT `t` acts on `s`: device time has come to `t`, a slew whose end has passed is over (R75),
nothing has been sent yet. -/
def arrive (t : DT) (s : State) : State := begin_ s (s.time.advance t)

/-- The state in which a command with the time `m` acts on `s` (the phases of the cycle and T0). -/
def arriveAt (m : Time) (s : State) : State := begin_ s m

/-- Nothing stands before an access by which master `m` comes at DT `t`: no read of a queue by it waits, none of its accesses is held
up (R27, R379), and the DT is not that of a cycle boundary or a Keystone tick that has yet to be carried out (R421). -/
def Unhindered (t : DT) (m : Nat) (s : State) : Prop :=
  masterWaits s m = false ∧ (∀ e ∈ s.accHeld, e.master ≠ m) ∧ atBoundary (arrive t s) = false

/-- No access of any master is held up, and no register-access request waits (R27, R379, R421, R439). -/
def NothingHeldUp (s : State) : Prop := s.accHeld = [] ∧ ∀ n, (s.he.look n).reqs = []

/-- What a command asked of the cycle is carried out on the time. -/
def asked (r : State) : State :=
  { r with time := r.cyc.ask.foldl Time.ask r.time, cyc := { r.cyc with ask := [] } }

/-- The command's own effect is `r`, and the step ends in `u`: what was asked of the cycle is carried out, and nothing but what
may follow from any command is added. -/
def Ends (r u : State) : Prop := Follows False (asked r) u

/-- Nothing follows from the state by itself: no condition is selected anywhere, no start is under way, the protected image is
up to date, no shortage of engines stands declared, and no fault of a save area nor uncorrectable read is still to be reported. -/
def Calm (r : State) : Prop :=
  quiet r = true ∧ r.hk.starting = false ∧ protLive r = r.tw.followed ∧ nsHas r.tw.told 6 = false ∧ r.saveFaults = [] ∧
    r.ueDue = []

/-- The command `c` completes on `s`, its effect is `r`, and nothing is added but what may follow from any command. -/
def Does (c : Instr) (s r : State) : Prop := ∃ u, exec c s = .next u ∧ Ends r u

/-- The same, and where nothing follows from `r` by itself the step ends in exactly `r`. -/
def DoesExactly (c : Instr) (s r : State) : Prop := ∃ u, exec c s = .next u ∧ Ends r u ∧ (Calm r → u = asked r)

/-- The memories and the register file are in canonical form. -/
def Canonical (s : State) : Bool :=
  Memory.wf s.mem && twf regDefault s.regs

end Sys2Proof
end

