-- ==== Sys2Proof/Certificates/Slice0/Obligations.lean ====
section
/-! DEFINITION. The statements for the provers. A statement about a command concludes that `exec` answers a next state `u`.
Most say it as `Ends r u`: `r` is the command's own effect, written out on `arrive t s` (device time has come to the command's
DT, nothing has been sent yet), and `u` differs from `r` only in what may follow from any command (`Follows`: events recorded,
notices, start stages ended, the protected image). So each of them is the result, the completion and the frame at once. -/

section

open Sys2Proof Sys2Proof.Machine

/-! ### The queue, the step, reset -/

/-- A step takes the command at the front of the queue and carries it out on the state with the rest of the queue. On an empty
queue the block idles where nothing of its own waits; a register write of its own that waits is made, here one of an EVT_MASK,
which takes the value written (95_what_each_step_holds.md; what an empty queue does is the model's choice, notes/assumptions/1
and 42). -/
def Obligations.StepTakesTheFrontCommand : Prop :=
  (∀ (c : Instr) (q : List Instr) (s : State), step { s with pending := c :: q } = exec c { s with pending := q }) ∧
  (∀ s : State, s.pending = [] → s.devQ = [] → s.ueDue = [] → s.accHeld = [] → step s = .next s) ∧
  (∀ (m p : Nat) (v : Word) (s : State), s.pending = [] → s.devQ = [⟨m, p / 0x1000 * 0x1000 + 0x20, v⟩] → NothingHeldUp s →
    p < 0x100000 → pageTypeInst (p / 0x1000 * 0x1000) ≠ none → powered s (p / 0x1000 * 0x1000 + 0x20) = true →
    ∃ u, step s = .next u ∧ u.reg (p / 0x1000 * 0x1000 + 0x20) = v.toNat ∧
      (∀ b, eventReg b = false → b ≠ p / 0x1000 * 0x1000 + 0x20 → u.reg b = s.reg b) ∧
      Ends { arriveAt s.time s with regs := u.regs, devQ := [] } u)

/-- Every command of the table completes in every state: it answers a next state, takes nothing from the queue and leaves
no request of the cycle open. -/
def Obligations.EveryCommandCompletes : Prop :=
  ∀ (c : Instr) (s : State), ∃ u, exec c s = .next u ∧ u.pending = s.pending ∧ u.cyc.ask = []

/-- No step takes the schedule in force out of what R31 and R32 allow, and none leaves a stop under way in a cycle that
does not run (R30, R33, R35). At the activation of an epoch change the next-cycle values become live as they stand (R240); the
premise says that they are legal there, as they were when the change was checked. -/
def Obligations.StepKeepsTheSchedule : Prop :=
  ∀ s u : State, Inv s → (activatesNext s = true → schedOk (nextWritten s) = true) → step s = .next u → Inv u

/-- After reset the schedule is a legal one, nothing waits, no request is open, and memory and the register file are in
their one form. -/
def Sys2Proof.ResetIsInForm : Prop :=
  Inv State.reset ∧ Settled State.reset ∧ Canonical State.reset = true ∧ State.reset.pending = []

/-- The 32 kHz schedule that the next-cycle registers hold after reset (R32, Table 2.2), and it is the one in force. -/
def Sys2Proof.ResetHoldsThe32kHzSchedule : Prop :=
  nextWritten State.reset = { period := 250, ulEnd := 64, cwStart := 64, cwEnd := 192, tr := 200, dlEnd := 240 } ∧
  ∀ m : Nat,
    regRead State.reset m F.CYC_PERIOD_NEXT.adr = 240 * 2 ^ 16 + 250 ∧
    regRead State.reset m F.CYC_PHASE_NEXT.adr = 200 * 2 ^ 48 + 192 * 2 ^ 32 + 64 * 2 ^ 16 + 64

/-! ### The servo cycle (chapter 2) -/

/-- No quadrature channel has a latch or an injected transition still to come (R95, R100). -/
def Sys2Proof.QuadQuiet (s : State) : Prop := ∀ e ∈ s.fb.qe, e.2.due = none ∧ e.2.injAt = none

/-- T0 (R30): the first cycle begins at the DT that CYC_START_DT held at the enable, every later one a live period after the
T0 before it; the cycle number starts at 0 and counts by one; the period is a whole number of 125 ns steps from 15.625 µs to
1 ms. Where no T0 is due (the cycle neither starts nor runs, or it is to stop, or its last phase has not come) only the time
moves on: that a T0 which is not due leaves it at that is the model's choice (notes/assumptions/2). No access is held up behind a
read or for this instant (notes/assumptions/1 and 42). -/
def Sys2Proof.T0BeginsACycle : Prop :=
  ∀ (t : DT) (s : State), Inv s → s.standby = false → NothingHeldUp s → (activatesNext s = true → schedOk (nextWritten s) = true) →
    (s.time.starting = true → ∃ u, exec (.t0 t) s = .next u ∧ u.time.t0 = s.time.startDt ∧ u.time.cycle = 0 ∧
      u.time.running = true ∧ u.time.starting = false ∧ u.time.stopping = false ∧ u.cyc.phase = 1 ∧
      125 ≤ u.time.live.period ∧ u.time.live.period ≤ 8000) ∧
    (s.time.starting = false → s.time.running = true → s.time.stopping = false → s.cyc.phase = 6 →
      ∃ u, exec (.t0 t) s = .next u ∧ u.time.t0 = s.time.t0 + BitVec.ofNat 64 (s.time.live.period * 125 * 65536) ∧
        u.time.cycle = s.time.cycle + 1 ∧ u.time.running = true ∧ u.time.starting = false ∧ u.cyc.phase = 1 ∧
        125 ≤ u.time.live.period ∧ u.time.live.period ≤ 8000) ∧
    (s.time.starting = false → (s.time.running = false ∨ s.time.stopping = true ∨ s.cyc.phase ≠ 6) →
      ∃ u, exec (.t0 t) s = .next u ∧ Ends (arrive t s) u)

/-- On the standby the cycle is the active's (R36): a T0 comes for every cycle whose T0 the heartbeats have mapped, with the
number after the mapped one's, and where the mapping neither slews nor drifts it stands one live period after the mapped T0,
plus OFFSET, the own DT less the active's (R388); that the coming T0 is placed a live period after the mapped one is the model's
reading (notes/assumptions/2 and 44). The T0 at which the standby becomes active follows its own last one by the live
period (R389). With no T0 mapped and no cycle running only the time moves on (the model's choice, notes/assumptions/2). No access
is held up. -/
def Sys2Proof.StandbyFollowsTheActivesT0 : Prop :=
  ∀ (t : DT) (s : State), s.standby = true → NothingHeldUp s →
    (∀ (c : BitVec 32) (d : DT), s.tw.mapT0 = some (c, d) → s.tw.link = true →
      ∃ u, exec (.t0 t) s = .next u ∧ u.time.cycle = c + 1 ∧ u.time.running = true ∧ u.time.starting = false ∧
        (s.tw.dtSlew = 0 → s.tw.dtRate = 0 → s.tw.takeover = 0 → s.tw.switchCycle ≠ some c →
          u.time.t0 = d + BitVec.ofNat 64 (s.time.live.period * 125 * 65536) + BitVec.ofInt 64 s.tw.dtOff) ∧
        (s.tw.role = 4 → s.tw.takeover ≠ 0 ∨ s.tw.switchCycle = some c →
          u.time.t0 = s.time.t0 + BitVec.ofNat 64 (s.time.live.period * 125 * 65536))) ∧
    (s.tw.mapT0 = none → s.time.running = false → Does (.t0 t) s (arrive t s))

/-- UL_END, CW_START, CW_END, TR and DL_END come in this order, each at its offset from T0 in 125 ns steps (R31); at DL_END
a cycle whose ENABLE was cleared ends (R35). That a phase which is not the next one does nothing but let time pass, and that a phase
comes at its instant whatever DT its command carries, is the model's choice (notes/assumptions/2). -/
def Sys2Proof.PhasesComeAtTheirInstants : Prop :=
  ∀ (t : DT) (s : State) (peer : Option (List (Nat × Word) × List (Nat × Word))) (flawed : List Nat) (flagged : Bool) (k n : Nat) (c : Instr),
    (k, n, c) ∈ [(2, s.time.live.ulEnd, Instr.feedbackClose t peer flawed flagged), (3, s.time.live.cwStart, .cwStart t),
      (4, s.time.live.cwEnd, .cwEnd t), (5, s.time.live.tr, .tr t), (6, s.time.live.dlEnd, .dlEnd t)] →
    (s.time.running = true → s.cyc.phase + 1 = k →
      ∃ u, exec c s = .next u ∧ u.cyc.phase = k ∧
        u.time = (let m := s.time.advance (s.time.t0 + BitVec.ofNat 64 (n * 125 * 65536))
          if k = 6 ∧ s.time.stopping = true then { m with running := false, stopping := false } else m)) ∧
    ((s.time.running = false ∨ s.cyc.phase + 1 ≠ k) → ∃ u, exec c s = .next u ∧ Ends (arrive t s) u)

/-- What the phases do to the records of the axes, each being due, and the event hub disabled. FEEDBACK_CLOSE (R109, R110, R112): an axis
with a position and without an update in the cycle is predicted to T0, the prediction being its position and its observer words, its
velocity that of the prediction, its FB_DT T0; one miss more is in FB_STATUS. CW_START: with fewer enabled axes than the reorder window
has places no byte of memory changes; the results come with ENGINE_COMPLETE (R44). CW_END (R42, R47): an axis of the cycle without a
result is held, OUT_INFO says so, HOLD_RUN and the count of holds go up by one, and OUT_MAIN and OUT_AUX stay; nothing but these words
of the axes of the cycle changes. TR (R170, R173): an axis that is enabled or feedback-active, is in no gear and has no GO, gets a
set-point dated with the next T0; one that holds keeps its position, at rest. DL_END changes no byte of memory. Stated for quadrature
channels that have nothing due, a unit that is no standby, no mirrored write waiting, and at TR without a partner and with no channel
enabled. -/
def Sys2Proof.PhasesActOnTheAxisRecords : Prop :=
  ∀ (t : DT) (s : State) (peer : Option (List (Nat × Word) × List (Nat × Word))) (flawed : List Nat) (flagged : Bool) (a : Nat), a < 512 →
    s.time.running = true → s.enabled pEH = false → s.standby = false →
    let f := s.fbAx a
    let p := obsPredict f (tauOf (dtDiff s.time.t0 f.upd))
    let next := s.time.t0 + BitVec.ofNat 64 (s.time.live.period * 125 * 65536)
    let x := s.pgAx a
    (s.cyc.phase = 1 → QuadQuiet s → s.tw.mirrors = [] → f.active = true → f.done = false → f.angOn = true →
      ∃ u, exec (.feedbackClose t peer flawed flagged) s = .next u ∧ u.axi a 0x100 = p.1 ∧ u.axi a 0x120 = p.1 ∧ u.axi a 0x110 = p.2 ∧
        u.word (axisBase a + 0x108) = s.time.t0.toNat ∧ u.ax a F.FB_STATUS_CYCLE = s.cycN ∧ u.axb a F.FB_STATUS_UPDATING = false ∧
        u.axb a F.FB_STATUS_MEASURED = false ∧ u.axb a F.FB_STATUS_EXTRAP = true ∧
        u.ax a F.FB_STATUS_MISS_RUN = min 255 (s.ax a F.FB_STATUS_MISS_RUN + 1)) ∧
    (s.cyc.phase = 2 → s.tw.recovering = false → s.cyc.enabledNow.length < 128 →
      ∃ u, exec (.cwStart t) s = .next u ∧ ∀ b, u.byte b = s.byte b) ∧
    (s.cyc.phase = 3 → (∀ e ∈ s.le.win, e.res = none) →
      ∃ u, exec (.cwEnd t) s = .next u ∧
        (a ∈ s.cyc.enabledNow → s.le.released.contains a = false → axisWrongEpoch s a = false →
          u.axb a F.OUT_INFO_HOLD = true ∧ u.ax a F.OUT_INFO_CYCLE = s.cycN ∧
          u.ax a F.AX_STATUS_HOLD_RUN = min 3 (s.ax a F.AX_STATUS_HOLD_RUN + 1) ∧
          u.word (axisBase a + 0x18) % 2 ^ 32 = satInc 32 (s.word (axisBase a + 0x18) % 2 ^ 32)) ∧
        ∀ b, (∀ k ∈ s.cyc.enabledNow, ∀ o ∈ [0x10, 0x18, 0x50], b / 8 ≠ (axisBase k + o) / 8) → u.byte b = s.byte b) ∧
    (s.cyc.phase = 4 → s.tw.link = false → enabledChs s = [] → s.ae.told = ((arrive t s).tu.tstate, (arrive t s).tu.selected) →
      s.enabled pPG = true → s.pg.starting = false → s.pg.ending = false → axisEnabled s a = true ∨ fbIsActive s a = true →
      (∀ e ∈ s.pg.ax, e.1 = a → e.2.mode ≠ 4) → s.axb a F.PG_CTL_GO = false →
      ∃ u, exec (.tr t) s = .next u ∧ u.word (axisBase a + 0x1A0) = next.toNat ∧
        u.ax a F.PG_STATUS_CYCLE = (s.cycN + 1) % 2 ^ 32 ∧ u.axb a F.PG_STATUS_ACTIVE = true ∧
        (axisEnabled s a = true → axisFaulted s a = false → s.tw.stopPending = false → s.ax a F.PG_FOLLOW_FE_LIMIT = 0 →
          (s.leAx a).pgFresh = false → x.mode = 1 → x.formed = true → x.plan.kind = 0 → x.plan.segs = [] →
          x.ref.v = 0 → x.ref.a = 0 → x.ref.j = 0 →
          u.axi a 0x180 = ofP (wrapP x.ref.p) ∧ u.axi a 0x188 = 0 ∧ u.axi a 0x190 = 0 ∧ u.axi a 0x198 = 0)) ∧
    (s.cyc.phase = 5 → s.time.stopping = false → ∃ u, exec (.dlEnd t) s = .next u ∧ ∀ b, u.byte b = s.byte b)

/-- The phases of a cycle: when they come, and what they do to the records of the axes: the parts named hold. -/
def Obligations.PhasesComeInOrder : Prop := PhasesComeAtTheirInstants ∧ PhasesActOnTheAxisRecords

/-- Device time (R61): a command comes at its DT where that lies ahead by the signed difference of R62, and ERA counts each
passing of DT from all ones to 0; DT_WRAP is that instant. That a command carries its DT, and that one not ahead leaves the time as
it is, is the model's choice (notes/assumptions/2). -/
def Obligations.DeviceTimeOnlyAdvances : Prop :=
  (∀ (m : Time) (t : DT), 0 < (t - m.dt).toInt →
    m.advance t = { m with dt := t, era := if t.toNat < m.dt.toNat then m.era + 1 else m.era }) ∧
  (∀ (m : Time) (t : DT), (t - m.dt).toInt ≤ 0 → m.advance t = m) ∧
  (∀ (t : DT) (s : State), Settled s → 0 < (0 - s.time.dt).toInt →
    ∃ u, exec (.dtWrap t) s = .next u ∧ u.time = { s.time with dt := 0, era := s.time.era + 1 } ∧ Ends (arrive 0 s) u)

/-- Reset leaves the 32 kHz schedule in the next-cycle registers, the invariant, an empty queue and canonical memories: the parts named hold. -/
def Obligations.ResetLeavesTheSpecsSchedule : Prop := ResetIsInForm ∧ ResetHoldsThe32kHzSchedule

/-- T0 and the cycle number: the first cycle, every later one, no T0 where none is due, and the standby: the parts named hold. -/
def Obligations.CyclesBeginAtTheirT0 : Prop := T0BeginsACycle ∧ StandbyFollowsTheActivesT0

/-! ### The slack governor (chapter 2) -/

/-- The algorithm of R52 on the code, the quiet count and the history, at a measurement `m` (`none` is incomplete) in a cycle
that was `held` or not. -/
def Sys2Proof.governorRule (c : SgCfg) (code quiet : Nat) (history : List (Option Int)) (m : Option Int) (held : Bool) :
    Nat × Nat × List (Option Int) :=
  let h := (m :: history).take c.window
  if m.all (fun v => decide (v < (c.target : Int))) || held then
    (if code < c.vmax then code + 1 else code, if held then c.freeze else c.window, h)
  else if 0 < quiet then (code, quiet - 1, h)
  else if h.all (fun x => x.any (fun v => decide (((c.target + c.band : Nat) : Int) ≤ v))) && decide (c.vmin < code) then
    (code - 1, c.window, h)
  else (code, quiet, h)

/-- One step of code `c` toward `v`. -/
def Sys2Proof.towardCode (c v : Nat) : Nat := if c < v then c + 1 else if v < c then c - 1 else c

/-- The slack of a cycle (R51): none without an enabled axis, incomplete while an enabled axis has no completion stamp,
else TR less the latest completion, in nanoseconds rounded toward minus infinity. -/
def Sys2Proof.SlackIsTrLessTheLatestCompletion : Prop :=
  ∀ s : State,
    (s.cyc.enabledNow = [] → slackOf s = none) ∧
    ((∃ a ∈ s.cyc.enabledNow, ∀ p ∈ s.sg.done, p.1 ≠ a) → slackOf s = some none) ∧
    (∀ f : Nat → DT, s.cyc.enabledNow ≠ [] → (∀ a ∈ s.cyc.enabledNow, s.sg.done.find? (fun p => p.1 = a) = some (a, f a)) →
      ∃ (v last : Int), slackOf s = some (some v) ∧
        (∃ a ∈ s.cyc.enabledNow, last = (f a - s.time.t0).toInt) ∧
        (∀ a ∈ s.cyc.enabledNow, (f a - s.time.t0).toInt ≤ last) ∧
        v * 65536 ≤ ((s.time.live.tr * 125 * 65536 : Nat) : Int) - last ∧
        ((s.time.live.tr * 125 * 65536 : Nat) : Int) - last < (v + 1) * 65536)

/-- At T0 + DL_END the governor takes at most one step (R52, R53). While it governs it brings a code outside VMIN to VMAX one
step toward that range, acts by the algorithm of R52 on the measurement of the cycle, and does nothing in a cycle without one;
with MODE = 1 or ENABLE = 0 it takes one step toward VFIXED, whether or not the cycle gave a measurement. (No access is held up, and
in the last cycle of a stop no sample is still to be written: R363 lets a block's write reach a register.) -/
def Sys2Proof.GovernorActsOnceAtDlEnd : Prop :=
  ∀ (t : DT) (s : State), s.time.running = true → s.cyc.phase = 5 → s.tw.role ≠ 4 → NothingHeldUp s →
    (s.time.stopping = true → enabledAngs s = [] ∧ enabledChs s = []) →
    s.sg.cfg.vmin ≤ s.sg.cfg.vmax → s.sg.cfg.vmax ≤ 36 → s.sg.cfg.vfixed ≤ 36 → s.g F.SG_VCORE_CODE ≤ 36 →
    ∃ u, exec (.dlEnd t) s = .next u ∧
      (s.enabled pSG = true ∧ s.sg.cfg.fixed = false →
        (s.g F.SG_VCORE_CODE < s.sg.cfg.vmin → u.g F.SG_VCORE_CODE = s.g F.SG_VCORE_CODE + 1) ∧
        (s.sg.cfg.vmax < s.g F.SG_VCORE_CODE → u.g F.SG_VCORE_CODE + 1 = s.g F.SG_VCORE_CODE) ∧
        (s.sg.cfg.vmin ≤ s.g F.SG_VCORE_CODE → s.g F.SG_VCORE_CODE ≤ s.sg.cfg.vmax →
          (slackOf s = none → u.g F.SG_VCORE_CODE = s.g F.SG_VCORE_CODE ∧ u.sg.quiet = s.sg.quiet ∧
            u.sg.history = s.sg.history) ∧
          (∀ m, slackOf s = some m → (u.g F.SG_VCORE_CODE, u.sg.quiet, u.sg.history) =
            governorRule s.sg.cfg (s.g F.SG_VCORE_CODE) s.sg.quiet s.sg.history m (decide (0 < s.cyc.heldNow))))) ∧
      (s.enabled pSG = false ∨ s.sg.cfg.fixed = true →
        u.g F.SG_VCORE_CODE = towardCode (s.g F.SG_VCORE_CODE) s.sg.cfg.vfixed)

/-- While the cycle does not run the code walks toward VFIXED, one step every 10 µs of DT; each step falls 10 µs after the one
before it (R53). Earlier than that, at VFIXED, or in a running cycle, the command does nothing. -/
def Sys2Proof.WalkTakesAStepEvery10us : Prop :=
  ∀ (t : DT) (s : State), s.sg.cfg.vfixed ≤ 36 → s.g F.SG_VCORE_CODE ≤ 36 →
    (s.time.running = false → s.g F.SG_VCORE_CODE ≠ s.sg.cfg.vfixed → ((s.time.advance t).dt - s.sg.walkFrom).toInt ≥ 10000 * 65536 →
      ∃ u, exec (.vfixedWalkStep t) s = .next u ∧
        u.g F.SG_VCORE_CODE = towardCode (s.g F.SG_VCORE_CODE) s.sg.cfg.vfixed ∧
        u.sg.walkFrom = s.sg.walkFrom + BitVec.ofNat 64 (10000 * 65536) ∧
        (∀ a, eventReg a = false → a ≠ F.SG_VCORE_CODE.adr → u.reg a = s.reg a) ∧
        Ends { arrive t s with regs := u.regs, sg := { s.sg with walkFrom := u.sg.walkFrom, stepAt := u.sg.stepAt } } u) ∧
    ((s.time.running = true ∨ s.g F.SG_VCORE_CODE = s.sg.cfg.vfixed ∨ ((s.time.advance t).dt - s.sg.walkFrom).toInt < 10000 * 65536) →
      ∃ u, exec (.vfixedWalkStep t) s = .next u ∧ Ends (arrive t s) u)

/-- SG_STATS_RESET (R56): the histogram restarts at 0, SG_SLACK_MIN returns to its reset value, UP_STEPS and DOWN_STEPS are
cleared; the code and every other register stay. No access is held up. -/
def Sys2Proof.StatsResetClearsTheCounts : Prop :=
  ∀ (t : DT) (m : Nat) (s : State), Unhindered t m s → s.hk.corePower = true → ∃ u, exec (.sgStatsReset t m) s = .next u ∧
    u.sg.bins = [] ∧ u.reg F.SG_SLACK_MIN_SLACK.adr = 0x7FFFFFFF ∧
    u.g F.SG_VCORE_UP_STEPS = 0 ∧ u.g F.SG_VCORE_DOWN_STEPS = 0 ∧ u.g F.SG_VCORE_CODE = s.g F.SG_VCORE_CODE ∧
    (∀ a, eventReg a = false → a ≠ F.SG_SLACK_MIN_SLACK.adr → a ≠ F.SG_VCORE_CODE.adr → u.reg a = s.reg a) ∧
    Ends { arrive t s with regs := u.regs, sg := { s.sg with bins := [] } } u

/-- Slack is TR less the latest completion, and SG_STATS_RESET clears what was counted of it: the parts named hold. -/
def Obligations.SlackIsMeasuredAndItsCountsReset : Prop := SlackIsTrLessTheLatestCompletion ∧ StatsResetClearsTheCounts

/-- The governor acts once at DL_END by the algorithm, and walks toward VFIXED where it does not govern: the parts named hold. -/
def Obligations.GovernorStepsAndWalks : Prop := GovernorActsOnceAtDlEnd ∧ WalkTakesAStepEvery10us

/-! ### Pages: checks, guarded writes, snapshots (chapter 16) -/

/-- The action `a` reaches its page while no check runs there: it becomes the running action and CHECK.BUSY is 1. -/
def Sys2Proof.beginsCheck (s : State) (a : Action) : State :=
  { s with checks := s.checks.set a.page { s.checks.look a.page with running := some a } }.put (F.CHECK_BUSY a.page) 1

/-- `c` asks a page for the action `a`, which has a check, by a plain write at the DT `d`. -/
def Sys2Proof.PlainRequest (t : DT) (m i : Nat) (flag : Bool) (v : Nat) (d : DT) (c : Instr) (a : Action) : Prop :=
  let ask (k : ActKind) (page idx val : Nat) : Action := ⟨k, page, idx, val, m, none, d⟩
  (c, a) ∈ ([(.feedbackStart t m i, ask .feedbackStart pFBE (i % 512) (2 ^ 63 + i % 512)),
   (.restart t m i, ask .groupRestart pPG (i % 32) (2 ^ 62)),
   (.discoveryStart t m i, ask .discoveryStart (pFP (i % 8)) (i % 8) (2 ^ 63)),
   (.channelEnable t m i, ask .channelEnable pAE (i % 4096) 0),
   (.streamStart t m i, ask .streamStart pAE (i % 256) 0),
   (.streamStop t m i, ask .streamStop pAE (i % 256) 0),
   (.streamRestart t m i, ask .streamRestart pAE (i % 256) 0),
   (.angleChannelEnable t m i, ask .angleEnable pANG (i % 512) 0),
   (.histogramEnable t m i, ask .histEnable pANG (i % 4096) 0),
   (.copyHistogram t m i flag, ask .copyHist pANG (i % 4096) (b2n flag)),
   (.copyMap t m i flag, ask .copyMap pANG (i % 4096) (b2n flag)),
   (.cxStart t m i, ask .cxStart pKS (i % 1024) 0),
   (.cxResume t m i, ask .cxResume pKS (i % 1024) 0),
   (.flowEnable t m i, ask .flowEnable pKS (i % 64) 0),
   (.queueEnable t m i, ask .queueEnable pQ (i % 64) 0),
   (.queueDisable t m i, ask .queueDisable pQ (i % 64) 0)] : List (Instr × Action)) ∨
  (dmaRefuses m (i % 16) = false ∧ (c, a) ∈ ([(.dmaRingEnable t m i v, ask .dmaEnable pDMA (i % 16) (v % 2)),
   (.dmaRingDisable t m i v, ask .dmaDisable pDMA (i % 16) (v % 2)),
   (.dmaResume t m i v, ask .dmaResume pDMA (i % 16) (v % 2)),
   (.dmaAbort t m i v, ask .dmaAbort pDMA (i % 16) (v % 2)),
   (.dmaContinue t m i v, ask .dmaContinue pDMA (i % 16) (v % 2))] : List (Instr × Action)))

/-- `c` sets CTRL.ENABLE of the page at `p` by a plain write. -/
def Sys2Proof.EnableRequest (t : DT) (m n : Nat) (c : Instr) (p : Nat) : Prop :=
  (c, p) ∈ ([(.cycleEnable t m, pCyc), (.sgEnable t m, pSG), (.timePageEnable t m, pTU), (.ptpEnable t m, pPTP), (.fbeEnable t m, pFBE),
   (.qePageEnable t m, pQE), (.lePageEnable t m, pLE), (.pgEnable t m, pPG), (.aePageEnable t m, pAE),
   (.angPageEnable t m, pANG), (.scEnable t m n, pSC (n % 8)), (.pwEnable t m, pPW), (.trcEnable t m, pTRC),
   (.pageEnable t m pKS, pKS), (.pageEnable t m pXU, pXU), (.pageEnable t m pMEM, pMEM), (.pageEnable t m pEH, pEH),
   (.pageEnable t m (pHE (n % 2)), pHE (n % 2))] : List (Instr × Nat))

/-- Setting ENABLE of a page runs its check: CHECK.BUSY is 1 while it runs, and ENABLE reads 0 until it passes. Setting an
ENABLE that is set runs no check and does nothing, and one that meets a running check is held behind those held before it (R413).
The check of the cycle page keeps the CYC_START_DT held at the write (R35). While the core supplies are down the write is not made
and its master is told (R26). -/
def Sys2Proof.SettingEnableRunsThePagesCheck : Prop :=
  ∀ (t : DT) (m n : Nat) (s : State) (c : Instr) (p : Nat), EnableRequest t m n c p → Unhindered t m s →
    (∀ b, s.hk.corePower = true → (s.checks.look p).running = some b → ∃ u, exec c s = .next u ∧
      Ends { arrive t s with checks := s.checks.set p ⟨some b, (s.checks.look p).held ++
        [⟨.pageEnable, p, 0, if p = pCyc then s.reg F.CYC_START_DT.adr else 1, m, none, (s.time.advance t).dt⟩]⟩ } u) ∧
    (s.hk.corePower = true → (s.checks.look p).running = none →
      (s.enabled p = false → ∃ u, exec c s = .next u ∧ u.enabled p = false ∧ u.g (F.CHECK_BUSY p) = 1 ∧
        Ends (beginsCheck (arrive t s)
          ⟨.pageEnable, p, 0, if p = pCyc then s.reg F.CYC_START_DT.adr else 1, m, none, (s.time.advance t).dt⟩) u) ∧
      (s.enabled p = true → ∃ u, exec c s = .next u ∧ Ends (arrive t s) u)) ∧
    (s.hk.corePower = false → ∃ u, exec c s = .next u ∧ Ends ((arrive t s).emit (.noPower m)) u)

/-- `b` is a START, STOP or RESTART of the stream that `a` is one of. -/
def Sys2Proof.sameStream (a b : Action) : Bool :=
  [.streamStart, .streamStop, .streamRestart].contains a.kind && [.streamStart, .streamStop, .streamRestart].contains b.kind &&
    b.idx = a.idx

/-- Every other action with a check that a plain write asks for runs its check when none runs on the page (R413); an action
that meets a running check is held, behind those held before it, and no field but its page's list changes. A START, STOP or RESTART
of a stream that meets another of its stream is held with the mark by which its check refuses it as busy (R274). The statement is
for core supplies that are up (R26); DMA_RESUME first brings in the quadrature latches that are due, and it is for none.
No access is held up. -/
def Sys2Proof.AnActionRunsItsCheckOrIsHeld : Prop :=
  ∀ (t : DT) (m i v : Nat) (flag : Bool) (s : State) (c : Instr) (a : Action),
    PlainRequest t m i flag v (s.time.advance t).dt c a → Unhindered t m s → s.hk.corePower = true →
    (a.kind = .dmaResume → QuadQuiet s) →
    ((s.checks.look a.page).running = none →
      ∃ u, exec c s = .next u ∧ u.g (F.CHECK_BUSY a.page) = 1 ∧ Ends (beginsCheck (arrive t s) a) u) ∧
    (∀ b, (s.checks.look a.page).running = some b →
      ∃ u, exec c s = .next u ∧
        Ends { arrive t s with checks := s.checks.set a.page ⟨some b, (s.checks.look a.page).held ++
          [if sameStream a b || (s.checks.look a.page).held.any (sameStream a) then { a with val := 1 } else a]⟩ } u) ∧
    (sameStream a a = true → ∀ r pass, ownCheck r { a with val := 1 } pass ≠ 0)

/-- A check that refuses (R413, R414): CHECK shows REFUSED, the master of the action, one more in SEQ and the first failing
reason; BUSY clears, ENABLE stays 0, and nothing else of the machine changes. -/
def Sys2Proof.ARefusedEnableHasNoEffect : Prop :=
  ∀ (t : DT) (p pass : Nat) (s : State) (a : Action), p % 0x1000 = 0 → (s.checks.look p) = ⟨some a, []⟩ →
    a.kind = .pageEnable → a.page = p → a.guarded = none → a.master < 2 ^ 16 → a.master ≠ hkMaster → s.enabled p = false →
    ∀ code, code = actionCheck (arrive t s) a pass → code ≠ 0 → code < 2 ^ 16 →
      ∃ u, exec (.checkDone t p pass) s = .next u ∧
        u.g (F.CHECK_REFUSED p) = 1 ∧ u.g (F.CHECK_BUSY p) = 0 ∧ u.g (F.CHECK_MASTER p) = a.master ∧
        u.g (F.CHECK_SEQ p) = (s.g (F.CHECK_SEQ p) + 1) % 65536 ∧ u.g (F.CHECK_REASON p) = code ∧ u.enabled p = false ∧
        (∀ b, eventReg b = false → b ≠ (F.CHECK p).adr → u.reg b = s.reg b) ∧
        Ends { arrive t s with regs := u.regs, checks := s.checks.set p ⟨none, []⟩ } u

/-- A guarded write's first two steps (R417, R418). GUARD_SEL opens a sequence on an offset that holds a GW field and takes its
opener; GUARD_A by the opener, no later than 1 µs after, gives the value. No access is held up. -/
def Sys2Proof.GuardStepsOpenAndCarryTheSequence : Prop :=
  ∀ (t : DT) (m p : Nat) (v : Word) (s : State), Unhindered t m s → p % 0x1000 = 0 → pageTypeInst p ≠ none → powered s p = true →
    (m < 2 ^ 16 → s.guards.look p = none → hasGw p (v.toNat / 8 % 512 * 8) = true →
      ∃ u, exec (.guardSelWrite t m p v) s = .next u ∧
        u.guards.look p = some ⟨m, v.toNat / 8 % 512 * 8, (s.time.advance t).dt, none⟩ ∧
        u.g (F.GUARD_STATE_OPEN p) = 1 ∧ u.g (F.GUARD_STATE_MASTER p) = m ∧
        u.g (F.GUARD_STATE_OFFSET p) = v.toNat / 8 % 512 * 8 ∧ u.g (F.GUARD_STATE_RESULT p) = s.g (F.GUARD_STATE_RESULT p) ∧
        (∀ b, eventReg b = false → b ≠ (F.GUARD_SEL p).adr → b ≠ (F.GUARD_STATE p).adr → u.reg b = s.reg b) ∧
        Ends { arrive t s with regs := u.regs, guards := u.guards } u) ∧
    (∀ q, s.guards.look p = some q → q.opener = m → q.value = none → ((s.time.advance t).dt - q.last).toInt ≤ 1000 * 65536 →
      ∃ u, exec (.guardAWrite t m p v) s = .next u ∧
        u.guards.look p = some { q with value := some v, last := (s.time.advance t).dt } ∧
        (∀ b, eventReg b = false → b ≠ (F.GUARD_A p).adr → u.reg b = s.reg b) ∧
        Ends { arrive t s with regs := u.regs, guards := u.guards } u)

/-- The results 3 to 8 of Table 16.4 (R418): a late step, a GUARD_B that is not the complement, a step of another master, a
GUARD_SEL on an offset without a GW field, a value step out of order. Each discards the sequence and leaves the target
unchanged: of the registers only those of the guard change. No access is held up. -/
def Sys2Proof.ABadGuardStepDiscardsTheSequence : Prop :=
  ∀ (t : DT) (m p : Nat) (v : Word) (s : State), Unhindered t m s → p % 0x1000 = 0 → pageTypeInst p ≠ none → powered s p = true →
    ∀ (c : Instr) (result : Nat),
      (c = .guardSelWrite t m p v ∧ s.guards.look p = none ∧ hasGw p (v.toNat / 8 % 512 * 8) = false ∧ result = 6) ∨
      ((c = .guardAWrite t m p v ∨ c = .guardBWrite t m p v) ∧ s.guards.look p = none ∧ result = 8) ∨
      (∃ q, s.guards.look p = some q ∧
        (((c = .guardAWrite t m p v ∨ c = .guardBWrite t m p v) ∧ m ≠ q.opener ∧ result = 5) ∨
         ((c = .guardAWrite t m p v ∨ c = .guardBWrite t m p v) ∧ m = q.opener ∧
           1000 * 65536 < ((s.time.advance t).dt - q.last).toInt ∧ result = 3) ∨
         (m = q.opener ∧ ((s.time.advance t).dt - q.last).toInt ≤ 1000 * 65536 ∧
           ((c = .guardAWrite t m p v ∧ q.value ≠ none ∧ result = 8) ∨
            (c = .guardBWrite t m p v ∧ q.value = none ∧ result = 8) ∨
            (c = .guardBWrite t m p v ∧ (∃ a, q.value = some a ∧ v ≠ ~~~a) ∧ result = 4))))) →
      ∃ u, exec c s = .next u ∧ u.guards.look p = none ∧ u.g (F.GUARD_STATE_RESULT p) = result ∧
        u.g (F.GUARD_STATE_OPEN p) = 0 ∧
        (∀ b, eventReg b = false → ¬ (p + 0x30 ≤ b ∧ b ≤ p + 0x48) → u.reg b = s.reg b) ∧
        Ends { arrive t s with regs := u.regs, guards := u.guards } u

/-- GUARD_B with the complement, by the opener and in time, completes the sequence (R417): here the write of BOOT_SEL, whose
action runs its check (R446). No access is held up. -/
def Sys2Proof.TheComplementCompletesAGuardedWrite : Prop :=
  ∀ (t : DT) (m : Nat) (a : Word) (s : State) (q : GuardSeq), Unhindered t m s → s.guards.look pBoot = some q → q.opener = m →
    q.offset = 0x80 → q.value = some a → ((s.time.advance t).dt - q.last).toInt ≤ 1000 * 65536 →
    (s.checks.look pBoot).running = none →
    ∃ u, exec (.guardBWrite t m pBoot (~~~a)) s = .next u ∧ u.guards.look pBoot = none ∧
      (u.checks.look pBoot).running =
        some ⟨.bootSel, pBoot, a.toNat % 2, a.toNat % 2, m, some 0x80, (s.time.advance t).dt⟩ ∧
      u.g (F.GUARD_STATE_OPEN pBoot) = 0 ∧ u.g (F.CHECK_BUSY pBoot) = 1 ∧ u.g F.BOOT_SEL_IMAGE = s.g F.BOOT_SEL_IMAGE ∧
      Ends { arrive t s with regs := u.regs, guards := u.guards, checks := u.checks } u

/-- EVT_MASK takes the value written (R416); the events that a condition present raises are what may follow any command.
No access is held up. -/
def Sys2Proof.EvtMaskTakesTheValueWritten : Prop :=
  ∀ (t : DT) (m p : Nat) (v : Word) (s : State), Unhindered t m s → pageTypeInst (p / 0x1000 * 0x1000) ≠ none →
    powered s (p / 0x1000 * 0x1000 + 0x20) = true →
    ∃ u, exec (.evtMaskWrite t m p v) s = .next u ∧ u.reg (p / 0x1000 * 0x1000 + 0x20) = v.toNat ∧
      (∀ b, eventReg b = false → b ≠ p / 0x1000 * 0x1000 + 0x20 → u.reg b = s.reg b) ∧
      Ends { arrive t s with regs := u.regs } u

/-- `c` writes the value `v` to the TAKE register at `a`. -/
def Sys2Proof.TakeCommand (t : DT) (m i : Nat) (c : Instr) (a v : Nat) : Prop :=
  (c, a, v) ∈ ([(.cycSnapTake t m, F.CYC_SNAP_TAKE.adr, 1), (.sgHistSnapTake t m, F.SG_HIST_SNAP_TAKE.adr, 1),
   (.tuSnapTake t m, F.TU_SNAP_TAKE.adr, 1), (.fbeSnapTake t m, F.FBE_SNAP_TAKE.adr, 1),
   (.qeSnapTake t m i, F.QE_SNAP_TAKE.adr, 256 + i % 32), (.leSnapTake t m, F.LE_SNAP_TAKE.adr, 1),
   (.fpSnapTake t m i, (F.FP_SNAP_TAKE (i % 8)).adr, 1), (.fpGsnapTake t m i, (F.FP_GSNAP_TAKE (i % 8)).adr, 1),
   (.aeSnapTake t m, F.AE_SNAP_TAKE.adr, 1), (.scSnapTake t m i, pSC (i % 8) + 0x98, 1),
   (.ksSnapTake t m, F.KS_SNAP_TAKE.adr, 1), (.memSnapTake t m, F.MEM_SNAP_TAKE.adr, 1),
   (.twSnapTake t m, F.TW_SNAP_TAKE.adr, 1)] : List (Instr × Nat × Nat))

/-- A TAKE captures the page's words at one instant into the copies of the master that writes it (R58, R66, R119, R420): that
master reads the captured values, the copies of every other master stay, and nothing but copies changes. For CYC_SNAP the
values are T0, the cycle number and the hold totals up to the last completed cycle. A TAKE of the feedback and quadrature pages
first brings in the latches and injected transitions that are due; the statement is for channels that have none. -/
def Sys2Proof.ASnapshotIsTheTakersOwn : Prop :=
  ∀ (t : DT) (m i : Nat) (s : State) (c : Instr) (a v : Nat), TakeCommand t m i c a v → s.hk.corePower = true →
    (a = F.FBE_SNAP_TAKE.adr ∨ a = F.QE_SNAP_TAKE.adr → QuadQuiet s) →
    ∃ u, exec c s = .next u ∧
      (∀ w ∈ snapWords (arrive t s) a v, regRead u m w.1 = w.2 % 2 ^ 64) ∧
      (∀ k b, k ≠ m → b < 0x4000000 → a < 0x4000000 → tget (fun _ => (0 : Word)) u.snaps (snapKey k b) =
        tget (fun _ => (0 : Word)) s.snaps (snapKey k b)) ∧
      (a = F.CYC_SNAP_TAKE.adr → regRead u m F.CYC_SNAP_T0.adr = s.time.t0.toNat ∧
        regRead u m F.CYC_SNAP_NUM.adr = s.time.cycle.toNat ∧
        regRead u m F.CYC_SNAP_HOLDS.adr = s.cyc.holdsDone % 2 ^ 64 ∧
        regRead u m F.CYC_SNAP_HCYC.adr = s.cyc.heldCyclesDone % 2 ^ 64) ∧
      Ends { arrive t s with snaps := u.snaps } u

/-- Setting ENABLE, and every other plain action with a check, runs the check of its page or waits for it: the parts named hold. -/
def Obligations.RequestsRunTheirChecks : Prop := SettingEnableRunsThePagesCheck ∧ AnActionRunsItsCheckOrIsHeld

/-- A guarded write opens, carries its value and completes, and each bad step discards it with its result: the parts named hold. -/
def Obligations.GuardedWritesFollowTheirSteps : Prop := GuardStepsOpenAndCarryTheSequence ∧ ABadGuardStepDiscardsTheSequence ∧ TheComplementCompletesAGuardedWrite

/-- EVT_MASK takes the value written, and a TAKE captures the words of its page for the master that writes it alone: the parts named hold. -/
def Obligations.MasksAndSnapshotsAreTaken : Prop := EvtMaskTakesTheValueWritten ∧ ASnapshotIsTheTakersOwn

/-- What an ENABLE of the page at `p` that has passed its check changes beside the registers (R53, R56, R57, R83, R119, R173,
R360). -/
def Sys2Proof.EnableEffect (p : Nat) (f : State → State) : Prop :=
  (p ∈ [pQE, pANG, pXU, pTRC, pEH, pHE 0, pHE 1] ∧ f = id) ∨
  (p = pTU ∧ f = fun s => { s with tu := { s.tu with onAt := s.time.dt } }) ∨
  (p = pFBE ∧ f = fun s => { s with fb := { s.fb with
    accepted := 0, extrapolated := 0, rejected := 0, missLimit := s.g F.FBE_CFG_MISS_LIMIT, dtTol := s.g F.FBE_CFG_DT_TOL } }) ∨
  (p = pPG ∧ f = fun s => { s with pg := { s.pg with starting := true } }) ∨
  (p = pAE ∧ f = fun s => { s with ae := { s.ae with samples := 0, packets := 0, bytes := 0, discard := 0 } }) ∨
  (p = pMEM ∧ f = fun s => { s with ms := { s.ms with scrubSram := true, scrubDram := true } }) ∨
  (p = pSG ∧ f = fun s => { s with sg := { s.sg with
    cfg := sgRead s, quiet := s.g F.SG_CFG_WINDOW, frozen := false, history := [], bins := []
    walkFrom := if s.g F.SG_VCORE_CODE = s.sg.cfg.vfixed then s.time.dt else s.sg.walkFrom } })

/-- A check that passes (R413): ENABLE is set, CHECK shows no refusal and reason 0, and the page's own effect comes about. For
the governor: the configuration written is taken, the history is emptied, the quiet count is a window, the histogram restarts
and SG_SLACK_MIN returns to its reset value (R52, R54, R56). -/
def Sys2Proof.APassedEnableTakesEffect : Prop :=
  ∀ (t : DT) (p pass : Nat) (s : State) (a : Action) (f : State → State), EnableEffect p f →
    s.checks.look p = ⟨some a, []⟩ → a.kind = .pageEnable → a.page = p → a.guarded = none →
    actionCheck (arrive t s) a pass = 0 →
    ∃ u, exec (.checkDone t p pass) s = .next u ∧ u.enabled p = true ∧ u.g (F.CHECK_REFUSED p) = 0 ∧
      u.g (F.CHECK_BUSY p) = 0 ∧ u.g (F.CHECK_REASON p) = 0 ∧
      (p = pSG → u.reg F.SG_SLACK_MIN_SLACK.adr = 0x7FFFFFFF) ∧
      (∀ b, eventReg b = false → b ≠ (F.CHECK p).adr → b ≠ (F.CTRL_ENABLE p).adr → b ≠ F.SG_SLACK_MIN_SLACK.adr →
        u.reg b = s.reg b) ∧
      Ends (f { arrive t s with regs := u.regs, checks := s.checks.set p ⟨none, []⟩ }) u

/-- The cycle check has passed (R33, R34): the next-cycle values are in force, STATE.STARTING is 1 until the first T0, which is
to fall at the DT that CYC_START_DT held at the write of ENABLE, kept in the action, and the hold totals count from here (R35,
R58). -/
def Sys2Proof.APassedCycleCheckStartsTheCycle : Prop :=
  ∀ (t : DT) (pass : Nat) (s : State) (a : Action), s.checks.look pCyc = ⟨some a, []⟩ → a.kind = .pageEnable → a.page = pCyc →
    a.guarded = none → actionCheck (arrive t s) a pass = 0 → Settled s →
    ∃ u, exec (.checkDone t pCyc pass) s = .next u ∧ u.enabled pCyc = true ∧
      u.time = { s.time.advance t with
        starting := true, startDt := BitVec.ofNat 64 a.val, live := nextWritten s } ∧
      u.cyc = { s.cyc with holds := 0, heldCycles := 0, holdsDone := 0, heldCyclesDone := 0 } ∧
      u.g (F.CHECK_REFUSED pCyc) = 0 ∧ u.g (F.CHECK_REASON pCyc) = 0 ∧
      (∀ b, eventReg b = false → b ≠ (F.CHECK pCyc).adr → b ≠ (F.CTRL_ENABLE pCyc).adr → u.reg b = s.reg b)

/-- ENABLE of the cycle page cleared (R35): a running cycle is marked to end at its DL_END and goes on until then, or ends at once
where its DL_END has passed (the model's reading, notes/assumptions/17), and with it come the samples of the pins and what
awaits a T0; a start that has not reached its first T0 is abandoned. (A cycle that ends at once has no samples still to be written
here: R363 lets a block's write reach a register.) No access is held up. -/
def Sys2Proof.ClearingTheCyclesEnableLetsItEnd : Prop :=
  ∀ (t : DT) (m : Nat) (s : State), Unhindered t m s → s.enabled pCyc = true → (s.checks.look pCyc).running = none → Settled s →
    s.hk.corePower = true →
    (s.time.starting = false → s.time.running = true → s.cyc.phase = 6 → s.ae.pinCycle = none ∧ ∀ g, (s.angCh g).queue = []) → ∃ u, exec (.cycleDisable t m) s = .next u ∧ u.enabled pCyc = false ∧
      (s.time.starting = true → u.time = { s.time.advance t with starting := false }) ∧
      (s.time.starting = false → s.time.running = true → s.cyc.phase ≠ 6 → u.time = { s.time.advance t with stopping := true }) ∧
      (s.time.starting = false → s.time.running = true → s.cyc.phase = 6 →
        u.time = { s.time.advance t with running := false, stopping := false }) ∧
      (s.time.starting = false → s.time.running = false → u.time = s.time.advance t) ∧
      ((s.cyc.phase ≠ 6 ∨ s.time.running = false ∨ s.time.starting = true) →
        (∀ b, eventReg b = false → b ≠ (F.CTRL_ENABLE pCyc).adr → u.reg b = s.reg b) ∧
        Ends { arrive t s with regs := u.regs, cyc := { s.cyc with ask := [.stop] } } u) ∧
      (s.cyc.phase = 6 → s.time.running = true → s.time.starting = false → (∀ p < 8, (s.port p).commit = false) →
        (∀ b, eventReg b = false → b ≠ (F.CTRL_ENABLE pCyc).adr → u.reg b = s.reg b) ∧
        Ends { arrive t s with regs := u.regs, cyc := { s.cyc with ask := [.over] }
                               sg := { s.sg with walkFrom := (s.time.advance t).dt } } u)

/-- ENABLE of the SG, PG, PTP, FBE and EH pages cleared: it takes effect at once, without a check (R413). The governor leaves
its walk as it stands (R53); the profile generator ends at the next TR (R173); the domain slots stop (R77), which is told to the
acquisition (R262; here no stream runs), and are then as by default, which is the model's choice (notes/assumptions/37); feedback of
every axis stops at the next T0 (R88); every event queue stops (R432). On a page whose ENABLE is clear, with no check running, it does
nothing. No access is held up. -/
def Sys2Proof.ClearingEnableTakesEffectAtOnce : Prop :=
  ∀ (t : DT) (m : Nat) (s : State), Unhindered t m s → s.hk.corePower = true →
    (∀ (c : Instr) (p : Nat), (c, p) ∈ [(Instr.sgDisable t m, pSG), (.pgDisable t m, pPG), (.ptpDisable t m, pPTP),
        (.ehDisable t m, pEH), (.fbeDisable t m, pFBE), (.cycleDisable t m, pCyc), (.ksDisable t m, pKS)] →
      (s.checks.look p).running = none → s.enabled p = false →
      ∃ u, exec c s = .next u ∧ Ends (arrive t s) u) ∧
    (s.enabled pSG = true → (s.checks.look pSG).running = none →
      ∃ u, exec (.sgDisable t m) s = .next u ∧ u.enabled pSG = false ∧
        (∀ b, eventReg b = false → b ≠ (F.CTRL_ENABLE pSG).adr → u.reg b = s.reg b) ∧
        Ends { arrive t s with regs := u.regs } u) ∧
    (s.enabled pPG = true → (s.checks.look pPG).running = none →
      ∃ u, exec (.pgDisable t m) s = .next u ∧ u.enabled pPG = false ∧
        (∀ b, eventReg b = false → b ≠ (F.CTRL_ENABLE pPG).adr → u.reg b = s.reg b) ∧
        Ends { arrive t s with regs := u.regs, pg := { s.pg with starting := false, ending := true } } u) ∧
    (s.enabled pPTP = true → (s.checks.look pPTP).running = none → (∀ e ∈ s.ae.str, strLive s e.1 = false) →
      ∃ u, exec (.ptpDisable t m) s = .next u ∧ u.enabled pPTP = false ∧ u.tu.selected = none ∧
        u.tu.dom0 = default ∧ u.tu.dom1 = default ∧ (s.tu.tstate = 1 ∨ s.tu.tstate = 2 → u.tu.tstate = 3) ∧
        Ends { arrive t s with regs := u.regs, tu := u.tu, ae := { s.ae with told := (u.tu.tstate, none) } } u) ∧
    (s.enabled pFBE = true → (s.checks.look pFBE).running = none →
      ∃ u, exec (.fbeDisable t m) s = .next u ∧ u.enabled pFBE = false ∧
        (∀ a, u.fbAx a = { s.fbAx a with pendStart := none, pendStop := (s.fbAx a).active }) ∧
        (∀ b, eventReg b = false → b ≠ (F.CTRL_ENABLE pFBE).adr → u.reg b = s.reg b) ∧
        Ends { arrive t s with regs := u.regs, fb := { s.fb with ax := u.fb.ax } } u) ∧
    (s.enabled pEH = true → (s.checks.look pEH).running = none →
      ∃ u, exec (.ehDisable t m) s = .next u ∧ u.enabled pEH = false ∧ (∀ q < 16, u.gb (F.EH_QCFG_EN q) = false) ∧
        (∀ b, eventReg b = false → b ≠ (F.CTRL_ENABLE pEH).adr → (∀ q < 16, b ≠ (F.EH_QCFG_EN q).adr) → u.reg b = s.reg b) ∧
        Ends { arrive t s with regs := u.regs } u)

/-- A check that refuses leaves no effect but CHECK; one that passes sets ENABLE and brings the effect of the page: the parts named hold. -/
def Obligations.ChecksRefuseOrPass : Prop := ARefusedEnableHasNoEffect ∧ APassedEnableTakesEffect ∧ APassedCycleCheckStartsTheCycle

/-- Clearing ENABLE lets a running cycle end at its DL_END, and acts at once on the other pages: the parts named hold. -/
def Obligations.ClearingEnableTakesEffect : Prop := ClearingTheCyclesEnableLetsItEnd ∧ ClearingEnableTakesEffectAtOnce

/-! ### Guarded operations (R417, R418) -/

/-- `c` is a guarded operation with a check: it asks for the action `kind` with `idx` and `val` through the register at `off`
of the page at `p`. -/
def Sys2Proof.GuardedRequest (t : DT) (m i : Nat) (s : State) (c : Instr) (kind : ActKind) (p off idx val : Nat) : Prop :=
  (c, kind, p, off, idx, val) ∈ ([(.axisEnable t m i, .axisEnable, pLE, 0x80, i % 512, 512 + i % 512),
    (.commit t m i, .commit, pFP (i % 8), 0x148, i % 8, 1), (.release t m i, .release, pFP (i % 8), 0x148, i % 8, 2),
    (.epochRequest t m, .epochRequest, pEpoch, 0x88, 0, 1), (.epochCancel t m, .epochCancel, pEpoch, 0x88, 0, 2),
    (.switch t m, .twSwitch, pPW, 0x88, 0, 1),
    (.bootSelWrite t m i, .bootSel, pBoot, 0x80, i % 2, i % 2)] : List (Instr × ActKind × Nat × Nat × Nat × Nat)) ∨
  (s.enabled (pFP (i % 8)) = false ∧ (c, kind, p, off, idx, val) = (.fpEnable t m i, .pageEnable, pFP (i % 8), 8, 0, 1)) ∨
  (s.g F.FS_FEED_DIS_DIS_A = 0 ∧
    (c, kind, p, off, idx, val) = (.disA t m true, .disA, pFS, 0x80, 0, s.g F.FS_FEED_DIS_DIS_B * 2 + 1)) ∨
  (s.g F.FS_FEED_DIS_DIS_B = 0 ∧
    (c, kind, p, off, idx, val) = (.disB t m true, .disB, pFS, 0x80, 1, 2 + s.g F.FS_FEED_DIS_DIS_A))

/-- A guarded operation with a check (R413, R417, R418): where none runs on the page its check begins and BUSY is 1, an
operation field takes the value written, and the fields ENABLE, IMAGE, DIS_A and DIS_B wait for the check; where one runs, the
operation is held behind those held before it and PENDING is 1 (a write of FS_FEED_DIS that leaves the other bit 0 is held for
that bit too). RESULT stays until the check has ended. GUARD_STATE names the master and the register. The statement is for a page
whose supply is up (R26) and on which no sequence is open; of the registers of the guard GUARD_SEL holds the offset, GUARD_A and
GUARD_B read 0. -/
def Sys2Proof.AGuardedOperationRunsItsCheck : Prop :=
  ∀ (t : DT) (m i : Nat) (s : State) (c : Instr) (kind : ActKind) (p off idx val : Nat),
    GuardedRequest t m i s c kind p off idx val → Unhindered t m s → s.standby = false → powered s p = true → s.guards.look p = none → m < 2 ^ 16 →
    let a : Action := ⟨kind, p, idx, val, m, some off, (s.time.advance t).dt⟩
    ((s.checks.look p).running = none → ∃ u, exec c s = .next u ∧
      (u.checks.look p).running = some a ∧ (u.checks.look p).held = (s.checks.look p).held ∧ u.g (F.CHECK_BUSY p) = 1 ∧
      u.g (F.GUARD_STATE_RESULT p) = s.g (F.GUARD_STATE_RESULT p) ∧ u.g (F.GUARD_STATE_OPEN p) = 0 ∧
      u.g (F.GUARD_STATE_MASTER p) = m ∧ u.g (F.GUARD_STATE_OFFSET p) = off ∧ u.g (F.GUARD_SEL_OFFSET p) = off ∧
      u.reg (F.GUARD_A p).adr = 0 ∧ u.reg (F.GUARD_B p).adr = 0 ∧ (∀ k, u.guards.look k = s.guards.look k) ∧
      u.reg (p + off) = (if kind ∈ [.pageEnable, .bootSel, .disA, .disB] then s.reg (p + off) else val) ∧
      (∀ b, eventReg b = false → b ≠ p + off → b ≠ (F.CHECK p).adr → ¬ (p + 0x30 ≤ b ∧ b ≤ p + 0x48) → u.reg b = s.reg b) ∧
      (∀ k, k ≠ p → u.checks.look k = s.checks.look k) ∧
      Ends { arrive t s with regs := u.regs, checks := u.checks, guards := u.guards } u) ∧
    (∀ b, (s.checks.look p).running = some b → ∃ u l, exec c s = .next u ∧
      u.checks.look p = ⟨some b, (s.checks.look p).held ++ l⟩ ∧ a ∈ l ∧ (kind ≠ .disA → kind ≠ .disB → l = [a]) ∧
      u.g (F.GUARD_STATE_PENDING p) = 1 ∧ u.g (F.GUARD_STATE_MASTER p) = m ∧ u.g (F.GUARD_STATE_OFFSET p) = off ∧
      u.g (F.GUARD_STATE_RESULT p) = s.g (F.GUARD_STATE_RESULT p) ∧ (∀ k, u.guards.look k = s.guards.look k) ∧
      (∀ b, eventReg b = false → ¬ (p + 0x30 ≤ b ∧ b ≤ p + 0x48) → u.reg b = s.reg b) ∧
      (∀ k, k ≠ p → u.checks.look k = s.checks.look k) ∧
      Ends { arrive t s with regs := u.regs, checks := u.checks, guards := u.guards } u)

/-- A guarded operation without a check is applied at once, with RESULT 1 (R413, R418): AXIS_DISABLE waits for T0 (R143); a field
port's ENABLE clears, and its discovery with it (R235); SILENCE makes the unit SILENT in every role and stops its start (R398,
R399, R461); a restart is due at once, or 10 ms after an ACTIVE unit has declared SILENCED, and RESTART_CLEAR clears COUNT
(R466); a feed whose DIS bit clears is ABSENT and supervised again (R408). On a standby a guarded operation of a mirrored range
is discarded with RESULT 9 (R390). The statement is for core supplies that are up (R26) and pages on which no sequence is open;
of the registers those of the guard, from offset 0x30 to 0x48, change too. No access is held up. -/
def Sys2Proof.AGuardedOperationWithoutACheckActsAtOnce : Prop :=
  ∀ (t : DT) (m i : Nat) (clear : Bool) (s : State), i < 512 → Unhindered t m s → s.hk.corePower = true →
    (∀ p, s.guards.look p = none) →
    let d := (s.time.advance t).dt
    let j := i % 8
    let free (p : Nat) : Prop := (s.checks.look p).running = none
    let guard (p b : Nat) : Prop := p + 0x30 ≤ b ∧ b ≤ p + 0x48
    let restart : Instr := if clear then .restartClear t m else .restartWarm t m
    (free pLE → s.standby = false → ∃ u, exec (.axisDisable t m i) s = .next u ∧ u.g (F.GUARD_STATE_RESULT pLE) = 1 ∧
      u.reg F.LE_AXEN_AXIS.adr = i ∧ u.leAx i = { s.leAx i with pend := if axisEnabled s i then some none else none } ∧
      (∀ b, eventReg b = false → b ≠ F.LE_AXEN_AXIS.adr → ¬ guard pLE b → u.reg b = s.reg b) ∧
      (∀ k, k ≠ i → u.leAx k = s.leAx k) ∧
      Ends { arrive t s with regs := u.regs, guards := u.guards, le := { s.le with ax := u.le.ax } } u) ∧
    (free (pFP j) → s.enabled (pFP j) = true → ∃ u, exec (.fpDisable t m i) s = .next u ∧ u.enabled (pFP j) = false ∧
      u.g (F.GUARD_STATE_RESULT (pFP j)) = 1 ∧
      (segState s j = 1 ∨ segState s j = 2 → segState u j = 0 ∧ u.g (F.FP_STATE_TOPO j) = 0 ∧ u.g (F.FP_STATE_ALONE j) = 0)) ∧
    (free pPW → ∃ u, exec (.silence t m) s = .next u ∧ u.tw.role = 5 ∧ u.hk.starting = false ∧
      (s.hk.starting = true → u.g F.HK_START_STATE_STAGE = 14) ∧
      u.g (F.GUARD_STATE_RESULT pPW) = 1 ∧
      u.g F.TW_FAULT_CAUSE = (if s.g F.TW_FAULT_CAUSE = 0 then 8 else s.g F.TW_FAULT_CAUSE) ∧
      (s.g F.TW_FAULT_CAUSE = 0 → u.reg F.TW_FAULT_DT.adr = (dtCount d).toNat) ∧
      (∀ b, eventReg b = false → b ≠ F.TW_ROLE_OP.adr → ¬ guard pPW b → b ≠ F.TW_FAULT.adr →
        b ≠ F.TW_FAULT_DT.adr → u.reg b = s.reg b) ∧
      Ends { arrive t s with
        regs := u.regs, guards := u.guards, tw := u.tw, hk := { s.hk with starting := false } } u) ∧
    (free pHK → ∃ u, exec restart s = .next u ∧
      u.hk.restartAt = some (if s.tw.role = 2 then d + BitVec.ofNat 64 (10000000 * 65536) else d) ∧
      (s.tw.role = 2 → u.tw.role = 5) ∧ (s.tw.role ≠ 2 → u.tw.role = s.tw.role) ∧
      u.hk.starting = false ∧ (s.hk.starting = true → u.g F.HK_START_STATE_STAGE = 14) ∧
      u.g F.HK_FAILCNT_COUNT = (if clear then 0 else s.g F.HK_FAILCNT_COUNT) ∧ u.g (F.GUARD_STATE_RESULT pHK) = 1) ∧
    (∀ (c : Instr) (dis : Fld) (n : Nat), (c, dis, n) ∈ [(Instr.disA t m false, F.FS_FEED_DIS_DIS_A, 0),
        (.disB t m false, F.FS_FEED_DIS_DIS_B, 1)] → free pFS → s.g dis = 1 →
      ∃ u, exec c s = .next u ∧ u.g dis = 0 ∧ u.feed n = { s.feed n with state := 0, since := none } ∧
        u.feed (1 - n) = s.feed (1 - n) ∧ u.g (F.GUARD_STATE_RESULT pFS) = 1 ∧
        (∀ b, eventReg b = false → b ≠ dis.adr → ¬ guard pFS b → u.reg b = s.reg b) ∧
        Ends { arrive t s with regs := u.regs, guards := u.guards, fs := u.fs } u) ∧
    (∀ (c : Instr) (p : Nat), (c, p) ∈ [(Instr.axisEnable t m i, pLE), (.axisDisable t m i, pLE), (.commit t m i, pFP j),
        (.release t m i, pFP j), (.epochRequest t m, pEpoch), (.epochCancel t m, pEpoch)] → s.standby = true → m ≠ 6 →
      ∃ u, exec c s = .next u ∧ u.g (F.GUARD_STATE_RESULT p) = 9 ∧ u.g (F.GUARD_STATE_OPEN p) = 0 ∧
        (∀ b, eventReg b = false → ¬ guard p b → u.reg b = s.reg b) ∧ (∀ k, u.guards.look k = s.guards.look k) ∧
        Ends { arrive t s with regs := u.regs, guards := u.guards } u)

/-- A guarded operation with a check runs it or is held; one without a check acts at once with RESULT 1: the parts named hold. -/
def Obligations.GuardedOperationsAreCheckedOrApplied : Prop := AGuardedOperationRunsItsCheck ∧ AGuardedOperationWithoutACheckActsAtOnce

/-! ### The signal cores (chapter 12) -/

/-- Core `n` issues the instruction `c`: a context is resident and runs, no request for pre-emption is to be taken at this
boundary (R321), the words at its PC are legal, `c` has an encoding, and no breakpoint, poisoned word, delay slot or repeat forbids
it (R305 to R308, R326). Tracing of the core is off. -/
def Sys2Proof.Runs (s : State) (n : Nat) (kind : ScKind) (c : Instr) : Prop :=
  coreIssues s n = true ∧ scWf c = true ∧ issueCause s n kind true = 0 ∧ trcTraced s n = false ∧ (s.core n).trcOn = false

/-- `u` is `s` at DT `t` after an instruction of core `n` retired: its registers are `x` and the pointer writes `p` are pending.
While the store buffer is empty and no repeat runs, nothing else has changed. -/
def Sys2Proof.RetiresTo (t : DT) (s u : State) (n : Nat) (x : Arch) (p : List DelPtr) : Prop :=
  let k := s.core n
  (u.core n).arch = x ∧ (u.core n).delP = p ∧ (u.core n).retired = k.retired + 1 ∧ (u.core n).wait = .running ∧
  (∀ m, m ≠ n → (u.core m).arch = (s.core m).arch ∧ (u.core m).stores = (s.core m).stores) ∧
  (∀ b, eventReg b = false → u.reg b = s.reg b) ∧
  (k.stores = [] → k.arch.repOn = false →
    Ends { arrive t s with cores := s.cores.set n { k with
      arch := x, delP := p, retired := k.retired + 1, lastCtx := k.resident.getD 0, lastPc := k.arch.pc
      cache := if x.repOn then k.cache else [] } } u)

/-- What the registers `y` come to at the end of an instruction of core `n`: the delayed results of the one before take effect
(R304), nothing of its own is pending. -/
def Sys2Proof.settledArch (s : State) (n : Nat) (y : Arch) : Arch :=
  { applyDelayed y (s.core n).arch.delG (s.core n).arch.delA (s.core n).delP with delG := [], delA := none }

/-- `u` is `s` after an instruction of `w` words that wrote `y` at once; its delayed results are pending (`g`, `a`, `p`), and
the PC has moved on. -/
def Sys2Proof.Retires (t : DT) (s u : State) (n w : Nat) (y : Arch) (g : List (Nat × BitVec 64)) (a : Option (Nat × BitVec 136))
    (p : List DelPtr) : Prop :=
  RetiresTo t s u n (archNext { settledArch s n y with delG := g, delA := a } w default) p

/-- `c` writes to `d`, at once and exactly, the value `v` formed from the registers `x`; it has `w` words (Table 12.8). -/
def Sys2Proof.WordResult (t : DT) (n : Nat) (x : Arch) (p : List DelPtr) (d a b : Nat) (i : Int) (k : Nat) (c : Instr) (v : BitVec 64)
    (w : Nat) : Prop :=
  let ga := x.g.look a
  let gb := x.g.look b
  let im := BitVec.ofInt 64 i
  let sh := (BitVec.ofInt 15 i).toNat % 64
  (c, v, w) ∈ ([(.minS t n d a b, if ga.toInt ≤ gb.toInt then ga else gb, 1), (.maxS t n d a b, if ga.toInt ≤ gb.toInt then gb else ga, 1),
    (.andB t n d a b, ga &&& gb, 1), (.orB t n d a b, ga ||| gb, 1), (.xorB t n d a b, ga ^^^ gb, 1),
    (.shr t n d a b, ga.sshiftRight (gb.toNat % 64), 1), (.shru t n d a b, ga >>> (gb.toNat % 64), 1),
    (.slt t n d a b, if ga.toInt < gb.toInt then 1 else 0, 1), (.seq t n d a b, if ga = gb then 1 else 0, 1),
    (.mov t n d a, ga, 1), (.notB t n d a, ~~~ga, 1),
    (.andi t n d a i, ga &&& im, 1), (.ori t n d a i, ga ||| im, 1), (.xori t n d a i, ga ^^^ im, 1),
    (.shri t n d a i, ga.sshiftRight sh, 1), (.shrui t n d a i, ga >>> sh, 1),
    (.ldi t n d k, (BitVec.ofNat 32 k).signExtend 64, 2),
    (.ldih t n d k, BitVec.ofNat 32 k ++ (x.g.look d).setWidth 32, 2),
    (.movsRead t n d, x.csr, 1),
    (.getp t n d k, ((p.foldl applyPtr x).p.look k).setWidth 64, 1),
    (.getm t n d k, ((p.foldl applyPtr x).m.look k).signExtend 64, 1)] : List (Instr × BitVec 64 × Nat))

/-- The class A and class I instructions that cannot overflow, LDI, LDIH, MOVS gd, CSR, GETP and GETM: the destination takes
the value of Table 12.8, a shift takes bits 5:0 of its count, and no other register of the core, no byte of memory and no
register of a page changes. -/
def Sys2Proof.ExactResultsOfTheCores : Prop :=
  ∀ (t : DT) (n d a b k w : Nat) (i : Int) (s : State) (c : Instr) (v : BitVec 64),
    WordResult t n (s.core n).arch (s.core n).delP d a b i k c v w → Runs s n .plain c →
    ∃ u, exec c s = .next u ∧
      Retires t s u n w { (s.core n).arch with g := (s.core n).arch.g.set d v } [] none []

/-- The value `v` in `w` bits, or the nearest that `w` bits hold. -/
def Sys2Proof.saturated (w : Nat) (v : Int) : Int := max (-(2 ^ (w - 1))) (min (2 ^ (w - 1) - 1) v)

/-- CSR with bit `b` set where `i` lies outside `w` bits. -/
def Sys2Proof.sticky (x : Arch) (b w : Nat) (i : Int) : Arch :=
  { x with csr := if -(2 ^ (w - 1)) ≤ i ∧ i < 2 ^ (w - 1) then x.csr else x.csr ||| BitVec.ofNat 64 (2 ^ b) }

/-- `c` writes to `d` the exact value `v`, saturated (R312). -/
def Sys2Proof.SaturatedResult (t : DT) (n : Nat) (x : Arch) (d a b : Nat) (i : Int) (c : Instr) (v : Int) : Prop :=
  let ga := (x.g.look a).toInt
  let gb := (x.g.look b).toInt
  (c, v) ∈ ([(.add t n d a b, ga + gb), (.sub t n d a b, ga - gb), (.neg t n d a, -ga), (.abs t n d a, if ga < 0 then -ga else ga),
    (.addi t n d a i, ga + i), (.shl t n d a b, ga * 2 ^ ((x.g.look b).toNat % 64)),
    (.shli t n d a i, ga * 2 ^ ((BitVec.ofInt 15 i).toNat % 64))] : List (Instr × Int))

/-- ADD, SUB, NEG, ABS, SHL and their immediate forms saturate to 64 bits and set CSR.SAT where the exact result lies outside;
CSR keeps its bits otherwise (R312). -/
def Sys2Proof.SaturatingResultsOfTheCores : Prop :=
  ∀ (t : DT) (n d a b : Nat) (i v : Int) (s : State) (c : Instr),
    SaturatedResult t n (s.core n).arch d a b i c v → Runs s n .plain c →
    ∃ u, exec c s = .next u ∧
      Retires t s u n 1 { sticky (s.core n).arch 0 64 v with
        g := (s.core n).arch.g.set d (BitVec.ofInt 64 (saturated 64 v)) } [] none []

/-- The largest count of bits below the top bit of a `w`-bit value that repeat it (R314). -/
def Sys2Proof.IsSignRun (w : Nat) (i : Int) (r : Nat) : Prop :=
  r ≤ w - 1 ∧ -(2 ^ (w - 1 - r)) ≤ i ∧ i < 2 ^ (w - 1 - r) ∧
  (r < w - 1 → i < -(2 ^ (w - 2 - r)) ∨ (2 ^ (w - 2 - r) ≤ i))

/-- MUL and SATA give the product, or the accumulator, shifted right toward minus infinity and saturated to 64 bits with
CSR.SAT (R312, R313); EXP, EXPA and NORM give the redundant sign bits, or the value without them (R314). Each result is
delayed by one instruction (R304). -/
def Sys2Proof.DelayedResultsOfTheCores : Prop :=
  ∀ (t : DT) (n d a b sh : Nat) (s : State),
    let x := (s.core n).arch
    (∀ (c : Instr) (v : Int), (c, v) ∈ ([(.mul t n d a b sh, (x.g.look a).toInt * (x.g.look b).toInt / 2 ^ sh),
        (.sata t n d a sh, (x.a.look a).toInt / 2 ^ sh)] : List (Instr × Int)) → Runs s n .plain c →
      ∃ u, exec c s = .next u ∧ Retires t s u n 1 (sticky x 0 64 v) [(d, BitVec.ofInt 64 (saturated 64 v))] none []) ∧
    (∀ r, IsSignRun 64 (x.g.look a).toInt r →
      (Runs s n .plain (.exp t n d a) →
        ∃ u, exec (.exp t n d a) s = .next u ∧ Retires t s u n 1 x [(d, BitVec.ofNat 64 r)] none []) ∧
      (Runs s n .plain (.norm t n d a) →
        ∃ u, exec (.norm t n d a) s = .next u ∧ Retires t s u n 1 x [(d, x.g.look a <<< r)] none [])) ∧
    (∀ r, IsSignRun 136 (x.a.look a).toInt r → Runs s n .plain (.expa t n d a) →
      ∃ u, exec (.expa t n d a) s = .next u ∧ Retires t s u n 1 x [(d, BitVec.ofNat 64 r)] none [])

/-- Accumulator `m` with the result that the instruction before has still pending (Table 12.3). -/
def Sys2Proof.accumulated (x : Arch) (m : Nat) : Int :=
  match x.delA with
  | some (j, v) => if j = m then v.toInt else (x.a.look m).toInt
  | none => (x.a.look m).toInt

/-- MAC, MSU, ADDA, LDA and CLRA form an accumulator exactly, on the result that is still pending, saturate it to 136 bits and
set CSR.ASAT where it lay outside (R312, R313); the result is delayed (R304). -/
def Sys2Proof.AccumulatorResultsOfTheCores : Prop :=
  ∀ (t : DT) (n acc a b sh : Nat) (s : State) (c : Instr) (v : Int),
    let x := (s.core n).arch
    (c, v) ∈ ([(.mac t n acc a b, accumulated x acc + (x.g.look a).toInt * (x.g.look b).toInt),
      (.msu t n acc a b, accumulated x acc - (x.g.look a).toInt * (x.g.look b).toInt),
      (.adda t n acc a, accumulated x acc + (x.a.look a).toInt), (.lda t n acc a sh, (x.g.look a).toInt * 2 ^ sh),
      (.clra t n acc, 0)] : List (Instr × Int)) → Runs s n .plain c →
    ∃ u, exec c s = .next u ∧
      Retires t s u n 1 (sticky x 1 136 v) [] (some (acc, BitVec.ofInt 136 (saturated 136 v))) []

/-- SETP, SETM and SETC write pointers, delayed by one instruction, and SETC takes only a length that is a multiple of 8 up to
0x4_0000 (R304, R311); MOVS CSR, ga keeps the reserved bits at 0 (R302); NOP only moves the PC on; TRACE does that
too, and leaves one record in the trace ring where the core is traced and the ring has room (R447). -/
def Obligations.PointerAndPlainInstructionsRetire : Prop :=
  ∀ (t : DT) (n p a b : Nat) (s : State),
    let x := (s.core n).arch
    (∀ (c : Instr) (q : DelPtr), (c, q) ∈ ([(.setp t n p a, .ptr p ((x.g.look a).setWidth 32)),
        (.setm t n p a, .modifier p ((x.g.look a).setWidth 32))] : List (Instr × DelPtr)) → Runs s n .plain c →
      ∃ u, exec c s = .next u ∧ Retires t s u n 1 x [] none [q]) ∧
    (Runs s n .plain (.setc t n p a b) →
      ((x.g.look b).toNat % 2 ^ 32 % 8 = 0 → (x.g.look b).toNat % 2 ^ 32 ≤ 0x40000 → ∃ u, exec (.setc t n p a b) s = .next u ∧
        Retires t s u n 1 x [] none [.circ p ((x.g.look a).setWidth 32) ((x.g.look b).setWidth 32)]) ∧
      ((x.g.look b).toNat % 2 ^ 32 % 8 ≠ 0 ∨ 0x40000 < (x.g.look b).toNat % 2 ^ 32 → ∃ u, exec (.setc t n p a b) s = .next u ∧
        (u.core n).wait = .leaving 7 4 false none ∧ (u.core n).faultPc = x.pc ∧ (u.core n).arch = x)) ∧
    (Runs s n .plain (.movsWrite t n a) →
      ∃ u, exec (.movsWrite t n a) s = .next u ∧
        Retires t s u n 1 { x with csr := ((x.g.look a).setWidth 2).setWidth 64 } [] none []) ∧
    (Runs s n .plain (.nop t n) → ∃ u, exec (.nop t n) s = .next u ∧ Retires t s u n 1 x [] none []) ∧
    (Runs s n .plain (.trace t n a) → ∃ u, exec (.trace t n a) s = .next u ∧ Retires t s u n 1 x [] none []) ∧
    (let k := s.core n
     coreIssues s n = true → scWf (.trace t n a) = true → issueCause s n .plain true = 0 → trcTraced s n = true →
      k.trcOn = true → k.trcBits = [] → s.trc.lost = 0 → trcFault s 1 = none → k.trcSince + 1 < s.g F.TRC_CFG_SYNC_EVERY →
      (s.g F.TRC_WR_COUNT + 2 ^ 32 - s.g F.TRC_RD_COUNT) % 2 ^ 32 + 2 ≤ trcSize s →
      ∃ u, exec (.trace t n a) s = .next u ∧ u.g F.TRC_WR_COUNT = (s.g F.TRC_WR_COUNT + 1) % 2 ^ 32 ∧
        (u.core n).arch = archNext (settledArch s n x) 1 default ∧ (u.core n).trcSince = k.trcSince + 1)

/-- A branch that core `n` takes or not: whether, the target, and the registers it writes (R305, Table 12.8). -/
def Sys2Proof.BranchOf (t : DT) (n a b : Nat) (off : Int) (s : State) (c : Instr) (taken : Bool) (target : BitVec 14) (y : Arch) : Prop :=
  let x := (s.core n).arch
  let ga := x.g.look a
  let gb := x.g.look b
  let goal := x.pc + BitVec.ofInt 14 off
  (c, taken, target, y) ∈ ([(.br t n off, true, goal, x),
    (.call t n off, true, goal, { x with g := x.g.set 31 ((afterSlots s n).setWidth 64) }),
    (.bz t n a off, decide (ga = 0), goal, x), (.bnz t n a off, decide (ga ≠ 0), goal, x),
    (.beq t n a b off, decide (ga = gb), goal, x), (.bne t n a b off, decide (ga ≠ gb), goal, x),
    (.blt t n a b off, decide (ga.toInt < gb.toInt), goal, x), (.bge t n a b off, decide (gb.toInt ≤ ga.toInt), goal, x),
    (.jmp t n a, true, ga.setWidth 14, x)] : List (Instr × Bool × BitVec 14 × Arch))

/-- A branch runs the two instructions after it, then goes on at its target, or behind them where it is not taken (R305); CALL
leaves the address behind its delay slots in g31. In the last delay slot the PC goes to the target. -/
def Sys2Proof.BranchesHaveTwoDelaySlots : Prop :=
  (∀ (t : DT) (n a b : Nat) (off : Int) (s : State) (c : Instr) (taken : Bool) (target : BitVec 14) (y : Arch),
    BranchOf t n a b off s c taken target y → Runs s n .control c →
    ∃ u, exec c s = .next u ∧ RetiresTo t s u n { settledArch s n y with
      pc := (s.core n).arch.pc + 1, slots := 2, target := if taken then target else afterSlots s n } []) ∧
  (∀ (t : DT) (n : Nat) (s : State), Runs s n .plain (.nop t n) →
    ∃ u, exec (.nop t n) s = .next u ∧
      ((s.core n).arch.slots = 2 → (u.core n).arch.slots = 1 ∧ (u.core n).arch.pc = (s.core n).arch.pc + 1) ∧
      ((s.core n).arch.slots = 1 → (u.core n).arch.slots = 0 ∧ (u.core n).arch.pc = (s.core n).arch.target) ∧
      ((s.core n).arch.slots = 0 → (s.core n).arch.repOn = false → (u.core n).arch.pc = (s.core n).arch.pc + 1))

/-- A repeat (R307): REPI and REPR run the `len` words that follow `count` times, a count of 0 passes over them, REPR takes a
negative count as 0 and one above 2^32 - 1 as that; at the end of the body the PC returns to its start until the last run. -/
def Sys2Proof.RepeatsRunTheirBody : Prop :=
  (∀ (t : DT) (n a j len count : Nat) (s : State) (c : Instr),
    (c, count) ∈ ([(.repi t n j len, j), (.repr t n a len, (max 0 (min 4294967295 ((s.core n).arch.g.look a).toInt)).toNat)] :
      List (Instr × Nat)) → Runs s n .control c →
    ∃ u, exec c s = .next u ∧
      (let pc := (s.core n).arch.pc + 1
       let y := settledArch s n (s.core n).arch
       RetiresTo t s u n (if count = 0 then { y with pc := pc + BitVec.ofNat 14 len }
        else { y with pc := pc, repOn := true, repCount := count, repStart := pc, repLen := len }) [])) ∧
  (∀ (t : DT) (n : Nat) (s : State), Runs s n .plain (.nop t n) → (s.core n).arch.repOn = true → (s.core n).arch.slots = 0 →
    (s.core n).arch.repLen ≤ ((s.core n).arch.pc + 1 - (s.core n).arch.repStart).toNat →
    ∃ u, exec (.nop t n) s = .next u ∧
      (1 < (s.core n).arch.repCount → (u.core n).arch.pc = (s.core n).arch.repStart ∧ (u.core n).arch.repOn = true ∧
        (u.core n).arch.repCount = (s.core n).arch.repCount - 1) ∧
      ((s.core n).arch.repCount ≤ 1 → (u.core n).arch.pc = (s.core n).arch.pc + 1 ∧ (u.core n).arch.repOn = false))

/-- Results that the cores write at once: exact ones, and sums and shifts saturated with CSR.SAT: the parts named hold. -/
def Obligations.WordResultsOfTheCores : Prop := ExactResultsOfTheCores ∧ SaturatingResultsOfTheCores

/-- Delayed results: products, sign counts, normalised values and the accumulators, saturated with their sticky bits: the parts named hold. -/
def Obligations.DelayedAndAccumulatedResults : Prop := DelayedResultsOfTheCores ∧ AccumulatorResultsOfTheCores

/-- Branches take effect after two delay slots, and repeats run their body COUNT times: the parts named hold. -/
def Obligations.ControlFlowOfTheCores : Prop := BranchesHaveTwoDelaySlots ∧ RepeatsRunTheirBody

/-- The byte of core `n`'s data memory at `b` as a load sees it: of the youngest store in the buffer that covers it, else of
memory (R316). -/
def Sys2Proof.seenByte (s : State) (n b : Nat) : Nat :=
  match (s.core n).stores.reverse.find? (fun e => decide (e.addr ≤ b ∧ b < e.addr + e.size)) with
  | some e => e.data / 2 ^ (8 * (b - e.addr)) % 256
  | none => (s.byte (dataAddr n b)).toNat

/-- The little-endian value of `z` bytes from `b`. -/
def Sys2Proof.seenValue (s : State) (n b : Nat) : Nat → Nat
  | 0 => 0
  | z + 1 => seenByte s n b + 256 * seenValue s n (b + 1) z

/-- A local access of `z` bytes at `b` is in range, aligned, and meets no poisoned word (R311, R358). -/
def Sys2Proof.GoodLocal (s : State) (n b z : Nat) : Prop := b ≤ 0x3FFFF ∧ b % z = 0 ∧ s.poisoned (dataAddr n b) = false

/-- A value of 2^z bytes as a register takes it, sign-extended where the SIGN bit asks for it (R309). -/
def Sys2Proof.extended (z : Nat) (sign : Bool) (v : Nat) : BitVec 64 :=
  if sign then (BitVec.ofNat (8 * 2 ^ z) v).signExtend 64 else BitVec.ofNat 64 v

/-- LD and LDD read data memory with the stores that are still in the buffer, and LD moves its pointer (R309, R311, R316);
every byte of memory stays unless the load makes buffered stores drain. The stores in the buffer are such as ST and STD put there:
in range and aligned to their size. -/
def Sys2Proof.LoadsSeeTheYoungestStore : Prop :=
  ∀ (t : DT) (n d p mode size a : Nat) (imm : Int) (sign : Bool) (s : State),
    let x := (s.core n).arch
    (∀ e ∈ (s.core n).stores, e.size ∈ [1, 2, 4, 8] ∧ e.addr % e.size = 0 ∧ e.addr ≤ 0x3FFFF) →
    (∀ q, Runs s n .plain (.ld t n d p mode size sign) → GoodLocal s n (x.p.look p).toNat (2 ^ size) →
      modPtr x p mode (2 ^ size) = some q →
      ∃ u, exec (.ld t n d p mode size sign) s = .next u ∧
        (u.core n).arch = archNext (settledArch s n { x with
          p := x.p.set p (BitVec.ofNat 32 q)
          g := x.g.set d (extended size sign (seenValue s n (x.p.look p).toNat (2 ^ size))) }) 1 default ∧
        (u.core n).delP = [] ∧ (∀ b, eventReg b = false → u.reg b = s.reg b) ∧
        (s.enabled pEH = false → (s.core n).stores = [] → u.mem = s.mem)) ∧
    (∀ b, b = (BitVec.ofInt 32 ((x.g.look a).toInt + imm)).toNat → Runs s n .plain (.ldd t n d a imm size sign) →
      GoodLocal s n b (2 ^ size) →
      ∃ u, exec (.ldd t n d a imm size sign) s = .next u ∧
        (u.core n).arch = archNext (settledArch s n { x with g := x.g.set d (extended size sign (seenValue s n b (2 ^ size))) }) 1 default ∧
        (u.core n).delP = [] ∧ (∀ b, eventReg b = false → u.reg b = s.reg b) ∧
        (s.enabled pEH = false → (s.core n).stores = [] → u.mem = s.mem))

/-- LDXY, MACL and MSUL load two words at once through two pointers, and MACL and MSUL accumulate the product of the values that
the two registers held before (R300, R309, Table 12.8). -/
def Sys2Proof.PairedLoadsReadBothWords : Prop :=
  ∀ (t : DT) (n d e px py mx my acc : Nat) (bx b_y : Bool) (s : State),
    let x := (s.core n).arch
    let ax := (x.p.look px).toNat
    let a_y := (x.p.look py).toNat
    (s.core n).stores = [] → d ≠ e → px ≠ py → GoodLocal s n ax 8 → GoodLocal s n a_y 8 →
    (∀ qx qy, modPtr x px mx 8 = some qx → modPtr x py my 8 = some qy → Runs s n .plain (.ldxy t n d e px mx py my) →
      ∃ u, exec (.ldxy t n d e px mx py my) s = .next u ∧
        (u.core n).arch = archNext (settledArch s n { x with
          g := (x.g.set d (BitVec.ofNat 64 (s.bytesAt (dataAddr n ax) 8))).set e (BitVec.ofNat 64 (s.bytesAt (dataAddr n a_y) 8))
          p := (x.p.set px (BitVec.ofNat 32 qx)).set py (BitVec.ofNat 32 qy) }) 1 default ∧
        (∀ b, eventReg b = false → u.reg b = s.reg b) ∧ (s.enabled pEH = false → u.mem = s.mem)) ∧
    (∀ (c : Instr) (v : Int) (qx qy : Nat), (c, v) ∈ ([
        (.macl t n acc d e px py bx b_y, accumulated x acc + (x.g.look d).toInt * (x.g.look e).toInt),
        (.msul t n acc d e px py bx b_y, accumulated x acc - (x.g.look d).toInt * (x.g.look e).toInt)] : List (Instr × Int)) →
      modPtr x px (if bx then 2 else 1) 8 = some qx → modPtr x py (if b_y then 2 else 1) 8 = some qy → Runs s n .plain c →
      ∃ u, exec c s = .next u ∧
        (u.core n).arch = archNext { settledArch s n { sticky x 1 136 v with
          g := (x.g.set d (BitVec.ofNat 64 (s.bytesAt (dataAddr n ax) 8))).set e (BitVec.ofNat 64 (s.bytesAt (dataAddr n a_y) 8))
          p := (x.p.set px (BitVec.ofNat 32 qx)).set py (BitVec.ofNat 32 qy) } with
          delA := some (acc, BitVec.ofInt 136 (saturated 136 v)) } 1 default ∧
        (∀ b, eventReg b = false → u.reg b = s.reg b) ∧ (s.enabled pEH = false → u.mem = s.mem))

/-- ST and STD put their data, cut to the size, behind the stores in the buffer (R311, R315), and ST moves its pointer; with an
empty buffer no byte of memory changes. An instruction that reads no bank drains the oldest store to data memory (R315). -/
def Obligations.StoresWaitInTheBufferAndDrain : Prop :=
  ∀ (t : DT) (n r p mode size a : Nat) (imm : Int) (s : State),
    let k := s.core n
    let x := k.arch
    let held (b : Nat) : StoreEntry := ⟨b, 2 ^ size, (x.g.look r).toNat % 2 ^ (8 * 2 ^ size)⟩
    (∀ (c : Instr) (b : Nat) (y : Arch),
      (c = .st t n r p mode size ∧ b = (x.p.look p).toNat ∧ ∃ q, modPtr x p mode (2 ^ size) = some q ∧
        y = { x with p := x.p.set p (BitVec.ofNat 32 q) }) ∨
      (c = .std t n r a imm size ∧ b = (BitVec.ofInt 32 ((x.g.look a).toInt + imm)).toNat ∧ y = x) →
      Runs s n .plain c → b ≤ 0x3FFFF → b % 2 ^ size = 0 →
      ∃ u, exec c s = .next u ∧ (u.core n).arch = archNext (settledArch s n y) 1 default ∧
        (u.core n).stores.getLast? = some (held b) ∧ (∀ b, eventReg b = false → u.reg b = s.reg b) ∧
        (k.stores = [] → x.repOn = false → Ends { arrive t s with cores := s.cores.set n { k with
          arch := archNext (settledArch s n y) 1 default, delP := [], retired := k.retired + 1, lastCtx := k.resident.getD 0
          lastPc := x.pc, cache := [], stores := [held b] } } u)) ∧
    (∀ e l, k.stores = e :: l → e.size ∈ [1, 2, 4, 8] → GoodLocal s n e.addr e.size → x.repOn = false →
      Runs s n .plain (.nop t n) →
      ∃ u, exec (.nop t n) s = .next u ∧ Ends { arrive t s with
        mem := (s.setBytes (dataAddr n e.addr) e.data e.size).mem
        cores := s.cores.set n { k with
          arch := archNext (settledArch s n x) 1 default, delP := [], retired := k.retired + 1, lastCtx := k.resident.getD 0
          lastPc := x.pc, cache := [], stores := l } } u)

/-- An instruction that faults changes no register of its core: the context is to leave FAULTED with the cause of Table 12.6,
and FAULT_PC and FAULT_ADDR hold the PC and the address (R311, R326). Here a misaligned and an outlying local access, a
misaligned remote one, and a release of a lock that the context does not hold. BREAK leaves with the recoverable cause 9. (A
remote access first brings in the quadrature latches that are due; the statement is for none.) -/
def Obligations.AFaultStopsTheContextAtItsPc : Prop :=
  ∀ (t : DT) (n d a p mode size l : Nat) (imm : Int) (sign : Bool) (s : State),
    let x := (s.core n).arch
    let b := (BitVec.ofInt 32 ((x.g.look a).toInt + imm)).toNat
    let ad := (x.g.look a).toNat
    ∀ (c : Instr) (kind : ScKind) (st cause fa : Nat),
      ((c = .ld t n d p mode size sign ∨ c = .st t n d p mode size) ∧ kind = .plain ∧ st = 7 ∧ fa = (x.p.look p).toNat ∧
        ((0x3FFFF < fa ∧ cause = 4) ∨ (fa ≤ 0x3FFFF ∧ fa % 2 ^ size ≠ 0 ∧ cause = 3))) ∨
      ((c = .ldd t n d a imm size sign ∨ c = .std t n d a imm size) ∧ kind = .plain ∧ st = 7 ∧ fa = b ∧
        ((0x3FFFF < fa ∧ cause = 4) ∨ (fa ≤ 0x3FFFF ∧ fa % 2 ^ size ≠ 0 ∧ cause = 3))) ∨
      ((c = .ldr t n d a size sign ∨ c = .str t n d a size) ∧ kind = .slot ∧ QuadQuiet s ∧ st = 7 ∧ fa = ad ∧ ad % 2 ^ size ≠ 0 ∧
        cause = 3) ∨
      (c = .unlock t n l ∧ kind = .control ∧ st = 7 ∧ cause = 8 ∧ fa = 0 ∧
        (s.gb (F.KS_LOCK_HELD l) = false ∨ s.g (F.KS_LOCK_OWNER l) ≠ ((s.core n).resident).getD 0)) ∨
      (c = .breakPoint t n ∧ kind = .control ∧ st = 6 ∧ cause = 9 ∧ fa = 0) →
      Runs s n kind c →
      ∃ u, exec c s = .next u ∧ (u.core n).arch = x ∧ (u.core n).wait = .leaving st cause false none ∧
        (u.core n).faultPc = x.pc ∧ (u.core n).faultAddr = fa ∧ (u.core n).stores = []

/-- Remote accesses of a core to memory (R318, R319). An LDR takes a credit and waits, while the store buffer drains (that it has
drained before the access is made is the model's choice, notes/assumptions/40); LDR_DATA_RETURN writes its destination
and retires it. An STR writes the memory, takes a credit, retires and stays outstanding until REMOTE_STORE_ACK; a FENCE that
finds a remote store outstanding waits for the last one. REMOTE_TIMEOUT past the limit faults the LDR with cause 6. (The core
supplies are up, and no quadrature latch is due, which an access would first bring in.) -/
def Obligations.RemoteAccessesWaitForTheirAnswer : Prop :=
  ∀ (t : DT) (n d a size m : Nat) (sign : Bool) (s s' : State), size < 4 → s.enabled pEH = false →
    s.hk.corePower = true → QuadQuiet s →
    let k := s.core n
    let x := k.arch
    let ad := (x.g.look a).toNat
    (Runs s n .slot (.ldr t n d a size sign) → ad % 2 ^ size = 0 → ad < 0x800000000000 →
      directTarget s ad = .mem m → s.poisoned m = false → creditTake (arrive t s) (k.resident.getD 0) = some s' →
      ∃ u, exec (.ldr t n d a size sign) s = .next u ∧ u.mem = (drainAll s' n).mem ∧ u.ks.poolUse = s.ks.poolUse + 1 ∧
        u.core n = { k with stores := [], wait := .ldr d (2 ^ size) sign ad (s.time.advance t).dt ((drainAll s' n).bytesAt m (2 ^ size)) false true } ∧
        (∀ b, eventReg b = false → u.reg b = s.reg b)) ∧
    (∀ since v, k.wait = .ldr d (2 ^ size) sign ad since v false true → n < 8 → k.stores = [] →
      ∃ u, exec (.ldrDataReturn t n) s = .next u ∧ (u.core n).wait = .running ∧
        (u.core n).arch = archNext (settledArch s n { x with g := x.g.set d (extended size sign (v % 2 ^ (8 * 2 ^ size))) }) 1 default ∧
        u.mem = s.mem ∧ (∀ b, eventReg b = false → u.reg b = s.reg b)) ∧
    (Runs s n .slot (.str t n d a size) → ad % 2 ^ size = 0 → ad < 0x800000000000 → directTarget s ad = .mem m → inDram m = true →
      s.poisoned m = false → k.stores = [] → creditTake (arrive t s) (k.resident.getD 0) = some s' →
      ∃ u, exec (.str t n d a size) s = .next u ∧ u.ks.poolUse = s.ks.poolUse + 1 ∧
        u.mem = (s'.setBytes m ((x.g.look d).toNat % 2 ^ (8 * 2 ^ size)) (2 ^ size)).mem ∧
        (u.core n).arch = archNext (settledArch s n x) 1 default ∧ (u.core n).remote = k.remote ++ [(ad, (s.time.advance t).dt)]) ∧
    (∀ e l, k.remote = e :: l → n < 8 → (l ≠ [] ∨ (k.wait ≠ .fence ∧ k.wait ≠ .note)) →
      ∃ u, exec (.remoteStoreAck t n) s = .next u ∧ Ends { arrive t s with cores := s.cores.set n { k with remote := l } } u) ∧
    (∀ e, k.remote = [e] → n < 8 → k.wait = .fence → k.stores = [] →
      ∃ u, exec (.remoteStoreAck t n) s = .next u ∧ (u.core n).remote = [] ∧ (u.core n).wait = .running ∧
        (u.core n).arch = archNext (settledArch s n x) 1 default ∧ u.mem = s.mem) ∧
    (Runs s n .slot (.fence t n) → k.stores = [] →
      (k.remote = [] → ∃ u, exec (.fence t n) s = .next u ∧ RetiresTo t s u n (archNext (settledArch s n x) 1 default) []) ∧
      (k.remote ≠ [] → ∃ u, exec (.fence t n) s = .next u ∧
        Ends { arrive t s with cores := s.cores.set n { k with wait := .fence } } u)) ∧
    (∀ e z fa v p q since, k.wait = .ldr e z sign fa since v p q → n < 8 → trcTraced s n = false → k.resident ≠ none →
      ((100 * s.g (F.SC_CFG_REMOTE_TIMEOUT n) * 65536 : Nat) : Int) ≤ ((s.time.advance t).dt - since).toInt →
      ∃ u, exec (.remoteTimeout t n) s = .next u ∧ (u.core n).wait = .leaving 7 6 false none ∧
        (u.core n).faultPc = x.pc ∧ (u.core n).faultAddr = fa ∧ (u.core n).arch = x)

/-- Loads see the youngest store in the buffer, and LDXY and MACL read both memories and move their pointers: the parts named hold. -/
def Obligations.LoadsReadDataMemory : Prop := LoadsSeeTheYoungestStore ∧ PairedLoadsReadBothWords

/-! ### Two rules of the text, each whole -/

/-- R54. While the governor's ENABLE is 1 a write to SG_CFG, SG_MODE or SG_VLIMIT, of any width and by any master, is ignored. While
it is 0 the registers take what is written, and the governor's configuration does not change; it becomes what the three
registers hold when the check has passed and ENABLE is set. While the core supplies are down no write reaches them (R26). (A write
first brings in the quadrature latches that are due; the frame is stated for none. One that an earlier access of its master holds up
is made when that has been made, R379.) No access is held up. -/
def Obligations.GovernorSettingsAreTakenAtEnable : Prop :=
  ∀ (t : DT) (m a n pass : Nat) (v : Word) (x : Action) (s : State),
    QuadQuiet s → Unhindered t m s →
    (F.SG_CFG.adr ≤ a → a < F.SG_VLIMIT.adr + 8 → 1 ≤ n → n + a % 8 ≤ 8 → (s.enabled pSG = true ∨ s.hk.corePower = false) →
      ∃ u, exec (.registerWrite t m a n v) s = .next u ∧ (∀ b, eventReg b = false → u.reg b = s.reg b) ∧ u.sg = s.sg ∧
        Ends { arrive t s with regs := u.regs } u) ∧
    (s.enabled pSG = false → s.hk.corePower = true →
      (∀ (r : Nat) (fs : List Fld), (r, fs) ∈ [
          (F.SG_CFG.adr, [F.SG_CFG_TARGET, F.SG_CFG_BAND, F.SG_CFG_WINDOW, F.SG_CFG_FREEZE]),
          (F.SG_MODE.adr, [F.SG_MODE_WARN, F.SG_MODE_MODE]),
          (F.SG_VLIMIT.adr, [F.SG_VLIMIT_VMIN, F.SG_VLIMIT_VMAX, F.SG_VLIMIT_VFIXED])] →
        ∃ u, exec (.registerWrite t m r 8 v) s = .next u ∧ (∀ f ∈ fs, u.g f = getBits v.toNat f.lo f.w) ∧ u.sg = s.sg ∧
          (∀ b, eventReg b = false → b ≠ r → u.reg b = s.reg b) ∧ Ends { arrive t s with regs := u.regs } u)) ∧
    (s.checks.look pSG = ⟨some x, []⟩ → x.kind = .pageEnable → x.page = pSG → x.guarded = none →
      actionCheck (arrive t s) x pass = 0 →
      ∃ u, exec (.checkDone t pSG pass) s = .next u ∧ u.enabled pSG = true ∧ u.sg.cfg = {
        target := s.g F.SG_CFG_TARGET, band := s.g F.SG_CFG_BAND, window := s.g F.SG_CFG_WINDOW, freeze := s.g F.SG_CFG_FREEZE
        warn := s.g F.SG_MODE_WARN, fixed := s.gb F.SG_MODE_MODE
        vfixed := s.g F.SG_VLIMIT_VFIXED, vmax := s.g F.SG_VLIMIT_VMAX, vmin := s.g F.SG_VLIMIT_VMIN })

/-- R306. A class B instruction, REPI, REPR, LOCK, UNLOCK, WAIT, YIELD, END or BREAK in a delay slot does not execute: the context is
to leave FAULTED with cause 2, SEQUENCE, and FAULT_PC holds the slot's address. -/
def Obligations.ControlInADelaySlotFaults : Prop :=
  ∀ (t : DT) (n a b len k : Nat) (off : Int) (s : State) (c : Instr),
    c ∈ [Instr.br t n off, .call t n off, .bz t n a off, .bnz t n a off, .beq t n a b off, .bne t n a b off, .blt t n a b off,
      .bge t n a b off, .jmp t n a, .repi t n k len, .repr t n a len, .lock t n a k, .unlock t n k, .wait t n, .yield t n,
      .endProg t n, .breakPoint t n] →
    coreIssues s n = true → scWf c = true → issueCause s n .plain true = 0 → (s.core n).arch.slots ≠ 0 →
    trcTraced s n = false → (s.core n).trcOn = false →
    ∃ u, exec c s = .next u ∧ (u.core n).wait = .leaving 7 2 false none ∧ (u.core n).faultPc = (s.core n).arch.pc ∧
      (u.core n).faultAddr = 0 ∧ (u.core n).arch = (s.core n).arch

/-! ### The instruction words of the signal cores (Tables 12.7 and 12.8) -/

/-- The decoder reads back every operand that the encoder places (R328, R329): each signal-core instruction whose operands lie in
their ranges has a word of 32 bits, two words for class L, that decodes to that instruction; and whatever a word decodes to
has its operands in their ranges. -/
def Obligations.DecodeOfEncodeIsTheInstruction : Prop :=
  (∀ (i : Instr) (w : Nat) (o : Option Nat), scWf i = true → scEncode i = some (w, o) →
    w < 2 ^ 32 ∧ (∀ k, o = some k → k < 2 ^ 32) ∧ scWordCount w = (if o.isSome then 2 else 1) ∧
    ∃ (t : DT) (n : Nat), ∀ x : Nat, scDecode t n w (o.getD x) = some i) ∧
  (∀ (t : DT) (n w x : Nat) (i : Instr), x < 2 ^ 32 → scDecode t n w x = some i → scWf i = true)

/-- One word of each class, written out from Table 12.7, decodes to its instruction, and words with a reserved field that is not
0, an unused OP or an unused class decode to none (R328, cause 1 of Table 12.6). -/
def Obligations.WordsOfTheTablesDecode : Prop :=
  ∀ (t : DT) (n : Nat),
    scDecode t n 0b0000_000001_00011_00001_00010_0000000 0 = some (.sub t n 3 1 2) ∧
    scDecode t n 0b0001_000_11111_00000_111111111111111 0 = some (.addi t n 31 0 (-1)) ∧
    scDecode t n 0b0010_01_00101_000000000000000000000 0xDEADBEEF = some (.ldih t n 5 0xDEADBEEF) ∧
    scDecode t n 0b0011_0011_10_00001_00010_011_100_1_0_0000 0 = some (.macl t n 2 1 2 3 4 true false) ∧
    scDecode t n 0b0100_000_10_1_00111_110_01_000000000000 0 = some (.ld t n 7 6 1 2 true) ∧
    scDecode t n 0b0101_010_101_00001_00010_000000000000 0 = some (.setc t n 5 1 2) ∧
    scDecode t n 0b0110_01_11_0_01000_01001_0000000000000 0 = some (.str t n 8 9 3) ∧
    scDecode t n 0b0111_0110_00001_00010_11111111111110 0 = some (.blt t n 1 2 (-2)) ∧
    scDecode t n 0b1000_000011_00110_000000000_11111111 0 = some (.lock t n 6 255) ∧
    scDecode t n 0b0000_000001_00011_00001_00010_0000001 0 = none ∧ scDecode t n (0b0000_001100 * 2 ^ 22) 0 = none ∧
    scDecode t n (9 * 2 ^ 28) 0 = none

/-- END, YIELD, WAIT without a notice, and LOCK of a lock that another context holds let the context leave (R320, R324, R325,
R335, R341); a pre-emption request is taken only outside delay slots, between repeats, and while the core runs or waits for a
credit or a fence (R321). The core then waits for the save; the store buffer drains first. A context that LOCK refuses joins the
queue of the lock at once, behind those of its priority and of smaller numbers (R347). -/
def Sys2Proof.TheContextLeavesAtItsBoundary : Prop :=
  ∀ (t : DT) (n d l : Nat) (s : State),
    let k := s.core n
    let c := k.resident.getD 0
    let leaves (w : CoreWait) : State := { arrive t s with cores := s.cores.set n { k with wait := w } }
    k.stores = [] →
    (Runs s n .control (.endProg t n) → Does (.endProg t n) s (leaves (.leaving 0 0 false none))) ∧
    (Runs s n .control (.yield t n) → Does (.yield t n) s (leaves (.leaving 1 0 false none))) ∧
    (Runs s n .control (.wait t n) → s.cx c F.CX_STATE_PENDING = 0 → Does (.wait t n) s (leaves (.leaving 4 0 false none))) ∧
    (Runs s n .control (.wait t n) → s.cx c F.CX_STATE_PENDING ≠ 0 →
      (k.remote = [] → s.enabled pEH = false → ∃ u, exec (.wait t n) s = .next u ∧ (u.core n).wait = .running ∧
        (u.core n).arch = archNext (settledArch s n k.arch) 1 default ∧ u.mem = (s.cxPut c F.CX_STATE_PENDING 0).mem) ∧
      (k.remote ≠ [] → Does (.wait t n) s (leaves .note))) ∧
    (Runs s n .control (.lock t n d l) → s.gb (F.KS_LOCK_HELD l) = true →
      s.g (F.KS_LOCK_OWNER l) ≠ c →
      let q := s.ks.lockQ.look l
      let before := q.takeWhile (fun x => decide (cxPrio s x ≤ cxPrio s c))
      ∃ u, exec (.lock t n d l) s = .next u ∧
        u.g (F.KS_LOCK_WAITERS l) = (q.length + 1) % 2 ^ (F.KS_LOCK_WAITERS l).w ∧
        u.gb (F.KS_LOCK_HELD l) = true ∧ u.g (F.KS_LOCK_OWNER l) = s.g (F.KS_LOCK_OWNER l) ∧
        (∀ b, eventReg b = false → b ≠ (F.KS_LOCK_WAITERS l).adr → u.reg b = s.reg b) ∧
        Ends { leaves (.leaving 5 0 false (some l)) with
          regs := u.regs
          ks := { s.ks with lockQ := s.ks.lockQ.set l (before ++ c :: q.drop before.length) } } u) ∧
    (n < 8 → k.resident ≠ none → k.preempt = true →
      (k.arch.slots = 0 ∧ (k.arch.repOn = false ∨ k.arch.pc = k.arch.repStart) ∧
        (k.wait = .running ∨ k.wait = .str ∨ k.wait = .fence) →
        Does (.preemption t n) s (leaves (.leaving 1 0 true none))) ∧
      (k.arch.slots ≠ 0 ∨ (k.arch.repOn = true ∧ k.arch.pc ≠ k.arch.repStart) →
        Does (.preemption t n) s (arrive t s)))

/-- The save area of context `c` lies in memory below the translated addresses, outside the records that a block watches. -/
def Sys2Proof.SavesToMemory (s : State) (c : Nat) : Prop :=
  ∀ i < 72, ∃ m, s.word (cxBase c + 8) + 8 * i < 0x800000000000 ∧
    directTarget s (s.word (cxBase c + 8) + 8 * i) = .mem m ∧ watchedWord m = false

/-- CONTEXT_SAVE_DONE (R323): once no remote store is outstanding the core holds no context, a fresh set of registers and no
pending pointer write; the switch is counted, a pre-emption is counted as one, and the context has the state it left in. A pointer
write that is pending stays with the context, to take effect when it runs again (R304, notes/assumptions/40). -/
def Sys2Proof.TheSaveFreesTheCore : Prop :=
  ∀ (t : DT) (n c st cause : Nat) (head : Bool) (lock : Option Nat) (s : State),
    let k := s.core n
    n < 8 → k.resident = some c → k.wait = .leaving st cause head lock → k.resetting = false → k.prefetch = none →
    trcTraced s n = false → st ∈ [6, 7] → s.enabled pEH = false → c < 1024 → SavesToMemory s c →
    (k.remote = [] → ∃ u, exec (.contextSaveDone t n) s = .next u ∧ (u.core n).resident = none ∧ (u.core n).arch = default ∧
      (u.core n).delP = [] ∧ (u.core n).wait = .running ∧ (u.core n).switches = k.switches + 1 ∧
      (u.core n).retired = k.retired ∧ (u.core n).idleSince = (s.time.advance t).dt ∧
      (k.closing = true → (u.core n).dormant = true ∧ (u.core n).closing = false) ∧
      u.cx c F.CX_STATE_STATE = st ∧ u.cx c F.CX_STATE_CAUSE = cause % 256 ∧ u.ks.heldPtr.look c = k.delP ∧
      (∀ m, m ≠ n → (u.core m).arch = (s.core m).arch ∧ (u.core m).resident = (s.core m).resident) ∧
      (∀ b, eventReg b = false → u.reg b = s.reg b)) ∧
    (k.remote ≠ [] → Does (.contextSaveDone t n) s (arrive t s))

/-- Where a context goes when its save is complete (Table 13.1, R335, R347), for a context without a flow. After END it is IDLE.
After YIELD it is READY at the tail of the list of its priority, after a pre-emption, which is counted, at the head. After WAIT
it is WAITING, or READY where a notice is pending, which is consumed. After LOCK of a lock that is held it is BLOCKED, or READY
where the lock has been passed to it since. -/
def Sys2Proof.ADepartedContextGoesWhereItsInstructionSays : Prop :=
  ∀ (t : DT) (n c st l : Nat) (head : Bool) (s : State),
    let k := s.core n
    n < 8 → c < 1024 → k.resident = some c → k.wait = .leaving st 0 head (if st = 5 then some l else none) →
    k.resetting = false → k.prefetch = none → k.remote = [] → k.inService = true → k.closing = false → cxAllows s c n = true →
    trcTraced s n = false → s.enabled pEH = false → SavesToMemory s c → (s.ks.cfg.look c).flow = 0 → st ∈ [0, 1, 4, 5] →
    ∃ u, exec (.contextSaveDone t n) s = .next u ∧ (u.core n).resident = none ∧ (u.core n).wait = .running ∧
      (st = 0 → cxState u c = 0 ∧ u.ks.ready = s.ks.ready) ∧
      (st = 1 → cxState u c = 1 ∧ u.ks.preempts = s.ks.preempts + (if head then 1 else 0) ∧
        u.ks.ready.look (cxPrio s c) = if head then c :: s.ks.ready.look (cxPrio s c) else s.ks.ready.look (cxPrio s c) ++ [c]) ∧
      (st = 4 → s.cx c F.CX_STATE_PENDING = 0 → cxState u c = 4 ∧ u.ks.ready = s.ks.ready) ∧
      (st = 4 → s.cx c F.CX_STATE_PENDING ≠ 0 → cxState u c = 1 ∧ u.cx c F.CX_STATE_PENDING = 0 ∧
        u.ks.ready.look (cxPrio s c) = s.ks.ready.look (cxPrio s c) ++ [c]) ∧
      (st = 5 → (s.ks.granted.look c).1 ≠ l + 1 → cxState u c = 5 ∧ u.ks.lockQ = s.ks.lockQ ∧ u.ks.ready = s.ks.ready) ∧
      (st = 5 → (s.ks.granted.look c).1 = l + 1 → cxState u c = 1 ∧
        u.ks.ready.look (cxPrio s c) = s.ks.ready.look (cxPrio s c) ++ [c])

/-- Dormancy (R327): a core in service that has held no context for 50 µs becomes dormant where DORMANT_EN is 1, and no sooner;
it wakes when its prefetch slot is filled, and that context becomes resident. Clearing ENABLE (R330): an idle core leaves
service at once; a resident context is pre-empted first. No access is held up. -/
def Obligations.DormancyAndServiceOfACore : Prop :=
  ∀ (t : DT) (m n c : Nat) (s : State), n < 8 →
    let k := s.core n
    let idle := ((s.time.advance t).dt - k.idleSince).toInt
    trcTraced s n = false →
    (k.inService = true → k.dormant = false → s.gb (F.SC_CFG_DORMANT_EN n) = true → k.resident = none → k.prefetch = none →
      (50000 * 65536 ≤ idle → Does (.dormant t n) s { arrive t s with cores := s.cores.set n { k with dormant := true } }) ∧
      (idle < 50000 * 65536 → Does (.dormant t n) s (arrive t s))) ∧
    (k.prefetch = some c → k.inService = true → k.dormant = true → k.resident = none → s.enabled pEH = false →
      ∃ u, exec (.wake t n) s = .next u ∧ u.core n = { k with
        dormant := false, resident := some c, arch := k.preArch, delP := s.ks.heldPtr.look c, prefetch := none, wait := .running
        cache := [] } ∧
        u.mem = (s.cxPut c F.CX_STATE_STATE 3).mem) ∧
    (Unhindered t m s → s.hk.corePower = true → s.enabled (pSC n) = true → (s.checks.look (pSC n)).running = none → k.prefetch = none →
      ∃ u, exec (.scDisable t m n) s = .next u ∧ u.enabled (pSC n) = false ∧ (u.core n).inService = false ∧
        (k.resident = none → (u.core n).dormant = true) ∧
        (k.resident ≠ none → (u.core n).closing = true ∧ (u.core n).resident = k.resident ∧
          (s.enabled pEH = false → (u.core n).preempt = true)) ∧
        (∀ b, eventReg b = false → b ≠ (F.CTRL_ENABLE (pSC n)).adr → u.reg b = s.reg b))

/-! ### Keystone (chapter 13) -/

/-- A notice (R334): a context that waits becomes READY; one that is READY, prefetched, resident or blocked on a lock keeps it
as PENDING; one that is IDLE, SUSPENDED or FAULTED loses it, and NOTICES_LOST counts it. CX_NOTIFY sends one from outside,
NOTIFY from a core. No access is held up. -/
def Obligations.ANoticeIsTakenKeptOrLost : Prop :=
  ∀ (t : DT) (m n a c : Nat) (s : State), s.enabled pEH = false → c < 1024 →
    let st := cxState s c
    (∀ (i : Instr), (i = .cxNotify t m c ∧ Unhindered t m s ∧ s.hk.corePower = true ∧ (s.checks.look pKS).running = none ∧ standbyRefuses s m F.KS_CXCTL_OP.adr = false) ∨
        (i = .notify t n a ∧ Runs s n .slot i ∧ (s.core n).stores = [] ∧ ((s.core n).arch.g.look a).toNat % 1024 = c) →
      ∃ u, exec i s = .next u ∧
        (st = 1 ∨ st = 2 ∨ st = 3 ∨ st = 5 → u.mem = (s.cxPut c F.CX_STATE_PENDING 1).mem ∧ u.ks = s.ks) ∧
        (st = 0 ∨ st = 6 ∨ st = 7 → u.mem = s.mem ∧ u.ks = { s.ks with noticesLost := s.ks.noticesLost + 1 }) ∧
        (st = 4 → (allowedCores s c = [] ∨ ∃ k ∈ allowedCores s c, (s.core k).resident = none) →
          u.ks.ready.look (cxPrio s c) = s.ks.ready.look (cxPrio s c) ++ [c] ∧ cxState u c = 1) ∧
        (∀ b, eventReg b = false → u.reg b = s.reg b))

/-- Hardware locks (R325, R347 to R349). ACQUIRE of a free lock gives it to the owner named, GRANTED, or with ABANDONED where the
last owner abandoned it; of a lock that another context holds it answers BUSY, of one that the owner named holds already GRANTED
(the model's choice, notes/assumptions/40); RELEASE frees it for the next in the queue.
LOCK on a free lock writes the ABANDONED bit to its register, UNLOCK by the holder passes the lock on. No access is held up. -/
def Obligations.LocksAreGivenAndPassedOn : Prop :=
  ∀ (t : DT) (m n d l o c : Nat) (q : List Nat) (s : State), l < 256 → o < 1024 → s.enabled pEH = false →
    Unhindered t m s → s.hk.corePower = true →
    let held := s.gb (F.KS_LOCK_HELD l)
    let own (u : State) : Nat := ownCopy u m F.KS_LOCK_RESULT.adr
    (held = false → ∃ u, exec (.acquire t m l o) s = .next u ∧
      own u = (if s.gb (F.KS_LOCK_ABANDONED l) then 2 else 1) * 2 ^ 61 ∧ u.gb (F.KS_LOCK_HELD l) = true ∧
      u.g (F.KS_LOCK_OWNER l) = o ∧ u.gb (F.KS_LOCK_ABANDONED l) = false ∧
      (∀ b, eventReg b = false → b ≠ (F.KS_LOCK_HELD l).adr → u.reg b = s.reg b)) ∧
    (held = true → s.g (F.KS_LOCK_OWNER l) ≠ o → ∃ u, exec (.acquire t m l o) s = .next u ∧ own u = 3 * 2 ^ 61 ∧
      Ends { arrive t s with snaps := u.snaps } u) ∧
    (held = true → s.g (F.KS_LOCK_OWNER l) = o → ∃ u, exec (.acquire t m l o) s = .next u ∧ own u = 2 ^ 61 ∧
      Ends { arrive t s with snaps := u.snaps } u) ∧
    (held = true → s.g (F.KS_LOCK_OWNER l) = o → s.ks.lockMaster.look l = m + 1 → s.ks.lockQ.look l = [] →
      ∃ u, exec (.lockRelease t m l o) s = .next u ∧ own u = 0 ∧ u.gb (F.KS_LOCK_HELD l) = false ∧
        u.gb (F.KS_LOCK_ABANDONED l) = false ∧ u.ks.lockMaster.look l = 0 ∧
        (∀ b, eventReg b = false → b ≠ (F.KS_LOCK_HELD l).adr → u.reg b = s.reg b)) ∧
    (held = true → (s.g (F.KS_LOCK_OWNER l) ≠ o ∨ s.ks.lockMaster.look l ≠ m + 1) →
      ∃ u, exec (.lockRelease t m l o) s = .next u ∧ own u = 4 * 2 ^ 61 ∧ Ends { arrive t s with snaps := u.snaps } u) ∧
    (Runs s n .control (.lock t n d l) → held = false → (s.core n).stores = [] →
      ∃ u, exec (.lock t n d l) s = .next u ∧ u.gb (F.KS_LOCK_HELD l) = true ∧
        u.g (F.KS_LOCK_OWNER l) = (s.core n).resident.getD 0 % 1024 ∧ u.gb (F.KS_LOCK_ABANDONED l) = false ∧
        (u.core n).arch = archNext (settledArch s n { (s.core n).arch with
          g := (s.core n).arch.g.set d (BitVec.ofNat 64 (s.g (F.KS_LOCK_ABANDONED l))) }) 1 default) ∧
    (Runs s n .control (.unlock t n l) → held = true → s.g (F.KS_LOCK_OWNER l) = (s.core n).resident.getD 0 →
      (s.core n).stores = [] → ∃ u, exec (.unlock t n l) s = .next u ∧
        (u.core n).arch = archNext (settledArch s n (s.core n).arch) 1 default ∧
        (s.ks.lockQ.look l = [] → u.gb (F.KS_LOCK_HELD l) = false) ∧
        (s.ks.lockQ.look l = c :: q → c < 1024 → u.gb (F.KS_LOCK_HELD l) = true ∧ u.g (F.KS_LOCK_OWNER l) = c ∧
          u.ks.lockQ.look l = q ∧ u.g (F.KS_LOCK_WAITERS l) = q.length % 2 ^ (F.KS_LOCK_WAITERS l).w))

/-- A context leaves its core at END, YIELD, WAIT, a blocking LOCK or a pre-emption, the save frees the core, and the context
goes where its departure says: the parts named hold. -/
def Obligations.ContextsLeaveAndAreSaved : Prop :=
  TheContextLeavesAtItsBoundary ∧ TheSaveFreesTheCore ∧ ADepartedContextGoesWhereItsInstructionSays

/-- The entry that master `m` inserts in the delay list with its own registers (R344). -/
def Sys2Proof.ownEntry (s : State) (m tag : Nat) (write discard late : Bool) : DlEntry :=
  let own (f : Fld) : Word := BitVec.ofNat 64 (ownCopy s m f.adr)
  ⟨own F.KS_DL_DT, write, own F.KS_DL_ARG, own F.KS_DL_VAL, tag, discard, late⟩

/-- The delay list (R344 to R346). An insertion stands in DT order behind the entries of the same DT and is answered QUEUED; an
entry at or before the last tick is marked late, answered LATE, or is DISCARDED and counted where DISCARD asks for it; the
8,193rd is refused as FULL. A cancellation removes every entry of the tag and answers their number. No access is held up. -/
def Sys2Proof.TheDelayListKeepsDtOrder : Prop :=
  ∀ (t : DT) (m tag : Nat) (write discard : Bool) (s : State), tag < 65536 → Unhindered t m s → s.hk.corePower = true →
    let dt := BitVec.ofNat 64 (ownCopy s m F.KS_DL_DT.adr)
    let past := s.ks.ticked = true ∧ (dt - s.ks.lastTick).toInt ≤ 0
    let own (u : State) : Nat := ownCopy u m F.KS_DL_RESULT.adr / 2 ^ 61
    (s.ks.delay.length < 8192 → ¬ (past ∧ discard = true) → ∃ u, exec (.dlInsert t m tag write discard) s = .next u ∧
      u.ks.delay = s.ks.delay.takeWhile (fun e => decide ((e.dt - dt).toInt ≤ 0)) ++
        ownEntry s m tag write discard (decide past) :: s.ks.delay.dropWhile (fun e => decide ((e.dt - dt).toInt ≤ 0)) ∧
      own u = (if past then 2 else 1) ∧ Ends { arrive t s with ks := { s.ks with delay := u.ks.delay }, snaps := u.snaps } u) ∧
    (s.ks.delay.length < 8192 → past → discard = true → ∃ u, exec (.dlInsert t m tag write discard) s = .next u ∧ own u = 3 ∧
      Ends { arrive t s with ks := { s.ks with discarded := s.ks.discarded + 1 }, snaps := u.snaps } u) ∧
    (8192 ≤ s.ks.delay.length → ∃ u, exec (.dlInsert t m tag write discard) s = .next u ∧ own u = 4 ∧
      Ends { arrive t s with snaps := u.snaps } u) ∧
    (∃ u, exec (.dlCancel t m tag) s = .next u ∧
      (s.ks.delay.length ≤ 8192 → own u = 5 ∧
        ownCopy u m F.KS_DL_RESULT.adr / 2 ^ 32 % 2 ^ 29 = (s.ks.delay.filter (fun e => e.tag = tag)).length) ∧
      Ends { arrive t s with ks := { s.ks with delay := s.ks.delay.filter (fun e => e.tag ≠ tag) }, snaps := u.snaps } u)

/-- A tick falls a period after the last one and takes the entries whose DT it reaches (R343 to R345); an entry for a context
writes its CX_WAKE, whose reserved bits stay, and notifies it. With the page off, or before the tick's DT, nothing happens. (No access
is held up, which would be made behind the tick, R421.) -/
def Sys2Proof.ATickFiresTheEntriesDue : Prop :=
  ∀ (t : DT) (s : State), s.enabled pEH = false → NothingHeldUp s →
    let tick := if s.ks.ticked then s.ks.lastTick + BitVec.ofNat 64 (s.ks.period * 65536) else s.ks.lastTick
    let due (e : DlEntry) : Bool := decide ((e.dt - tick).toInt ≤ 0)
    let ks := { s.ks with
      lastTick := tick, ticked := true, period := s.g F.KS_TICK_PERIOD, ticks := s.ks.ticks + 1 }
    (s.enabled pKS = false ∨ ((s.time.advance t).dt - tick).toInt < 0 → Does (.tick t) s (arrive t s)) ∧
    (s.enabled pKS = true → 0 ≤ ((s.time.advance t).dt - tick).toInt → (∀ e ∈ s.ks.delay.head?, due e = false) →
      Does (.tick t) s { arrive t s with ks := ks }) ∧
    (∀ e l, s.enabled pKS = true → 0 ≤ ((s.time.advance t).dt - tick).toInt → s.ks.delay = e :: l → due e = true →
      (∀ f ∈ l.head?, due f = false) → e.write = false → e.late = false → cxState s (e.arg.toNat % 1024) ∈ [1, 2, 3, 5] →
      ∃ u, exec (.tick t) s = .next u ∧ u.ks = { ks with delay := l } ∧
        (let w := cxBase (e.arg.toNat % 1024) + F.CX_WAKE.adr
         u.mem = ((s.setWord w (blend (s.word w) (e.tag * 2 ^ 32) 0x8000FFFFFFFFFFFF)).cxPut (e.arg.toNat % 1024)
          F.CX_STATE_PENDING 1).mem))

/-- Credits and quotas (R350, R351): a flit consumed returns a credit to its context and to the pool; a quota below the use sets
OVER_QUOTA, one above the use clears it. While the core supplies are down the quota is not written (R26). -/
def Sys2Proof.CreditsReturnAndQuotasBind : Prop :=
  ∀ (t : DT) (c q : Nat) (s : State), c < 1024 → q < 65536 → s.enabled pEH = false → s.poisoned (cxBase c + 0x10) = false →
    (∀ n < 8, (s.core n).wait ≠ .str) → (∀ i < 32, (s.dma.look i).state ≠ 2 ∧ (s.dma.look i).state ≠ 3) →
    (s.hk.corePower = false → Does (.quotaWrite t c q) s (arrive t s)) ∧
    (s.hk.corePower = true → ∃ u, exec (.quotaWrite t c q) s = .next u ∧ u.cx c F.CX_QUOTA_QUOTA = q ∧ u.cx c F.CX_QUOTA_USE = s.cx c F.CX_QUOTA_USE ∧
      (q < s.cx c F.CX_QUOTA_USE → u.cx c F.CX_STATE_OVER_QUOTA = 1) ∧
      (s.cx c F.CX_QUOTA_USE < q → u.cx c F.CX_STATE_OVER_QUOTA = 0) ∧
      (∀ b, b / 8 ≠ (cxBase c + 0x10) / 8 → b / 8 ≠ (cxBase c + 0x18) / 8 → u.byte b = s.byte b) ∧
      Ends { arrive t s with mem := u.mem, poison := u.poison } u) ∧
    (s.cx c F.CX_QUOTA_USE ≠ 0 → ∃ u, exec (.creditReturn t (.context c)) s = .next u ∧
      u.cx c F.CX_QUOTA_USE = s.cx c F.CX_QUOTA_USE - 1 ∧ u.ks.poolUse = s.ks.poolUse - 1 ∧
      (∀ b, b / 8 ≠ (cxBase c + 0x10) / 8 → b / 8 ≠ (cxBase c + 0x18) / 8 → u.byte b = s.byte b) ∧
      Ends { arrive t s with mem := u.mem, poison := u.poison, ks := { s.ks with poolUse := s.ks.poolUse - 1 } } u) ∧
    (s.cx c F.CX_QUOTA_USE = 0 → Does (.creditReturn t (.context c)) s (arrive t s))

/-- Flows (R340, R341): a post to an enabled flow gets the next sequence number and joins its items, and is answered ACCEPTED with
it; one to a flow that holds 128 is FULL, one to a flow that is not enabled is refused. A flow that is disabled takes no more
posts, and is OFF once it holds nothing. No access is held up. -/
def Sys2Proof.PostsAreNumberedInOrder : Prop :=
  ∀ (t : DT) (m f : Nat) (s : State), f < 64 → s.enabled pEH = false → Unhindered t m s → s.hk.corePower = true →
    let x := s.flow f
    let own (u : State) : Nat := ownCopy u m F.KS_POST_RESULT.adr
    (x.state = 1 → x.items.length < 128 → x.next < 2 ^ 32 → (∀ p ∈ s.ks.cfg, p.2.flow ≠ f) →
      ∃ u, exec (.flowPost t m f) s = .next u ∧ own u = 2 ^ 62 + x.next ∧
        u.flow f = { x with
          next := (x.next + 1) % 2 ^ 32
          items := x.items ++ [⟨x.next, BitVec.ofNat 64 (ownCopy s m F.KS_POST_ARG.adr), none, false, false, 0⟩] } ∧
        (∀ b, b / 8 ≠ (flowBase f + 0x20) / 8 → u.byte b = s.byte b) ∧ (∀ b, eventReg b = false → u.reg b = s.reg b)) ∧
    (x.state = 1 → 128 ≤ x.items.length → ∃ u, exec (.flowPost t m f) s = .next u ∧ own u = 2 * 2 ^ 62 ∧
      Ends { arrive t s with snaps := u.snaps } u) ∧
    (x.state ≠ 1 → ∃ u, exec (.flowPost t m f) s = .next u ∧ own u = 3 * 2 ^ 62 ∧ Ends { arrive t s with snaps := u.snaps } u) ∧
    ((s.checks.look pKS).running = none → standbyRefuses s m F.KS_FLOWCTL_OP.adr = false → x.state = 1 →
      (x.items = [] → ∃ u, exec (.flowDisable t m f) s = .next u ∧ u.flow f = { x with state := 0 } ∧
        (∀ b, eventReg b = false → u.reg b = s.reg b)) ∧
      (∀ i l, x.items = i :: l → i.done = false → ∃ u, exec (.flowDisable t m f) s = .next u ∧ u.flow f = { x with state := 2 } ∧
        (∀ b, eventReg b = false → u.reg b = s.reg b)))

/-- Contexts (R333, R336, R338, R355). RESET of a context on no core makes it IDLE; of a resident one it is pre-empted first. A
free prefetch slot is filled from the ready lists, and the context becomes resident on an idle, awake core with the registers
of its save area and the pointer writes that were pending. ENABLE of the page is not cleared while the cycle runs; cleared, it
drops the delay list and every lock, and leaves ABANDONED = 1 on all 256 locks, unheld ones too, which is the model's reading
(notes/assumptions/40). Here no access is held up. -/
def Obligations.KeystoneResetsPlacesAndStops : Prop :=
  ∀ (t : DT) (m n c : Nat) (s : State), c < 1024 → s.enabled pEH = false → (s.checks.look pKS).running = none →
    s.hk.corePower = true → NothingHeldUp s → Unhindered t m s →
    (standbyRefuses s m F.KS_CXCTL_OP.adr = false →
      ((∀ k < 8, (s.core k).resident ≠ some c ∧ (s.core k).prefetch ≠ some c) → s.cx c F.CX_ITEM_VALID = 0 →
        ∃ u, exec (.cxReset t m c) s = .next u ∧ cxState u c = 0 ∧ u.cx c F.CX_STATE_PENDING = 0 ∧
          u.cx c F.CX_STATE_ON_CORE = 0) ∧
      (n < 8 → (s.core n).resident = some c → (∀ k < n, (s.core k).resident ≠ some c) → Does (.cxReset t m c) s { arrive t s with
        cores := s.cores.set n { s.core n with preempt := true, resetting := true } })) ∧
    (nextPlacement s = none → Does (.contextPrefetch t) s (arrive t s)) ∧
    (nextPlacement s = some (n, c) → trcTraced s n = false →
      ((s.core n).resident = none → (s.core n).dormant = false → ∃ u, exec (.contextPrefetch t) s = .next u ∧
        (u.core n).resident = some c ∧ (u.core n).arch = loadSave s c ∧ (u.core n).delP = s.ks.heldPtr.look c ∧
        (u.core n).prefetch = none ∧ cxState u c = 3) ∧
      ((s.core n).resident ≠ none ∨ (s.core n).dormant = true → ∃ u, exec (.contextPrefetch t) s = .next u ∧
        (u.core n).prefetch = some c ∧ (u.core n).preArch = loadSave s c ∧ (u.core n).arch = (s.core n).arch ∧
        cxState u c = 2)) ∧
    (s.enabled pKS = true →
      (s.time.running = true → Does (.ksDisable t m) s (arrive t s)) ∧
      (s.time.running = false → ∃ u, exec (.ksDisable t m) s = .next u ∧ u.enabled pKS = false ∧ u.ks.delay = [] ∧
        u.ks.lockMaster = [] ∧ (∀ l < 256, u.gb (F.KS_LOCK_HELD l) = false ∧ u.gb (F.KS_LOCK_ABANDONED l) = true)))

/-! ### Memory, queues and DMA (chapter 14) -/

/-- XU_INVAL (R366): invalidations complete in the order of their requests, and a completed one has taken every cached
translation that it covers out. While the core supplies are down none is requested (R26). -/
def Sys2Proof.InvalidationsCompleteInOrder : Prop :=
  ∀ (t : DT) (first n : Nat) (s : State), first < 2 ^ 36 → n < 4096 →
    (s.hk.corePower = false → Does (.xuInvalAll t) s (arrive t s) ∧ Does (.xuInvalRange t first n) s (arrive t s)) ∧
    (s.hk.corePower = true → Does (.xuInvalAll t) s { arrive t s with ms := { s.ms with invals := s.ms.invals ++ [⟨none⟩] } } ∧
      Does (.xuInvalRange t first n) s { arrive t s with ms := { s.ms with invals := s.ms.invals ++ [⟨some (first, n + 1)⟩] } }) ∧
    (s.ms.invals = [] → Does (.invalidationDone t) s (arrive t s)) ∧
    (∀ l, s.ms.invals = ⟨none⟩ :: l →
      Does (.invalidationDone t) s { arrive t s with ms := { s.ms with invals := l, cache := [] } }) ∧
    (∀ l a k, s.ms.invals = ⟨some (a, k)⟩ :: l → 0 < k → (∀ e ∈ s.ms.cache, 12 ≤ e.sizeLog2) →
      ∃ u, exec (.invalidationDone t) s = .next u ∧
        (∀ e, e ∈ u.ms.cache ↔ e ∈ s.ms.cache ∧ ¬ ∃ p, a ≤ p ∧ p < a + k ∧ p * 4096 / 2 ^ e.sizeLog2 = e.page) ∧
        Ends { arrive t s with ms := { s.ms with invals := l, cache := u.ms.cache } } u)

/-- The patrol scrubber (R358, R360, R361): a sound word stays; a corrected one counts one CE of its memory; an uncorrectable one
is poisoned and counts one UE. Where scrubbing is off, or the DRAM is in self-refresh, it does nothing. (No uncorrectable read of another block was still to be
counted.) -/
def Sys2Proof.TheScrubberCountsAndPoisons : Prop :=
  ∀ (t : DT) (a : Nat) (s : State), a % 8 = 0 → inMemory a = true → s.poisoned a = false → s.ueDue = [] →
    let on := if inDram a then s.ms.scrubDram && !s.ms.selfRefresh else s.ms.scrubSram
    Does (.scrubRead t a 0) s (arrive t s) ∧
    (on = false → Does (.scrubRead t a 2) s (arrive t s)) ∧
    (on = true → ∃ u, exec (.scrubRead t a 1) s = .next u ∧
      (inDram a = true → u.ms.ceDram = s.ms.ceDram + 1 ∧ u.ms.ceSram = s.ms.ceSram) ∧
      (inDram a = false → u.ms.ceSram = s.ms.ceSram + 1 ∧ u.ms.ceDram = s.ms.ceDram) ∧
      u.ms.ueSram = s.ms.ueSram ∧ u.ms.ueDram = s.ms.ueDram ∧ Ends { arrive t s with ms := u.ms } u) ∧
    (on = true → ∃ u, exec (.scrubRead t a 2) s = .next u ∧ (s.enabled pEH = false → u.poisoned a = true) ∧
      (inDram a = true → u.ms.ueDram = s.ms.ueDram + 1 ∧ u.ms.ueSram = s.ms.ueSram) ∧
      (inDram a = false → u.ms.ueSram = s.ms.ueSram + 1 ∧ u.ms.ueDram = s.ms.ueDram) ∧ Ends { arrive t s with ms := u.ms } u)

/-- The producer's side of a hardware queue (R377). The first push of a packet leaves its header free and belongs to its master,
further ones follow it; COMMIT writes the count of words to the header and makes the packet readable; ABANDON gives the words
back; a forced ABANDON does so for a packet of any master. A push of another master changes nothing; that one to a queue that is off
changes nothing either is the model's choice (notes/assumptions/42). No access is held up. -/
def Sys2Proof.PacketsAreBuiltAndCommitted : Prop :=
  ∀ (t : DT) (m q : Nat) (v : Word) (s : State) (p : QPacket), q < 64 → s.enabled pEH = false → Unhindered t m s → s.hk.corePower = true →
    (∀ i < 32, (s.dma.look i).state ≠ 2 ∧ (s.dma.look i).state ≠ 3) →
    let k := s.queue q
    let gives (r : State) (k' : QueueSt) : State := { r with queues := s.queues.set q k' }
    let r := arrive t s
    (k.on = false → Does (.qPush t m q v) s r) ∧
    (k.on = true → k.openPkt = none → 2 ≤ qFree k → Does (.qPush t m q v) s (gives (r.setWord (qAddr k (k.p + 1)) v.toNat)
      { k with p := k.p + 2, openPkt := some ⟨k.p, 1⟩, owner := ownerOf s m, broken := false })) ∧
    (k.on = true → k.openPkt = none → qFree k < 2 → Does (.qPush t m q v) s (gives r
      { k with p := k.p + min 1 (qFree k), openPkt := some ⟨k.p, 0⟩, owner := ownerOf s m, broken := true })) ∧
    (k.on = true → k.openPkt = some p → k.owner = ownerOf s m → k.broken = false → 0 < qFree k →
      Does (.qPush t m q v) s (gives (r.setWord (qAddr k k.p) v.toNat)
        { k with p := k.p + 1, openPkt := some { p with count := p.count + 1 } })) ∧
    (k.on = true → k.openPkt = some p → k.owner = ownerOf s m → k.broken = false → qFree k = 0 →
      Does (.qPush t m q v) s (gives r { k with broken := true })) ∧
    (k.on = true → k.openPkt = some p → k.owner ≠ ownerOf s m →
      Does (.qPush t m q v) s r ∧ Does (.qCommit t m q) s r ∧ Does (.qAbandon t m q false) s r) ∧
    (k.openPkt = some p → k.owner = ownerOf s m → k.broken = false → k.waits = [] → k.notifyAddr = 0 →
      Does (.qCommit t m q) s (gives (r.setWord (qAddr k p.head) (p.count % 2 ^ 32))
        { k with openPkt := none, owner := 0, packets := k.packets ++ [p] })) ∧
    (k.openPkt = some p → k.owner = ownerOf s m →
      Does (.qAbandon t m q false) s (gives r { k with p := p.head, openPkt := none, broken := false, owner := 0 }) ∧
      (k.broken = true → Does (.qCommit t m q) s (gives r { k with p := p.head, openPkt := none, broken := false, owner := 0 }))) ∧
    (k.openPkt = some p → Does (.qAbandon t m q true) s (gives r { k with p := p.head, openPkt := none, broken := false, owner := 0 }))

/-- The consumer's side (R378, R379). A read of Q_POP takes the next data word of a committed packet, says in the master's
Q_POPSTAT whether it is the packet's last, and sends it; with nothing to read it answers 0 at once, as one of a queue that is off
does, which is the model's choice (notes/assumptions/42), or waits while TIMEOUT lets it, and is answered when the time has passed:
the host and DEBUG by their data, the maintenance port with the status that it kept (R442, R450; here no access is held up behind
it). MARK frees what was read, REWIND reads it again. -/
def Sys2Proof.WordsArePoppedOnce : Prop :=
  ∀ (t : DT) (m q : Nat) (s : State) (p : QPacket) (l : List QPacket), q < 64 → (m < 0x10 ∨ 0x30 ≤ m) → s.hk.corePower = true →
    (∀ i < 32, (s.dma.look i).state ≠ 2 ∧ (s.dma.look i).state ≠ 3) →
    let k := s.queue q
    let r := arrive t s
    let gives (k' : QueueSt) : State := { r with queues := s.queues.set q k' }
    let stat (u : State) : Nat := ownCopy u m F.Q_POPSTAT.adr
    (Unhindered t m s → k.on = true → k.waits = [] → k.packets = p :: l → p.head + 1 ≤ k.r → k.r ≤ p.head + p.count → k.autoMark = false →
      s.poisoned (qAddr k k.r) = false →
      ∃ u, exec (.qPop t m q) s = .next u ∧
        stat u = 2 ^ 63 + (if k.r = p.head + p.count then 2 ^ 62 else 0) + q ∧
        .popped m (BitVec.ofNat 64 (s.word (qAddr k k.r))) true ∈ u.out ∧
        Ends { gives { k with r := k.r + 1 } with snaps := u.snaps, out := u.out } u) ∧
    (Unhindered t m s → k.on = false ∨ (k.timeout = 0 ∧ k.packets = []) → ∃ u, exec (.qPop t m q) s = .next u ∧ stat u = q ∧
      .popped m 0 false ∈ u.out ∧ Ends { r with snaps := u.snaps, out := u.out } u) ∧
    (Unhindered t m s → k.on = true → k.timeout ≠ 0 → k.packets = [] → Does (.qPop t m q) s (gives { k with waits := k.waits ++
      [⟨m, ownerOf s m, (s.time.advance t).dt + BitVec.ofNat 64 (k.timeout * 1000 * 65536)⟩] })) ∧
    (∀ w ws, k.waits = w :: ws → w.master = m → s.accHeld = [] → (∀ x ∈ (s.he.look (m - 1)).reqs, x.waits = false) → 0 ≤ ((s.time.advance t).dt - w.deadline).toInt →
      ∃ u, exec (.qPopTimeout t q) s = .next u ∧ stat u = 2 ^ 61 + q ∧
        ((m = 0 → s.hp.reading = false) → (m = 3 → s.mpWait = none) → (m = 4 → s.jtag.reading = false) → .popped m 0 false ∈ u.out) ∧
        (m = 0 → s.hp.reading = true → .hostReply false 0 ∈ u.out) ∧ (m = 4 → s.jtag.reading = true → .jtag 0 ∈ u.out) ∧
        (∀ st, m = 3 → s.mpWait = some st → ∃ pec, .mpReply st 0 pec ∈ u.out) ∧
        Ends { gives { k with waits := ws } with
          snaps := u.snaps, out := u.out, mpWait := if m = 3 then none else s.mpWait
          hp := { s.hp with reading := s.hp.reading && m != 0 }, jtag := { s.jtag with reading := s.jtag.reading && m != 4 } } u) ∧
    (Unhindered t m s →
      Does (.qMark t m q) s (gives { k with m := k.r, packets := k.packets.filter (fun p => k.r < p.head + 1 + p.count) })) ∧
    (Unhindered t m s → k.waits = [] → Does (.qRewind t m q) s (gives { k with r := k.m }))

/-- DMA rings: posts and completion (R26, R367 to R369). A write to an engine of a block by another master is set aside. A post to a
ring that is not waiting for descriptors only sets its WR. DMA_DONE takes a credit for its status (R374; that the status is a flit which
takes one is the model's reading, notes/assumptions/45), writes DONE, the bytes moved and the DT back to the descriptor, moves RD on,
and the ring waits again. (The core supplies are up, no quadrature latch is due, no step of the engine is under way.)
No access is held up. -/
def Sys2Proof.RingsArePostedAndCompleted : Prop :=
  ∀ (t : DT) (m n k wr : Nat) (s s' : State), n < 16 → k < 2 → wr < 2 ^ 32 → s.hk.corePower = true → QuadQuiet s →
    (s.dma.look (2 * n)).turn = 0 →
    let i := 2 * n + k
    let r := s.dma.look i
    let at_ := r.base + 64 * (r.rd % 2 ^ r.sizeLog2) + 48
    (12 ≤ n → m ≠ 5 → Unhindered t m s → Does (.dmaPost t m n k wr) s (arrive t s) ∧ Does (.dmaRingEnable t m n k) s (arrive t s)) ∧
    ((n < 12 ∨ m = 5) → Unhindered t m s → (∀ j ∈ [2 * n, 2 * n + 1], (s.dma.look j).state = 0 ∨ (s.dma.look j).state = 4 ∨ (s.dma.look j).state = 5) →
      ∃ u, exec (.dmaPost t m n k wr) s = .next u ∧ dmaWr u i = wr ∧
        (∀ b, eventReg b = false → b ≠ (if k = 0 then (F.DM_WR0 n).adr else (F.DM_WR1 n).adr) → u.reg b = s.reg b) ∧
        Ends { arrive t s with regs := u.regs } u) ∧
    (n < 12 → r.state = 2 → r.finish = some 0 → (s.dma.look (2 * n + (1 - k))).state = 0 → inDram at_ = true → inMemory at_ = true →
      at_ % 16 = 0 → descField r 24 8 = 0 → descFlag r 1 = false → descFlag r 3 = false →
      dmaWr s i = (r.rd + 1) % 2 ^ 32 → s.enabled pEH = false → r.paid.look 3 ≠ 1 →
      creditTake (arrive t s) (s.g (F.DM_CFG_CONTEXT n)) = some s' →
      ∃ u, exec (.dmaDone t n k) s = .next u ∧
        u.mem = ((s'.setWord at_ (2 ^ 63 + r.written % 2 ^ 32)).setWord (at_ + 8) (dtCount (s.time.advance t).dt).toNat).mem ∧
        u.ks.poolUse = s.ks.poolUse + 1 ∧
        (u.dma.look i).state = 1 ∧ (u.dma.look i).rd = (r.rd + 1) % 2 ^ 32 ∧ (u.dma.look i).fetched = false)

/-- DMn_CTL (R368, R371, R373, R382), where its check passes and no ring of the engine runs. ENABLE: the ring is IDLE with the base and
the size of its registers. CONTINUE: a HALTED ring whose descriptors are all done is IDLE. DISABLE: the ring is OFF and keeps RD; a
SUSPENDED one first has its descriptor written back as ABORTED, error 3, with the bytes written. ABORT: the same write-back, and the
ring waits for the next descriptor. RESUME retries the step that was stopped: a completion write that is still to be made is made and
the descriptor ends; a fetch that still meets a fault suspends the ring again. Bit 63 of an error's status is a free value, and that the
write-back and the completion write each take a credit is the model's reading (notes/assumptions/45). -/
def Sys2Proof.RingCommandsTakeEffect : Prop :=
  ∀ (t : DT) (n k pass : Nat) (s s' : State) (a : Action), n < 12 → k < 2 → s.hk.corePower = true → (s.dma.look (2 * n)).turn = 0 →
    (s.dma.look (2 * n + (1 - k))).state ∈ [0, 1, 4, 5] → (s.dma.look (2 * n + (1 - k))).waiting = false → s.checks.look pDMA = ⟨some a, []⟩ → a.page = pDMA → a.guarded = none →
    a.idx = n → a.val = k → actionCheck (arrive t s) a pass = 0 →
    let i := 2 * n + k
    let r := s.dma.look i
    let end_ := r.base + 64 * (r.rd % 2 ^ r.sizeLog2)
    let base := s.reg (if k = 0 then (F.DM_BASE0 n).adr else (F.DM_BASE1 n).adr)
    let size := if k = 0 then s.g (F.DM_CFG_SIZE_LOG2_0 n) else s.g (F.DM_CFG_SIZE_LOG2_1 n)
    let off : DmaRing := { (default : DmaRing) with rd := r.rd, turn := r.turn }
    let only (u : State) (r' : DmaRing) : Prop := Ends { arrive t s with
      regs := u.regs, checks := s.checks.set pDMA ⟨none, []⟩, dma := s.dma.set i r' } u ∧
      u.g (F.CHECK_REFUSED pDMA) = 0 ∧ ∀ b, eventReg b = false → b ≠ (F.CHECK pDMA).adr → u.reg b = s.reg b
    let aborted (u : State) : Prop := ∃ d, d < 2 ∧ u.mem = ((s'.setWord (end_ + 48)
      (d * 2 ^ 63 + 2 ^ 62 + 3 * 2 ^ 56 + r.written % 2 ^ 32)).setWord (end_ + 56) (dtCount (s.time.advance t).dt).toNat).mem
    let owes (side a : Nat) : Prop := s.enabled pEH = false ∧ inDram a = true ∧ inMemory a = true ∧ a % 16 = 0 ∧
      r.paid.look side ≠ 1 ∧ creditTake (arrive t s) (s.g (F.DM_CFG_CONTEXT n)) = some s'
    (a.kind = .dmaEnable → r.rd % 2 ^ 32 = dmaWr s i → ∃ u, exec (.checkDone t pDMA pass) s = .next u ∧
      only u { off with base := base, sizeLog2 := size, state := 1 }) ∧
    (a.kind = .dmaContinue → r.rd % 2 ^ 32 = dmaWr s i → ∃ u, exec (.checkDone t pDMA pass) s = .next u ∧
      only u { r with state := 1, fetched := false, desc := [], written := 0, held := [], finish := none, waiting := false, paid := [] }) ∧
    (a.kind = .dmaDisable → r.state ≠ 4 → ∃ u, exec (.checkDone t pDMA pass) s = .next u ∧ only u off) ∧
    (a.kind = .dmaDisable → r.state = 4 → owes 3 (end_ + 48) → descFlag r 1 = false →
      ∃ u, exec (.checkDone t pDMA pass) s = .next u ∧ aborted u ∧ u.dma.look i = off) ∧
    (a.kind = .dmaAbort → owes 3 (end_ + 48) → descFlag r 1 = false → dmaWr s i = (r.rd + 1) % 2 ^ 32 →
      ∃ u, exec (.checkDone t pDMA pass) s = .next u ∧ aborted u ∧ (u.dma.look i).state = 1 ∧
        (u.dma.look i).rd = (r.rd + 1) % 2 ^ 32 ∧ (u.dma.look i).held = [] ∧ (u.dma.look i).fetched = false) ∧
    (a.kind = .dmaResume → r.fetched = true → r.finish = some dmaCpl → r.waiting = false → owes 4 (descField r 24 8) →
      descFlag r 3 = false → dmaWr s i = (r.rd + 1) % 2 ^ 32 →
      ∃ u, exec (.checkDone t pDMA pass) s = .next u ∧
        u.mem = (s'.setWord (descField r 24 8) (descField r 32 8 % 2 ^ 64)).mem ∧
        (u.dma.look i).state = 1 ∧ (u.dma.look i).rd = (r.rd + 1) % 2 ^ 32) ∧
    (∀ kind level, s.enabled pEH = false → a.kind = .dmaResume → r.fetched = false → xlate (arrive t s) end_ = .fault kind level →
      ∃ u, exec (.checkDone t pDMA pass) s = .next u ∧ (u.dma.look i).state = 4 ∧ (u.dma.look i).faultAddr = end_ ∧
        (u.dma.look i).rd = r.rd ∧ (u.dma.look i).fetched = false)

/-- Rings are posted to and their descriptors completed; enable, disable, resume, abort and continue take effect: the parts named hold. -/
def Obligations.DmaRingsPostAndWriteBack : Prop := RingsArePostedAndCompleted ∧ RingCommandsTakeEffect

/-- The delay list keeps DT order, marks and discards late entries, and a tick fires those it reaches: the parts named hold. -/
def Obligations.TheDelayListFiresInOrder : Prop := TheDelayListKeepsDtOrder ∧ ATickFiresTheEntriesDue

/-- Credits return to their context and the pool, quotas bind, and posts to a flow are numbered or refused: the parts named hold. -/
def Obligations.CreditsAndPostsAreCounted : Prop := CreditsReturnAndQuotasBind ∧ PostsAreNumberedInOrder

/-- Invalidations complete in order and clear what they cover; the scrubber counts errors and poisons words: the parts named hold. -/
def Obligations.InvalidationsAndScrubbing : Prop := InvalidationsCompleteInOrder ∧ TheScrubberCountsAndPoisons

/-- A queue builds, commits and abandons packets for one producer, and gives each word once to its consumer: the parts named hold. -/
def Obligations.HardwareQueuesMovePackets : Prop := PacketsAreBuiltAndCommitted ∧ WordsArePoppedOnce

/-! ### Registers and the ways in (chapters 0, 16, 17) -/

/-- Writes by address (R7, R9, R26, R32, R54, R418). A master's write of up to 8 bytes within a word of DRAM stores its bytes,
little-endian, and nothing else. Of a register only the RW bits take the value: the next-cycle registers change and the schedule in force
does not; SG_CFG keeps its value while the governor is enabled; a plain write to LE_AXEN leaves it, and GUARD_STATE shows RESULT 10 with
the master and the offset. (No access held up, no latch due.) -/
def Sys2Proof.AWriteReachesMemoryOrRegister : Prop :=
  ∀ (t : DT) (m a n : Nat) (v : Word) (s : State), m < 65536 → s.hk.corePower = true → QuadQuiet s →
    Unhindered t m s →
    (1 ≤ n → n + a % 8 ≤ 8 → inMemory a = true → inDram a = true → s.poisoned a = false →
      DoesExactly (.registerWrite t m a n v) s { arrive t s with mem := (s.setBytes a v.toNat n).mem }) ∧
    (s.standby = false → Settled s → ∃ u, exec (.registerWrite t m F.CYC_PERIOD_NEXT.adr 8 v) s = .next u ∧
      (∀ f ∈ [F.CYC_PERIOD_NEXT_PERIOD, F.CYC_PERIOD_NEXT_DL_END], u.g f = getBits v.toNat f.lo f.w) ∧
      u.time = s.time.advance t ∧ (∀ b, eventReg b = false → b ≠ F.CYC_PERIOD_NEXT.adr → u.reg b = s.reg b) ∧
      Ends { arrive t s with regs := u.regs, out := u.out } u) ∧
    (s.enabled pSG = true → ∃ u, exec (.registerWrite t m F.SG_CFG_TARGET.adr 8 v) s = .next u ∧
      (∀ b, eventReg b = false → u.reg b = s.reg b) ∧ Ends { arrive t s with regs := u.regs, out := u.out } u) ∧
    (∃ u, exec (.registerWrite t m F.LE_AXEN_AXIS.adr 8 v) s = .next u ∧ u.g (F.GUARD_STATE_RESULT pLE) = 10 ∧
      u.g (F.GUARD_STATE_MASTER pLE) = m ∧ u.reg F.LE_AXEN_AXIS.adr = s.reg F.LE_AXEN_AXIS.adr ∧
      (∀ b, eventReg b = false → b ≠ (F.GUARD_STATE pLE).adr → u.reg b = s.reg b))

/-- Where a ring of the event hub or the trace unit lies over registers (R363), the write waits in `devQ` and is made in a step on an empty
queue of commands (the model's choice of instant, notes/assumptions/42); here it is one of SG_CFG while the governor is off.
No access is held up. -/
def Sys2Proof.ADeviceWriteIsMadeOnAnEmptyQueue : Prop :=
  ∀ (m : Nat) (v : Word) (s : State), s.pending = [] → s.devQ = [⟨m, F.SG_CFG.adr, v⟩] → s.hk.corePower = true → NothingHeldUp s →
    s.enabled pSG = false →
    ∃ u, step s = .next u ∧
      (∀ f ∈ [F.SG_CFG_TARGET, F.SG_CFG_BAND, F.SG_CFG_WINDOW, F.SG_CFG_FREEZE], u.g f = getBits v.toNat f.lo f.w) ∧
      (∀ b, eventReg b = false → b ≠ F.SG_CFG.adr → u.reg b = s.reg b) ∧
      Ends { arriveAt s.time s with regs := u.regs, devQ := [] } u

/-- An access behind a waiting read of its master, behind one that is held up, or, for a write, at the instant of a boundary not yet carried
out, is held behind those held already (R27, R379, R421; notes/assumptions/1 and 42), and nothing else changes. -/
def Sys2Proof.AnAccessHeldUpWaitsInOrder : Prop :=
  ∀ (t : DT) (m a n q sp off : Nat) (v addr : Word) (w : Option (Word × Bool)) (s : State), QuadQuiet s →
    let r := arrive t s
    let held (e : HeldAccess) : State := { r with accHeld := s.accHeld ++ [e] }
    let stands (e : HeldAccess) : Bool := masterWaits s e.master || s.accHeld.any (fun h => h.master = e.master) || (atBoundary r && e.writes)
    (1 ≤ n → n + a % 8 ≤ 8 → stands (.bus m a n v) = true →
      DoesExactly (.registerWrite t m a n v) s (held (.bus m a n v))) ∧
    (stands (.reg m (pQ + 0x800 + 0x20 * (q % 64)) v) = true →
      DoesExactly (.qPush t m q v) s (held (.reg m (pQ + 0x800 + 0x20 * (q % 64)) v))) ∧
    (stands (.pop m (q % 64)) = true → DoesExactly (.qPop t m q) s (held (.pop m (q % 64)))) ∧
    (stands (.host sp off n w) = true → 1 ≤ n → n + off % 8 ≤ 8 → sp < 3 → off < spaceSize sp → s.hp.link = true → s.hp.d3hot = false →
      (w = none → DoesExactly (.hostAccess t sp off n .read) s (held (.host sp off n w))) ∧
      (∀ x p, w = some (x, p) → DoesExactly (.hostAccess t sp off n (.write x false p)) s (held (.host sp off n w)))) ∧
    (stands (.mpWrite addr v) = true → DoesExactly (.mpWrite t ⟨addr, none⟩ v) s (held (.mpWrite addr v))) ∧
    (stands (.mpRead addr) = true → DoesExactly (.mpRead t ⟨addr, none⟩) s (held (.mpRead addr))) ∧
    (∀ x, stands (.jtag sp off x) = true →
      DoesExactly (.jtagDebug t sp off x) s { held (.jtag sp off x) with jtag := { s.jtag with ir := 4 } })

/-- The other ways in reach the same memory (R434, R436, R442, R450): the host through BAR4, while the link is up and the function is in D0;
MP and JTAG's DEBUG by space and offset. A read is answered with the bytes as they stand. While the core supplies are down the access is
not made (R26); a host write that meets the full ingress buffer is discarded whole and counted (R21). That a poisoned TLP poisons its
words and shows at bit 12 of AER, and that an MP message with a wrong PEC is not taken, is the model's reading (notes/assumptions/42).
No access is held up. -/
def Sys2Proof.EveryWayInReachesMemory : Prop :=
  ∀ (t : DT) (off n : Nat) (pec : Option Byte) (v : Word) (s : State), off < 0x400000000 → s.poisoned (dramBase + off) = false →
    QuadQuiet s →
    let d := dramBase + off
    let r := arrive t s
    let stored (k : Nat) : State := { r with mem := (s.setBytes d v.toNat k).mem }
    let word := BitVec.ofNat 64 (s.bytesAt d 8)
    let addr := BitVec.ofNat 64 (2 * 2 ^ 62 + off)
    (Unhindered t 0 s → 1 ≤ n → n + off % 8 ≤ 8 →
      (s.hp.link = true → s.hp.d3hot = false →
        (s.hk.corePower = true → DoesExactly (.hostAccess t 2 off n (.write v false false)) s (stored n) ∧
          DoesExactly (.hostAccess t 2 off n .read) s (r.emit (.hostReply false (BitVec.ofNat 64 (s.bytesAt d n)))) ∧
          (∃ u, exec (.hostAccess t 2 off n (.write v false true)) s = .next u ∧ (s.enabled pEH = false → u.poisoned d = true) ∧
            u.hp.aer = s.hp.aer ||| 2 ^ 12)) ∧
        (s.hk.corePower = false → DoesExactly (.hostAccess t 2 off n (.write v false false)) s (r.emit (.noPower 0)) ∧
          DoesExactly (.hostAccess t 2 off n .read) s (r.emit (.noPower 0))) ∧
        Does (.hostAccess t 2 off n (.write v true false)) s { r with hp := { s.hp with discards := s.hp.discards + 1 } }) ∧
      (s.hp.link = false ∨ s.hp.d3hot = true → DoesExactly (.hostAccess t 2 off n (.write v false false)) s r ∧
        DoesExactly (.hostAccess t 2 off n .read) s r)) ∧
    (Unhindered t 3 s → off % 8 = 0 → mpTaken s 1 [addr, v] pec = true →
      (s.hk.corePower = true → DoesExactly (.mpWrite t ⟨addr, pec⟩ v) s (stored 8)) ∧
      (s.hk.corePower = false → DoesExactly (.mpWrite t ⟨addr, pec⟩ v) s { r with mpStatus := 3 })) ∧
    (Unhindered t 3 s → off % 8 = 0 → mpTaken s 2 [addr] pec = true →
      (s.mpStatus = 0 → s.hk.corePower = true → DoesExactly (.mpRead t ⟨addr, pec⟩) s (mpAnswer r 0 word.toNat)) ∧
      (s.mpStatus = 0 → s.hk.corePower = false → DoesExactly (.mpRead t ⟨addr, pec⟩) s (mpAnswer r 3 0)) ∧
      (s.mpStatus ≠ 0 → s.hk.corePower = true →
        DoesExactly (.mpRead t ⟨addr, pec⟩) s (mpAnswer { r with mpStatus := 0 } s.mpStatus word.toNat))) ∧
    (mpTaken s 1 [addr, v] pec = false → DoesExactly (.mpWrite t ⟨addr, pec⟩ v) s r) ∧
    (mpTaken s 2 [addr] pec = false → DoesExactly (.mpRead t ⟨addr, pec⟩) s r) ∧
    (Unhindered t 4 s → off % 8 = 0 →
      let j : State := { r with jtag := { s.jtag with ir := 4 } }
      (s.hk.corePower = true →
        DoesExactly (.jtagDebug t 2 off (some v)) s { stored 8 with jtag := { s.jtag with ir := 4 } } ∧
        DoesExactly (.jtagDebug t 2 off none) s (j.emit (.jtag word))) ∧
      (s.hk.corePower = false → ∀ x, DoesExactly (.jtagDebug t 2 off x) s (j.emit (.noPower 4))))

/-- A register-access datagram (R438 to R441) of 64 to 1,536 bytes for the port's address and UDP port is carried out in order and answered
with MAGIC, VERSION 0x81, OPS and SEQ, and for each operation OP, STATUS, SPACE, OFFSET and VALUE; the reply is kept for its source. After
an operation whose OFFSET is no multiple of 8 the rest is NOT_DONE. One with a wrong MAGIC is discarded, one for another address not
taken. (No request waits.) -/
def Sys2Proof.ARegisterAccessDatagramIsAnswered : Prop :=
  ∀ (t : DT) (off p ip port seq pass size magic target : Nat) (v : Word) (s : State), off < 0x400000000 → p < 2 →
    s.poisoned (dramBase + off) = false → QuadQuiet s → 64 ≤ size → size ≤ 1536 → s.enabled (pHE p) = true →
    (s.he.look p).link = true → s.gb (F.HE_RACFG_EN p) = true → (s.he.look p).reqs = [] → (s.he.look p).replies = [] →
    atBoundary (arrive t s) = false →
    let r := arrive t s
    let d := dramBase + off
    let head (count : Nat) : Nat := 0xEC51 + 0x81 * 2 ^ 16 + count * 2 ^ 24 + seq * 2 ^ 32
    let word (op status : Nat) : Nat := op + status * 2 ^ 8 + 2 * 2 ^ 16 + off * 2 ^ 18
    let request (target magic : Nat) : Instr := .registerAccessRequest t ⟨p, false, size⟩ ip port target (s.g (F.HE_RACFG_PORT p)) magic 1 2 seq pass
      [(1, 2, off, 0), (2, 2, off, v)]
    let answered (u : State) (l : List (Nat × Nat)) : Prop := .raReply p ip port (head 2) l ∈ u.out ∧ (u.he.look p).replies = [⟨ip, port, seq, l⟩]
    (off % 8 = 0 → s.hk.corePower = true → ∃ u, exec (request (s.g (F.HE_IP_IP p)) 0xEC51) s = .next u ∧
      answered u [(word 1 0, s.bytesAt d 8), (word 2 0, v.toNat)] ∧
      Ends { r with mem := (s.setBytes d v.toNat 8).mem, he := u.he, out := u.out } u) ∧
    (off % 8 ≠ 0 → ∃ u, exec (request (s.g (F.HE_IP_IP p)) 0xEC51) s = .next u ∧
      answered u [(word 1 2, 0), (word 2 3, 0)] ∧ Ends { r with he := u.he, out := u.out } u) ∧
    (magic ≠ 0xEC51 → Does (request (s.g (F.HE_IP_IP p)) magic) s r) ∧
    (target ≠ s.g (F.HE_IP_IP p) → Does (request target 0xEC51) s r)

/-- The host's link (R433, R435, R437, R438, R452). PERST, a hot reset, a Function Level Reset, D3hot and a lost link each reset HP
alone: the configuration space returns to its reset values, Bus Master Enable among them, and so does the MSI-X table, and pending
messages go; that the other registers of the HP page keep their values is the model's choice (notes/assumptions/42). A link that comes
up shows its width and rate, which are those of Table 17.1; the host sets Bus Master Enable and MSI-X (notes/assumptions/5) and D0. An
Ethernet port's link is seen only while the port is enabled, and an ARP request of 64 to 1,536 bytes for its address is answered with
its MAC address; a frame that meets the port's full buffer is discarded and counted (R21). -/
def Sys2Proof.HostLinksComeAndGo : Prop :=
  ∀ (t : DT) (w sp n who ip size : Nat) (cfg : HpConfig) (d0 : Bool) (s : State), n < 2 → 64 ≤ size → size ≤ 1536 →
    let r := arrive t s
    let cleared (h : HpSt) : State := { r with
      regs := s.regs.filter (fun e => !(decide (pHP + 0x800 ≤ e.1) && decide (e.1 < pHP + 0xC00))), hp := h }
    let bare : HpSt := { s.hp with busMaster := false, msixOn := false, msixMask := false, aer := 0, msixPending := [] }
    let down : HpSt := { bare with d3hot := false, link := false, width := 0, speed := 0 }
    (s.hp.link = true → Does (.perst t) s (cleared down) ∧ Does (.hpLinkDown t) s (cleared down) ∧
      Does (.hotReset t) s (cleared { bare with d3hot := false }) ∧
      Does (.functionLevelReset t) s (cleared { bare with d3hot := false }) ∧
      Does (.d3hotEntry t) s (cleared { bare with d3hot := true })) ∧
    (s.hp.link = false → Does (.hpLinkDown t) s r ∧ Does (.d3hotEntry t) s r ∧ Does (.configSpaceWrite t cfg d0) s r) ∧
    (s.hp.link = false → s.enabled pEH = false → s.hp.msixPending = [] →
      (w ∈ [1, 2, 4, 8] → sp ∈ [1, 2, 3, 4] →
        Does (.hpLinkUp t w sp) s { r with hp := { s.hp with link := true, width := w, speed := sp } }) ∧
      (w ∉ [1, 2, 4, 8] ∨ sp ∉ [1, 2, 3, 4] → Does (.hpLinkUp t w sp) s r)) ∧
    (s.hp.link = true → s.hp.msixPending = [] →
      Does (.configSpaceWrite t cfg d0) s { r with hp := { s.hp with
        busMaster := cfg.busMaster, msixOn := cfg.msixOn, msixMask := cfg.msixMask, d3hot := s.hp.d3hot && !d0 } }) ∧
    (s.enabled (pHE n) = true → (s.he.look n).link = false → (s.he.look n).noClock = false →
      Does (.heLinkUp t n) s { r with he := s.he.set n { s.he.look n with link := true } }) ∧
    (s.enabled (pHE n) = false → Does (.heLinkUp t n) s r) ∧
    ((s.he.look n).link = true → Does (.heLinkDown t n) s { r with he := s.he.set n { s.he.look n with link := false } }) ∧
    (s.enabled (pHE n) = true → (s.he.look n).link = true →
      Does (.arpRequest t ⟨n, false, size⟩ who (s.g (F.HE_IP_IP n))) s (r.emit (.arpReply n who (s.g (F.HE_LINKCFG_MAC n)))) ∧
      (ip ≠ s.g (F.HE_IP_IP n) → Does (.arpRequest t ⟨n, false, size⟩ who ip) s r) ∧
      Does (.arpRequest t ⟨n, true, size⟩ who ip) s
        { r with he := s.he.set n { s.he.look n with discards := (s.he.look n).discards + 1 } })

/-- The JTAG port (R450): IDCODE answers 0x1E51_2C3D; SAMPLE/PRELOAD answers the pins and keeps what EXTEST will drive; EXTEST
drives those values in minimal mode or on a stopped SINGLE unit, as long as that is so, and drives nothing otherwise, as BYPASS. The
numbers 0 to 4 by which the model names the instructions are its own. -/
def Sys2Proof.JtagAnswersAndDrives : Prop :=
  ∀ (t : DT) (pins v : Word) (s : State),
    let r := arrive t s
    let ir (k : Nat) (b : Word) : State := { r with jtag := { s.jtag with ir := k, boundary := b } }
    DoesExactly (.jtagBypass t) s (ir 0 s.jtag.boundary) ∧
    DoesExactly (.jtagIdcode t) s ((ir 1 s.jtag.boundary).emit (.jtag 0x1E512C3D)) ∧
    DoesExactly (.samplePreload t pins v) s ((ir 2 v).emit (.jtag pins)) ∧
    (∃ u, exec (.extest t) s = .next u ∧ Ends (ir 3 s.jtag.boundary) u ∧
      (s.hk.minimal = true ∨ (s.time.running = false ∧ s.tw.role = 0) → Settled s → extestDrives u = some s.jtag.boundary) ∧
      (s.hk.minimal = false → s.time.running = true ∨ s.tw.role ≠ 0 → Settled s → extestDrives u = none)) ∧
    (extestDrives s = none ∨ extestDrives s = some s.jtag.boundary) ∧ (s.jtag.ir ≠ 3 → extestDrives s = none)

/-! ### The event hub (chapter 16) -/

/-- A record goes to the ring of its queue (R428): with room for it WR moves on by its slots and nothing is lost; without room, or
with the queue off, it is lost and counted, and the DT of the first loss is kept. -/
def Sys2Proof.ARecordIsWrittenOrCounted : Prop :=
  ∀ (s : State) (q : Nat) (dt : DT) (l : Slots), q < 16 →
    let e := s.eh.look q
    let wr := s.g (F.EH_QWR_COUNT q)
    let used := (wr + 2 ^ 32 - s.g (F.EH_QRD_COUNT q)) % 2 ^ 32
    (s.enabled pEH = false ∨ s.gb (F.EH_QCFG_EN q) = false →
      (emitRecord s q dt l).eh.look q = { e with
        lostCount := min (2 ^ 32 - 1) (e.lostCount + 1), lostFirst := if e.lostCount = 0 then dt else e.lostFirst }) ∧
    (s.enabled pEH = true → s.gb (F.EH_QCFG_EN q) = true → e.lostCount = 0 → ringFault s q l.length = none →
      s.gb (F.EH_QSTATE_ARMED q) = false → wr % ringSlots s q + l.length ≤ ringSlots s q →
      (used + l.length + 1 ≤ ringSlots s q → (emitRecord s q dt l).g (F.EH_QWR_COUNT q) = (wr + l.length) % 2 ^ 32 ∧
        (emitRecord s q dt l).eh.look q = e) ∧
      (ringSlots s q < used + l.length + 1 → (emitRecord s q dt l).g (F.EH_QWR_COUNT q) = wr ∧
        ((emitRecord s q dt l).eh.look q).lostCount = 1 ∧ ((emitRecord s q dt l).eh.look q).lostFirst = dt))

/-- The queues' registers (R26, R429, R431, R432, R435). Setting EN runs the check and clearing it takes effect at once, each group still
open lost; a write of RD arms the queue, and a queue that is not empty fires its vector; an unmasked vector that is pending is
sent; a group whose window has passed is closed, one whose window has not stays open. While the core supplies are down no write is
made. That MSI-X Enable and Function Mask of the configuration space gate the messages is taken from PCI Express
(notes/assumptions/5). No access is held up. -/
def Sys2Proof.QueuesAreArmedAndFire : Prop :=
  ∀ (t : DT) (m q k : Nat) (v : Word) (s : State), q < 16 → k < 64 →
    let r := arrive t s
    (Unhindered t m s → s.hk.corePower = true → s.gb (F.EH_QCFG_EN q) = false → (s.checks.look pEH).running = none → standbyRefuses s m (F.EH_QCFG_EN q).adr = false →
      ∃ u, exec (.ehQueueEnable t m q v) s = .next u ∧ u.gb (F.EH_QCFG_EN q) = false ∧ u.g (F.CHECK_BUSY pEH) = 1 ∧
        (u.checks.look pEH).running =
          some ⟨.ehQueueEnable, pEH, q, setBits v.toNat 63 1 1, m, none, (s.time.advance t).dt⟩ ∧
        Ends { r with regs := u.regs, checks := u.checks, out := u.out } u) ∧
    (Unhindered t m s → s.hk.corePower = true → s.gb (F.EH_QCFG_EN q) = true → (s.checks.look pEH).running = none → (s.eh.look q).groups = [] → standbyRefuses s m (F.EH_QCFG_EN q).adr = false →
      ∃ u, exec (.ehQueueDisable t m q v) s = .next u ∧ u.gb (F.EH_QCFG_EN q) = false ∧
        (∀ b, eventReg b = false → b ≠ (F.EH_QCFG_EN q).adr → u.reg b = s.reg b) ∧
        Ends { r with regs := u.regs, out := u.out } u) ∧
    (s.hk.corePower = false → DoesExactly (.ehRdWrite t q v) s r) ∧
    (s.hk.corePower = true → s.g (F.EH_QWR_COUNT q) = v.toNat % 2 ^ 32 →
      DoesExactly (.ehRdWrite t q v) s ((r.put (F.EH_QRD_COUNT q) v.toNat).put (F.EH_QSTATE_ARMED q) 1)) ∧
    (s.hk.corePower = true → s.g (F.EH_QWR_COUNT q) ≠ v.toNat % 2 ^ 32 → s.gb (F.EH_QCFG_CTX_EN q) = false →
      msixMasked s (s.g (F.EH_QCFG_VECTOR q)) = false → s.hpReach = true → s.enabled pEH = true →
      ∃ u, exec (.ehRdWrite t q v) s = .next u ∧ .msix (s.g (F.EH_QCFG_VECTOR q)) ∈ u.out ∧ u.g (F.EH_QRD_COUNT q) = v.toNat % 2 ^ 32) ∧
    (Unhindered t 0 s → s.hk.corePower = true → nsHas s.hp.msixPending k = false → DoesExactly (.msixUnmask t k) s
      (r.setReg (pHP + 0x808 + 16 * k) (setBits (s.reg (pHP + 0x808 + 16 * k)) 32 1 0))) ∧
    (Unhindered t 0 s → s.hk.corePower = true → nsHas s.hp.msixPending k = true → s.hpReach = true → s.hp.msixOn = true →
      s.hp.msixMask = false → ∃ u, exec (.msixUnmask t k) s = .next u ∧ .msix k ∈ u.out ∧
      msixMasked u k = false) ∧
    (∀ g, (s.eh.look q).groups = [g] → s.enabled pEH = true → s.gb (F.EH_QCFG_EN q) = true →
      (((s.time.advance t).dt - (g.first + BitVec.ofNat 64 (s.g (F.EH_QCFG_WINDOW q) * 1000 * 65536))).toInt < 0 →
        DoesExactly (.groupClose t q) s r) ∧
      (0 ≤ ((s.time.advance t).dt - (g.first + BitVec.ofNat 64 (s.g (F.EH_QCFG_WINDOW q) * 1000 * 65536))).toInt →
        ∀ x, x = emitRecord { r with eh := s.eh.set q { s.eh.look q with groups := [] } } q g.first (groupRecord g) →
          DoesExactly (.groupClose t q) s x))

/-- Writes by address reach memory or the RW bits of a register, through the bus, the device's own blocks, the host, MP, JTAG and
Ethernet, and wait in order where they are held up: the parts named hold. -/
def Obligations.WritesReachMemoryOrRegister : Prop :=
  AWriteReachesMemoryOrRegister ∧ ADeviceWriteIsMadeOnAnEmptyQueue ∧ AnAccessHeldUpWaitsInOrder ∧ EveryWayInReachesMemory ∧
    ARegisterAccessDatagramIsAnswered

/-- A record is written to its ring or counted as lost; queues are enabled, armed and fire their vectors: the parts named hold. -/
def Obligations.EventQueuesRecordAndFire : Prop := ARecordIsWrittenOrCounted ∧ QueuesAreArmedAndFire

/-- Resets and link changes of the host port touch it alone; the Ethernet links; the JTAG instructions: the parts named hold. -/
def Obligations.HostLinksAndJtag : Prop := HostLinksComeAndGo ∧ JtagAnswersAndDrives

/-! ### Device time, PTP and the time inputs (chapter 3) -/

/-- The reference and the correction registers (R26, R64, R68): a loss is held until the reference returns and stands as cause 4 of
Table 15.5; every PLL derives from the reference, so that while it is lost the PLLs of the ports, of the party wall, of the Ethernet
ports and of the two clocks are not locked (the model's reading of R15, notes/assumptions/33). TU_TSCORRn takes the value written, and
the value it replaces stays in force for frames already under way; while the core supplies are down it is not written. -/
def Sys2Proof.ReferenceAndCorrectionsAreKept : Prop :=
  ∀ (t : DT) (n : Nat) (v : Word) (s : State), n < 10 →
    let r := arrive t s
    let locked (b : Bool) (standing : List Nat) (u : State) : Prop :=
      (∀ p < 8, u.port p = { s.port p with noClock := b }) ∧ (∀ n < 2, u.he.look n = { s.he.look n with noClock := b }) ∧
      Ends { r with
        tu := { r.tu with refLost := b, unlocked := b }, fb := { s.fb with noSampling := b }, fp := u.fp, he := u.he
        tw := { s.tw with noClock := b, standing := standing } } u
    (s.tu.refLost = false → (∃ u, exec (.refLost t) s = .next u ∧ locked true (nsAdd s.tw.standing 4) u) ∧
      Does (.refRestored t) s r) ∧
    (s.tu.refLost = true → Does (.refLost t) s r ∧ ∃ u, exec (.refRestored t) s = .next u ∧ locked false s.tw.standing u) ∧
    (s.hk.corePower = false → Does (.tscorrWrite t n v) s r) ∧
    (s.hk.corePower = true → ∃ u, exec (.tscorrWrite t n v) s = .next u ∧ u.reg (F.TU_TSCORR n).adr = v.toNat ∧
      ((u.tu.corrOld.look n).getLast? = some ((s.time.advance t).dt, s.g (F.TU_TSCORR_INGRESS n))) ∧
      (∀ b, eventReg b = false → b ≠ (F.TU_TSCORR n).adr → u.reg b = s.reg b) ∧
      Ends { r with regs := u.regs, tu := { r.tu with corrOld := u.tu.corrOld } } u)

/-- The inputs and outputs of time (R81 to R83). An edge on PPS_IN is captured, and PPS_PRESENT needs edges a second apart within
1 ms; without one for 1.001 s it clears. REF10_IN is present within 200 ppm. PPS_OUT, on device time, pulses once at each whole
second that lies after the page's ENABLE. With the page's ENABLE clear each of them does nothing, and while FREE the error of an edge
reads 0 and passes its test: both are the model's choice (notes/assumptions/37). -/
def Sys2Proof.PpsAndRef10AreMeasured : Prop :=
  ∀ (t : DT) (rate : Int) (s : State),
    let r := arrive t s
    let now := (s.time.advance t).dt
    let gap := (now - BitVec.ofNat 64 (s.reg F.TU_PPS_IN_DT.adr)).toInt
    let edge := (dtCount now - BitVec.ofNat 64 (s.reg F.TU_PPS_IN_DT.adr)).toInt
    (s.enabled pTU = false → Does (.ppsInEdge t) s r ∧ Does (.ref10Gate t rate) s r ∧ Does (.ppsOutPulse t) s r) ∧
    (s.enabled pTU = true → s.gb F.TU_REF_CFG_PPS_IN_EN = true → r.tu.tstate = 0 →
      ∃ u, exec (.ppsInEdge t) s = .next u ∧ u.reg F.TU_PPS_IN_DT.adr = (dtCount now).toNat ∧ u.g F.TU_REFIN_MEAS_PPS_ERR = 0 ∧
        u.tu = { r.tu with
          ppsInSeen := true
          ppsPresent := s.tu.ppsInSeen && decide (-(1000000 * 65536) ≤ edge - 65536000000000 ∧ edge - 65536000000000 ≤ 1000000 * 65536)
          ppsInError := false } ∧
        (∀ b, eventReg b = false → b ≠ F.TU_PPS_IN_DT.adr → b ≠ F.TU_REFIN_MEAS_PPS_ERR.adr → u.reg b = s.reg b) ∧
        Ends { r with regs := u.regs, tu := u.tu } u) ∧
    (s.tu.ppsInSeen = true →
      (65601536000000 < gap → Does (.ppsPresentTimeout t) s { r with tu := { r.tu with ppsPresent := false } }) ∧
      (gap ≤ 65601536000000 → Does (.ppsPresentTimeout t) s r)) ∧
    (s.enabled pTU = true → s.gb F.TU_REF_CFG_REF10_IN_EN = true → -(2 ^ 31) ≤ rate → rate < 2 ^ 31 →
      r.tu.tstate ≠ 3 ∨ s.gb F.PTP_SEL_HOLD_REF = false →
      ∃ u, exec (.ref10Gate t rate) s = .next u ∧ toS 32 (u.g F.TU_REFIN_MEAS_REF10_RATE) = rate ∧
        u.tu = { r.tu with ref10Present := decide (-51200000 ≤ rate ∧ rate ≤ 51200000) } ∧
        Ends { r with regs := u.regs, tu := u.tu } u) ∧
    (let d := now - BitVec.ofNat 64 (now.toNat % 65536000000000)
     s.enabled pTU = true → s.gb F.TU_REF_CFG_PPS_OUT_EN = true → s.gb F.TU_REF_CFG_PPS_OUT_SRC = true → s.tu.ppsLast = none →
      0 ≤ (d - r.tu.onAt).toInt →
      ∃ u, exec (.ppsOutPulse t) s = .next u ∧ u.tu.ppsLast = some d ∧
        .pulse 8 d (s.g F.TU_REF_CFG_PPS_WIDTH * 1000000) ∈ u.out ∧ Ends { r with tu := u.tu, out := u.out } u)

/-- Only slot `n` takes messages of HE port `he`, `domain`, `profile` and `transport` (R71). -/
def Sys2Proof.Takes (s : State) (n he domain profile transport : Nat) : Prop :=
  n < 2 ∧ he < 2 ∧ slotTakes s n he domain profile transport = true ∧ slotTakes s (1 - n) he domain profile transport = false

/-- The messages of a domain slot (R70 to R72, R76). A Sync of the chosen master leaves its time and its ingress stamp; once the
delay is known each gives an offset measurement, the newest first. A Delay_Resp and a Pdelay_Resp complete the delay
measurement that awaits them, a Delay_Resp only after a Sync of its master. Requests leave with their egress stamp, and a
Pdelay_Req is answered with its ingress stamp and the egress stamp of the response (R67, R70). A message that no slot takes does
nothing, and so does one of fewer than 64 or more than 1,536 bytes, or at a port that is off or whose link is down (R438); one that
meets the port's full buffer is discarded whole and counted (R21). The streams have been told the time state and the selection that
stand (R262). -/
def Sys2Proof.PtpMessagesReachTheirSlot : Prop :=
  ∀ (t : DT) (n he domain profile transport src size : Nat) (origin corr log rx t2 t3 : Int) (capture : DT) (s : State),
    let r := arrive t s
    let port : HeIn := ⟨he, false, size⟩
    let open_ := s.enabled (pHE he) = true ∧ (s.he.look he).link = true ∧ 64 ≤ size ∧ size ≤ 1536
    let d := r.dom n
    let stamp := heIngress r he capture
    let measured (v : Int) : State := r.onDom n (fun d => { d with delay := v, delayOk := true, reqOut := none })
    let answer : List Out := [.ptp he n 2 (heIngress r he capture), .ptp he n 3 (heEgress r he (s.time.advance t).dt)]
    let request : List Out := [.ptp he n (if s.gb (F.PTP_DOM_CFG_PROFILE n) then 1 else 0) 0]
    r.ae.told = (r.tu.tstate, r.tu.selected) →
    (open_ → Takes s n he domain profile transport → s.g (F.PTP_DOM_CFG_PORT n) = he →
      (-7 ≤ log → log ≤ 1 → 2 ≤ d.state → d.src = src → d.delayOk = false →
        Does (.syncReceived t port domain profile transport src origin corr capture log) s (r.onDom n (fun d => { d with
          syncOrigin := origin + corr, syncIn := stamp, syncSeen := true, syncAt := (s.time.advance t).dt, syncLog := log }))) ∧
      (-7 ≤ log → log ≤ 1 → d.state = 2 → d.src = src → d.delayOk = true → d.valid + 1 < s.g (F.PTP_DOM_CFG_QUAL n) →
        r.tu.tstate = 0 → r.tu.selected = none → (r.dom (1 - n)).state ≠ 3 →
        ∃ u, exec (.syncReceived t port domain profile transport src origin corr capture log) s = .next u ∧
          (u.dom n).state = 2 ∧ (u.dom n).valid = min 15 (d.valid + 1) ∧
          (u.dom n).hist.head? = some (stamp, origin + corr + d.delay - extDt r stamp) ∧ u.dom (1 - n) = r.dom (1 - n) ∧
          Ends { r with tu := u.tu } u) ∧
      (d.state < 2 ∨ d.src ≠ src ∨ log < -7 ∨ 1 < log →
        Does (.syncReceived t port domain profile transport src origin corr capture log) s r) ∧
      (∀ q, d.reqOut = some q → 2 ≤ d.state → d.src = src → d.syncSeen = true → s.gb (F.PTP_DOM_CFG_PROFILE n) = false →
        Does (.delayRespReceived t port domain profile transport src rx) s
          (measured ((extDt r d.syncIn - d.syncOrigin + (rx - extDt r q)) / 2))) ∧
      (d.reqOut = none ∨ d.src ≠ src ∨ d.syncSeen = false →
        Does (.delayRespReceived t port domain profile transport src rx) s r)) ∧
    (n < 2 → he < 2 → open_ → s.enabled pPTP = true → d.state ≠ 0 → s.g (F.PTP_DOM_CFG_PORT n) = he →
      (s.gb (F.PTP_DOM_CFG_PROFILE n) = true → (r.dom (1 - n)).state = 0 → s.g (F.PTP_DOM_CFG_DOMAIN n) = domain →
        Does (.pdelayReqReceived t { port with domain := domain, capture := capture }) s { r with out := answer } ∧
        (∀ q, d.reqOut = some q → Does (.pdelayRespReceived t { port with domain := domain } t2 t3 capture) s
          (measured ((extDt r stamp - extDt r q - (t3 - t2)) / 2)))) ∧
      (s.gb (F.PTP_DOM_CFG_PROFILE n) = true ∨ 2 ≤ d.state → Does (.delayReqSend t n) s
        ({ r with out := request, tu :=
          (r.onDom n (fun d => { d with reqOut := some (heEgress r he (s.time.advance t).dt) })).tu }))) ∧
    (s.enabled pPTP = false → he < 2 → n < 2 → Does (.pdelayReqReceived t { port with domain := domain, capture := capture }) s r ∧ Does (.delayReqSend t n) s r ∧
      Does (.pdelayRespReceived t { port with domain := domain } t2 t3 capture) s r ∧
      Does (.announceMsgReceived t port domain profile transport src 0 [] 0 log) s r) ∧
    (he < 2 → ¬ open_ →
      ∀ c ∈ [Instr.syncReceived t port domain profile transport src origin corr capture log,
        .delayRespReceived t port domain profile transport src rx, .pdelayReqReceived t { port with domain := domain, capture := capture },
        .pdelayRespReceived t { port with domain := domain } t2 t3 capture, .announceMsgReceived t port domain profile transport src 0 [] 0 log],
        Does c s r) ∧
    (he < 2 → open_ →
      ∀ c ∈ [Instr.syncReceived t { port with full := true } domain profile transport src origin corr capture log,
        .delayRespReceived t { port with full := true } domain profile transport src rx, .pdelayReqReceived t { port with full := true, domain := domain, capture := capture },
        .pdelayRespReceived t { port with full := true, domain := domain } t2 t3 capture, .announceMsgReceived t { port with full := true } domain profile transport src 0 [] 0 log],
        Does c s { r with he := s.he.set he { s.he.look he with discards := (s.he.look he).discards + 1 } })

/-- The states of a slot (R71, R72, R77 to R79, Table 3.4). Two Announces of a master within four of its intervals qualify it, which the
model takes from IEEE 1588 (notes/assumptions/12), and take a slot from LISTENING to UNCALIBRATED; four
Sync intervals without a valid Sync, or three Announce intervals without an Announce, take it back to LISTENING, and sooner
nothing does; REARM frees a DEMOTED slot, where the core supplies are up (R26); each second of DT, and no sooner, the slot's measurements are averaged and begin anew.
The streams have been told the time state and the selection that stand (R262). -/
def Sys2Proof.SlotsListenCalibrateAndFallBack : Prop :=
  ∀ (t : DT) (n he domain profile transport src gm size : Nat) (rank : List Nat) (utc log : Int) (s : State), n < 2 →
    let r := arrive t s
    let d := r.dom n
    let now := (s.time.advance t).dt
    let other := r.tu.selected = some (1 - n) ∧ (r.dom (1 - n)).state = 3
    let port : HeIn := ⟨he, false, size⟩
    let open_ := s.enabled (pHE he) = true ∧ (s.he.look he).link = true ∧ 64 ≤ size ∧ size ≤ 1536
    let listening : State := r.onDom n (fun d => { d with
      state := 1, gm := 0, src := 0, masters := [], valid := 0, delayOk := false, syncSeen := false, clean := 0 })
    r.ae.told = (r.tu.tstate, r.tu.selected) →
    (open_ → Takes s n he domain profile transport → -3 ≤ log → log ≤ 3 → d.masters = [] →
      Does (.announceMsgReceived t port domain profile transport src gm rank utc log) s
        (r.onDom n (fun d => { d with masters := [⟨src, rank, gm, utc, log, 1, now⟩] }))) ∧
    (∀ m, open_ → Takes s n he domain profile transport → -3 ≤ log → log ≤ 3 → d.masters = [m] → m.src = src → 1 ≤ m.seen →
      (now - m.last).toInt ≤ 4 * logSpan log → d.state = 1 →
      ∃ u, exec (.announceMsgReceived t port domain profile transport src gm rank utc log) s = .next u ∧
        (u.dom n).state = 2 ∧ (u.dom n).src = src ∧ (u.dom n).gm = gm ∧ (u.dom n).utc = utc ∧ (u.dom n).valid = 0 ∧
        u.dom (1 - n) = r.dom (1 - n) ∧ Ends { r with tu := u.tu } u) ∧
    (s.enabled pPTP = true → other →
      (d.state = 2 ∨ d.state = 3 → 4 * logSpan d.syncLog ≤ (now - d.syncAt).toInt → Does (.syncReceiptTimeout t n) s listening) ∧
      ((now - d.syncAt).toInt < 4 * logSpan d.syncLog → Does (.syncReceiptTimeout t n) s r) ∧
      (∀ m, d.masters = [m] → m.src = d.src →
        (d.state = 2 ∨ d.state = 3 → 3 * logSpan d.annLog ≤ (now - m.last).toInt →
          Does (.announceReceiptTimeout t n) s listening) ∧
        ((now - m.last).toInt < 3 * logSpan d.annLog → Does (.announceReceiptTimeout t n) s r))) ∧
    (d.state = 4 → s.hk.corePower = true → Does (.rearm t n) s (r.onDom n (fun d => { d with state := 2, valid := 0, clean := 0 }))) ∧
    (d.state ≠ 4 ∨ s.hk.corePower = false → Does (.rearm t n) s r) ∧
    (r.tu.tstate = 0 → s.enabled pPTP = false → Does (.rateEvaluation t) s r) ∧
    (r.tu.tstate = 0 → (now - r.tu.evalAt).toInt < 65536000000000 → Does (.rateEvaluation t) s r) ∧
    (s.enabled pPTP = true → 65536000000000 ≤ (now - r.tu.evalAt).toInt → ∃ u, exec (.rateEvaluation t) s = .next u ∧
      (u.dom n).secCount = 0 ∧ (u.dom n).secSum = 0 ∧ u.tu.evalAt = now ∧
      (u.dom n).secs = ((if d.secCount = 0 then none else some (d.secSum / (d.secCount : Int))) :: d.secs).take 65)

/-- The reference, the correction registers, PPS_IN, REF10_IN and PPS_OUT: the parts named hold. -/
def Obligations.TimeInputsAreMeasured : Prop := ReferenceAndCorrectionsAreKept ∧ PpsAndRef10AreMeasured

/-- PTP messages reach the slot that takes them, and a slot calibrates, times out and is re-armed by its table: the parts named hold. -/
def Obligations.PtpSlotsMeasureAndFallBack : Prop := PtpMessagesReachTheirSlot ∧ SlotsListenCalibrateAndFallBack

/-! ### Position feedback and the quadrature channels (chapter 4) -/

/-- FB_LOST and SETTLED (R109, R114) come where they are due: FB_STATUS shows the loss, and an enabled axis without a fault
enters the fault state with cause 2, its feedback staying active. The block acts on FB_STATUS as it stands, whoever wrote it last
(R7). Not due, or not active, the command does nothing. A STOP ends the updates of an active axis at the next T0 and takes back a START
(R88). No quadrature channel has anything due, and the core supplies are up (R26). No access is held up. -/
def Obligations.FeedbackIsLostSettledAndStopped : Prop :=
  ∀ (t : DT) (m a : Nat) (s : State), a < 512 → QuadQuiet s →
    let f := s.fbAx a
    let read := fbSync (arrive t s) a
    let settled := s.axb a F.FB_STATUS_SETTLED
    let gone := fbPutStatus (read.onFb a (fun f => { f with lost := true, lossDue := false })) a
    (f.active = false ∨ f.lossDue = false → Does (.fbLost t a) s (arrive t s)) ∧
    (f.active = true → f.lossDue = true → axisEnabled s a = false → Does (.fbLost t a) s gone) ∧
    (f.active = true → f.lossDue = true → axisEnabled s a = true → axisFaulted s a = false → s.enabled pEH = false →
      ∃ u, exec (.fbLost t a) s = .next u ∧ axisFaulted u a = true ∧ u.ax a F.AX_STATUS_CAUSE = 2 ∧
        u.axb a F.AX_STATUS_FAULT = true ∧ (u.fbAx a).lost = true ∧ (u.fbAx a).active = true ∧
        (∀ b, eventReg b = false → b ≠ (F.LE_FAULTMAP (a / 64)).adr → u.reg b = s.reg b) ∧
        (∀ b, b / 8 ≠ (axisBase a + F.FB_STATUS.adr) / 8 → b / 8 ≠ (axisBase a + F.AX_STATUS_FAULT.adr) / 8 →
          u.byte b = s.byte b) ∧
        Ends { gone with regs := u.regs, mem := u.mem, poison := u.poison } u) ∧
    (f.active = true → settled = false → f.restart = false → f.settleAt ≠ 0 → f.settleAt ≤ f.nmeas →
      Does (.settled t a) s (fbPutStatus (read.onFb a (fun f => { f with settled := true })) a)) ∧
    ((f.active = false ∨ settled = true ∨ f.restart = true ∨ f.settleAt = 0 ∨ f.nmeas < f.settleAt) →
      Does (.settled t a) s (arrive t s)) ∧
    ((s.checks.look pFBE).running = none → Unhindered t m s → s.standby = false → s.hk.corePower = true →
      Does (.feedbackStop t m a) s ((arrive t s).onFb a (fun f => { f with pendStart := none, pendStop := f.active })))

/-- The place of the levels A and B in a forward turn of a quadrature signal: A leads B. -/
def Sys2Proof.quadPlace (a b : Bool) : Nat := if a then (if b then 2 else 1) else if b then 3 else 0

/-- A channel of the QE page. Its enable runs its check, with the other fields of QE_CFGn written (R120). Three samples at one
level, 2.5 ns apart, confirm it, and an edge is dated by the first of them less 3 ns; samples that differ leave the level (R92). A confirmed edge
of an unguarded channel with MODE 0 counts one step of the quadrature turn up or down; where both levels change it is illegal,
counted and told, and the count stays (R93, R96). With the channel off only the levels follow. The trip of a guarded channel
comes when its faults reach FAULT_LIMIT (R98), the end of the guarded phase after CLEAN_CYCLES (R99); INJECT, CLR_FAULTS and
REGUARD are taken up at the next T0 (the core supplies are up, R26). No access is held up. -/
def Obligations.QuadratureChannelsCountGuardAndTrip : Prop :=
  ∀ (t : DT) (m n wa wb wz : Nat) (v : Word) (a b : Bool) (s : State), n < 32 → QuadQuiet s →
    let c := s.qe n
    let sampled (w : Nat) (old new : Bool) : Prop := if w % 8 = 7 then new = true else if w % 8 = 0 then new = false else new = old
    sampled wa c.ra a → sampled wb c.rb b → sampled wz c.rz c.rz →
    let edge := dtCount ((s.time.advance t).dt - BitVec.ofNat 64 (5 * 65536)) - BitVec.ofNat 64 (3 * 65536)
    let step := (quadPlace a b + 4 - quadPlace c.ra c.rb) % 4
    ((s.checks.look pQE).running = none → Unhindered t m s → s.standby = false → s.hk.corePower = true → qeOn s n = false →
      ∃ u, exec (.qeChannelEnable t m n v) s = .next u ∧ qeOn u n = false ∧ u.g (F.CHECK_BUSY pQE) = 1 ∧
        (∀ f ∈ [F.QE_CFG_MODE n, F.QE_CFG_POLICY n, F.QE_CFG_INDEX_GATE n, F.QE_CFG_MIN_SPACING n, F.QE_CFG_FAULT_LIMIT n,
          F.QE_CFG_FAULT_WINDOW n, F.QE_CFG_CLEAN_CYCLES n], u.g f = getBits v.toNat f.lo f.w) ∧
        (∀ x, eventReg x = false → x ≠ (F.QE_CFG n).adr → x ≠ (F.CHECK pQE).adr → u.reg x = s.reg x) ∧
        Ends { arrive t s with regs := u.regs, checks := u.checks } u) ∧
    (a = c.ra → b = c.rb → Does (.qeEdge t n wa wb wz) s ((arrive t s).onQe n id)) ∧
    (qeOn s n = false → a ≠ c.ra ∨ b ≠ c.rb → Does (.qeEdge t n wa wb wz) s ((arrive t s).onQe n (fun c => { c with
      a := a, b := b, z := c.rz, ra := a, rb := b, pend := [] }))) ∧
    (qeOn s n = true → qeGuarded s n = false → c.was = none → s.g (F.QE_CFG_MODE n) = 0 → c.pend = [] → c.a = c.ra → c.b = c.rb →
      (step ≠ 2 → ∃ u, exec (.qeEdge t n wa wb wz) s = .next u ∧
        u.qe n = { c with
          ra := a, rb := b, a := a, b := b
          count := if step = 1 then c.count + 1 else if step = 3 then c.count - 1 else c.count
          edgeDt := if step = 0 then c.edgeDt else edge } ∧
        (∀ k, k ≠ n → u.qe k = s.qe k) ∧ Ends { arrive t s with fb := { s.fb with qe := u.fb.qe } } u) ∧
      (step = 2 → ∃ u, exec (.qeEdge t n wa wb wz) s = .next u ∧
        u.qe n = { c with ra := a, rb := b, a := a, b := b, illegal := satInc 32 c.illegal, told := true } ∧
        (∀ x, eventReg x = false → u.reg x = s.reg x))) ∧
    (∀ c' r, (c', r) ∈ [
        (Instr.qeTrip t n, if qeTripDue s n then (arrive t s).onQe n (fun c => { c with tripped := true }) else arrive t s),
        (.qeClean t n, if qeCleanDue s n then (arrive t s).onQe n (fun c => { c with phase := false }) else arrive t s)] →
      Does c' s r) ∧
    (Unhindered t m s → s.standby = false → s.hk.corePower = true →
      Does (.inject t m n) s ((arrive t s).onQe n (fun c => { c with inject := true })) ∧
      Does (.clrFaults t m n) s ((arrive t s).onQe n (fun c => { c with clr := true })) ∧
      Does (.reguard t m n) s ((arrive t s).onQe n (fun c => { c with reguard := true })))

/-! ### Loop engines and table copies (chapters 5 and 6) -/

/-- LATE_HOLD (R48) comes for an enabled axis whose HOLD_RUN is 3, once: the axis leads the order from the next cycle on and
enters the fault state with cause 1. An engine that completes an item (R44, R51) stamps the cycle's completion and takes the
item of its slot; with the window closed the result is discarded and counted; as the last item awaited in the window it is
released: OUT takes the result's main and the window is empty. WITHDRAW marks an engine in service (R148); RESTORE runs the
self-check of one out of service (R149), where the core supplies are up (R26). No access is held up. -/
def Obligations.LoopEnginesCompleteAndAxesAreHeld : Prop :=
  ∀ (t : DT) (m a n : Nat) (s : State), a < 512 → n < 16 →
    let head : State := { (arrive t s).onLe a (fun x => { x with lateTold := true }) with
      cyc := { s.cyc with headAxes := nsAdd s.cyc.headAxes a } }
    let d := (s.time.advance t).dt
    ((axisEnabled s a = false ∨ s.ax a F.AX_STATUS_HOLD_RUN ≠ 3 ∨ (s.leAx a).lateTold = true) →
      Does (.lateHold t a) s (arrive t s)) ∧
    (axisEnabled s a = true → s.ax a F.AX_STATUS_HOLD_RUN = 3 → (s.leAx a).lateTold = false →
      (axisFaulted s a = true → Does (.lateHold t a) s head) ∧
      (axisFaulted s a = false → s.enabled pEH = false → ∃ u, exec (.lateHold t a) s = .next u ∧ axisFaulted u a = true ∧
        u.ax a F.AX_STATUS_CAUSE = 1 ∧ u.axb a F.AX_STATUS_FAULT = true ∧ u.ax a F.AX_STATUS_HOLD_RUN = 3 ∧
        (∀ b, eventReg b = false → b ≠ (F.LE_FAULTMAP (a / 64)).adr → u.reg b = s.reg b) ∧
        (∀ b, b / 8 ≠ (axisBase a + F.AX_STATUS.adr) / 8 → u.byte b = s.byte b) ∧
        Ends { head with regs := u.regs, mem := u.mem, poison := u.poison } u)) ∧
    ((s.eng n).exe = none → Does (.axisStepComplete t n) s (arrive t s)) ∧
    (∀ r, (s.eng n).exe = some r → r.ecc = none → s.le.windowOpen = false →
      ∃ u, exec (.axisStepComplete t n) s = .next u ∧ u.le.discards = s.le.discards + 1 ∧ u.le.win = s.le.win ∧
        (u.eng n).exe = (s.eng n).slot ∧ (u.eng n).slot = none ∧ (∀ k, k ≠ n → u.eng k = s.eng k) ∧
        u.sg.done = (if r.cycle = s.time.cycle then s.sg.done ++ [(r.axis, dtCount d)] else s.sg.done) ∧
        (∀ b, eventReg b = false → u.reg b = s.reg b) ∧
        Ends { arrive t s with sg := u.sg, le := { s.le with eng := u.le.eng, discards := u.le.discards } } u) ∧
    (∀ r, (s.eng n).exe = some r → r.ecc = none → s.le.windowOpen = true → s.le.order = [] →
      s.le.win = [⟨r.axis, none⟩] → r.cycle = s.time.cycle → axisWrongEpoch s r.axis = false →
      ∃ u, exec (.axisStepComplete t n) s = .next u ∧ u.le.win = [] ∧ u.le.windowOpen = true ∧ r.axis ∈ u.le.released ∧
        u.le.steps = s.le.steps + 1 ∧ u.le.discards = s.le.discards ∧ u.sg.done = s.sg.done ++ [(r.axis, dtCount d)] ∧
        (r.table = [] → s.enabled pEH = false → u.axi r.axis 0x40 = toS 64 (ofS 64 r.main) ∧
          u.axi r.axis 0x48 = toS 64 (ofS 64 r.aux))) ∧
    ((s.checks.look pLE).running = none → Unhindered t m s → s.hk.corePower = true →
      Does (.withdraw t m n) s (if (s.eng n).inService then (arrive t s).onEng n (fun g => { g with withdraw := true })
        else arrive t s) ∧
      ((s.eng n).inService = false →
        Does (.restore t m n) s (beginsCheck (arrive t s) ⟨.restore, pLE, n, 0, m, none, d⟩)) ∧
      ((s.eng n).inService = true → Does (.restore t m n) s (arrive t s)))

/-- REP_SYNC (R168): SYNC clears, SYNCING is set, and the copy of the axis joins the list behind the eight that are served, in
axis order, with as many entries as its table has, or none without a partner (the model's choice, notes/assumptions/43); a copy under way begins again with all of them; on
the active unit STALE clears. REP_SYNC_DONE ends a copy of the eight, on the active with no entry left: SYNCING clears, and a standby
holds the table's entries (none of their words poisoned before) and REP_SUM, with STALE clear; where its ingress buffer is full the
copy is discarded whole and counted (R21). A standby sets aside the SYNC of any master
but its partner (R390). The core supplies are up (R26). No access is held up. -/
def Obligations.TableCopiesAreServedInOrder : Prop :=
  ∀ (t : DT) (m a : Nat) (full : Bool) (table : List Nat) (sum : Word) (s : State), a < 512 → s.hk.corePower = true →
    let cfg := if axisEnabled s a then (s.leAx a).cfg.repCfg else s.word (axisBase a + 0x200)
    let entries := if s.tw.link then repN cfg else 0
    let other (b : Nat) : Prop := b / 8 ≠ (axisBase a + F.REP_CMD_SYNC.adr) / 8 ∧ b / 8 ≠ (axisBase a + F.REP_STATUS_SYNCING.adr) / 8
    let done := Instr.repSyncDone t ⟨full, a, table, sum⟩
    let room := ¬ (s.standby = true ∧ full = true ∧ s.tw.link = true)
    let ends := ∃ k, (a, k) ∈ s.le.syncs.take 8 ∧ (k = 0 ∨ s.standby = true)
    (s.standby = false → Unhindered t m s → ∃ u, exec (.repSync t m a) s = .next u ∧
      u.le.syncs = (if s.le.syncs.any (fun p => p.1 = a) then s.le.syncs.map (fun p => if p.1 = a then (a, entries) else p)
        else s.le.syncs.take 8 ++ ((s.le.syncs.drop 8).filter (fun q => q.1 < a) ++
          (a, entries) :: (s.le.syncs.drop 8).filter (fun q => q.1 > a))) ∧
      (s.enabled pEH = false → u.axb a F.REP_CMD_SYNC = false ∧ u.axb a F.REP_STATUS_SYNCING = true ∧
        u.axb a F.REP_STATUS_STALE = false ∧ (∀ b, other b → u.byte b = s.byte b)) ∧
      Ends { arrive t s with mem := u.mem, poison := u.poison, le := { s.le with syncs := u.le.syncs } } u) ∧
    (s.standby = true → m ≠ 6 → Unhindered t m s → Does (.repSync t m a) s (arrive t s)) ∧
    (room → ends → ∃ u, exec done s = .next u ∧
      u.le.syncs = s.le.syncs.filter (fun p => p.1 ≠ a) ∧
      (s.enabled pEH = false → u.axb a F.REP_STATUS_SYNCING = false ∧
        (s.standby = false → u.axb a F.REP_STATUS_STALE = s.axb a F.REP_STATUS_STALE ∧ (∀ b, other b → u.byte b = s.byte b)) ∧
        (s.standby = true → u.axb a F.REP_STATUS_STALE = false ∧ u.word (axisBase a + 0x258) = sum.toNat ∧
          ((∀ i < repN cfg, s.poisoned (repEntryAddr (getBits cfg 0 20) i) = false) →
            ∀ i v, i < repN cfg → table[i]? = some v → v < 2 ^ 32 → repEntry u (getBits cfg 0 20) i = toS 32 v))) ∧
      Ends { arrive t s with mem := u.mem, poison := u.poison, le := { s.le with syncs := u.le.syncs } } u) ∧
    (room → ¬ ends → Does done s (arrive t s)) ∧
    (¬ room → Does done s { arrive t s with tw := { s.tw with discards := s.tw.discards + 1 } })

/-! ### The profile generator (chapter 7) -/

/-- A write to PG_GRPn_CFG with EN set runs the group checks with EN at 0 (R192); with EN clear it asks a running group for its
stop of cause 6, or clears the EN of a group that is off, or of one that is STOPPED, whose axes then hold (R192), their words as
they stand while the page is off (R173); a loss of its master lasts on (R189). PG_GROUP_STOP asks every group whose bit is set,
which runs or is to return to RUN at the coming TR, and which awaits no stop, for its stop of cause 1 (R189). The core supplies
are up (R26), and the access is not held up (notes/assumptions/42). FOLLOWING (R186): before TR an enabled axis without a fault, released in the cycle and not yet examined, whose error
in counts is at or above FE_LIMIT brings its run of such cycles, in PG_STATUS, to FE_CYCLES: it enters the fault state with
cause 3. That the error is examined before the commands of TR, and that the FE_WARN bit keeps its value while the level FE_WARN is 0, is
the model's choice (notes/assumptions/43). -/
def Obligations.GearGroupsStopAndAxesAreFollowed : Prop :=
  ∀ (t : DT) (m n a : Nat) (v : Word) (s : State), n < 32 → a < 512 →
    let asks (g : PgGrp) (cause : Nat) : PgGrp :=
      if (g.state = 1 ∨ (g.state = 3 ∧ g.restart = true)) ∧ g.stopReq = 0 then { g with stopReq := cause } else g
    let e := errCounts s a
    let x := s.pgAx a
    let due := s.time.running = true ∧ s.cyc.phase = 4 ∧ s.enabled pPG = true ∧ s.pg.starting = false ∧
      axisEnabled s a = true ∧ axisFaulted s a = false ∧ s.ax a F.AX_STATUS_CYCLE = s.cycN ∧ x.feSeen ≠ some s.cycN ∧
      s.ax a F.PG_FOLLOW_FE_LIMIT ≠ 0 ∧ s.ax a F.PG_FOLLOW_FE_LIMIT ≤ e ∧
      max 1 (s.ax a F.PG_FOLLOW_FE_CYCLES) ≤ min 255 (s.ax a F.PG_STATUS_FE_RUN + 1)
    (Unhindered t m s → s.standby = false → s.hk.corePower = true → (s.checks.look pPG).running = none →
      (s.gb (F.PG_GRP_CFG_EN n) = false → ∃ u, exec (.groupEnable t m n v) s = .next u ∧ u.gb (F.PG_GRP_CFG_EN n) = false ∧
        u.g (F.CHECK_BUSY pPG) = 1 ∧ u.g (F.PG_GRP_CFG_MASTER_AXIS n) = getBits v.toNat 32 9 ∧
        u.g (F.PG_GRP_CFG_MSRC n) = getBits v.toNat 59 2 ∧ u.g (F.PG_GRP_CFG_FAULT_STOP n) = getBits v.toNat 61 1 ∧
        (∀ b, eventReg b = false → b ≠ (F.PG_GRP_CFG n).adr → b ≠ (F.CHECK pPG).adr → u.reg b = s.reg b) ∧
        Ends { arrive t s with regs := u.regs, checks := u.checks } u) ∧
      (s.gb (F.PG_GRP_CFG_EN n) = true → (s.grp n).state = 3 → (s.grp n).restart = false →
        ∃ u, exec (.groupDisable t m n v) s = .next u ∧ u.gb (F.PG_GRP_CFG_EN n) = false ∧ (u.grp n).state = 0 ∧
          (∀ k, k ≠ n → u.grp k = s.grp k) ∧ (∀ a ∈ grpMembers s n, (u.pgAx a).mode = 1) ∧
          (∀ b, eventReg b = false → b ≠ (F.PG_GRP_CFG n).adr → b ≠ (F.PG_GRP_STATE n).adr → u.reg b = s.reg b) ∧
          (u.grp n).lost = (s.grp n).lost ∧ u.g (F.PG_GRP_STATE_STATE n) = 0 ∧
          u.g (F.PG_GRP_STATE_MASTER_LOST n) = s.g (F.PG_GRP_STATE_MASTER_LOST n) ∧
          (s.enabled pEH = false → s.enabled pPG = false → ∀ b, u.byte b = s.byte b) ∧
          (s.enabled pEH = false → ∀ b, (∀ a ∈ grpMembers s n, b / 8 ≠ (axisBase a + 0x1B0) / 8) → u.byte b = s.byte b) ∧
          Ends { arrive t s with regs := u.regs, mem := u.mem, poison := u.poison, pg := u.pg } u) ∧
      (s.gb (F.PG_GRP_CFG_EN n) = true → (s.grp n).state ≠ 3 ∨ (s.grp n).restart = true →
        ∃ u, exec (.groupDisable t m n v) s = .next u ∧
        u.gb (F.PG_GRP_CFG_EN n) = decide ((s.grp n).state ≠ 0) ∧
        u.grp n = (if (s.grp n).state = 0 then s.grp n else { asks (s.grp n) 6 with closing := true }) ∧
        u.g (F.PG_GRP_CFG_MASTER_AXIS n) = s.g (F.PG_GRP_CFG_MASTER_AXIS n) ∧ u.g (F.PG_GRP_CFG_MSRC n) = s.g (F.PG_GRP_CFG_MSRC n) ∧
        (∀ b, eventReg b = false → b ≠ (F.PG_GRP_CFG n).adr → u.reg b = s.reg b) ∧ (∀ k, k ≠ n → u.grp k = s.grp k) ∧
        Ends { arrive t s with regs := u.regs, pg := { s.pg with grp := u.pg.grp } } u)) ∧
    (Unhindered t m s → s.standby = false → s.hk.corePower = true → ∃ u, exec (.pgGroupStop t m v) s = .next u ∧
      (∀ k < 32, u.grp k = if v.getLsbD k then asks (s.grp k) 1 else s.grp k) ∧
      Ends { arrive t s with pg := { s.pg with grp := u.pg.grp } } u) ∧
    (¬ due → Does (.following t a) s (arrive t s)) ∧
    (due → s.ax a F.PG_FOLLOW_FE_WARN = 0 → s.enabled pEH = false → ∃ u, exec (.following t a) s = .next u ∧
      axisFaulted u a = true ∧ u.ax a F.AX_STATUS_CAUSE = 3 ∧ u.axb a F.AX_STATUS_FAULT = true ∧
      u.ax a F.PG_STATUS_FE_RUN = min 255 (s.ax a F.PG_STATUS_FE_RUN + 1) ∧ u.axb a F.PG_STATUS_FE_WARN = s.axb a F.PG_STATUS_FE_WARN ∧
      u.pgAx a = { x with feSeen := some s.cycN } ∧ (∀ k, k ≠ a → u.pgAx k = s.pgAx k) ∧
      (∀ b, eventReg b = false → b ≠ (F.LE_FAULTMAP (a / 64)).adr → u.reg b = s.reg b) ∧
      (∀ b, b / 8 ≠ (axisBase a + F.AX_STATUS.adr) / 8 → b / 8 ≠ (axisBase a + F.PG_STATUS.adr) / 8 → u.byte b = s.byte b) ∧
      Ends { arrive t s with regs := u.regs, mem := u.mem, poison := u.poison, pg := { s.pg with ax := u.pg.ax } } u)

/-! ### Field ports: links, discovery, the guardian (chapters 8 and 9) -/

/-- `c` is a frame with the header `h` that arrives at field port `p`. -/
def Sys2Proof.FrameArrives (t : DT) (p : Nat) (h : FrameHdr) (c : Instr) : Prop :=
  (∃ b, c = .announceReceived t p h b) ∨ c = .discoverReceived t p h ∨ (∃ b, c = .uplinkReceived t p h b) ∨
  (∃ b, c = .sensorReceived t p h b) ∨ (∃ b, c = .downlinkReceived t p h b) ∨ ∃ b, c = .claimReceived t p h b

/-- The receive tests (R198), in their order: a closed port takes no frame; a frame that meets a full FIFO, a bad one, one of
another EtherType or with a tag, and a bad header are counted and go no further. A frame that passes them is counted as
received, and the guardian (R230) counts what it discards: an UPLINK or SENSOR frame of a node that is neither bound nor granted,
of a muted node, or of another epoch. An UPLINK is stated for quadrature channels that have nothing due. -/
def Sys2Proof.TheReceiveTestsAndTheGuardianCount : Prop :=
  ∀ (t : DT) (p : Nat) (h : FrameHdr) (c : Instr) (s : State), p < 8 → FrameArrives t p h c →
    ((∃ b, c = .uplinkReceived t p h b) → QuadQuiet s) →
    let q := s.port p
    let counts (f : FpSt → FpSt) : Prop := Does c s ((arrive t s).onPort p (fun q => { f q with rx := q.rx + 1 }))
    let whole := h.fcsOk = true ∧ 64 ≤ h.size ∧ h.size ≤ 4096
    let ours := h.etherType = s.g (F.FP_LINKCFG_ETHERTYPE p) ∧ h.tagged = false
    let sound := h.version = 1 ∧ h.seg = p ∧ 1 ≤ h.type ∧ h.type ≤ 6 ∧ h.size = max 64 (34 + h.length)
    let passes := s.enabled (pFP p) = true ∧ h.full = false ∧ whole ∧ ours ∧ sound
    let slotted := (∃ b, c = .uplinkReceived t p h b) ∨ ∃ b, c = .sensorReceived t p h b
    let known := s.gb (F.FP_GNODE_STATE_BOUND p h.src) = true ∨
      (h.type = 2 ∧ ∃ g ∈ q.grants, g.cycle = s.time.cycle ∧ g.node = h.src)
    (s.enabled (pFP p) = false → Does c s (arrive t s)) ∧
    (s.enabled (pFP p) = true → h.full = true → counts (fun q => { q with fullCount := q.fullCount + 1 })) ∧
    (s.enabled (pFP p) = true → h.full = false → ¬ whole → counts (fun q => { q with bad := q.bad + 1 })) ∧
    (s.enabled (pFP p) = true → h.full = false → whole → ¬ ours → counts (fun q => { q with other := q.other + 1 })) ∧
    (s.enabled (pFP p) = true → h.full = false → whole → ours → ¬ sound → counts (fun q => { q with bad := q.bad + 1 })) ∧
    (passes → slotted → h.src < 32 → ¬ known → counts (fun q => { q with noslot := q.noslot + 1 })) ∧
    (passes → slotted → h.src < 32 → known → s.gb (F.FP_GNODE_STATE_MUTED p h.src) = true →
      counts (fun q => { q with muted := q.muted + 1 })) ∧
    (passes → slotted → h.src < 32 → known → s.gb (F.FP_GNODE_STATE_MUTED p h.src) = false →
      h.epoch ≠ s.g F.FP_EPOCH_STATE_CURRENT % 256 →
      ∃ u, exec c s = .next u ∧ (u.port p).epoch = q.epoch + 1 ∧ (u.port p).rx = q.rx + 1 ∧ (u.port p).accept = q.accept ∧
        (∀ b, eventReg b = false → b ≠ (F.FP_GNODE_CNTB_MISSED___EPOCH p h.src).adr → u.reg b = s.reg b) ∧
        Ends { arrive t s with regs := u.regs, fp := u.fp } u) ∧
    (passes → slotted → h.src = 0xFF → fromFarHead s p h = false → counts (fun q => { q with noslot := q.noslot + 1 }))

/-- The frames of discovery and of the far head. A DISCOVER from the far head is accepted (R230); a standby whose link is up
answers it with an ANNOUNCE (R212), and one of a discovery makes this end end B (R195). An ANNOUNCE that answers the DISCOVER of
the active's search numbers its node, and the search goes on to measure its delay (R212); the standby at end B gathers the
ANNOUNCEs of a node before a schedule is committed and takes DELAY_B from the mean over 16 (R457). A DOWNLINK from the far head
is accepted; it gives a standby the cycle, evidence of the active on a ring with a bound node (R401), and the set-points that it
carries, each with its MANUAL (R394, R402). One that claims to come from this head goes no further. That a DISCOVER of a discovery
makes a standby's end end B, and that DELAY_B is the mean over 16 ANNOUNCEs one way in the active's DT, is the model's reading
(notes/assumptions/39). -/
def Sys2Proof.FramesOfDiscoveryAndTheFarHeadAreTaken : Prop :=
  ∀ (t : DT) (p : Nat) (h : FrameHdr) (s : State), p < 8 → s.enabled (pFP p) = true → h.full = false → h.fcsOk = true →
    64 ≤ h.size → h.size ≤ 4096 → h.etherType = s.g (F.FP_LINKCFG_ETHERTYPE p) → h.tagged = false → h.version = 1 →
    h.seg = p → 1 ≤ h.type → h.type ≤ 6 → h.size = max 64 (34 + h.length) →
    let q := s.port p
    let r := arrive t s
    let near := h.src = 0xFF ∧ fromFarHead s p h = false
    let taken := r.onPort p (fun q => { q with rx := q.rx + 1, accept := q.accept + 1 })
    let refused := r.onPort p (fun q => { q with rx := q.rx + 1, noslot := q.noslot + 1 })
    let find := Instr.discoverReceived t p h
    let answers := s.standby = true ∧ s.gb (F.FP_STATE_LINK_UP p) = true
    let v := toS 48 (ofS 48 (((activeDt r (ingressStamp r p h.capture)).toNat : Int) - h.txDt))
    let heard := v :: (s.node p h.src).anns
    (near → Does find s refused) ∧ (¬ near → ¬ answers → Does find s taken) ∧
    (¬ near → answers → ∃ u, exec find s = .next u ∧ (u.port p).accept = q.accept + 1 ∧ (u.port p).rx = q.rx + 1 ∧
      ownEnd u p = (if scheduled s p then ownEnd s p else 1) ∧
      (s.tw.refused = false → ∃ f, Out.frame p f ∈ u.out) ∧
      (∀ b, eventReg b = false → b ≠ (F.FP_STATE_END p).adr → u.reg b = s.reg b) ∧ Ends { taken with regs := u.regs } u) ∧
    (∀ b : AnnounceBody, near → Does (.announceReceived t p h b) s refused) ∧
    (∀ (b : AnnounceBody) (d : FpDisc), ¬ near → s.active = true → segState s p = 1 → q.disc = some d → d.phase = 0 →
      d.k < 32 → b.head = false → b.number = d.k →
      ∃ u, exec (.announceReceived t p h b) s = .next u ∧ (u.port p).accept = q.accept + 1 ∧
        u.reg (F.FP_NODE_MAC p d.k).adr = h.srcMac % 2 ^ 48 ∧ u.g (F.FP_NODE_CAP_SP_RECORDS p d.k) = b.spRecords % 16 ∧
        u.g (F.FP_NODE_CAP_POS_RECORDS p d.k) = b.posRecords % 16 ∧ u.g (F.FP_NODE_CAP_MAX_UL p d.k) = b.maxUl % 65536 ∧
        (u.port p).disc = some { (default : FpDisc) with k := d.k, phase := 1, tries := 1, tx := egressStamp r p } ∧
        (s.tw.refused = false → ∃ f, Out.frame p f ∈ u.out)) ∧
    (∀ b : AnnounceBody, s.standby = true → h.src < 32 → scheduled s p = false →
      (heard.length < 16 → Does (.announceReceived t p h b) s (taken.onNode p h.src (fun n => { n with anns := heard }))) ∧
      (heard.length = 16 → ∃ u, exec (.announceReceived t p h b) s = .next u ∧ (u.node p h.src).anns = [] ∧
        u.g (F.FP_NODE_DELAY_DELAY_B p h.src) = ofS 32 (fdiv (heard.foldl (· + ·) 0) 16) ∧
        u.g (F.FP_NODE_DELAY_DELAY_A p h.src) = s.g (F.FP_NODE_DELAY_DELAY_A p h.src) ∧
        (∀ b, eventReg b = false → b ≠ (F.FP_NODE_DELAY p h.src).adr → u.reg b = s.reg b))) ∧
    (∀ b : DownlinkBody, s.standby = true → h.src = 0xFF → fromFarHead s p h = true →
      ∃ u, exec (.downlinkReceived t p h b) s = .next u ∧ u.tw.dlCycle = some (BitVec.ofNat 32 h.cycle) ∧
        u.tw.dlRing = (if s.g (F.FP_STATE_TOPO p) = 2 ∧ boundNodes s p ≠ [] then some (BitVec.ofNat 32 h.cycle) else s.tw.dlRing) ∧
        (∀ a m x k, (some a, m, x, k) ∈ b.recs → a < 512 → (a, m, x, k.testBit 2) ∈ u.tw.dlRecs) ∧
        (u.port p).accept = q.accept + 1 ∧ (u.port p).rx = q.rx + 1 ∧ (∀ b, eventReg b = false → u.reg b = s.reg b) ∧
        Ends { r with fp := u.fp, tw := u.tw } u) ∧
    (∀ b : DownlinkBody, s.standby = false → h.src = 0xFF → fromFarHead s p h = true →
      Does (.downlinkReceived t p h b) s taken) ∧
    (∀ b : DownlinkBody, ¬ (h.src = 0xFF ∧ fromFarHead s p h = true) → 32 ≤ h.src →
      Does (.downlinkReceived t p h b) s refused)

/-- What arrives at a field port: the parts named hold. -/
def Obligations.FramesMeetTheReceiveTestsAndTheGuardian : Prop :=
  TheReceiveTestsAndTheGuardianCount ∧ FramesOfDiscoveryAndTheFarHeadAreTaken

/-- An UPLINK of a bound node that fits a slot of its node in the cycle, the first of that slot and no longer than it, is
accepted (R230): counted, noted with its slot, and STATUS and ACK_EPOCH of the node take what it carries (R203); stated for
quadrature channels that have nothing due. So is a SENSOR frame in its slot: the enabled channels of its node take its samples
(R254), here where no packet that they complete lies over registers or watched words. A CLAIM inside the window of a pool entry joins the claims of the cycle (R236). -/
def Obligations.UplinksAndClaimsAreAccepted : Prop :=
  ∀ (t : DT) (p : Nat) (h : FrameHdr) (s : State), p < 8 → s.enabled (pFP p) = true → h.full = false → h.fcsOk = true →
    64 ≤ h.size → h.size ≤ 4096 → h.etherType = s.g (F.FP_LINKCFG_ETHERTYPE p) → h.tagged = false → h.version = 1 →
    h.seg = p → h.size = max 64 (34 + h.length) →
    let q := s.port p
    (∀ (b : UplinkBody) (e : Slot), QuadQuiet s → h.type = 2 → h.src < 32 → s.gb (F.FP_GNODE_STATE_BOUND p h.src) = true →
      s.gb (F.FP_GNODE_STATE_MUTED p h.src) = false → h.epoch = s.g F.FP_EPOCH_STATE_CURRENT % 256 → h.cycle = s.cycN →
      (slotsOf s p (liveBank s p)).filter (fun x => x.kind = 1 && x.node = h.src) = [e] →
      fitsSlot (arrive t s) p e h (ingressStamp (arrive t s) p h.capture) = true → h.size ≤ e.len →
      (∀ a ∈ q.accepted, ¬ (a.1 = 2 ∧ a.2.1 = h.src)) →
      ∃ u, exec (.uplinkReceived t p h b) s = .next u ∧ (u.port p).accept = q.accept + 1 ∧ (u.port p).rx = q.rx + 1 ∧
        (u.port p).accepted = q.accepted ++ [(2, h.src, e.k, 0)] ∧
        u.g (F.FP_NODE_STATE_STATUS p h.src) = b.status % 2 ^ 16 ∧
        u.g (F.FP_NODE_STATE_ACK_EPOCH p h.src) = b.ackEpoch % 2 ^ 8) ∧
    (∀ (b : SensorBody) (e : Slot), h.type = 3 → h.src < 32 → s.gb (F.FP_GNODE_STATE_BOUND p h.src) = true →
      s.gb (F.FP_GNODE_STATE_MUTED p h.src) = false → h.epoch = s.g F.FP_EPOCH_STATE_CURRENT % 256 → h.cycle = s.cycN →
      ((slotsOf s p (liveBank s p)).filter (fun x => x.kind = 2 && x.node = h.src)).find?
        (fun x => fitsSlot (arrive t s) p x h (ingressStamp (arrive t s) p h.capture)) = some e → h.size ≤ e.len →
      (∀ a ∈ q.accepted, ¬ (a.1 = 3 ∧ a.2.1 = h.src ∧ (a.2.2.1 = e.k ∨ a.2.2.2 = b.seq))) →
      let took := ((arrive t s).onNode p h.src (fun n => { n with epochOk := true })).onPort p (fun q => { q with
        rx := q.rx + 1, accept := q.accept + 1, accepted := q.accepted ++ [(3, h.src, e.k, b.seq)] })
      (aeSensor took p h.src b).devNow = s.devNow →
      (relayOn s p = false → Does (.sensorReceived t p h b) s (aeSensor took p h.src b)) ∧
      ∃ u, exec (.sensorReceived t p h b) s = .next u ∧ (u.port p).accept = q.accept + 1 ∧
        (u.port p).accepted = q.accepted ++ [(3, h.src, e.k, b.seq)]) ∧
    (∀ b : AnnounceBody, h.type = 6 → s.active = true → b.slot < 64 → (h.src = 0xFF → fromFarHead s p h = true) →
      (∀ g ∈ q.grants, ¬ (g.cycle = s.time.cycle ∧ g.slot = b.slot)) → ((poolSlots s p).any (fun e => e.k = b.slot)) = true →
      inSpareWindow (arrive t s) p (slotOf s p (liveBank s p) b.slot) (ingressStamp (arrive t s) p h.capture) = true →
      h.size ≤ (slotOf s p (liveBank s p) b.slot).len → b.action = 1 →
      ∃ u, exec (.claimReceived t p h b) s = .next u ∧ (u.port p).accept = q.accept + 1 ∧
        (∃ x : FpClaim, (u.port p).claims = q.claims ++ [x] ∧ x.slot = b.slot ∧ x.mac = h.srcMac ∧ x.cycle = s.time.cycle) ∧
        (∀ b, eventReg b = false → u.reg b = s.reg b) ∧ Ends { arrive t s with fp := u.fp } u)

/-- A link comes up (R213): LINK_UP is 1, and the active begins the discovery of an idle segment where AUTO is 1, and that which a
START asked for; it goes down: LINK_UP is 0, and a discovery or an ALONE search ends as idle. A search (R212) repeats its
DISCOVER twice, 100 µs apart, and then ends, ALONE where no node was numbered; an ALONE segment sends one every 1 ms (R214). A
unit that was refused as a partner sends no frame (R387; the model's choice, notes/assumptions/41). -/
def Obligations.LinksComeUpAndSearchesEnd : Prop :=
  ∀ (t : DT) (p : Nat) (s : State), p < 8 →
    let d := (s.time.advance t).dt
    let up := s.gb (F.FP_STATE_LINK_UP p)
    let wanted := (segState s p = 0 ∧ s.gb (F.FP_DISC_AUTO p) = true) ∨ (scheduled s p = false ∧ (s.port p).discAtUp = true)
    let starts := wanted ∧ s.enabled (pFP p) = true ∧ s.active = true
    let sent (u : State) : Prop := s.tw.refused = false → ∃ f, Out.frame p f ∈ u.out
    let status (b : Nat) : Prop := eventReg b = false ∧ b ≠ (F.FP_STATE_LINK_UP p).adr
    (up = true → Does (.linkUp t p) s (arrive t s)) ∧
    (up = false → ¬ starts → Does (.linkUp t p) s ((arrive t s).put (F.FP_STATE_LINK_UP p) 1)) ∧
    (up = false → starts → ∃ u, exec (.linkUp t p) s = .next u ∧ u.g (F.FP_STATE_LINK_UP p) = 1 ∧ segState u p = 1 ∧
      u.g (F.FP_STATE_NODES p) = 0 ∧ u.g (F.FP_STATE_TOPO p) = 0 ∧ (u.port p).discAtUp = false ∧
      (u.port p).disc = some { (default : FpDisc) with tries := 1, tx := egressStamp (arrive t s) p } ∧
      sent u) ∧
    (up = false → Does (.linkDown t p) s (arrive t s)) ∧
    (up = true → ¬ (segState s p = 1 ∨ segState s p = 2) → Does (.linkDown t p) s ((arrive t s).put (F.FP_STATE_LINK_UP p) 0)) ∧
    (up = true → (segState s p = 1 ∨ segState s p = 2) → ∃ u, exec (.linkDown t p) s = .next u ∧
      u.g (F.FP_STATE_LINK_UP p) = 0 ∧ segState u p = 0 ∧ u.g (F.FP_STATE_ALONE p) = 0 ∧ u.g (F.FP_STATE_TOPO p) = 0 ∧
      (u.port p).disc = none ∧ ∀ j < 32, u.g (F.FP_NODE_STATE_NUMBERED p j) = 0) ∧
    (s.active = false ∨ (s.port p).disc = none → Does (.discoverTimeout t p) s (arrive t s)) ∧
    (∀ x, s.active = true → (s.port p).disc = some x →
      ((d - x.tx).toInt < 100000 * 65536 → Does (.discoverTimeout t p) s (arrive t s)) ∧
      (100000 * 65536 ≤ (d - x.tx).toInt → x.phase = 0 → x.tries < 3 → ∃ u, exec (.discoverTimeout t p) s = .next u ∧
        (u.port p).disc = some { x with tries := x.tries + 1, tx := egressStamp (arrive t s) p } ∧ sent u ∧
        (∀ b, eventReg b = false → u.reg b = s.reg b) ∧ Ends { arrive t s with fp := u.fp } u) ∧
      (100000 * 65536 ≤ (d - x.tx).toInt → x.phase = 0 → 3 ≤ x.tries → ∃ u, exec (.discoverTimeout t p) s = .next u ∧
        (u.port p).disc = none ∧ segState u p = (if numberedNodes s p = [] then 2 else 3) ∧ u.g (F.FP_STATE_TOPO p) = 1 ∧
        (numberedNodes s p = [] → u.g (F.FP_STATE_ALONE p) = 1 ∧ (u.port p).beacon = some d) ∧
        (∀ b, status b → u.reg b = s.reg b) ∧ Ends { arrive t s with regs := u.regs, fp := u.fp } u)) ∧
    (let due := s.active = true ∧ segState s p = 2 ∧ up = true ∧ s.enabled (pFP p) = true ∧
        (∀ b, (s.port p).beacon = some b → 1000000 * 65536 ≤ (d - b).toInt);
      (¬ due → Does (.aloneDiscover t p) s (arrive t s)) ∧
      (due → ∃ u, exec (.aloneDiscover t p) s = .next u ∧ sent u ∧
        Ends ((arrive t s).onPort p (fun q => { q with beacon := some d })) u))

/-- Muting and unmuting are asked for the next TR, by software (R234) or by the faults of the window (R233), in a recovery for
the first TR after it (R404). A SPLIT segment heals at the T0 after its 64 cycles: RING again, without a break (R218). A node 16
cycles in the wrong epoch stops its axes with cause 4 (R247). What the party-wall link relays counts only while that link is up,
and is discarded and counted where its ingress buffer is full (R21); a relayed record waits for TR, and so do the epoch fields of
the DOWNLINK (R217); while relay is carried for the segment (R217, R218, and never by a SILENT unit, R399) a relayed frame is taken
as one that this port accepted, and its samples or records are used (R216); otherwise it is not. The core supplies are up and no
access is held up for the writes (notes/assumptions/42). That a relayed frame counts as accepted at this port and not at this end
(notes/assumptions/39), and that the active relays its epoch fields for the standby's DOWNLINK (notes/assumptions/44), is the
model's reading. -/
def Obligations.NodesAreMutedHealedStoppedAndRelayed : Prop :=
  ∀ (t : DT) (m p j : Nat) (s : State), p < 8 → j < 32 →
    let ask (mute : Bool) : State := (arrive t s).onNode p j (fun n => { n with muteReq := some mute })
    (Unhindered t m s → s.standby = false → s.hk.corePower = true → Does (.mute t m p j) s (ask true) ∧ Does (.unmute t m p j) s (ask false)) ∧
    (muteDue s p j = true → s.tw.recovering = false → Does (.nodeMuted t p j) s (ask true)) ∧
    (muteDue s p j = true → s.tw.recovering = true →
      Does (.nodeMuted t p j) s ((arrive t s).onNode p j (fun n => { n with muteLater := true }))) ∧
    (muteDue s p j = false → Does (.nodeMuted t p j) s (arrive t s)) ∧
    (∀ c, (s.port p).healCycle = some c → c ≠ s.time.cycle → s.g (F.FP_STATE_TOPO p) = 3 →
      ∃ u, exec (.ringHealed t p) s = .next u ∧ u.g (F.FP_STATE_TOPO p) = 2 ∧ u.g (F.FP_STATE_BROKEN p) = 0 ∧
        u.g (F.FP_STATE_BREAK_LO p) = 0xFF ∧ u.g (F.FP_STATE_BREAK_HI p) = 0xFF ∧ segState u p = segState s p ∧
        (∀ b, eventReg b = false → b ≠ (F.FP_STATE_TOPO p).adr → u.reg b = s.reg b) ∧
        Ends { (arrive t s).onPort p (fun q => { q with
          healRun := 0, healCycle := none, relays := [], fell := false, healedIn := some s.time.cycle }) with regs := u.regs } u) ∧
    (((s.port p).healCycle = none ∨ (s.port p).healCycle = some s.time.cycle ∨ s.g (F.FP_STATE_TOPO p) ≠ 3) →
      Does (.ringHealed t p) s (arrive t s)) ∧
    (s.active = true → 16 ≤ s.g (F.FP_GNODE_STATE_WE_RUN p j) → (s.node p j).stopTold = false →
      ∃ u, exec (.nodeEpochStop t p j) s = .next u ∧ (u.node p j).stopTold = true ∧
        (∀ a ∈ enabledAxes s, (s.leAx a).cfg.seg = p → (s.leAx a).cfg.node = j → axisFaulted u a = true) ∧
        (∀ k, axisEnabled u k = axisEnabled s k)) ∧
    ((s.active = false ∨ s.g (F.FP_GNODE_STATE_WE_RUN p j) < 16 ∨ (s.node p j).stopTold = true) →
      Does (.nodeEpochStop t p j) s (arrive t s)) ∧
    (∀ b, s.tw.link = false → Does (.relayFrameReceived t p b) s (arrive t s)) ∧
    (∀ b, s.tw.link = true → b.full = true → ∃ u, exec (.relayFrameReceived t p b) s = .next u ∧
      u.tw.discards = s.tw.discards + 1 ∧ u.fp = s.fp ∧ (∀ b, eventReg b = false → u.reg b = s.reg b)) ∧
    (∀ next cmd act : Nat, s.tw.link = true → Does (.relayFrameReceived t p ⟨false, .epoch next cmd act⟩) s
      ((arrive t s).onPort p (fun q => { q with epochRel := some (s.time.cycle, next % 256, cmd % 256, act % 2 ^ 32) }))) ∧
    (∀ (i w f : Nat) (main aux : Int), s.tw.link = true →
      Does (.relayFrameReceived t p ⟨false, .record j i w f main aux⟩) s ((arrive t s).onPort p (fun q => { q with
        relays := q.relays.filter (fun x => !(x.node = j && x.record = i)) ++
          [⟨j, i, w, f, main, aux, (s.time.advance t).dt⟩] }))) ∧
    (∀ (h : FrameHdr) (b : UplinkBody) (v : SensorBody), s.tw.link = true → s.enabled (pFP p) = false ∨ relayOn s p = false →
      Does (.relayFrameReceived t p ⟨false, .uplink h b⟩) s (arrive t s) ∧
      Does (.relayFrameReceived t p ⟨false, .sensor h v⟩) s (arrive t s)) ∧
    (∀ h : FrameHdr, relayOn s p = true → s.enabled (pFP p) = true → h.src = j → h.cycle = s.cycN →
      (∀ a ∈ (s.port p).accepted, ¬ (a.1 = h.type ∧ a.2.1 = j)) →
      let took (seq : Nat) : State := ((arrive t s).onNode p j (fun n => { n with epochOk := true })).onPort p (fun q => { q with
        rx := q.rx + 1, relayed := q.relayed + 1, accepted := q.accepted ++ [(h.type, j, 64, seq)] })
      (∀ b : SensorBody, (aeSensor (took b.seq) p j b).devNow = s.devNow →
        Does (.relayFrameReceived t p ⟨false, .sensor h b⟩) s (aeSensor (took b.seq) p j b)) ∧
      ∀ b : UplinkBody, ∃ u, exec (.relayFrameReceived t p ⟨false, .uplink h b⟩) s = .next u ∧
        (u.port p).relayed = (s.port p).relayed + 1 ∧ (u.port p).accepted = ((took 0).port p).accepted ∧
        u.g (F.FP_NODE_STATE_STATUS p j) = b.status % 2 ^ 16 ∧ u.g (F.FP_NODE_STATE_ACK_EPOCH p j) = b.ackEpoch % 2 ^ 8)

/-! ### Acquisition and the angle domain (chapters 10 and 11) -/

/-- Trigger unit `k` watches the edge of TRIG_IN(`pin`) (R265). -/
def Sys2Proof.watchesEdge (s : State) (pin : Nat) (rising : Bool) (k : Nat) : Bool :=
  s.gb (F.AE_TRG_CFG_EN k) && decide (s.g (F.AE_TRG_CFG_COND k) = if rising then 5 else 6) &&
    decide (s.g (F.AE_TRG_CFG_CHANNEL k) % 8 = pin)

/-- Triggers (R265 to R268, R278). Setting a unit's EN runs its check with EN at 0. An edge sets the level of its pin, counts if
it rises, and fires each unit that watches it and is not in its holdoff: COUNT goes up by one, and the unit keeps the DT; every
other unit's COUNT stays; here no packet that a mark or a record completes lies over registers or watched words. The edge carries
the DT of the first of the three samples of its level, the counter's, less 3.0 ns; the command comes at the third sample, 5.0 ns after
the first (R92, R266; notes/assumptions/36). The scheduled pulses of a pin that are due leave; a pulse alone holds its pin high until
its width has passed. The core supplies are up (R26), and no access is held up (notes/assumptions/42). -/
def Obligations.TriggersFireAndPulsesLeave : Prop :=
  ∀ (t : DT) (m n pin : Nat) (rising : Bool) (v : Word) (s : State), n < 64 → pin < 8 →
    let d := (s.time.advance t).dt
    let at_ := dtCount (d - 327680) - 196608
    let watch := watchesEdge s pin rising
    let due (q : AePulse) : Bool := q.pin = pin && decide (0 ≤ (d - q.start).toInt)
    let edge (s : State) : State := { s with ae := { s.ae with
      level := setBits s.ae.level pin 1 (b2n rising)
      edges := if rising then s.ae.edges.set pin (s.ae.edges.look pin + 1) else s.ae.edges } }
    (Unhindered t m s → s.standby = false → s.hk.corePower = true → (s.checks.look pAE).running = none → s.gb (F.AE_TRG_CFG_EN n) = false →
      ∃ u, exec (.triggerUnitEnable t m n v) s = .next u ∧ u.gb (F.AE_TRG_CFG_EN n) = false ∧ u.g (F.CHECK_BUSY pAE) = 1 ∧
        u.g (F.AE_TRG_CFG_COND n) = getBits v.toNat 60 3 ∧ u.g (F.AE_TRG_CFG_CHANNEL n) = getBits v.toNat 44 12 ∧
        u.g (F.AE_TRG_CFG_HOLDOFF n) = getBits v.toNat 0 25 ∧
        (∀ b, eventReg b = false → b ≠ (F.AE_TRG_CFG n).adr → b ≠ (F.CHECK pAE).adr → u.reg b = s.reg b) ∧
        Ends { arrive t s with regs := u.regs, checks := u.checks } u) ∧
    ((∀ k < 64, watch k = false) → Does (.trigPinEdge t pin rising) s (edge (arrive t s))) ∧
    ((pinEdge (arrive t s) pin rising at_).devNow = s.devNow →
      ∃ u, exec (.trigPinEdge t pin rising) s = .next u ∧ u.ae.level = setBits s.ae.level pin 1 (b2n rising) ∧
      ∀ k < 64,
        (watch k = true → (s.ae.trg.look k).fired = none →
          u.g (F.AE_TRG_STATE_COUNT k) = satInc 32 (s.g (F.AE_TRG_STATE_COUNT k)) ∧ (u.ae.trg.look k).fired = some at_) ∧
        (∀ f, watch k = true → (s.ae.trg.look k).fired = some f →
          (at_ - f).toInt < ((s.g (F.AE_TRG_CFG_HOLDOFF k) * 1000 * 65536 : Nat) : Int) →
          u.g (F.AE_TRG_STATE_COUNT k) = s.g (F.AE_TRG_STATE_COUNT k) ∧ (u.ae.trg.look k).fired = some f) ∧
        (watch k = false → u.g (F.AE_TRG_STATE_COUNT k) = s.g (F.AE_TRG_STATE_COUNT k) ∧ u.ae.trg.look k = s.ae.trg.look k)) ∧
    (s.ae.pulses.any due = false → Does (.trigOutPulse t pin) s (arrive t s)) ∧
    (s.ae.pulses.any due = true → ∃ u, exec (.trigOutPulse t pin) s = .next u ∧
      u.ae.pulses = s.ae.pulses.filter (fun q => !due q) ∧ (∀ q ∈ s.ae.pulses, due q = true → .pulse pin q.start q.width ∈ u.out) ∧
      (∀ q, s.ae.pulses.filter due = [q] → s.ae.high.look pin = none →
        trigOut u pin = decide ((d - (q.start + BitVec.ofNat 64 (q.width * 65536))).toInt < 0)) ∧
      (∀ k, k ≠ pin → trigOut u k = trigOut (arrive t s) k) ∧
      Ends { arrive t s with ae := { s.ae with pulses := u.ae.pulses, high := u.ae.high } } u)

/-- Streams (R260, R262, R269, R274, R251). The open packet of a stream closes FLUSH after it opened; a running stream gets a
MAPPING packet every MAP_INTERVAL; a member of a record that has taken twice its expected time is closed with what it has, and
the record is written once every member is complete; that POST = 0 counts as one sample there is the model's choice
(notes/assumptions/36). A packet goes to the ring, waits for the stream-packet queue, or the stream overflows (R20, R272); credits of
that queue make room in it. Before its time nothing happens. The streams have been told the time state and the selection that stand
(R262), nothing that they write lies over registers or watched words, and no ring of the event hub over the stream's ST_STATUS. A
channel disabled leaves its map and nothing else, where no angle channel takes its samples, no record of its stream is open, the core
supplies are up (R26) and no access is held up (notes/assumptions/42). -/
def Obligations.StreamsFlushMapAndTruncate : Prop :=
  ∀ (t : DT) (m n c : Nat) (s : State), n < 256 → c < 4096 →
    let d := (s.time.advance t).dt
    let x := s.str n
    let flush : Int := ((getBits x.cfg 0 32 * 1000 * 65536 : Nat) : Int)
    let every : Int := ((max 1 (s.g F.AE_CFG_MAP_INTERVAL) * 1000000000 * 65536 : Nat) : Int)
    let due := x.mapped + BitVec.ofInt 64 every
    let written (u : State) : Prop := (u.str n).state = 3 ∨ s.ae.packets < u.ae.packets ∨ x.held.length < (u.str n).held.length
    let late (r : AeRec) (c : Nat) : Bool := !memberDone s n r c &&
      decide (((2 * max 1 x.post * spacing s c : Nat) : Int) ≤ (d - r.dt).toInt)
    let told := s.ae.told = ((arrive t s).tu.tstate, (arrive t s).tu.selected)
    let apart := ∀ b, b / 8 = (stBase n + F.ST_STATUS_STATE.adr) / 8 → ¬ ringWord s b
    let lands (r : State) := r.devNow = s.devNow
    (told → x.pkt = none → Does (.packetFlush t n) s (arrive t s)) ∧
    (∀ p, told → x.pkt = some p →
      ((d - (p.opened + BitVec.ofInt 64 flush)).toInt < 0 → Does (.packetFlush t n) s (arrive t s)) ∧
      (0 ≤ (d - (p.opened + BitVec.ofInt 64 flush)).toInt → apart → lands (packetFlush (arrive t s) n) →
        ∃ u, exec (.packetFlush t n) s = .next u ∧ (u.str n).pkt = none ∧ (strLive s n = true → written u))) ∧
    (told → (x.state ≠ 2 ∨ (d - due).toInt < 0) → Does (.mappingInterval t n) s (arrive t s)) ∧
    (told → x.state = 2 → 0 ≤ (d - due).toInt → apart → lands (mappingInterval (arrive t s) n) → ∃ u, exec (.mappingInterval t n) s = .next u ∧
      (u.str n).mapped = due ∧ written u) ∧
    (x.rcd = none → Does (.recordTruncated t n) s (arrive t s)) ∧
    (∀ r, x.rcd = some r →
      ((∃ c ∈ members s n, memberDone s n r c = false ∧ late r c = false) → Does (.recordTruncated t n) s
        ((arrive t s).onStr n (fun x => { x with rcd := some { r with shut := r.shut ++ (members s n).filter (late r) } }))) ∧
      ((∀ c ∈ members s n, memberDone s n r c = true ∨ late r c = true) → lands (recordTruncated (arrive t s) n) →
        ∃ u, exec (.recordTruncated t n) s = .next u ∧ (u.str n).rcd = none ∧ (u.str n).records = x.records + 1)) ∧
    ((∀ e ∈ s.ae.str, e.2.held = []) → Does (.creditReturn t (.stream c)) s
      { arrive t s with ae := { s.ae with path := s.ae.path - c } }) ∧
    (Unhindered t m s → (s.checks.look pAE).running = none → s.hk.corePower = true →
      (chOn s c = false → Does (.channelDisable t m c) s (arrive t s)) ∧
      (chOn s c = true → (∀ g ∈ enabledAngs s, (s.angCh g).source ≠ c) → (s.str (s.aeCh c).stream).rcd = none →
        ∃ u, exec (.channelDisable t m c) s = .next u ∧
        (∀ k < 4096, chOn u k = if k = c then false else chOn s k) ∧
        (∀ b, eventReg b = false → b ≠ (F.AE_CHMAP (c / 64)).adr → u.reg b = s.reg b) ∧ Ends { arrive t s with regs := u.regs } u))

/-- The angle domain (R281, R291, R292, R294, R296), the core supplies up (R26) and no access held up (notes/assumptions/42). An angle channel disabled is as one never enabled,
RING_OVF is 0, and its records still to write are gone; a histogram disabled counts no more; the oldest record of a channel leaves the
list when it is written, here not over registers or watched words, and not before its turn; a copy that is complete shows DONE. -/
def Obligations.AngleChannelsHistogramsAndCopies : Prop :=
  ∀ (t : DT) (m g c : Nat) (s : State), g < 512 → c < 4096 →
    (Unhindered t m s → (s.checks.look pANG).running = none → s.hk.corePower = true →
      (angOn s g = false → Does (.angleChannelDisable t m g) s (arrive t s)) ∧
      (angOn s g = true → ∃ u, exec (.angleChannelDisable t m g) s = .next u ∧ angOn u g = false ∧ u.angCh g = default ∧
        (s.enabled pEH = false → ang u g F.ANG_STATUS_RING_OVF = 0) ∧
        (∀ e ∈ u.ang.due, e.1 ≠ g) ∧ (∀ k, k ≠ g → u.angCh k = s.angCh k) ∧
        (∀ b, eventReg b = false → b ≠ (F.ANG_RUNMAP (g / 64)).adr → b ≠ (F.ANG_OVFMAP (g / 64)).adr → u.reg b = s.reg b) ∧
        Ends { arrive t s with regs := u.regs, mem := u.mem, poison := u.poison, ang := u.ang } u) ∧
      ∃ u, exec (.histogramDisable t m c) s = .next u ∧ (∀ k < 4096, histOn u k = if k = c then false else histOn s k) ∧
        u.ang.hist.look c = none ∧ (∀ b, eventReg b = false → b ≠ (F.HIST_MAP (c / 64)).adr → u.reg b = s.reg b) ∧
        Ends { arrive t s with regs := u.regs, ang := { s.ang with hist := u.ang.hist } } u) ∧
    ((s.ang.due.find? (fun e => e.1 = g) = none ∨ angReady s g = false) → Does (.angleRecordWrite t g) s (arrive t s)) ∧
    (∀ e, s.ang.due.find? (fun e => e.1 = g) = some e → angReady s g = true →
      (angleRecordWrite (arrive t s) g).devNow = s.devNow → ∃ u, exec (.angleRecordWrite t g) s = .next u ∧ u.ang.due = s.ang.due.erase e) ∧
    (s.ang.copy = none → Does (.copyDone t) s (arrive t s)) ∧
    (∀ o i, s.ang.copy = some (o, i) → ∃ u, exec (.copyDone t) s = .next u ∧ u.g F.ANG_COPY_STATE_DONE = 1 ∧
      u.g F.ANG_COPY_STATE_BUSY = 0 ∧ u.ang.copy = none ∧
      (∀ b, eventReg b = false → b ≠ F.ANG_COPY_STATE.adr → u.reg b = s.reg b) ∧
      Ends { arrive t s with regs := u.regs, ang := { s.ang with copy := none } } u)

/-! ### The twin pair (chapter 15) -/

/-- Something that arrives over the party-wall link while its ingress buffer is full is discarded whole, and counted (R21). -/
def Sys2Proof.IsDiscarded (s : State) (c : Instr) : Prop :=
  ∃ u, exec c s = .next u ∧ (∀ b, eventReg b = false → u.reg b = s.reg b) ∧
    u.tw = { s.tw with discards := s.tw.discards + 1, told := u.tw.told, followed := u.tw.followed, image := u.tw.image }

/-- PW_LINK_UP (R384, R387). The link comes up with at least two lanes on an enabled TWIN unit: the identity leaves, TW_PEER takes
the partner's, CHECK the result of pairing with the HK as master. Where the units pair, one becomes ACTIVE, and sends the bulk copy
(R405), the other SYNCING, without table copies of its service before (R168); that a standby which was isolated keeps its role is the
model's choice (R401; notes/assumptions/41). Nothing else changes where the unit serves no table copy. -/
def Sys2Proof.ThePartyWallLinkComesUp : Prop :=
  ∀ (t : DT) (lanes serial rev pRole id : Nat) (s : State),
    let r := arrive t s
    let ready := s.enabled pPW = true ∧ s.gb F.TW_CFG_MODE = true ∧ s.tw.link = false ∧ 2 ≤ popCount 4 (lanes % 16)
    let own := s.g F.TW_CFG_TWIN_ID
    let code := if s.tw.role = 2 ∧ pRole % 8 = 2 then 0x0A10 else if own = id % 2 then 0x0A11
      else if rev % 65536 / 256 ≠ getBits (s.g F.BOOT_STATUS_VERSION) 24 8 then 0x0A12 else 0
    let pairs := code = 0 ∧ s.tw.role ≠ 5 ∧ pRole % 8 ≠ 5
    let leads := s.tw.role = 2 ∨ (pRole % 8 ≠ 2 ∧ own = 0)
    let rejoins := s.tw.role = 4 ∧ s.tw.isolated = true
    let up := Instr.pwLinkUp t lanes serial rev pRole id
    (¬ ready → Does up s r) ∧
    (ready → ∃ u, exec up s = .next u ∧ u.tw.link = true ∧ u.tw.lanes = lanes % 16 ∧ u.g F.TW_PEER_SERIAL = serial % 2 ^ 32 ∧
      u.g F.TW_PEER_REVISION = rev % 65536 ∧ u.g F.TW_PEER_TWIN_ID = id % 2 ∧ u.g (F.CHECK_REASON pPW) = code ∧
      u.g (F.CHECK_MASTER pPW) = 5 ∧ u.tw.refused = decide (code ≠ 0) ∧
      Out.identity (s.g F.CHIP_SERIAL_SERIAL) (getBits (s.g F.BOOT_STATUS_VERSION) 16 16) s.tw.role own ∈ u.out ∧
      (¬ pairs → u.tw.role = s.tw.role ∧ u.g F.TW_PEER_ROLE = pRole % 8) ∧
      (pairs → leads → u.tw.role = 2 ∧ u.g F.TW_PEER_ROLE = 3 ∧ u.tw.dtOff = 0 ∧ u.tw.dtRate = 0 ∧
        ∃ words regs rest, Out.bulk words regs rest ∈ u.out) ∧
      (pairs → ¬ leads → ¬ rejoins → u.tw.role = 3 ∧ u.tw.bulkDone = false ∧ u.tw.consecutive = 0 ∧ u.tw.early = none ∧
        u.le.syncs = [] ∧ u.g F.TW_PEER_ROLE = 2) ∧
      (pairs → ¬ leads → rejoins → u.tw.role = 4 ∧ u.tw.isolated = false ∧ u.g F.TW_PEER_ROLE = 2) ∧
      (∀ b, eventReg b = false → b ≠ F.TW_PEER.adr → b ≠ (F.CHECK pPW).adr → u.reg b = s.reg b) ∧
      (s.le.syncs = [] → Ends { r with regs := u.regs, tw := u.tw } u))

/-- PW_LINK_DOWN (R401): the link lost clears its lanes and the lock, and isolates a STANDBY without a ring. -/
def Sys2Proof.ThePartyWallLinkGoesDown : Prop :=
  ∀ (t : DT) (s : State),
    let r := arrive t s
    (s.tw.link = false → Does (.pwLinkDown t) s r) ∧
    (s.tw.link = true → ∃ u, exec (.pwLinkDown t) s = .next u ∧ u.tw.link = false ∧ u.tw.lanes = 0 ∧ u.tw.locked = false ∧
      u.tw.consecutive = 0 ∧ u.tw.refused = false ∧ u.tw.role = s.tw.role ∧ (s.tw.role = 4 → ringSegs s = [] → u.tw.isolated = true) ∧
      (¬ (s.tw.role = 4 ∧ ringSegs s = []) → u.tw.isolated = s.tw.isolated) ∧
      (∀ b, eventReg b = false → b ≠ F.TW_PEER.adr → u.reg b = s.reg b) ∧ Ends { r with regs := u.regs, tw := u.tw } u)

/-- PW_LANE_DOWN (R384): a lane lost leaves the rest up while two remain; with fewer the link is down. A lane that is not up is not
lost. -/
def Sys2Proof.ALaneIsRemoved : Prop :=
  ∀ (t : DT) (lane : Nat) (s : State),
    let r := arrive t s
    let left := setBits s.tw.lanes lane 1 0
    ((s.tw.link = false ∨ 4 ≤ lane ∨ bit s.tw.lanes lane = false) → Does (.pwLaneDown t lane) s r) ∧
    (s.tw.link = true → lane < 4 → bit s.tw.lanes lane = true → 2 ≤ popCount 4 left →
      Does (.pwLaneDown t lane) s { r with tw := { s.tw with lanes := left } }) ∧
    (s.tw.link = true → lane < 4 → bit s.tw.lanes lane = true → popCount 4 left < 2 →
      ∃ u, exec (.pwLaneDown t lane) s = .next u ∧ u.tw.link = false ∧ u.tw.lanes = 0 ∧ u.tw.locked = false ∧ u.tw.role = s.tw.role ∧
        (∀ b, eventReg b = false → b ≠ F.TW_PEER.adr → u.reg b = s.reg b) ∧ Ends { r with regs := u.regs, tw := u.tw } u)

/-- HEARTBEAT_RECEIVED (R385, R388, R396). It gives its cycle and the partner's role; to a standby, T0 of its cycle and an estimate
of the DT offset within 3.2 ns, which the first heartbeat sets and a later one only moves on from where it stands, as the model has it
(notes/assumptions/33 and 44); and the changed words of the partner's protected set. -/
def Sys2Proof.AHeartbeatIsTaken : Prop :=
  ∀ (t : DT) (cyc pRole : Nat) (off rate : Int) (locked : Bool) (b : HeartbeatBody) (s : State),
    let r := arrive t s
    let d := (s.time.advance t).dt
    let beat (b : HeartbeatBody) : Instr := .heartbeatReceived t cyc pRole off rate locked b
    (s.tw.link = false → Does (beat b) s r) ∧ (s.tw.link = true → b.full = true → IsDiscarded s (beat b)) ∧
    (s.tw.link = true → b.full = false → s.enabled pPW = false → Does (beat b) s r) ∧
    (s.tw.link = true → b.full = false → s.enabled pPW = true → ∃ u, exec (beat b) s = .next u ∧
      u.tw.hbCycle = some (BitVec.ofNat 32 cyc) ∧ u.tw.partnerRole = pRole % 8 ∧ u.tw.locked = locked ∧ u.tw.role = s.tw.role ∧
      u.g F.TW_PEER_ROLE = pRole % 8 ∧
      (s.standby = false → u.tw.dtOff = 0 ∧ u.tw.dtRate = 0 ∧ u.tw.dtSlew = 0) ∧
      (s.standby = true → u.tw.dtRate = rate ∧ u.tw.dtAt = d ∧ u.tw.mapT0 = some (BitVec.ofNat 32 cyc, b.t0) ∧
        (u.tw.dtOff + u.tw.dtSlew - off).natAbs ≤ 209715 ∧ (s.tw.mapT0 = none → u.tw.dtSlew = 0) ∧
        (s.tw.mapT0 ≠ none → u.tw.dtOff = mapOff s d)) ∧
      (∀ b, eventReg b = false → b ≠ F.TW_PEER.adr → (b < pFP 0 ∨ pEpoch ≤ b) → u.reg b = s.reg b)) ∧
    (∀ (a : Nat) (v : Word), s.tw.link = true → b.full = false → s.enabled pPW = true → protAddr a = true →
      ∃ u, exec (beat { b with prot := [(a, v)] }) s = .next u ∧ u.tw.partnerSet = tput regDefault s.tw.partnerSet a v)

/-- MIRRORED_WRITE (R390). A mirrored write reaches a standby only. Where none waits before it and the copy of the cycle before its
own is settled, it has its accepted effect without a check: an axis's enable or disable, a feedback stop, a word of an axis record;
what the copy of its cycle has already brought stays as the copy has it. Otherwise it waits behind those that wait. The waiting, and
that the copy prevails, is the model's reading of R390 (notes/assumptions/38). -/
def Sys2Proof.AMirroredWriteHasItsEffect : Prop :=
  ∀ (t : DT) (cyc : Nat) (s : State),
    let r := arrive t s
    let c := BitVec.ofNat 32 cyc
    let write (o : Nat) (v : Word) : Instr := .mirroredWrite t ⟨false, cyc, o⟩ v
    (∀ (o : Nat) (v : Word), s.tw.link = true → IsDiscarded s (.mirroredWrite t ⟨true, cyc, o⟩ v)) ∧
    (∀ (o : Nat) (v : Word), (s.standby = false ∨ s.tw.link = false) → Does (write o v) s r) ∧
    (∀ (o : Nat) (v : Word), s.standby = true → s.tw.link = true →
      (∀ e, (s.tw.mirrors ++ [(c, o, v)]).head? = some e → mirrorReady s e.1 = false) →
      Does (write o v) s { r with tw := { s.tw with mirrors := s.tw.mirrors ++ [(c, o, v)] } }) ∧
    (∀ (o : Nat) (v : Word), s.standby = true → s.tw.link = true → s.tw.mirrors = [] → mirrorReady s c = true →
      mirrorStale s c o = true → Does (write o v) s r) ∧
    (∀ v : Word, s.standby = true → s.tw.link = true → s.tw.mirrors = [] → mirrorReady s c = true →
      (v.getLsbD 9 = true → Does (write F.LE_AXEN_AXIS.adr v) s
        ((r.axPut (v.toNat % 512) F.REP_STATUS_REASON 0).onLe (v.toNat % 512) (fun x =>
        { x with pend := some (some (lawRead s (v.toNat % 512))) }))) ∧
      (v.getLsbD 9 = false → Does (write F.LE_AXEN_AXIS.adr v) s (r.onLe (v.toNat % 512) (fun x =>
        { x with pend := if axisEnabled s (v.toNat % 512) then some none else none }))) ∧
      (v.getLsbD 62 = true → Does (write F.FBE_AXCTL_AXIS.adr v) s (r.onFb (v.toNat % 512) (fun f =>
        { f with pendStart := none, pendStop := f.active }))) ∧
      ∀ a o, a < 512 → o < 0x800 → o % 8 = 0 → o ≠ F.REP_CMD_SYNC.adr → mirrorStale s c (0x100000 + 0x800 * a + o) = false →
        let put := r.setWord (axisBase a + o) v.toNat
        Does (write (0x100000 + 0x800 * a + o) v) s (if o = F.AX_STATUS_ENABLED.adr then statusFollow put a else put))

/-- The party-wall link and what arrives over it (R384 to R390, R401, R405): the parts named hold. -/
def Obligations.TheTwinLinkPairsAndMirrors : Prop :=
  ThePartyWallLinkComesUp ∧ ThePartyWallLinkGoesDown ∧ ALaneIsRemoved ∧ AHeartbeatIsTaken ∧ AMirroredWriteHasItsEffect

/-- STATE_COPY_APPLIED (R391, R400). A copy of the cycle before that comes by UL_END, to a standby or to the new active of a planned
switch that still awaits it, is applied once, and counts; one that comes to a standby complete before the T0 after its cycle is kept until
that T0; any other is dropped. Stated where no mirrored write waits. The keeping, the copy of the handover cycle at the new active, the
words of the cycle before that are kept beside the copy, and ENABLED as the standby's own, of an axis that this T0 has not begun, are the
model's reading (notes/assumptions/38). -/
def Sys2Proof.AStateCopyIsAppliedOnce : Prop :=
  ∀ (t : DT) (cyc a : Nat) (b : CopyBody) (s : State), a < 512 →
    let r := arrive t s
    let c := BitVec.ofNat 32 cyc
    let due := (s.standby = true ∨ s.tw.awaitCopy = some c) ∧ s.tw.link = true ∧ c + 1 = s.time.cycle ∧ s.tw.copyCycle ≠ some c ∧
      ((s.time.advance t).dt - s.at s.time.live.ulEnd).toInt ≤ 0
    let early := s.standby = true ∧ s.tw.link = true ∧ s.time.running = true ∧ c = s.time.cycle
    (s.tw.link = true → b.full = true → IsDiscarded s (.stateCopyApplied t cyc b)) ∧
    (s.tw.mirrors = [] → ¬ due → ¬ early → (s.tw.link = true → b.full = false) → Does (.stateCopyApplied t cyc b) s r) ∧
    (s.tw.mirrors = [] → early → b.full = false →
      Does (.stateCopyApplied t cyc b) s { r with tw := { s.tw with early := some (c, b) } }) ∧
    (s.tw.mirrors = [] → due → b.full = false → ∃ u, exec (.stateCopyApplied t cyc b) s = .next u ∧
      u.tw.copyCurrent = true ∧ u.tw.copyCycle = some c ∧ u.tw.copyClosed = some c ∧ u.tw.awaitCopy = none ∧
      u.tw.copies = s.tw.copies + 1 ∧ u.tw.consecutive = s.tw.consecutive + 1 ∧ u.tw.role = s.tw.role ∧
      (∀ x, eventReg x = false → (x < pFP 0 ∨ pEpoch + 0x1000 ≤ x) → ¬ (pLE ≤ x ∧ x < pLE + 0x1000) → u.reg x = s.reg x)) ∧
    (∀ o v, s.tw.mirrors = [] → due → nsHas s.le.begun a = false → copiedWord o = true → o ≠ F.REP_STATUS_REASON.adr → epochPending s = false →
      b = { (default : CopyBody) with axes := [(a, o, v)], epoch := s.ep } →
      let put := r.setWord (axisBase a + o) (v % 2 ^ 64)
      (o ≠ F.AX_STATUS_ENABLED.adr → Does (.stateCopyApplied t cyc b) s { put with tw := { s.tw with
        copyCurrent := true, copyCycle := some c, copyClosed := some c, awaitCopy := none
        copies := s.tw.copies + 1, consecutive := s.tw.consecutive + 1
        prior := [(axisBase a + o, s.word (axisBase a + o))], priorLe := [], priorCycle := s.tw.copyCycle } }) ∧
      (o = F.AX_STATUS_ENABLED.adr → ∃ u, exec (.stateCopyApplied t cyc b) s = .next u ∧
        axisEnabled u a = s.axb a F.AX_STATUS_ENABLED ∧ axisFaulted u a = bit v F.AX_STATUS_FAULT.lo))

/-- BULK_COPY_DONE (R405). The bulk copy is taken by a SYNCING unit: the axis records and the table pool hold what it lists and
their reset values elsewhere (notes/assumptions/38), the rest of memory is as before, the table copies under way are those it lists
(R168), and the copies that R405 asks for count from here. -/
def Sys2Proof.TheBulkCopyIsTaken : Prop :=
  ∀ (t : DT) (words regs : List (Nat × Nat)) (b : BulkRest) (s : State),
    (s.tw.link = true → b.full = true → IsDiscarded s (.bulkCopyDone t words regs b)) ∧
    (s.tw.role ≠ 3 → (s.tw.link = true → b.full = false) → Does (.bulkCopyDone t words regs b) s (arrive t s)) ∧
    (s.tw.role = 3 → b.full = false → ∃ u, exec (.bulkCopyDone t words regs b) s = .next u ∧ u.tw.bulkDone = true ∧
      u.tw.partnerSet = b.prot ∧ u.tw.role = 3 ∧ u.tw.consecutive = 0 ∧ u.le.syncs = b.syncs.filter (fun p => p.1 < 512) ∧
      (s.enabled pEH = false → (∀ x, bulkMem x = false → u.byte x = s.byte x) ∧
        ∀ a v, words = [(a, v)] → bulkMem a = true → a % 8 = 0 → u.word a = v % 2 ^ 64))

/-- STANDBY_READY (R405): with the bulk copy, 64 copies in a row and the exchange locked a SYNCING unit becomes STANDBY. -/
def Sys2Proof.ASyncingUnitBecomesStandby : Prop :=
  ∀ (t : DT) (s : State),
    let ready := s.tw.role = 3 ∧ s.tw.bulkDone = true ∧ 64 ≤ s.tw.consecutive ∧ s.tw.locked = true
    (ready → Does (.standbyReady t) s { arrive t s with tw := { s.tw with role := 4 } }) ∧
    (¬ ready → Does (.standbyReady t) s (arrive t s))

/-- SHADOW_EVALUATION (R394, R395). A sampled axis is evaluated on two engines in service in the copied state of the cycle before,
where the standby holds it (notes/assumptions/38). Where the engines' work is off by different amounts they are found at odds, and those stay in service
that pass; where it is off by the same the result is compared with the active's record, and counts. -/
def Sys2Proof.TheShadowEvaluationCompares : Prop :=
  ∀ (t : DT) (cyc a e1 e2 flags pass : Nat) (ws : List Int) (main aux : Int) (f g : EngineFlaw) (s : State), a < 512 →
    let r := arrive t s
    let c := BitVec.ofNat 32 cyc
    let fit := s.tw.role = 4 ∧ s.tw.takeover = 0 ∧ s.tw.recovering = false ∧ s.tw.cmpFaulty = false ∧ axisEnabled s a = true ∧
      e1 < 16 ∧ e2 < 16 ∧ e1 ≠ e2 ∧ (s.eng e1).inService = true ∧ (s.eng e2).inService = true ∧ (s.time.cycle - c).toNat ≤ 1
    let same := (f.main - g.main) % 2 ^ 64 = 0 ∧ (f.aux - g.aux) % 2 ^ 64 = 0 ∧ f.flags % 32 = g.flags % 32
    let eval : Instr := .shadowEvaluation t a cyc e1 e2 ws main aux flags (f, g) pass
    (¬ fit → Does eval s r) ∧ (shadowBase s c = none → Does eval s r) ∧
    (fit → shadowBase s c ≠ none → ¬ same → ∃ u, exec eval s = .next u ∧
      (u.eng e1).inService = bit pass 0 ∧ (u.eng e2).inService = bit pass 1 ∧
      u.tw.compares = s.tw.compares ∧ (∀ k, k ≠ e1 → k ≠ e2 → u.eng k = s.eng k) ∧
      (∀ x, eventReg x = false → u.reg x = s.reg x) ∧ Ends { r with le := { s.le with eng := u.le.eng } } u) ∧
    (fit → shadowBase s c ≠ none → same → ∃ u, exec eval s = .next u ∧ u.tw.compares = s.tw.compares + 1 ∧
      (u.tw.mismatches = s.tw.mismatches ∨ (u.tw.mismatches = s.tw.mismatches + 1 ∧ u.g F.TW_CMP_AXIS = a ∧
        u.g F.TW_CMP_CYCLE = c.toNat)) ∧
      (∀ x, eventReg x = false → x ≠ F.TW_CMP.adr → u.reg x = s.reg x) ∧ Ends { r with regs := u.regs, tw := u.tw } u)

/-- The copy to the standby, and the comparison with it (R391, R393 to R395, R400, R405): the parts named hold. -/
def Obligations.TheStandbyCopiesAndCompares : Prop :=
  AStateCopyIsAppliedOnce ∧ TheBulkCopyIsTaken ∧ ASyncingUnitBecomesStandby ∧ TheShadowEvaluationCompares

/-- A core fault of this unit (R398, R399, R403): TW_FAULT keeps the first cause, the partner is told, and the start stops. The
unit becomes SILENT where the cause does not let it run, where it is ACTIVE with a STANDBY that can take over, or where it is a
SYNCING or STANDBY unit that is not taking over; any other that runs the cycle begins a controlled stop at the next TR; that a SINGLE unit
does what an ACTIVE without a partner does is the model's choice (notes/assumptions/41). A cause
that was not detected is not declared. The partner's declaration (R400, R401) lets a STANDBY take over from the cycle that it
can compute first, its partner SILENT; tells an ACTIVE that it is alone, and a SYNCING unit the first cause; or names the handover
cycle of a planned switch. One that meets the full ingress buffer is discarded and counted (R21). -/
def Obligations.CoreFaultsSilenceStopOrHandOver : Prop :=
  ∀ (t : DT) (cause cyc : Nat) (s : State), 1 ≤ cause → cause ≤ 8 →
    let r := arrive t s
    let d := (s.time.advance t).dt
    let runs := cause ∈ [4, 5, 6, 7]
    let handsOver := s.tw.role = 2 ∧ s.tw.link = true ∧ s.tw.partnerRole = 4 ∧ s.tw.recovering = false
    let falls := handsOver ∨ ¬ runs ∨ ((s.tw.role = 3 ∨ s.tw.role = 4) ∧ s.tw.takeover = 0)
    let stops := ¬ falls ∧ s.tw.role ∈ [0, 2, 3, 4]
    let first := if s.g F.TW_FAULT_CAUSE = 0 then cause else s.g F.TW_FAULT_CAUSE
    let told := cause ≠ 7 ∧ (cause = 6 → enginesShort s = true ∧ nsHas s.tw.told 6 = false) ∧
      (cause ≠ 6 → nsHas s.tw.standing cause = true)
    let notice (k : Nat) : Instr := .declarationReceived t ⟨k, false⟩ cyc
    (told → ∃ u, exec (.coreFaultDeclared t cause) s = .next u ∧ u.g F.TW_FAULT_CAUSE = first ∧ u.hk.starting = false ∧
      (falls → u.tw.role = 5) ∧ (¬ falls → u.tw.role = s.tw.role) ∧ (stops → u.tw.stopPending = true) ∧
      (¬ stops → u.tw.stopPending = s.tw.stopPending) ∧ (s.tw.link = true → Out.party 1 cause ∈ u.out) ∧
      (s.g F.TW_FAULT_CAUSE = 0 → u.reg F.TW_FAULT_DT.adr = (dtCount d).toNat) ∧
      (∀ b, eventReg b = false → b ≠ F.TW_FAULT.adr → b ≠ F.TW_FAULT_DT.adr → u.reg b = s.reg b) ∧
      Ends { r with regs := u.regs, tw := u.tw, hk := { s.hk with starting := false } } u) ∧
    (cause ≠ 7 → ¬ told → Does (.coreFaultDeclared t cause) s r) ∧
    (s.tw.link = false → Does (notice cause) s r ∧ Does (notice 0) s r) ∧
    (s.tw.link = true → s.tw.role = 4 → s.tw.takeover = 0 →
      Does (notice 0) s { r with tw := { s.tw with switchCycle := some (BitVec.ofNat 32 cyc) } } ∧
      ∃ u, exec (notice cause) s = .next u ∧ u.tw.takeover = cause + 1 ∧ u.tw.recovering = true ∧ u.tw.recStart = d ∧
        u.tw.role = 4 ∧ u.tw.firstCycle = firstComputed s d ∧ u.hk.starting = false ∧ u.g F.TW_FAULT_CAUSE = first ∧
        u.tw.partnerRole = 5 ∧ u.g F.TW_PEER_ROLE = 5 ∧
        (∀ b, eventReg b = false → b ≠ F.TW_FAULT.adr → b ≠ F.TW_FAULT_DT.adr → b ≠ F.TW_PEER.adr → u.reg b = s.reg b)) ∧
    (s.tw.link = true → s.tw.role = 2 → ∃ u, exec (notice cause) s = .next u ∧ u.g F.TW_FAULT_CAUSE = first ∧
      (cause ≠ 7 → u.tw.role = 2 ∧ u.tw.partnerRole = 5 ∧ u.g F.TW_PEER_ROLE = 5) ∧
      (cause = 7 → handsOver → u.tw.role = 5) ∧ (cause = 7 → ¬ handsOver → u.tw.role = 2 ∧ u.tw.stopPending = true)) ∧
    (s.tw.link = true → s.tw.role = 3 → ∃ u, exec (notice cause) s = .next u ∧ u.g F.TW_FAULT_CAUSE = first ∧ u.tw.role = 3 ∧
      u.tw.partnerRole = (if runs then s.tw.partnerRole else 5)) ∧
    (s.tw.link = true → s.tw.role ∉ [2, 3, 4] → Does (notice cause) s r) ∧
    (s.tw.link = true → s.tw.role ≠ 4 → Does (notice 0) s r) ∧
    (∀ k, s.tw.link = true → IsDiscarded s (.declarationReceived t ⟨k, true⟩ cyc))

/-! ### Power feeds, housekeeping and the start (chapters 15, 17 and 18) -/

/-- The state of a feed after a sample of `v` in 10 mV (Table 15.6): above 78 V over-voltage, below 32.5 V absent, at once;
disabled stays disabled. -/
def Sys2Proof.feedAfter (f : FeedSt) (v : Nat) : Nat :=
  if f.state = 3 then 3 else if 7800 < v then 2 else if v < 3250 then 0 else f.state

/-- The feeds (R407 to R409). An edge of the always-on domain refreshes the measured values with their DTs and moves the feeds by
their samples; with a good feed the charger holds a charged HOLDUP at 47.0 to 49.0 V, and a short reads 0 (R472; notes/assumptions/41);
where the last good feed is lost POWER_FAIL begins, the engines and the signal cores leave service, and the LPDDR5 goes into
self-refresh (Table 15.7). After 10 ms above 34 V an absent
feed is good, and after 10 ms below 76 V one in over-voltage, which ends a power failure with a boot. (Stated for quadrature
channels that have nothing due.) -/
def Obligations.FeedsAreMeasuredAndSupervised : Prop :=
  ∀ (t : DT) (vcore va ca vb cb holdup n : Nat) (tj : Int) (s : State), n < 2 → QuadQuiet s →
    let r := arrive t s
    let d := (s.time.advance t).dt
    let edge := Instr.housekeepingEdge t vcore va ca vb cb holdup tj
    let good (a b : Nat) : Prop := a = 1 ∨ b = 1
    let fails := good s.fs.a.state s.fs.b.state ∧ ¬ good (feedAfter s.fs.a va) (feedAfter s.fs.b vb) ∧ s.fs.powerFail = false
    let holds := holdup ≠ 0 ∧ good (feedAfter s.fs.a va) (feedAfter s.fs.b vb) ∧ (s.fs.charged = true ∨ 4700 ≤ holdup)
    let f := s.feed n
    let ran := ∃ x, f.since = some x ∧ 10000000 * 65536 ≤ (d - x).toInt
    let back (c : Instr) : Prop := ∃ u, exec c s = .next u ∧ u.feed n = { f with state := 1, since := none } ∧
      u.feed (1 - n) = s.feed (1 - n) ∧ u.fs.powerFail = false ∧ (s.fs.powerFail = true → u.hk.booted = false) ∧
      (s.fs.powerFail = false → u.hk.booted = s.hk.booted) ∧ (∀ b, eventReg b = false → u.reg b = s.reg b)
    (∃ u, exec edge s = .next u ∧
      (∀ (m : Fld) (v : Nat), (m, v) ∈ [(F.SG_VCORE_MEAS_MV, vcore), (F.FS_MEAS_A_VOLTS, va), (F.FS_MEAS_A_CURRENT, ca),
        (F.FS_MEAS_B_VOLTS, vb), (F.FS_MEAS_B_CURRENT, cb)] → u.g m = v % 2 ^ 16) ∧
      u.g F.FS_AUX_HOLDUP = (if holds then min 4900 (max 4700 holdup) else min 4900 holdup) ∧ (u.fs.charged = true ↔ holds) ∧
      (∀ m ∈ [F.SG_VCORE_MEAS_DT, F.FS_MEAS_A_DT, F.FS_MEAS_B_DT, F.FS_AUX_DT], u.reg m.adr = (dtCount d).toNat) ∧
      u.fs.a.state = feedAfter s.fs.a va ∧ u.fs.b.state = feedAfter s.fs.b vb ∧ u.fs.a.volts = va ∧ u.fs.b.volts = vb ∧
      u.fs.overtemp = (if 1300 ≤ tj then true else if tj < 1200 then false else s.fs.overtemp) ∧
      (fails → u.fs.powerFail = true ∧ (∀ k < 16, (u.eng k).inService = false) ∧
        (∀ k < 8, (u.core k).inService = false ∧ (u.core k).closing = false) ∧ u.ms.selfRefresh = true ∧
        (s.tw.role = 0 → u.tw.role = 5)) ∧
      (¬ fails → u.fs.powerFail = s.fs.powerFail ∧ u.tw.role = s.tw.role ∧ ∀ k, u.eng k = s.eng k)) ∧
    (f.state = 0 → ran → back (.feedGood t n)) ∧ (f.state = 2 → ran → back (.feedOvReturn t n)) ∧
    ((f.state ≠ 0 ∨ ¬ ran) → Does (.feedGood t n) s r) ∧ ((f.state ≠ 2 ∨ ¬ ran) → Does (.feedOvReturn t n) s r)

/-- What the always-on domain detects (R398, R409, R461 to R463). Over-temperature for 1 ms and a regulator fault that comes are
detected as core faults 5 and 2; the watchdog fails the start before its completion, by a restart or, at the third failure, by
minimal mode (stated where no access is held up), and the HK start log takes the failure; after the completion, and after a start that
was stopped, it is core fault 3 and a restart. A HOLDUP below 24 V in a power failure shuts the module down; the count and the log of
failed starts then come from the HK start log. That a lapse after a stopped start is the core fault, and what else a shutdown keeps, is
the model's choice (notes/assumptions/26). -/
def Obligations.OvertempWatchdogRegulatorAndShutdown : Prop :=
  ∀ (t : DT) (on vcore : Bool) (s : State),
    let r := arrive t s
    let d := (s.time.advance t).dt
    let hot := (∃ x, s.fs.tjSince = some x ∧ 1000000 * 65536 ≤ (d - x).toInt) ∧ nsHas s.tw.told 5 = false
    let fault : FsSt := { s.fs with regFault := on, regVcore := on && vcore }
    let idle := s.hk.booted = false ∨ s.hk.minimal = true ∨ s.hk.restartAt ≠ none
    let count := s.g F.HK_FAILCNT_COUNT
    let falls := s.fs.powerFail = true ∧ s.g F.FS_AUX_HOLDUP < 2400
    (hot → Does (.overtemp t) s { r with tw := { s.tw with told := nsAdd s.tw.told 5, standing := nsAdd s.tw.standing 5 } }) ∧
    (¬ hot → Does (.overtemp t) s r) ∧
    (on = true → s.fs.regFault = false → Does (.regulator t on vcore) s { r with
      fs := fault, tw := { s.tw with standing := nsAdd s.tw.standing 2 } }) ∧
    (¬ (on = true ∧ s.fs.regFault = false) → Does (.regulator t on vcore) s { r with fs := fault }) ∧
    (idle → Does (.hkWatchdog t) s r) ∧
    (¬ idle → s.hk.started = true ∨ s.g F.HK_START_STATE_STAGE = 14 → Does (.hkWatchdog t) s { r with
      tw := { s.tw with standing := nsAdd s.tw.standing 3 }, hk := { s.hk with restartAt := some d } }) ∧
    (¬ idle → s.hk.started = false → s.g F.HK_START_STATE_STAGE ≠ 14 → s.hk.imageFail = false →
      (count < 2 → ∃ u, exec (.hkWatchdog t) s = .next u ∧ u.g F.HK_FAILCNT_COUNT = count + 1 ∧
        u.g (F.HK_FAILLOG_CAUSE 0) = 3 ∧ u.reg (F.HK_FAILLOG 1).adr = s.reg (F.HK_FAILLOG 0).adr ∧
        u.hk.restartAt = some d ∧ u.hk.starting = false ∧
        u.hk.log = (2, BitVec.ofNat 64 (u.reg (F.HK_FAILLOG 0).adr)) :: s.hk.log) ∧
      (2 ≤ count → NothingHeldUp s → ∃ u, exec (.hkWatchdog t) s = .next u ∧ u.g F.HK_FAILCNT_COUNT = 3 ∧ u.hk.minimal = true ∧ u.tw.role = 5 ∧
        u.time.running = false)) ∧
    (¬ falls → Does (.shutdown t) s r) ∧
    (falls → ∃ u, exec (.shutdown t) s = .next u ∧ u.fs.shutdown = true ∧ u.fs.powerFail = false ∧ u.mem = [] ∧
      u.time.running = false ∧ u.hk.log = s.hk.log ∧ u.g F.HK_FAILCNT_COUNT = logCount s.hk.log ∧
      u.reg F.BOOT_SEL_IMAGE.adr = s.reg F.BOOT_SEL_IMAGE.adr ∧
      ∀ k < 3, u.reg (F.HK_FAILLOG k).adr = (((s.hk.log.filter (fun e => e.1 = 2)).map (fun e => e.2.toNat))[k]?).getD 0)

/-- HK_BOOT (R446, R463, R465). A boot that is not due does nothing; at three failed starts, or without a good image, it ends in
minimal mode (stated where no access is held up); with a good image, its self-test passed and no configuration it enables the chip,
HP and MP pages, each by an automatic check (R414), and Keystone, and runs ring 0 of DM12 to DM15 (R367); without AUTO the start is
complete at once with STAGE 13. The start and its outcome go into the HK start log (R463). That of HK_START_STATE the last refusal stays,
and that without a configuration nothing is applied, is the model's choice (R466; notes/assumptions/26). -/
def Sys2Proof.TheModuleBoots : Prop :=
  ∀ (t : DT) (b : BootIn) (s : State),
    let due := (s.fs.a.state = 1 ∨ s.fs.b.state = 1) ∧
      (s.hk.booted = false ∨ ∃ x, s.hk.restartAt = some x ∧ 0 ≤ ((s.time.advance t).dt - x).toInt)
    let count := s.g F.HK_FAILCNT_COUNT
    let sel := s.g F.BOOT_SEL_IMAGE
    let ok := if sel = 0 then b.okA else b.okB
    let open_ (u : State) : Prop := ∀ p ∈ [pChip, pHP, pMP], u.enabled p = true ∧ u.g (F.CHECK_MASTER p) = 5 ∧
      u.g (F.CHECK_REFUSED p) = 0 ∧ u.g (F.CHECK_SEQ p) = (s.g (F.CHECK_SEQ p) + 1) % 2 ^ 16
    (¬ due → Does (.hkBoot t b) s (arrive t s)) ∧
    (due → NothingHeldUp s → (count = 3 ∨ (b.okA = false ∧ b.okB = false)) → ∃ u, exec (.hkBoot t b) s = .next u ∧
      u.hk.minimal = true ∧ u.tw.role = 5 ∧ u.time.running = false ∧ open_ u) ∧
    (due → count < 3 → ok = true → b.selfTest = true → b.cfg0 = none → b.cfg1 = none → s.g F.HK_START_AUTO = 0 →
      ∃ u, exec (.hkBoot t b) s = .next u ∧ u.hk.started = true ∧ u.hk.starting = false ∧ u.hk.minimal = false ∧
        u.g F.HK_START_STATE_STAGE = 13 ∧ u.g F.HK_FAILCNT_COUNT = 0 ∧ u.g F.BOOT_STATUS_RUNNING = sel ∧ u.enabled pKS = true ∧
        u.hk.log = (1, 0) :: (0, 0) :: s.hk.log ∧
        (∀ m ∈ [F.HK_START_STATE_FAILED_STAGE, F.HK_START_STATE_REASON, F.HK_START_STATE_ITEM], u.g m = s.g m) ∧
        open_ u ∧ (∀ n ∈ [12, 13, 14, 15], (u.dma.look (2 * n)).state = 1) ∧ u.time.running = false)

/-- START_STAGE (R454, R457 to R459). A stage that is ready begins, and STAGE takes its number; stage 8 starts the cycle 1 ms
ahead of TU_DT, by the HK. One that is not ready does not begin. What ends a stage is read from Table 18.1, for stages 7 and 9 by
inference (notes/assumptions/26). -/
def Sys2Proof.AStageBeginsWhenItIsReady : Prop :=
  ∀ (t : DT) (n : Nat) (s : State),
    let r := arrive t s
    let start := dtCount (s.time.advance t).dt + BitVec.ofNat 64 (1000000 * 65536)
    (stageReady s n = false → Does (.startStage t n) s r) ∧
    (stageReady s n = true → ∃ u, exec (.startStage t n) s = .next u ∧ u.g F.HK_START_STATE_STAGE = n ∧
      u.hk.begun = nsAdd s.hk.begun n ∧ u.hk.starting = true) ∧
    (stageReady s n = true → n ∉ [6, 7, 8, 9, 10, 12] → Does (.startStage t n) s { r.put F.HK_START_STATE_STAGE n with
      hk := { s.hk with begun := nsAdd s.hk.begun n } }) ∧
    (stageReady s n = true → n = 8 → (s.checks.look pCyc).running = none → s.enabled pCyc = false →
      ∃ u, exec (.startStage t n) s = .next u ∧ u.reg F.CYC_START_DT.adr = start.toNat ∧
        (u.checks.look pCyc).running = some ⟨.pageEnable, pCyc, 0, start.toNat, hkMaster, none, (s.time.advance t).dt⟩ ∧
        u.g (F.CHECK_BUSY pCyc) = 1)

/-- STAGE_WAIT_EXPIRY (R460, R462). The wait of stage 4 that expires for a port whose link is down is noted with the stage and the
port: under PARTIAL its segment is skipped, else the start fails and restarts. In a stage that does not run nothing expires. -/
def Sys2Proof.AStageWaitExpires : Prop :=
  ∀ (t : DT) (n p : Nat) (s : State),
    let d := (s.time.advance t).dt
    let runs := s.hk.starting = true ∧ nsHas s.hk.begun n = true ∧ nsHas s.hk.stagesDone n = false
    let due := runs ∧ n = 4 ∧ p ∈ startPorts s ∧ s.gb (F.FP_STATE_LINK_UP p) = false ∧
      ((s.g F.HK_START_PORT_WAIT * 1000000 * 65536 : Nat) : Int) ≤ (d - s.hk.feedsAt).toInt
    let noted (u : State) : Prop := u.g F.HK_START_STATE_FAILED_STAGE = 4 ∧ u.g F.HK_START_STATE_REASON = 0 ∧
      u.g F.HK_START_STATE_ITEM = p
    (¬ runs → Does (.stageWaitExpiry t n p) s (arrive t s)) ∧
    (due → s.gb F.HK_START_PARTIAL = true →
      ∃ u, exec (.stageWaitExpiry t n p) s = .next u ∧ noted u ∧ bit (u.g F.HK_START_STATE_SKIPPED) p = true ∧
        (∀ b, eventReg b = false → b ≠ F.HK_START_STATE.adr → u.reg b = s.reg b)) ∧
    (due → s.gb F.HK_START_PARTIAL = false → s.hk.imageFail = false → s.g F.HK_FAILCNT_COUNT < 2 →
      ∃ u, exec (.stageWaitExpiry t n p) s = .next u ∧ noted u ∧ u.g F.HK_FAILCNT_COUNT = s.g F.HK_FAILCNT_COUNT + 1 ∧
        u.g (F.HK_FAILLOG_CAUSE 0) = 4 ∧ u.hk.starting = false ∧ u.hk.restartAt = some d)

/-- PAIR_WAIT_EXPIRY (R455): the unit that is still PAIRING and has TWIN_ID 0 becomes ACTIVE without a partner, and its start goes on as
that of a SINGLE unit; any other waits on. -/
def Sys2Proof.ThePairWaitExpires : Prop :=
  ∀ (t : DT) (s : State),
    let leads := s.enabled pPW = true ∧ s.tw.role = 1 ∧ s.g F.TW_CFG_TWIN_ID = 0 ∧
      ((s.g F.HK_START_PAIR_WAIT * 1000000 * 65536 : Nat) : Int) ≤ ((s.time.advance t).dt - s.hk.pairSince).toInt
    (leads → Does (.pairWaitExpiry t) s { arrive t s with tw := { s.tw with role := 2 }, hk := { s.hk with single := true } }) ∧
    (¬ leads → Does (.pairWaitExpiry t) s (arrive t s))

/-- AUTO_CLEARED (R461): AUTO reads 0, and the stages that run are the last; no access is held up (notes/assumptions/42). -/
def Sys2Proof.ClearingAutoEndsTheStart : Prop :=
  ∀ (t : DT) (m : Nat) (s : State), Unhindered t m s →
    ∃ u, exec (.autoCleared t m) s = .next u ∧ u.g F.HK_START_AUTO = 0 ∧
      (∀ b, eventReg b = false → b ≠ F.HK_START.adr → u.reg b = s.reg b) ∧
      Ends { arrive t s with regs := u.regs, hk := { s.hk with
        ending := s.hk.ending || (s.gb F.HK_START_AUTO && s.hk.starting) } } u

/-- Boot, the start stages and their waits (R446, R454 to R465): the parts named hold. -/
def Obligations.BootAndStartStages : Prop :=
  TheModuleBoots ∧ AStageBeginsWhenItIsReady ∧ AStageWaitExpires ∧ ThePairWaitExpires ∧ ClearingAutoEndsTheStart

end
end

