-- ==== Sys2Proof/Laws/Store.lean ====
section
/-! SUPPORT. The laws of the sparse tables: what a written key reads as, what the other keys read as, and that
every operation on a table, on memory and on the register file keeps the one canonical form. -/

namespace Sys2Proof.Machine

theorem tget_terase_self {β : Type} (d : Nat → β) (m : List (Nat × β)) (k : Nat) : tget d (terase m k) k = d k := by
  induction m with
  | nil => rfl
  | cons e r ih =>
    obtain ⟨a, v⟩ := e
    by_cases h : a = k <;> simp [terase, tget, h, ih]

theorem tget_terase_other {β : Type} (d : Nat → β) (m : List (Nat × β)) {k j : Nat} (h : j ≠ k) :
    tget d (terase m k) j = tget d m j := by
  induction m with
  | nil => rfl
  | cons e r ih =>
    obtain ⟨a, v⟩ := e
    by_cases ha : a = k
    · simp [terase, tget, ha, ih, Ne.symm h]
    · simp [terase, tget, ha, ih]

theorem tget_tins_self {β : Type} (d : Nat → β) (m : List (Nat × β)) (k : Nat) (v : β)
    (hm : tget (fun _ => none) (m.map (fun e => (e.1, some e.2))) k = none) : tget d (tins m k v) k = v := by
  induction m with
  | nil => simp [tins, tget]
  | cons e r ih =>
    obtain ⟨a, w⟩ := e
    by_cases ha : a = k
    · simp [tget, ha] at hm
    · simp only [List.map_cons, tget, ha, if_false] at hm
      unfold tins
      split
      · simp [tget]
      · simp [tget, ha, ih hm]

theorem tget_tins_other {β : Type} (d : Nat → β) (m : List (Nat × β)) {k j : Nat} (v : β) (h : j ≠ k) :
    tget d (tins m k v) j = tget d m j := by
  induction m with
  | nil => simp [tins, tget, Ne.symm h]
  | cons e r ih =>
    obtain ⟨a, w⟩ := e
    unfold tins
    split
    · simp [tget, Ne.symm h]
    · simp [tget, ih]

theorem terase_absent {β : Type} (m : List (Nat × β)) (k : Nat) :
    tget (fun _ => none) ((terase m k).map (fun e => (e.1, some e.2))) k = none := by
  induction m with
  | nil => rfl
  | cons e r ih =>
    obtain ⟨a, v⟩ := e
    by_cases h : a = k <;> simp [terase, tget, h, ih]

/-- A written key reads as what was written. -/
@[simp] theorem tget_tput_self {β : Type} [DecidableEq β] (d : Nat → β) (m : List (Nat × β)) (k : Nat) (v : β) :
    tget d (tput d m k v) k = v := by
  unfold tput
  split
  · rename_i h; rw [tget_terase_self, h]
  · exact tget_tins_self d _ k v (terase_absent m k)

/-- Every other key reads as before. -/
theorem tget_tput_other {β : Type} [DecidableEq β] (d : Nat → β) (m : List (Nat × β)) {k j : Nat} (v : β)
    (h : j ≠ k) : tget d (tput d m k v) j = tget d m j := by
  unfold tput
  split
  · exact tget_terase_other d m h
  · rw [tget_tins_other d _ v h, tget_terase_other d m h]

/-- Reading any key of a table after a write. -/
theorem tget_tput {β : Type} [DecidableEq β] (d : Nat → β) (m : List (Nat × β)) (k j : Nat) (v : β) :
    tget d (tput d m k v) j = if j = k then v else tget d m j := by
  by_cases h : j = k
  · subst h; simp
  · simp [h, tget_tput_other d m v h]

@[simp] theorem look_set_self {β : Type} [Inhabited β] [DecidableEq β] (m : Tab β) (k : Nat) (v : β) :
    (m.set k v).look k = v := tget_tput_self _ m k v

theorem look_set_other {β : Type} [Inhabited β] [DecidableEq β] (m : Tab β) {k j : Nat} (v : β) (h : j ≠ k) :
    (m.set k v).look j = m.look j := tget_tput_other _ m v h

theorem look_set {β : Type} [Inhabited β] [DecidableEq β] (m : Tab β) (k j : Nat) (v : β) :
    (m.set k v).look j = if j = k then v else m.look j := tget_tput _ m k j v

/-! ### The canonical form -/

/-- All keys of a table lie above `a`. -/
def above {β : Type} (a : Nat) : List (Nat × β) → Bool
  | [] => true
  | (b, _) :: _ => decide (a < b)

theorem twf_cons {β : Type} [DecidableEq β] (d : Nat → β) (a : Nat) (v : β) (r : List (Nat × β)) :
    twf d ((a, v) :: r) = (above a r && decide (v ≠ d a) && twf d r) := by
  cases r with
  | nil => simp [twf, above]
  | cons e r => obtain ⟨b, w⟩ := e; simp [twf, above]

theorem above_trans {β : Type} {a b : Nat} (h : a < b) (m : List (Nat × β))
    (hb : above b m = true) : above a m = true := by
  cases m with
  | nil => rfl
  | cons e r => obtain ⟨c, w⟩ := e; simp [above] at *; omega

theorem terase_above {β : Type} [DecidableEq β] (d : Nat → β) (a : Nat) (m : List (Nat × β)) (k : Nat)
    (hm : twf d m = true) (h : above a m = true) : above a (terase m k) = true := by
  induction m with
  | nil => rfl
  | cons e r ih =>
    obtain ⟨b, w⟩ := e
    rw [twf_cons] at hm
    simp only [Bool.and_eq_true] at hm
    by_cases hb : b = k
    · have hab : a < b := by simpa [above] using h
      simp only [terase, hb, if_true]
      exact ih hm.2 (above_trans hab r hm.1.1)
    · simpa [terase, hb, above] using h

/-- Taking a key out keeps the canonical form. -/
theorem twf_terase {β : Type} [DecidableEq β] (d : Nat → β) (m : List (Nat × β)) (k : Nat) (hm : twf d m = true) :
    twf d (terase m k) = true := by
  induction m with
  | nil => rfl
  | cons e r ih =>
    obtain ⟨b, w⟩ := e
    have hm' := hm
    rw [twf_cons] at hm'
    simp only [Bool.and_eq_true] at hm'
    by_cases hb : b = k
    · simpa [terase, hb] using ih hm'.2
    · simp only [terase, hb, if_false]
      rw [twf_cons, terase_above d b r k hm'.2 hm'.1.1, hm'.1.2, ih hm'.2]
      rfl

theorem tins_above {β : Type} (a : Nat) (m : List (Nat × β)) (k : Nat) (v : β) (h : above a m = true)
    (hk : a < k) : above a (tins m k v) = true := by
  cases m with
  | nil => simpa [tins, above] using hk
  | cons e r =>
    obtain ⟨b, w⟩ := e
    unfold tins
    split
    · simpa [above] using hk
    · simpa [above] using h

theorem twf_tins {β : Type} [DecidableEq β] (d : Nat → β) (m : List (Nat × β)) (k : Nat) (v : β)
    (hm : twf d m = true) (hv : v ≠ d k)
    (ha : tget (fun _ => none) (m.map (fun e => (e.1, some e.2))) k = none) : twf d (tins m k v) = true := by
  induction m with
  | nil => simp [tins, twf, hv]
  | cons e r ih =>
    obtain ⟨b, w⟩ := e
    have hm' := hm
    rw [twf_cons] at hm'
    simp only [Bool.and_eq_true] at hm'
    by_cases hb : b = k
    · simp [tget, hb] at ha
    · simp only [List.map_cons, tget, hb, if_false] at ha
      unfold tins
      split
      · rename_i hlt
        rw [twf_cons, hm]
        simp [above, hlt, hv]
      · rename_i hge
        rw [twf_cons, tins_above b r k v hm'.1.1 (by omega), hm'.1.2, ih hm'.2 ha]
        rfl

/-- A write keeps the canonical form. -/
theorem twf_tput {β : Type} [DecidableEq β] (d : Nat → β) (m : List (Nat × β)) (k : Nat) (v : β)
    (hm : twf d m = true) : twf d (tput d m k v) = true := by
  unfold tput
  split
  · exact twf_terase d m k hm
  · rename_i h; exact twf_tins d _ k v (twf_terase d m k hm) h (terase_absent m k)

/-! ### Registers -/

/-- A register reads as the 64 bits written to it. -/
@[simp] theorem State.reg_setReg_self (s : State) (a v : Nat) : (s.setReg a v).reg a = v % 2 ^ 64 := by
  simp [State.setReg, State.reg]

/-- A register write leaves every other register alone. -/
theorem State.reg_setReg_other (s : State) {a b : Nat} (v : Nat) (h : b ≠ a) : (s.setReg a v).reg b = s.reg b := by
  simp [State.setReg, State.reg, tget_tput_other _ _ _ h]

/-- The register file stays canonical under a register write. -/
theorem State.setReg_wf (s : State) (a v : Nat) (h : twf regDefault s.regs = true) :
    twf regDefault (s.setReg a v).regs = true := twf_tput _ _ _ _ h

/-- A field write leaves every other register alone. -/
theorem State.reg_put_other (s : State) (f : Fld) (v : Nat) {b : Nat} (h : b ≠ f.adr) : (s.put f v).reg b = s.reg b :=
  State.reg_setReg_other s _ h

theorem State.put_wf (s : State) (f : Fld) (v : Nat) (h : twf regDefault s.regs = true) :
    twf regDefault (s.put f v).regs = true := State.setReg_wf s _ _ h

/-! ### Bytes of memory -/

/-- A byte of memory reads as it was written. -/
@[simp] theorem State.byte_setByte_self (s : State) (a : Nat) (v : Byte) : (s.setByte a v).byte a = v := by
  simp [State.setByte, State.byte]

/-- A byte write leaves every other byte alone. -/
theorem State.byte_setByte_other (s : State) {a b : Nat} (v : Byte) (h : b ≠ a) : (s.setByte a v).byte b = s.byte b := by
  simp [State.setByte, State.byte, tget_tput_other _ _ _ h]

/-- Memory stays canonical under a byte write. -/
theorem State.setByte_wf (s : State) (a : Nat) (v : Byte) (h : Memory.wf s.mem = true) :
    Memory.wf (s.setByte a v).mem = true := twf_tput _ _ _ _ h

/-- Memory stays canonical under a write of several bytes. -/
theorem State.setBytes_wf (n : Nat) : ∀ (s : State) (a v : Nat), Memory.wf s.mem = true →
    Memory.wf (s.setBytes a v n).mem = true := by
  induction n with
  | zero => intro s a v h; exact h
  | succ n ih => intro s a v h; exact ih _ _ _ (State.setByte_wf s a _ h)

/-- A write of `n` bytes from `a` leaves every byte outside `a` to `a + n - 1` alone. -/
theorem State.byte_setBytes_other (n : Nat) : ∀ (s : State) (a v : Nat) {b : Nat}, (b < a ∨ a + n ≤ b) →
    (s.setBytes a v n).byte b = s.byte b := by
  induction n with
  | zero => intro s a v b _; rfl
  | succ n ih =>
    intro s a v b h
    unfold State.setBytes
    rw [ih _ _ _ (by omega)]
    exact State.byte_setByte_other s _ (by omega)

theorem forEach_keeps {σ α : Type} {P : σ → Prop} (f : α → σ → σ) (hf : ∀ a s, P s → P (f a s)) (l : List α) :
    ∀ s, P s → P (forEach f l s) := by
  induction l with
  | nil => intro s h; exact h
  | cons a r ih => intro s h; exact ih _ (hf a s h)

theorem State.put_mem (s : State) (f : Fld) (v : Nat) : (s.put f v).mem = s.mem := rfl

/-- Clearing poison changes no byte of memory. -/
@[simp] theorem State.heal_mem (s : State) (a : Nat) : (s.heal a).mem = s.mem := by
  unfold State.heal
  split
  · exact forEach_keeps (P := fun r : State => r.mem = s.mem) _ (fun k r h => by split <;> simp only [State.put_mem, h]) _ _ rfl
  · rfl

/-- Memory stays canonical under a word write. -/
theorem State.setWord_wf (s : State) (a v : Nat) (h : Memory.wf s.mem = true) : Memory.wf (s.setWord a v).mem = true :=
  State.setBytes_wf 8 _ _ _ (by rw [State.heal_mem]; exact h)

/-- A word write leaves every byte outside its word alone. -/
theorem State.byte_setWord_other (s : State) (a v : Nat) {b : Nat} (h : b / 8 ≠ a / 8) :
    (s.setWord a v).byte b = s.byte b := by
  unfold State.setWord
  rw [State.byte_setBytes_other 8 _ _ _ (by omega)]
  simp [State.byte]

/-- A write of a field of a record is a write of its word; the read that goes with it can only be noted. -/
theorem State.mput_eq (s : State) (base : Nat) (f : Fld) (v : Nat) : ∃ l, s.mput base f v =
    { s.setWord (base + f.adr) (setBits (s.word (base + f.adr)) f.lo f.w v) with ueDue := l } := by
  unfold State.mput
  generalize s.setWord _ _ = u
  by_cases h : s.poisoned (base + f.adr) = true
  · exact ⟨_, if_pos h⟩
  · exact ⟨u.ueDue, if_neg h⟩

theorem State.mput_mem (s : State) (base : Nat) (f : Fld) (v : Nat) :
    (s.mput base f v).mem = (s.setWord (base + f.adr) (setBits (s.word (base + f.adr)) f.lo f.w v)).mem := by
  obtain ⟨l, h⟩ := State.mput_eq s base f v
  rw [h]

/-- Memory stays canonical under a write of a field of a record. -/
theorem State.mput_wf (s : State) (base : Nat) (f : Fld) (v : Nat) (h : Memory.wf s.mem = true) :
    Memory.wf (s.mput base f v).mem = true := by
  rw [State.mput_mem]; exact State.setWord_wf s _ _ h

end Sys2Proof.Machine
end

