-- ==== Sys2Proof/Laws/Bits.lean ====
section
/-! SUPPORT. Fields: what a field reads as after a field of the same word has been replaced, for bare numbers, for page
registers and for the registers' fields. -/

namespace Sys2Proof.Machine

/-- A field lies below `2 ^ w`. -/
theorem getBits_lt (v lo w : Nat) : getBits v lo w < 2 ^ w := Nat.mod_lt _ (Nat.two_pow_pos w)

/-- A number cut at bit `lo` and at bit `lo + w`. -/
theorem getBits_split (v lo w : Nat) :
    v = (v / 2 ^ (lo + w)) * 2 ^ (lo + w) + getBits v lo w * 2 ^ lo + v % 2 ^ lo := by
  unfold getBits
  rw [Nat.shiftRight_eq_div_pow]
  have h1 := Nat.div_add_mod v (2 ^ lo)
  have h2 := Nat.div_add_mod (v / 2 ^ lo) (2 ^ w)
  have h3 : v / 2 ^ lo / 2 ^ w = v / 2 ^ (lo + w) := by rw [Nat.div_div_eq_div_mul, ← Nat.pow_add]
  rw [h3] at h2
  calc v = 2 ^ lo * (v / 2 ^ lo) + v % 2 ^ lo := h1.symm
    _ = 2 ^ lo * (2 ^ w * (v / 2 ^ (lo + w)) + v / 2 ^ lo % 2 ^ w) + v % 2 ^ lo := by rw [h2]
    _ = _ := by rw [Nat.pow_add]; ring

/-- A replaced field, cut at its ends. -/
theorem setBits_split (v lo w x : Nat) :
    setBits v lo w x = (v / 2 ^ (lo + w)) * 2 ^ (lo + w) + (x % 2 ^ w) * 2 ^ lo + v % 2 ^ lo := by
  have h := getBits_split v lo w
  unfold setBits
  rw [Nat.shiftLeft_eq, Nat.shiftLeft_eq]
  generalize v / 2 ^ (lo + w) * 2 ^ (lo + w) = a at *
  generalize getBits v lo w * 2 ^ lo = b at *
  omega

/-- The replaced field reads as what was put there. -/
@[simp] theorem getBits_setBits_self (v lo w x : Nat) : getBits (setBits v lo w x) lo w = x % 2 ^ w := by
  rw [setBits_split]
  unfold getBits
  rw [Nat.shiftRight_eq_div_pow]
  have hl : v % 2 ^ lo < 2 ^ lo := Nat.mod_lt _ (Nat.two_pow_pos lo)
  have e : v / 2 ^ (lo + w) * 2 ^ (lo + w) + x % 2 ^ w * 2 ^ lo + v % 2 ^ lo =
      v % 2 ^ lo + 2 ^ lo * (2 ^ w * (v / 2 ^ (lo + w)) + x % 2 ^ w) := by rw [Nat.pow_add]; ring
  rw [e, Nat.add_mul_div_left _ _ (Nat.two_pow_pos lo), Nat.div_eq_of_lt hl, Nat.zero_add, Nat.mul_add_mod,
    Nat.mod_mod]

/-- A field below a replaced one is not changed. -/
theorem getBits_setBits_below (v lo w x : Nat) {l k : Nat} (h : l + k ≤ lo) : getBits (setBits v lo w x) l k = getBits v l k := by
  have hv := getBits_split v lo w
  rw [setBits_split]
  unfold getBits
  rw [Nat.shiftRight_eq_div_pow, Nat.shiftRight_eq_div_pow]
  have key : ∀ y z : Nat, (z * 2 ^ lo + y) / 2 ^ l % 2 ^ k = y / 2 ^ l % 2 ^ k := by
    intro y z
    obtain ⟨d, rfl⟩ := Nat.exists_eq_add_of_le h
    have e : z * 2 ^ (l + k + d) + y = y + 2 ^ l * (2 ^ k * (2 ^ d * z)) := by rw [Nat.pow_add, Nat.pow_add]; ring
    rw [e, Nat.add_mul_div_left _ _ (Nat.two_pow_pos l), Nat.add_mul_mod_self_left]
  have e : v / 2 ^ (lo + w) * 2 ^ (lo + w) + x % 2 ^ w * 2 ^ lo = (v / 2 ^ (lo + w) * 2 ^ w + x % 2 ^ w) * 2 ^ lo := by
    rw [Nat.pow_add]; ring
  rw [e, key]
  conv => rhs; rw [← Nat.div_add_mod v (2 ^ lo), Nat.mul_comm]
  rw [key]

/-- A field above a replaced one is not changed. -/
theorem getBits_setBits_above (v lo w x : Nat) {l k : Nat} (h : lo + w ≤ l) : getBits (setBits v lo w x) l k = getBits v l k := by
  have hv := getBits_split v lo w
  rw [setBits_split]
  unfold getBits
  rw [Nat.shiftRight_eq_div_pow, Nat.shiftRight_eq_div_pow]
  obtain ⟨d, rfl⟩ := Nat.exists_eq_add_of_le h
  have low : x % 2 ^ w * 2 ^ lo + v % 2 ^ lo < 2 ^ (lo + w) := by
    have h1 : v % 2 ^ lo < 2 ^ lo := Nat.mod_lt _ (Nat.two_pow_pos lo)
    have h2 : x % 2 ^ w + 1 ≤ 2 ^ w := Nat.mod_lt _ (Nat.two_pow_pos w)
    calc _ < (x % 2 ^ w + 1) * 2 ^ lo := by rw [Nat.add_mul]; omega
      _ ≤ 2 ^ w * 2 ^ lo := Nat.mul_le_mul_right _ h2
      _ = 2 ^ (lo + w) := by rw [Nat.pow_add]; ring
  have e : (v / 2 ^ (lo + w) * 2 ^ (lo + w) + x % 2 ^ w * 2 ^ lo + v % 2 ^ lo) / 2 ^ (lo + w) = v / 2 ^ (lo + w) := by
    rw [Nat.add_assoc, Nat.add_comm, Nat.add_mul_div_right _ _ (Nat.two_pow_pos _), Nat.div_eq_of_lt low, Nat.zero_add]
  rw [Nat.pow_add 2 (lo + w) d, ← Nat.div_div_eq_div_mul, e, Nat.div_div_eq_div_mul]

/-- Replacing a field of a 64-bit word gives a 64-bit word. -/
theorem setBits_lt (v lo w x n : Nat) (hv : v < 2 ^ n) (h : lo + w ≤ n) : setBits v lo w x < 2 ^ n := by
  rw [setBits_split]
  obtain ⟨d, rfl⟩ := Nat.exists_eq_add_of_le h
  have h1 : v % 2 ^ lo < 2 ^ lo := Nat.mod_lt _ (Nat.two_pow_pos lo)
  have h2 : x % 2 ^ w + 1 ≤ 2 ^ w := Nat.mod_lt _ (Nat.two_pow_pos w)
  have h3 : v / 2 ^ (lo + w) + 1 ≤ 2 ^ d := by
    have : v / 2 ^ (lo + w) < 2 ^ d := by
      rw [Nat.div_lt_iff_lt_mul (Nat.two_pow_pos _), Nat.mul_comm, ← Nat.pow_add]; exact hv
    omega
  have low : x % 2 ^ w * 2 ^ lo + v % 2 ^ lo < 2 ^ (lo + w) := by
    calc _ < (x % 2 ^ w + 1) * 2 ^ lo := by rw [Nat.add_mul]; omega
      _ ≤ 2 ^ w * 2 ^ lo := Nat.mul_le_mul_right _ h2
      _ = 2 ^ (lo + w) := by rw [Nat.pow_add]; ring
  calc _ < (v / 2 ^ (lo + w) + 1) * 2 ^ (lo + w) := by rw [Nat.add_mul]; omega
    _ ≤ 2 ^ d * 2 ^ (lo + w) := Nat.mul_le_mul_right _ h3
    _ = 2 ^ (lo + w + d) := by rw [Nat.pow_add 2 (lo + w) d]; ring

/-! ### Registers -/

/-- A register is a 64-bit word. -/
theorem State.reg_lt (s : State) (a : Nat) : s.reg a < 2 ^ 64 := (tget regDefault s.regs a).isLt

/-- A register after a write of one of its fields. -/
theorem State.reg_put_self (s : State) (f : Fld) (v : Nat) (h : f.lo + f.w ≤ 64) :
    (s.put f v).reg f.adr = setBits (s.reg f.adr) f.lo f.w v := by
  unfold State.put
  rw [State.reg_setReg_self, Nat.mod_eq_of_lt (setBits_lt _ _ _ _ 64 (s.reg_lt _) h)]

/-- A written field reads as what was put there. -/
theorem State.g_put_self (s : State) (f : Fld) (v : Nat) (h : f.lo + f.w ≤ 64) : (s.put f v).g f = v % 2 ^ f.w := by
  unfold State.g; rw [State.reg_put_self s f v h, getBits_setBits_self]

/-- A field of another register is not changed. -/
theorem State.g_put_other (s : State) (f : Fld) (v : Nat) {k : Fld} (h : k.adr ≠ f.adr) : (s.put f v).g k = s.g k := by
  unfold State.g; rw [State.reg_put_other s f v h]

/-- Another field of the same register is not changed. -/
theorem State.g_put_beside (s : State) (f : Fld) (v : Nat) {k : Fld} (hf : f.lo + f.w ≤ 64) (ha : k.adr = f.adr)
    (h : k.lo + k.w ≤ f.lo ∨ f.lo + f.w ≤ k.lo) : (s.put f v).g k = s.g k := by
  unfold State.g
  rw [ha, State.reg_put_self s f v hf]
  rcases h with h | h
  · exact getBits_setBits_below _ _ _ _ h
  · exact getBits_setBits_above _ _ _ _ h

/-- A field of another register is not changed by a register write. -/
theorem State.g_setReg_other (s : State) (a v : Nat) {k : Fld} (h : k.adr ≠ a) : (s.setReg a v).g k = s.g k := by
  unfold State.g; rw [State.reg_setReg_other s v h]

/-- What a field reads as after the register has been written. -/
theorem State.g_setReg_self (s : State) (v : Nat) (k : Fld) : (s.setReg k.adr v).g k = getBits (v % 2 ^ 64) k.lo k.w := by
  unfold State.g; rw [State.reg_setReg_self]

end Sys2Proof.Machine
end

