-- ==== Sys2Proof/Laws/State.lean ====
section
/-! SUPPORT. The fields of the state that an update leaves alone, one equation per field, each true by definition, for every
update of one part of the state. -/

namespace Sys2Proof.Machine

@[simp] theorem State.setReg_rest (s : State) (a v : Nat) :
    (s.setReg a v).pending = s.pending ∧ (s.setReg a v).time = s.time ∧ (s.setReg a v).mem = s.mem ∧
    (s.setReg a v).poison = s.poison ∧ (s.setReg a v).snaps = s.snaps ∧ (s.setReg a v).hostMem = s.hostMem ∧
    (s.setReg a v).free = s.free ∧ (s.setReg a v).out = s.out ∧ (s.setReg a v).checks = s.checks ∧
    (s.setReg a v).guards = s.guards ∧ (s.setReg a v).eh = s.eh ∧ (s.setReg a v).cyc = s.cyc ∧
    (s.setReg a v).sg = s.sg ∧ (s.setReg a v).fb = s.fb ∧ (s.setReg a v).le = s.le ∧ (s.setReg a v).pg = s.pg ∧
    (s.setReg a v).fp = s.fp ∧ (s.setReg a v).ep = s.ep ∧ (s.setReg a v).ae = s.ae ∧ (s.setReg a v).ang = s.ang ∧
    (s.setReg a v).tu = s.tu ∧ (s.setReg a v).cores = s.cores ∧ (s.setReg a v).ks = s.ks ∧ (s.setReg a v).ms = s.ms ∧
    (s.setReg a v).dma = s.dma ∧ (s.setReg a v).queues = s.queues ∧ (s.setReg a v).hp = s.hp ∧
    (s.setReg a v).he = s.he ∧ (s.setReg a v).trc = s.trc ∧ (s.setReg a v).hk = s.hk ∧ (s.setReg a v).jtag = s.jtag ∧
    (s.setReg a v).mpStatus = s.mpStatus ∧ (s.setReg a v).tw = s.tw ∧ (s.setReg a v).fs = s.fs ∧
    (s.setReg a v).selfFaults = s.selfFaults ∧
    (s.setReg a v).devQ = s.devQ ∧ (s.setReg a v).saveFaults = s.saveFaults ∧ (s.setReg a v).accHeld = s.accHeld ∧ (s.setReg a v).devNow = s.devNow ∧
    (s.setReg a v).ueDue = s.ueDue ∧ (s.setReg a v).mpWait = s.mpWait :=
  ⟨rfl, rfl, rfl, rfl, rfl, rfl, rfl, rfl, rfl, rfl, rfl, rfl, rfl, rfl, rfl, rfl, rfl, rfl, rfl, rfl, rfl, rfl, rfl, rfl, rfl, rfl, rfl, rfl, rfl, rfl, rfl, rfl, rfl, rfl, rfl, rfl, rfl, rfl, rfl, rfl, rfl⟩

@[simp] theorem State.put_rest (s : State) (f : Fld) (v : Nat) :
    (s.put f v).pending = s.pending ∧ (s.put f v).time = s.time ∧ (s.put f v).mem = s.mem ∧
    (s.put f v).poison = s.poison ∧ (s.put f v).snaps = s.snaps ∧ (s.put f v).hostMem = s.hostMem ∧
    (s.put f v).free = s.free ∧ (s.put f v).out = s.out ∧ (s.put f v).checks = s.checks ∧
    (s.put f v).guards = s.guards ∧ (s.put f v).eh = s.eh ∧ (s.put f v).cyc = s.cyc ∧ (s.put f v).sg = s.sg ∧
    (s.put f v).fb = s.fb ∧ (s.put f v).le = s.le ∧ (s.put f v).pg = s.pg ∧ (s.put f v).fp = s.fp ∧
    (s.put f v).ep = s.ep ∧ (s.put f v).ae = s.ae ∧ (s.put f v).ang = s.ang ∧ (s.put f v).tu = s.tu ∧
    (s.put f v).cores = s.cores ∧ (s.put f v).ks = s.ks ∧ (s.put f v).ms = s.ms ∧ (s.put f v).dma = s.dma ∧
    (s.put f v).queues = s.queues ∧ (s.put f v).hp = s.hp ∧ (s.put f v).he = s.he ∧ (s.put f v).trc = s.trc ∧
    (s.put f v).hk = s.hk ∧ (s.put f v).jtag = s.jtag ∧ (s.put f v).mpStatus = s.mpStatus ∧ (s.put f v).tw = s.tw ∧
    (s.put f v).fs = s.fs ∧ (s.put f v).selfFaults = s.selfFaults ∧
    (s.put f v).devQ = s.devQ ∧ (s.put f v).saveFaults = s.saveFaults ∧ (s.put f v).accHeld = s.accHeld ∧ (s.put f v).devNow = s.devNow ∧
    (s.put f v).ueDue = s.ueDue ∧ (s.put f v).mpWait = s.mpWait :=
  ⟨rfl, rfl, rfl, rfl, rfl, rfl, rfl, rfl, rfl, rfl, rfl, rfl, rfl, rfl, rfl, rfl, rfl, rfl, rfl, rfl, rfl, rfl, rfl, rfl, rfl, rfl, rfl, rfl, rfl, rfl, rfl, rfl, rfl, rfl, rfl, rfl, rfl, rfl, rfl, rfl, rfl⟩

@[simp] theorem State.puti_rest (s : State) (f : Fld) (v : Int) :
    (s.puti f v).pending = s.pending ∧ (s.puti f v).time = s.time ∧ (s.puti f v).mem = s.mem ∧
    (s.puti f v).poison = s.poison ∧ (s.puti f v).snaps = s.snaps ∧ (s.puti f v).hostMem = s.hostMem ∧
    (s.puti f v).free = s.free ∧ (s.puti f v).out = s.out ∧ (s.puti f v).checks = s.checks ∧
    (s.puti f v).guards = s.guards ∧ (s.puti f v).eh = s.eh ∧ (s.puti f v).cyc = s.cyc ∧ (s.puti f v).sg = s.sg ∧
    (s.puti f v).fb = s.fb ∧ (s.puti f v).le = s.le ∧ (s.puti f v).pg = s.pg ∧ (s.puti f v).fp = s.fp ∧
    (s.puti f v).ep = s.ep ∧ (s.puti f v).ae = s.ae ∧ (s.puti f v).ang = s.ang ∧ (s.puti f v).tu = s.tu ∧
    (s.puti f v).cores = s.cores ∧ (s.puti f v).ks = s.ks ∧ (s.puti f v).ms = s.ms ∧ (s.puti f v).dma = s.dma ∧
    (s.puti f v).queues = s.queues ∧ (s.puti f v).hp = s.hp ∧ (s.puti f v).he = s.he ∧ (s.puti f v).trc = s.trc ∧
    (s.puti f v).hk = s.hk ∧ (s.puti f v).jtag = s.jtag ∧ (s.puti f v).mpStatus = s.mpStatus ∧
    (s.puti f v).tw = s.tw ∧ (s.puti f v).fs = s.fs ∧ (s.puti f v).selfFaults = s.selfFaults ∧
    (s.puti f v).devQ = s.devQ ∧ (s.puti f v).saveFaults = s.saveFaults ∧ (s.puti f v).accHeld = s.accHeld ∧ (s.puti f v).devNow = s.devNow ∧
    (s.puti f v).ueDue = s.ueDue ∧ (s.puti f v).mpWait = s.mpWait :=
  ⟨rfl, rfl, rfl, rfl, rfl, rfl, rfl, rfl, rfl, rfl, rfl, rfl, rfl, rfl, rfl, rfl, rfl, rfl, rfl, rfl, rfl, rfl, rfl, rfl, rfl, rfl, rfl, rfl, rfl, rfl, rfl, rfl, rfl, rfl, rfl, rfl, rfl, rfl, rfl, rfl, rfl⟩

@[simp] theorem State.setByte_rest (s : State) (a : Nat) (v : Byte) :
    (s.setByte a v).pending = s.pending ∧ (s.setByte a v).time = s.time ∧ (s.setByte a v).regs = s.regs ∧
    (s.setByte a v).poison = s.poison ∧ (s.setByte a v).snaps = s.snaps ∧ (s.setByte a v).hostMem = s.hostMem ∧
    (s.setByte a v).free = s.free ∧ (s.setByte a v).out = s.out ∧ (s.setByte a v).checks = s.checks ∧
    (s.setByte a v).guards = s.guards ∧ (s.setByte a v).eh = s.eh ∧ (s.setByte a v).cyc = s.cyc ∧
    (s.setByte a v).sg = s.sg ∧ (s.setByte a v).fb = s.fb ∧ (s.setByte a v).le = s.le ∧ (s.setByte a v).pg = s.pg ∧
    (s.setByte a v).fp = s.fp ∧ (s.setByte a v).ep = s.ep ∧ (s.setByte a v).ae = s.ae ∧ (s.setByte a v).ang = s.ang ∧
    (s.setByte a v).tu = s.tu ∧ (s.setByte a v).cores = s.cores ∧ (s.setByte a v).ks = s.ks ∧
    (s.setByte a v).ms = s.ms ∧ (s.setByte a v).dma = s.dma ∧ (s.setByte a v).queues = s.queues ∧
    (s.setByte a v).hp = s.hp ∧ (s.setByte a v).he = s.he ∧ (s.setByte a v).trc = s.trc ∧ (s.setByte a v).hk = s.hk ∧
    (s.setByte a v).jtag = s.jtag ∧ (s.setByte a v).mpStatus = s.mpStatus ∧ (s.setByte a v).tw = s.tw ∧
    (s.setByte a v).fs = s.fs ∧ (s.setByte a v).selfFaults = s.selfFaults ∧
    (s.setByte a v).devQ = s.devQ ∧ (s.setByte a v).saveFaults = s.saveFaults ∧ (s.setByte a v).accHeld = s.accHeld ∧ (s.setByte a v).devNow = s.devNow ∧
    (s.setByte a v).ueDue = s.ueDue ∧ (s.setByte a v).mpWait = s.mpWait :=
  ⟨rfl, rfl, rfl, rfl, rfl, rfl, rfl, rfl, rfl, rfl, rfl, rfl, rfl, rfl, rfl, rfl, rfl, rfl, rfl, rfl, rfl, rfl, rfl, rfl, rfl, rfl, rfl, rfl, rfl, rfl, rfl, rfl, rfl, rfl, rfl, rfl, rfl, rfl, rfl, rfl, rfl⟩

@[simp] theorem State.setHostByte_rest (s : State) (h : Nat) (v : Byte) :
    (s.setHostByte h v).pending = s.pending ∧ (s.setHostByte h v).time = s.time ∧ (s.setHostByte h v).regs = s.regs ∧
    (s.setHostByte h v).mem = s.mem ∧ (s.setHostByte h v).poison = s.poison ∧ (s.setHostByte h v).snaps = s.snaps ∧
    (s.setHostByte h v).free = s.free ∧ (s.setHostByte h v).out = s.out ∧ (s.setHostByte h v).checks = s.checks ∧
    (s.setHostByte h v).guards = s.guards ∧ (s.setHostByte h v).eh = s.eh ∧ (s.setHostByte h v).cyc = s.cyc ∧
    (s.setHostByte h v).sg = s.sg ∧ (s.setHostByte h v).fb = s.fb ∧ (s.setHostByte h v).le = s.le ∧
    (s.setHostByte h v).pg = s.pg ∧ (s.setHostByte h v).fp = s.fp ∧ (s.setHostByte h v).ep = s.ep ∧
    (s.setHostByte h v).ae = s.ae ∧ (s.setHostByte h v).ang = s.ang ∧ (s.setHostByte h v).tu = s.tu ∧
    (s.setHostByte h v).cores = s.cores ∧ (s.setHostByte h v).ks = s.ks ∧ (s.setHostByte h v).ms = s.ms ∧
    (s.setHostByte h v).dma = s.dma ∧ (s.setHostByte h v).queues = s.queues ∧ (s.setHostByte h v).hp = s.hp ∧
    (s.setHostByte h v).he = s.he ∧ (s.setHostByte h v).trc = s.trc ∧ (s.setHostByte h v).hk = s.hk ∧
    (s.setHostByte h v).jtag = s.jtag ∧ (s.setHostByte h v).mpStatus = s.mpStatus ∧ (s.setHostByte h v).tw = s.tw ∧
    (s.setHostByte h v).fs = s.fs ∧ (s.setHostByte h v).selfFaults = s.selfFaults ∧
    (s.setHostByte h v).devQ = s.devQ ∧ (s.setHostByte h v).saveFaults = s.saveFaults ∧ (s.setHostByte h v).accHeld = s.accHeld ∧ (s.setHostByte h v).devNow = s.devNow ∧
    (s.setHostByte h v).ueDue = s.ueDue ∧ (s.setHostByte h v).mpWait = s.mpWait :=
  ⟨rfl, rfl, rfl, rfl, rfl, rfl, rfl, rfl, rfl, rfl, rfl, rfl, rfl, rfl, rfl, rfl, rfl, rfl, rfl, rfl, rfl, rfl, rfl, rfl, rfl, rfl, rfl, rfl, rfl, rfl, rfl, rfl, rfl, rfl, rfl, rfl, rfl, rfl, rfl, rfl, rfl⟩

@[simp] theorem State.nextFree_rest (s : State) :
    (s.nextFree).pending = s.pending ∧ (s.nextFree).time = s.time ∧ (s.nextFree).regs = s.regs ∧
    (s.nextFree).mem = s.mem ∧ (s.nextFree).poison = s.poison ∧ (s.nextFree).snaps = s.snaps ∧
    (s.nextFree).hostMem = s.hostMem ∧ (s.nextFree).out = s.out ∧ (s.nextFree).checks = s.checks ∧
    (s.nextFree).guards = s.guards ∧ (s.nextFree).eh = s.eh ∧ (s.nextFree).cyc = s.cyc ∧ (s.nextFree).sg = s.sg ∧
    (s.nextFree).fb = s.fb ∧ (s.nextFree).le = s.le ∧ (s.nextFree).pg = s.pg ∧ (s.nextFree).fp = s.fp ∧
    (s.nextFree).ep = s.ep ∧ (s.nextFree).ae = s.ae ∧ (s.nextFree).ang = s.ang ∧ (s.nextFree).tu = s.tu ∧
    (s.nextFree).cores = s.cores ∧ (s.nextFree).ks = s.ks ∧ (s.nextFree).ms = s.ms ∧ (s.nextFree).dma = s.dma ∧
    (s.nextFree).queues = s.queues ∧ (s.nextFree).hp = s.hp ∧ (s.nextFree).he = s.he ∧ (s.nextFree).trc = s.trc ∧
    (s.nextFree).hk = s.hk ∧ (s.nextFree).jtag = s.jtag ∧ (s.nextFree).mpStatus = s.mpStatus ∧
    (s.nextFree).tw = s.tw ∧ (s.nextFree).fs = s.fs ∧ (s.nextFree).selfFaults = s.selfFaults ∧
    (s.nextFree).devQ = s.devQ ∧ (s.nextFree).saveFaults = s.saveFaults ∧ (s.nextFree).accHeld = s.accHeld ∧ (s.nextFree).devNow = s.devNow ∧
    (s.nextFree).ueDue = s.ueDue ∧ (s.nextFree).mpWait = s.mpWait :=
  ⟨rfl, rfl, rfl, rfl, rfl, rfl, rfl, rfl, rfl, rfl, rfl, rfl, rfl, rfl, rfl, rfl, rfl, rfl, rfl, rfl, rfl, rfl, rfl, rfl, rfl, rfl, rfl, rfl, rfl, rfl, rfl, rfl, rfl, rfl, rfl, rfl, rfl, rfl, rfl, rfl, rfl⟩

@[simp] theorem State.emit_rest (s : State) (o : Out) :
    (s.emit o).pending = s.pending ∧ (s.emit o).time = s.time ∧ (s.emit o).regs = s.regs ∧ (s.emit o).mem = s.mem ∧
    (s.emit o).poison = s.poison ∧ (s.emit o).snaps = s.snaps ∧ (s.emit o).hostMem = s.hostMem ∧
    (s.emit o).free = s.free ∧ (s.emit o).checks = s.checks ∧ (s.emit o).guards = s.guards ∧ (s.emit o).eh = s.eh ∧
    (s.emit o).cyc = s.cyc ∧ (s.emit o).sg = s.sg ∧ (s.emit o).fb = s.fb ∧ (s.emit o).le = s.le ∧
    (s.emit o).pg = s.pg ∧ (s.emit o).fp = s.fp ∧ (s.emit o).ep = s.ep ∧ (s.emit o).ae = s.ae ∧
    (s.emit o).ang = s.ang ∧ (s.emit o).tu = s.tu ∧ (s.emit o).cores = s.cores ∧ (s.emit o).ks = s.ks ∧
    (s.emit o).ms = s.ms ∧ (s.emit o).dma = s.dma ∧ (s.emit o).queues = s.queues ∧ (s.emit o).hp = s.hp ∧
    (s.emit o).he = s.he ∧ (s.emit o).trc = s.trc ∧ (s.emit o).hk = s.hk ∧ (s.emit o).jtag = s.jtag ∧
    (s.emit o).mpStatus = s.mpStatus ∧ (s.emit o).tw = s.tw ∧ (s.emit o).fs = s.fs ∧
    (s.emit o).selfFaults = s.selfFaults ∧
    (s.emit o).devQ = s.devQ ∧ (s.emit o).saveFaults = s.saveFaults ∧ (s.emit o).accHeld = s.accHeld ∧ (s.emit o).devNow = s.devNow ∧
    (s.emit o).ueDue = s.ueDue ∧ (s.emit o).mpWait = s.mpWait :=
  ⟨rfl, rfl, rfl, rfl, rfl, rfl, rfl, rfl, rfl, rfl, rfl, rfl, rfl, rfl, rfl, rfl, rfl, rfl, rfl, rfl, rfl, rfl, rfl, rfl, rfl, rfl, rfl, rfl, rfl, rfl, rfl, rfl, rfl, rfl, rfl, rfl, rfl, rfl, rfl, rfl, rfl⟩

@[simp] theorem State.onStr_rest (s : State) (n : Nat) (f : AeStr → AeStr) :
    (s.onStr n f).pending = s.pending ∧ (s.onStr n f).time = s.time ∧ (s.onStr n f).regs = s.regs ∧
    (s.onStr n f).mem = s.mem ∧ (s.onStr n f).poison = s.poison ∧ (s.onStr n f).snaps = s.snaps ∧
    (s.onStr n f).hostMem = s.hostMem ∧ (s.onStr n f).free = s.free ∧ (s.onStr n f).out = s.out ∧
    (s.onStr n f).checks = s.checks ∧ (s.onStr n f).guards = s.guards ∧ (s.onStr n f).eh = s.eh ∧
    (s.onStr n f).cyc = s.cyc ∧ (s.onStr n f).sg = s.sg ∧ (s.onStr n f).fb = s.fb ∧ (s.onStr n f).le = s.le ∧
    (s.onStr n f).pg = s.pg ∧ (s.onStr n f).fp = s.fp ∧ (s.onStr n f).ep = s.ep ∧ (s.onStr n f).ang = s.ang ∧
    (s.onStr n f).tu = s.tu ∧ (s.onStr n f).cores = s.cores ∧ (s.onStr n f).ks = s.ks ∧ (s.onStr n f).ms = s.ms ∧
    (s.onStr n f).dma = s.dma ∧ (s.onStr n f).queues = s.queues ∧ (s.onStr n f).hp = s.hp ∧ (s.onStr n f).he = s.he ∧
    (s.onStr n f).trc = s.trc ∧ (s.onStr n f).hk = s.hk ∧ (s.onStr n f).jtag = s.jtag ∧
    (s.onStr n f).mpStatus = s.mpStatus ∧ (s.onStr n f).tw = s.tw ∧ (s.onStr n f).fs = s.fs ∧
    (s.onStr n f).selfFaults = s.selfFaults ∧
    (s.onStr n f).devQ = s.devQ ∧ (s.onStr n f).saveFaults = s.saveFaults ∧ (s.onStr n f).accHeld = s.accHeld ∧ (s.onStr n f).devNow = s.devNow ∧
    (s.onStr n f).ueDue = s.ueDue ∧ (s.onStr n f).mpWait = s.mpWait :=
  ⟨rfl, rfl, rfl, rfl, rfl, rfl, rfl, rfl, rfl, rfl, rfl, rfl, rfl, rfl, rfl, rfl, rfl, rfl, rfl, rfl, rfl, rfl, rfl, rfl, rfl, rfl, rfl, rfl, rfl, rfl, rfl, rfl, rfl, rfl, rfl, rfl, rfl, rfl, rfl, rfl, rfl⟩

@[simp] theorem State.onCh_rest (s : State) (n : Nat) (f : AeCh → AeCh) :
    (s.onCh n f).pending = s.pending ∧ (s.onCh n f).time = s.time ∧ (s.onCh n f).regs = s.regs ∧
    (s.onCh n f).mem = s.mem ∧ (s.onCh n f).poison = s.poison ∧ (s.onCh n f).snaps = s.snaps ∧
    (s.onCh n f).hostMem = s.hostMem ∧ (s.onCh n f).free = s.free ∧ (s.onCh n f).out = s.out ∧
    (s.onCh n f).checks = s.checks ∧ (s.onCh n f).guards = s.guards ∧ (s.onCh n f).eh = s.eh ∧
    (s.onCh n f).cyc = s.cyc ∧ (s.onCh n f).sg = s.sg ∧ (s.onCh n f).fb = s.fb ∧ (s.onCh n f).le = s.le ∧
    (s.onCh n f).pg = s.pg ∧ (s.onCh n f).fp = s.fp ∧ (s.onCh n f).ep = s.ep ∧ (s.onCh n f).ang = s.ang ∧
    (s.onCh n f).tu = s.tu ∧ (s.onCh n f).cores = s.cores ∧ (s.onCh n f).ks = s.ks ∧ (s.onCh n f).ms = s.ms ∧
    (s.onCh n f).dma = s.dma ∧ (s.onCh n f).queues = s.queues ∧ (s.onCh n f).hp = s.hp ∧ (s.onCh n f).he = s.he ∧
    (s.onCh n f).trc = s.trc ∧ (s.onCh n f).hk = s.hk ∧ (s.onCh n f).jtag = s.jtag ∧
    (s.onCh n f).mpStatus = s.mpStatus ∧ (s.onCh n f).tw = s.tw ∧ (s.onCh n f).fs = s.fs ∧
    (s.onCh n f).selfFaults = s.selfFaults ∧
    (s.onCh n f).devQ = s.devQ ∧ (s.onCh n f).saveFaults = s.saveFaults ∧ (s.onCh n f).accHeld = s.accHeld ∧ (s.onCh n f).devNow = s.devNow ∧
    (s.onCh n f).ueDue = s.ueDue ∧ (s.onCh n f).mpWait = s.mpWait :=
  ⟨rfl, rfl, rfl, rfl, rfl, rfl, rfl, rfl, rfl, rfl, rfl, rfl, rfl, rfl, rfl, rfl, rfl, rfl, rfl, rfl, rfl, rfl, rfl, rfl, rfl, rfl, rfl, rfl, rfl, rfl, rfl, rfl, rfl, rfl, rfl, rfl, rfl, rfl, rfl, rfl, rfl⟩

@[simp] theorem State.onAng_rest (s : State) (n : Nat) (f : AngCh → AngCh) :
    (s.onAng n f).pending = s.pending ∧ (s.onAng n f).time = s.time ∧ (s.onAng n f).regs = s.regs ∧
    (s.onAng n f).mem = s.mem ∧ (s.onAng n f).poison = s.poison ∧ (s.onAng n f).snaps = s.snaps ∧
    (s.onAng n f).hostMem = s.hostMem ∧ (s.onAng n f).free = s.free ∧ (s.onAng n f).out = s.out ∧
    (s.onAng n f).checks = s.checks ∧ (s.onAng n f).guards = s.guards ∧ (s.onAng n f).eh = s.eh ∧
    (s.onAng n f).cyc = s.cyc ∧ (s.onAng n f).sg = s.sg ∧ (s.onAng n f).fb = s.fb ∧ (s.onAng n f).le = s.le ∧
    (s.onAng n f).pg = s.pg ∧ (s.onAng n f).fp = s.fp ∧ (s.onAng n f).ep = s.ep ∧ (s.onAng n f).ae = s.ae ∧
    (s.onAng n f).tu = s.tu ∧ (s.onAng n f).cores = s.cores ∧ (s.onAng n f).ks = s.ks ∧ (s.onAng n f).ms = s.ms ∧
    (s.onAng n f).dma = s.dma ∧ (s.onAng n f).queues = s.queues ∧ (s.onAng n f).hp = s.hp ∧ (s.onAng n f).he = s.he ∧
    (s.onAng n f).trc = s.trc ∧ (s.onAng n f).hk = s.hk ∧ (s.onAng n f).jtag = s.jtag ∧
    (s.onAng n f).mpStatus = s.mpStatus ∧ (s.onAng n f).tw = s.tw ∧ (s.onAng n f).fs = s.fs ∧
    (s.onAng n f).selfFaults = s.selfFaults ∧
    (s.onAng n f).devQ = s.devQ ∧ (s.onAng n f).saveFaults = s.saveFaults ∧ (s.onAng n f).accHeld = s.accHeld ∧ (s.onAng n f).devNow = s.devNow ∧
    (s.onAng n f).ueDue = s.ueDue ∧ (s.onAng n f).mpWait = s.mpWait :=
  ⟨rfl, rfl, rfl, rfl, rfl, rfl, rfl, rfl, rfl, rfl, rfl, rfl, rfl, rfl, rfl, rfl, rfl, rfl, rfl, rfl, rfl, rfl, rfl, rfl, rfl, rfl, rfl, rfl, rfl, rfl, rfl, rfl, rfl, rfl, rfl, rfl, rfl, rfl, rfl, rfl, rfl⟩

@[simp] theorem State.onRing_rest (s : State) (n : Nat) (f : DmaRing → DmaRing) :
    (s.onRing n f).pending = s.pending ∧ (s.onRing n f).time = s.time ∧ (s.onRing n f).regs = s.regs ∧
    (s.onRing n f).mem = s.mem ∧ (s.onRing n f).poison = s.poison ∧ (s.onRing n f).snaps = s.snaps ∧
    (s.onRing n f).hostMem = s.hostMem ∧ (s.onRing n f).free = s.free ∧ (s.onRing n f).out = s.out ∧
    (s.onRing n f).checks = s.checks ∧ (s.onRing n f).guards = s.guards ∧ (s.onRing n f).eh = s.eh ∧
    (s.onRing n f).cyc = s.cyc ∧ (s.onRing n f).sg = s.sg ∧ (s.onRing n f).fb = s.fb ∧ (s.onRing n f).le = s.le ∧
    (s.onRing n f).pg = s.pg ∧ (s.onRing n f).fp = s.fp ∧ (s.onRing n f).ep = s.ep ∧ (s.onRing n f).ae = s.ae ∧
    (s.onRing n f).ang = s.ang ∧ (s.onRing n f).tu = s.tu ∧ (s.onRing n f).cores = s.cores ∧
    (s.onRing n f).ks = s.ks ∧ (s.onRing n f).ms = s.ms ∧ (s.onRing n f).queues = s.queues ∧
    (s.onRing n f).hp = s.hp ∧ (s.onRing n f).he = s.he ∧ (s.onRing n f).trc = s.trc ∧ (s.onRing n f).hk = s.hk ∧
    (s.onRing n f).jtag = s.jtag ∧ (s.onRing n f).mpStatus = s.mpStatus ∧ (s.onRing n f).tw = s.tw ∧
    (s.onRing n f).fs = s.fs ∧ (s.onRing n f).selfFaults = s.selfFaults ∧
    (s.onRing n f).devQ = s.devQ ∧ (s.onRing n f).saveFaults = s.saveFaults ∧ (s.onRing n f).accHeld = s.accHeld ∧ (s.onRing n f).devNow = s.devNow ∧
    (s.onRing n f).ueDue = s.ueDue ∧ (s.onRing n f).mpWait = s.mpWait :=
  ⟨rfl, rfl, rfl, rfl, rfl, rfl, rfl, rfl, rfl, rfl, rfl, rfl, rfl, rfl, rfl, rfl, rfl, rfl, rfl, rfl, rfl, rfl, rfl, rfl, rfl, rfl, rfl, rfl, rfl, rfl, rfl, rfl, rfl, rfl, rfl, rfl, rfl, rfl, rfl, rfl, rfl⟩

@[simp] theorem State.onLe_rest (s : State) (n : Nat) (f : LeAx → LeAx) :
    (s.onLe n f).pending = s.pending ∧ (s.onLe n f).time = s.time ∧ (s.onLe n f).regs = s.regs ∧
    (s.onLe n f).mem = s.mem ∧ (s.onLe n f).poison = s.poison ∧ (s.onLe n f).snaps = s.snaps ∧
    (s.onLe n f).hostMem = s.hostMem ∧ (s.onLe n f).free = s.free ∧ (s.onLe n f).out = s.out ∧
    (s.onLe n f).checks = s.checks ∧ (s.onLe n f).guards = s.guards ∧ (s.onLe n f).eh = s.eh ∧
    (s.onLe n f).cyc = s.cyc ∧ (s.onLe n f).sg = s.sg ∧ (s.onLe n f).fb = s.fb ∧ (s.onLe n f).pg = s.pg ∧
    (s.onLe n f).fp = s.fp ∧ (s.onLe n f).ep = s.ep ∧ (s.onLe n f).ae = s.ae ∧ (s.onLe n f).ang = s.ang ∧
    (s.onLe n f).tu = s.tu ∧ (s.onLe n f).cores = s.cores ∧ (s.onLe n f).ks = s.ks ∧ (s.onLe n f).ms = s.ms ∧
    (s.onLe n f).dma = s.dma ∧ (s.onLe n f).queues = s.queues ∧ (s.onLe n f).hp = s.hp ∧ (s.onLe n f).he = s.he ∧
    (s.onLe n f).trc = s.trc ∧ (s.onLe n f).hk = s.hk ∧ (s.onLe n f).jtag = s.jtag ∧
    (s.onLe n f).mpStatus = s.mpStatus ∧ (s.onLe n f).tw = s.tw ∧ (s.onLe n f).fs = s.fs ∧
    (s.onLe n f).selfFaults = s.selfFaults ∧
    (s.onLe n f).devQ = s.devQ ∧ (s.onLe n f).saveFaults = s.saveFaults ∧ (s.onLe n f).accHeld = s.accHeld ∧ (s.onLe n f).devNow = s.devNow ∧
    (s.onLe n f).ueDue = s.ueDue ∧ (s.onLe n f).mpWait = s.mpWait :=
  ⟨rfl, rfl, rfl, rfl, rfl, rfl, rfl, rfl, rfl, rfl, rfl, rfl, rfl, rfl, rfl, rfl, rfl, rfl, rfl, rfl, rfl, rfl, rfl, rfl, rfl, rfl, rfl, rfl, rfl, rfl, rfl, rfl, rfl, rfl, rfl, rfl, rfl, rfl, rfl, rfl, rfl⟩

@[simp] theorem State.onEng_rest (s : State) (n : Nat) (f : LeEng → LeEng) :
    (s.onEng n f).pending = s.pending ∧ (s.onEng n f).time = s.time ∧ (s.onEng n f).regs = s.regs ∧
    (s.onEng n f).mem = s.mem ∧ (s.onEng n f).poison = s.poison ∧ (s.onEng n f).snaps = s.snaps ∧
    (s.onEng n f).hostMem = s.hostMem ∧ (s.onEng n f).free = s.free ∧ (s.onEng n f).out = s.out ∧
    (s.onEng n f).checks = s.checks ∧ (s.onEng n f).guards = s.guards ∧ (s.onEng n f).eh = s.eh ∧
    (s.onEng n f).cyc = s.cyc ∧ (s.onEng n f).sg = s.sg ∧ (s.onEng n f).fb = s.fb ∧ (s.onEng n f).pg = s.pg ∧
    (s.onEng n f).fp = s.fp ∧ (s.onEng n f).ep = s.ep ∧ (s.onEng n f).ae = s.ae ∧ (s.onEng n f).ang = s.ang ∧
    (s.onEng n f).tu = s.tu ∧ (s.onEng n f).cores = s.cores ∧ (s.onEng n f).ks = s.ks ∧ (s.onEng n f).ms = s.ms ∧
    (s.onEng n f).dma = s.dma ∧ (s.onEng n f).queues = s.queues ∧ (s.onEng n f).hp = s.hp ∧ (s.onEng n f).he = s.he ∧
    (s.onEng n f).trc = s.trc ∧ (s.onEng n f).hk = s.hk ∧ (s.onEng n f).jtag = s.jtag ∧
    (s.onEng n f).mpStatus = s.mpStatus ∧ (s.onEng n f).tw = s.tw ∧ (s.onEng n f).fs = s.fs ∧
    (s.onEng n f).selfFaults = s.selfFaults ∧
    (s.onEng n f).devQ = s.devQ ∧ (s.onEng n f).saveFaults = s.saveFaults ∧ (s.onEng n f).accHeld = s.accHeld ∧ (s.onEng n f).devNow = s.devNow ∧
    (s.onEng n f).ueDue = s.ueDue ∧ (s.onEng n f).mpWait = s.mpWait :=
  ⟨rfl, rfl, rfl, rfl, rfl, rfl, rfl, rfl, rfl, rfl, rfl, rfl, rfl, rfl, rfl, rfl, rfl, rfl, rfl, rfl, rfl, rfl, rfl, rfl, rfl, rfl, rfl, rfl, rfl, rfl, rfl, rfl, rfl, rfl, rfl, rfl, rfl, rfl, rfl, rfl, rfl⟩

@[simp] theorem State.onFb_rest (s : State) (n : Nat) (f : FbAx → FbAx) :
    (s.onFb n f).pending = s.pending ∧ (s.onFb n f).time = s.time ∧ (s.onFb n f).regs = s.regs ∧
    (s.onFb n f).mem = s.mem ∧ (s.onFb n f).poison = s.poison ∧ (s.onFb n f).snaps = s.snaps ∧
    (s.onFb n f).hostMem = s.hostMem ∧ (s.onFb n f).free = s.free ∧ (s.onFb n f).out = s.out ∧
    (s.onFb n f).checks = s.checks ∧ (s.onFb n f).guards = s.guards ∧ (s.onFb n f).eh = s.eh ∧
    (s.onFb n f).cyc = s.cyc ∧ (s.onFb n f).sg = s.sg ∧ (s.onFb n f).le = s.le ∧ (s.onFb n f).pg = s.pg ∧
    (s.onFb n f).fp = s.fp ∧ (s.onFb n f).ep = s.ep ∧ (s.onFb n f).ae = s.ae ∧ (s.onFb n f).ang = s.ang ∧
    (s.onFb n f).tu = s.tu ∧ (s.onFb n f).cores = s.cores ∧ (s.onFb n f).ks = s.ks ∧ (s.onFb n f).ms = s.ms ∧
    (s.onFb n f).dma = s.dma ∧ (s.onFb n f).queues = s.queues ∧ (s.onFb n f).hp = s.hp ∧ (s.onFb n f).he = s.he ∧
    (s.onFb n f).trc = s.trc ∧ (s.onFb n f).hk = s.hk ∧ (s.onFb n f).jtag = s.jtag ∧
    (s.onFb n f).mpStatus = s.mpStatus ∧ (s.onFb n f).tw = s.tw ∧ (s.onFb n f).fs = s.fs ∧
    (s.onFb n f).selfFaults = s.selfFaults ∧
    (s.onFb n f).devQ = s.devQ ∧ (s.onFb n f).saveFaults = s.saveFaults ∧ (s.onFb n f).accHeld = s.accHeld ∧ (s.onFb n f).devNow = s.devNow ∧
    (s.onFb n f).ueDue = s.ueDue ∧ (s.onFb n f).mpWait = s.mpWait :=
  ⟨rfl, rfl, rfl, rfl, rfl, rfl, rfl, rfl, rfl, rfl, rfl, rfl, rfl, rfl, rfl, rfl, rfl, rfl, rfl, rfl, rfl, rfl, rfl, rfl, rfl, rfl, rfl, rfl, rfl, rfl, rfl, rfl, rfl, rfl, rfl, rfl, rfl, rfl, rfl, rfl, rfl⟩

@[simp] theorem State.onQe_rest (s : State) (n : Nat) (f : QeCh → QeCh) :
    (s.onQe n f).pending = s.pending ∧ (s.onQe n f).time = s.time ∧ (s.onQe n f).regs = s.regs ∧
    (s.onQe n f).mem = s.mem ∧ (s.onQe n f).poison = s.poison ∧ (s.onQe n f).snaps = s.snaps ∧
    (s.onQe n f).hostMem = s.hostMem ∧ (s.onQe n f).free = s.free ∧ (s.onQe n f).out = s.out ∧
    (s.onQe n f).checks = s.checks ∧ (s.onQe n f).guards = s.guards ∧ (s.onQe n f).eh = s.eh ∧
    (s.onQe n f).cyc = s.cyc ∧ (s.onQe n f).sg = s.sg ∧ (s.onQe n f).le = s.le ∧ (s.onQe n f).pg = s.pg ∧
    (s.onQe n f).fp = s.fp ∧ (s.onQe n f).ep = s.ep ∧ (s.onQe n f).ae = s.ae ∧ (s.onQe n f).ang = s.ang ∧
    (s.onQe n f).tu = s.tu ∧ (s.onQe n f).cores = s.cores ∧ (s.onQe n f).ks = s.ks ∧ (s.onQe n f).ms = s.ms ∧
    (s.onQe n f).dma = s.dma ∧ (s.onQe n f).queues = s.queues ∧ (s.onQe n f).hp = s.hp ∧ (s.onQe n f).he = s.he ∧
    (s.onQe n f).trc = s.trc ∧ (s.onQe n f).hk = s.hk ∧ (s.onQe n f).jtag = s.jtag ∧
    (s.onQe n f).mpStatus = s.mpStatus ∧ (s.onQe n f).tw = s.tw ∧ (s.onQe n f).fs = s.fs ∧
    (s.onQe n f).selfFaults = s.selfFaults ∧
    (s.onQe n f).devQ = s.devQ ∧ (s.onQe n f).saveFaults = s.saveFaults ∧ (s.onQe n f).accHeld = s.accHeld ∧ (s.onQe n f).devNow = s.devNow ∧
    (s.onQe n f).ueDue = s.ueDue ∧ (s.onQe n f).mpWait = s.mpWait :=
  ⟨rfl, rfl, rfl, rfl, rfl, rfl, rfl, rfl, rfl, rfl, rfl, rfl, rfl, rfl, rfl, rfl, rfl, rfl, rfl, rfl, rfl, rfl, rfl, rfl, rfl, rfl, rfl, rfl, rfl, rfl, rfl, rfl, rfl, rfl, rfl, rfl, rfl, rfl, rfl, rfl, rfl⟩

@[simp] theorem State.onHk_rest (s : State) (f : HkSt → HkSt) :
    (s.onHk f).pending = s.pending ∧ (s.onHk f).time = s.time ∧ (s.onHk f).regs = s.regs ∧ (s.onHk f).mem = s.mem ∧
    (s.onHk f).poison = s.poison ∧ (s.onHk f).snaps = s.snaps ∧ (s.onHk f).hostMem = s.hostMem ∧
    (s.onHk f).free = s.free ∧ (s.onHk f).out = s.out ∧ (s.onHk f).checks = s.checks ∧ (s.onHk f).guards = s.guards ∧
    (s.onHk f).eh = s.eh ∧ (s.onHk f).cyc = s.cyc ∧ (s.onHk f).sg = s.sg ∧ (s.onHk f).fb = s.fb ∧
    (s.onHk f).le = s.le ∧ (s.onHk f).pg = s.pg ∧ (s.onHk f).fp = s.fp ∧ (s.onHk f).ep = s.ep ∧
    (s.onHk f).ae = s.ae ∧ (s.onHk f).ang = s.ang ∧ (s.onHk f).tu = s.tu ∧ (s.onHk f).cores = s.cores ∧
    (s.onHk f).ks = s.ks ∧ (s.onHk f).ms = s.ms ∧ (s.onHk f).dma = s.dma ∧ (s.onHk f).queues = s.queues ∧
    (s.onHk f).hp = s.hp ∧ (s.onHk f).he = s.he ∧ (s.onHk f).trc = s.trc ∧ (s.onHk f).jtag = s.jtag ∧
    (s.onHk f).mpStatus = s.mpStatus ∧ (s.onHk f).tw = s.tw ∧ (s.onHk f).fs = s.fs ∧
    (s.onHk f).selfFaults = s.selfFaults ∧
    (s.onHk f).devQ = s.devQ ∧ (s.onHk f).saveFaults = s.saveFaults ∧ (s.onHk f).accHeld = s.accHeld ∧ (s.onHk f).devNow = s.devNow ∧
    (s.onHk f).ueDue = s.ueDue ∧ (s.onHk f).mpWait = s.mpWait :=
  ⟨rfl, rfl, rfl, rfl, rfl, rfl, rfl, rfl, rfl, rfl, rfl, rfl, rfl, rfl, rfl, rfl, rfl, rfl, rfl, rfl, rfl, rfl, rfl, rfl, rfl, rfl, rfl, rfl, rfl, rfl, rfl, rfl, rfl, rfl, rfl, rfl, rfl, rfl, rfl, rfl, rfl⟩

@[simp] theorem State.onHp_rest (s : State) (f : HpSt → HpSt) :
    (s.onHp f).pending = s.pending ∧ (s.onHp f).time = s.time ∧ (s.onHp f).regs = s.regs ∧ (s.onHp f).mem = s.mem ∧
    (s.onHp f).poison = s.poison ∧ (s.onHp f).snaps = s.snaps ∧ (s.onHp f).hostMem = s.hostMem ∧
    (s.onHp f).free = s.free ∧ (s.onHp f).out = s.out ∧ (s.onHp f).checks = s.checks ∧ (s.onHp f).guards = s.guards ∧
    (s.onHp f).eh = s.eh ∧ (s.onHp f).cyc = s.cyc ∧ (s.onHp f).sg = s.sg ∧ (s.onHp f).fb = s.fb ∧
    (s.onHp f).le = s.le ∧ (s.onHp f).pg = s.pg ∧ (s.onHp f).fp = s.fp ∧ (s.onHp f).ep = s.ep ∧
    (s.onHp f).ae = s.ae ∧ (s.onHp f).ang = s.ang ∧ (s.onHp f).tu = s.tu ∧ (s.onHp f).cores = s.cores ∧
    (s.onHp f).ks = s.ks ∧ (s.onHp f).ms = s.ms ∧ (s.onHp f).dma = s.dma ∧ (s.onHp f).queues = s.queues ∧
    (s.onHp f).he = s.he ∧ (s.onHp f).trc = s.trc ∧ (s.onHp f).hk = s.hk ∧ (s.onHp f).jtag = s.jtag ∧
    (s.onHp f).mpStatus = s.mpStatus ∧ (s.onHp f).tw = s.tw ∧ (s.onHp f).fs = s.fs ∧
    (s.onHp f).selfFaults = s.selfFaults ∧
    (s.onHp f).devQ = s.devQ ∧ (s.onHp f).saveFaults = s.saveFaults ∧ (s.onHp f).accHeld = s.accHeld ∧ (s.onHp f).devNow = s.devNow ∧
    (s.onHp f).ueDue = s.ueDue ∧ (s.onHp f).mpWait = s.mpWait :=
  ⟨rfl, rfl, rfl, rfl, rfl, rfl, rfl, rfl, rfl, rfl, rfl, rfl, rfl, rfl, rfl, rfl, rfl, rfl, rfl, rfl, rfl, rfl, rfl, rfl, rfl, rfl, rfl, rfl, rfl, rfl, rfl, rfl, rfl, rfl, rfl, rfl, rfl, rfl, rfl, rfl, rfl⟩

@[simp] theorem State.onHe_rest (s : State) (n : Nat) (f : HeSt → HeSt) :
    (s.onHe n f).pending = s.pending ∧ (s.onHe n f).time = s.time ∧ (s.onHe n f).regs = s.regs ∧
    (s.onHe n f).mem = s.mem ∧ (s.onHe n f).poison = s.poison ∧ (s.onHe n f).snaps = s.snaps ∧
    (s.onHe n f).hostMem = s.hostMem ∧ (s.onHe n f).free = s.free ∧ (s.onHe n f).out = s.out ∧
    (s.onHe n f).checks = s.checks ∧ (s.onHe n f).guards = s.guards ∧ (s.onHe n f).eh = s.eh ∧
    (s.onHe n f).cyc = s.cyc ∧ (s.onHe n f).sg = s.sg ∧ (s.onHe n f).fb = s.fb ∧ (s.onHe n f).le = s.le ∧
    (s.onHe n f).pg = s.pg ∧ (s.onHe n f).fp = s.fp ∧ (s.onHe n f).ep = s.ep ∧ (s.onHe n f).ae = s.ae ∧
    (s.onHe n f).ang = s.ang ∧ (s.onHe n f).tu = s.tu ∧ (s.onHe n f).cores = s.cores ∧ (s.onHe n f).ks = s.ks ∧
    (s.onHe n f).ms = s.ms ∧ (s.onHe n f).dma = s.dma ∧ (s.onHe n f).queues = s.queues ∧ (s.onHe n f).hp = s.hp ∧
    (s.onHe n f).trc = s.trc ∧ (s.onHe n f).hk = s.hk ∧ (s.onHe n f).jtag = s.jtag ∧
    (s.onHe n f).mpStatus = s.mpStatus ∧ (s.onHe n f).tw = s.tw ∧ (s.onHe n f).fs = s.fs ∧
    (s.onHe n f).selfFaults = s.selfFaults ∧
    (s.onHe n f).devQ = s.devQ ∧ (s.onHe n f).saveFaults = s.saveFaults ∧ (s.onHe n f).accHeld = s.accHeld ∧ (s.onHe n f).devNow = s.devNow ∧
    (s.onHe n f).ueDue = s.ueDue ∧ (s.onHe n f).mpWait = s.mpWait :=
  ⟨rfl, rfl, rfl, rfl, rfl, rfl, rfl, rfl, rfl, rfl, rfl, rfl, rfl, rfl, rfl, rfl, rfl, rfl, rfl, rfl, rfl, rfl, rfl, rfl, rfl, rfl, rfl, rfl, rfl, rfl, rfl, rfl, rfl, rfl, rfl, rfl, rfl, rfl, rfl, rfl, rfl⟩

@[simp] theorem State.onJtag_rest (s : State) (f : JtagSt → JtagSt) :
    (s.onJtag f).pending = s.pending ∧ (s.onJtag f).time = s.time ∧ (s.onJtag f).regs = s.regs ∧
    (s.onJtag f).mem = s.mem ∧ (s.onJtag f).poison = s.poison ∧ (s.onJtag f).snaps = s.snaps ∧
    (s.onJtag f).hostMem = s.hostMem ∧ (s.onJtag f).free = s.free ∧ (s.onJtag f).out = s.out ∧
    (s.onJtag f).checks = s.checks ∧ (s.onJtag f).guards = s.guards ∧ (s.onJtag f).eh = s.eh ∧
    (s.onJtag f).cyc = s.cyc ∧ (s.onJtag f).sg = s.sg ∧ (s.onJtag f).fb = s.fb ∧ (s.onJtag f).le = s.le ∧
    (s.onJtag f).pg = s.pg ∧ (s.onJtag f).fp = s.fp ∧ (s.onJtag f).ep = s.ep ∧ (s.onJtag f).ae = s.ae ∧
    (s.onJtag f).ang = s.ang ∧ (s.onJtag f).tu = s.tu ∧ (s.onJtag f).cores = s.cores ∧ (s.onJtag f).ks = s.ks ∧
    (s.onJtag f).ms = s.ms ∧ (s.onJtag f).dma = s.dma ∧ (s.onJtag f).queues = s.queues ∧ (s.onJtag f).hp = s.hp ∧
    (s.onJtag f).he = s.he ∧ (s.onJtag f).trc = s.trc ∧ (s.onJtag f).hk = s.hk ∧ (s.onJtag f).mpStatus = s.mpStatus ∧
    (s.onJtag f).tw = s.tw ∧ (s.onJtag f).fs = s.fs ∧ (s.onJtag f).selfFaults = s.selfFaults ∧
    (s.onJtag f).devQ = s.devQ ∧ (s.onJtag f).saveFaults = s.saveFaults ∧ (s.onJtag f).accHeld = s.accHeld ∧ (s.onJtag f).devNow = s.devNow ∧
    (s.onJtag f).ueDue = s.ueDue ∧ (s.onJtag f).mpWait = s.mpWait :=
  ⟨rfl, rfl, rfl, rfl, rfl, rfl, rfl, rfl, rfl, rfl, rfl, rfl, rfl, rfl, rfl, rfl, rfl, rfl, rfl, rfl, rfl, rfl, rfl, rfl, rfl, rfl, rfl, rfl, rfl, rfl, rfl, rfl, rfl, rfl, rfl, rfl, rfl, rfl, rfl, rfl, rfl⟩

@[simp] theorem State.onKs_rest (s : State) (f : KsSt → KsSt) :
    (s.onKs f).pending = s.pending ∧ (s.onKs f).time = s.time ∧ (s.onKs f).regs = s.regs ∧ (s.onKs f).mem = s.mem ∧
    (s.onKs f).poison = s.poison ∧ (s.onKs f).snaps = s.snaps ∧ (s.onKs f).hostMem = s.hostMem ∧
    (s.onKs f).free = s.free ∧ (s.onKs f).out = s.out ∧ (s.onKs f).checks = s.checks ∧ (s.onKs f).guards = s.guards ∧
    (s.onKs f).eh = s.eh ∧ (s.onKs f).cyc = s.cyc ∧ (s.onKs f).sg = s.sg ∧ (s.onKs f).fb = s.fb ∧
    (s.onKs f).le = s.le ∧ (s.onKs f).pg = s.pg ∧ (s.onKs f).fp = s.fp ∧ (s.onKs f).ep = s.ep ∧
    (s.onKs f).ae = s.ae ∧ (s.onKs f).ang = s.ang ∧ (s.onKs f).tu = s.tu ∧ (s.onKs f).cores = s.cores ∧
    (s.onKs f).ms = s.ms ∧ (s.onKs f).dma = s.dma ∧ (s.onKs f).queues = s.queues ∧ (s.onKs f).hp = s.hp ∧
    (s.onKs f).he = s.he ∧ (s.onKs f).trc = s.trc ∧ (s.onKs f).hk = s.hk ∧ (s.onKs f).jtag = s.jtag ∧
    (s.onKs f).mpStatus = s.mpStatus ∧ (s.onKs f).tw = s.tw ∧ (s.onKs f).fs = s.fs ∧
    (s.onKs f).selfFaults = s.selfFaults ∧
    (s.onKs f).devQ = s.devQ ∧ (s.onKs f).saveFaults = s.saveFaults ∧ (s.onKs f).accHeld = s.accHeld ∧ (s.onKs f).devNow = s.devNow ∧
    (s.onKs f).ueDue = s.ueDue ∧ (s.onKs f).mpWait = s.mpWait :=
  ⟨rfl, rfl, rfl, rfl, rfl, rfl, rfl, rfl, rfl, rfl, rfl, rfl, rfl, rfl, rfl, rfl, rfl, rfl, rfl, rfl, rfl, rfl, rfl, rfl, rfl, rfl, rfl, rfl, rfl, rfl, rfl, rfl, rfl, rfl, rfl, rfl, rfl, rfl, rfl, rfl, rfl⟩

@[simp] theorem State.setPg_rest (s : State) (n : Nat) (x : PgAx) :
    (s.setPg n x).pending = s.pending ∧ (s.setPg n x).time = s.time ∧ (s.setPg n x).regs = s.regs ∧
    (s.setPg n x).mem = s.mem ∧ (s.setPg n x).poison = s.poison ∧ (s.setPg n x).snaps = s.snaps ∧
    (s.setPg n x).hostMem = s.hostMem ∧ (s.setPg n x).free = s.free ∧ (s.setPg n x).out = s.out ∧
    (s.setPg n x).checks = s.checks ∧ (s.setPg n x).guards = s.guards ∧ (s.setPg n x).eh = s.eh ∧
    (s.setPg n x).cyc = s.cyc ∧ (s.setPg n x).sg = s.sg ∧ (s.setPg n x).fb = s.fb ∧ (s.setPg n x).le = s.le ∧
    (s.setPg n x).fp = s.fp ∧ (s.setPg n x).ep = s.ep ∧ (s.setPg n x).ae = s.ae ∧ (s.setPg n x).ang = s.ang ∧
    (s.setPg n x).tu = s.tu ∧ (s.setPg n x).cores = s.cores ∧ (s.setPg n x).ks = s.ks ∧ (s.setPg n x).ms = s.ms ∧
    (s.setPg n x).dma = s.dma ∧ (s.setPg n x).queues = s.queues ∧ (s.setPg n x).hp = s.hp ∧ (s.setPg n x).he = s.he ∧
    (s.setPg n x).trc = s.trc ∧ (s.setPg n x).hk = s.hk ∧ (s.setPg n x).jtag = s.jtag ∧
    (s.setPg n x).mpStatus = s.mpStatus ∧ (s.setPg n x).tw = s.tw ∧ (s.setPg n x).fs = s.fs ∧
    (s.setPg n x).selfFaults = s.selfFaults ∧
    (s.setPg n x).devQ = s.devQ ∧ (s.setPg n x).saveFaults = s.saveFaults ∧ (s.setPg n x).accHeld = s.accHeld ∧ (s.setPg n x).devNow = s.devNow ∧
    (s.setPg n x).ueDue = s.ueDue ∧ (s.setPg n x).mpWait = s.mpWait :=
  ⟨rfl, rfl, rfl, rfl, rfl, rfl, rfl, rfl, rfl, rfl, rfl, rfl, rfl, rfl, rfl, rfl, rfl, rfl, rfl, rfl, rfl, rfl, rfl, rfl, rfl, rfl, rfl, rfl, rfl, rfl, rfl, rfl, rfl, rfl, rfl, rfl, rfl, rfl, rfl, rfl, rfl⟩

@[simp] theorem State.onGrp_rest (s : State) (n : Nat) (f : PgGrp → PgGrp) :
    (s.onGrp n f).pending = s.pending ∧ (s.onGrp n f).time = s.time ∧ (s.onGrp n f).regs = s.regs ∧
    (s.onGrp n f).mem = s.mem ∧ (s.onGrp n f).poison = s.poison ∧ (s.onGrp n f).snaps = s.snaps ∧
    (s.onGrp n f).hostMem = s.hostMem ∧ (s.onGrp n f).free = s.free ∧ (s.onGrp n f).out = s.out ∧
    (s.onGrp n f).checks = s.checks ∧ (s.onGrp n f).guards = s.guards ∧ (s.onGrp n f).eh = s.eh ∧
    (s.onGrp n f).cyc = s.cyc ∧ (s.onGrp n f).sg = s.sg ∧ (s.onGrp n f).fb = s.fb ∧ (s.onGrp n f).le = s.le ∧
    (s.onGrp n f).fp = s.fp ∧ (s.onGrp n f).ep = s.ep ∧ (s.onGrp n f).ae = s.ae ∧ (s.onGrp n f).ang = s.ang ∧
    (s.onGrp n f).tu = s.tu ∧ (s.onGrp n f).cores = s.cores ∧ (s.onGrp n f).ks = s.ks ∧ (s.onGrp n f).ms = s.ms ∧
    (s.onGrp n f).dma = s.dma ∧ (s.onGrp n f).queues = s.queues ∧ (s.onGrp n f).hp = s.hp ∧ (s.onGrp n f).he = s.he ∧
    (s.onGrp n f).trc = s.trc ∧ (s.onGrp n f).hk = s.hk ∧ (s.onGrp n f).jtag = s.jtag ∧
    (s.onGrp n f).mpStatus = s.mpStatus ∧ (s.onGrp n f).tw = s.tw ∧ (s.onGrp n f).fs = s.fs ∧
    (s.onGrp n f).selfFaults = s.selfFaults ∧
    (s.onGrp n f).devQ = s.devQ ∧ (s.onGrp n f).saveFaults = s.saveFaults ∧ (s.onGrp n f).accHeld = s.accHeld ∧ (s.onGrp n f).devNow = s.devNow ∧
    (s.onGrp n f).ueDue = s.ueDue ∧ (s.onGrp n f).mpWait = s.mpWait :=
  ⟨rfl, rfl, rfl, rfl, rfl, rfl, rfl, rfl, rfl, rfl, rfl, rfl, rfl, rfl, rfl, rfl, rfl, rfl, rfl, rfl, rfl, rfl, rfl, rfl, rfl, rfl, rfl, rfl, rfl, rfl, rfl, rfl, rfl, rfl, rfl, rfl, rfl, rfl, rfl, rfl, rfl⟩

@[simp] theorem State.onTu_rest (s : State) (f : TuSt → TuSt) :
    (s.onTu f).pending = s.pending ∧ (s.onTu f).time = s.time ∧ (s.onTu f).regs = s.regs ∧ (s.onTu f).mem = s.mem ∧
    (s.onTu f).poison = s.poison ∧ (s.onTu f).snaps = s.snaps ∧ (s.onTu f).hostMem = s.hostMem ∧
    (s.onTu f).free = s.free ∧ (s.onTu f).out = s.out ∧ (s.onTu f).checks = s.checks ∧ (s.onTu f).guards = s.guards ∧
    (s.onTu f).eh = s.eh ∧ (s.onTu f).cyc = s.cyc ∧ (s.onTu f).sg = s.sg ∧ (s.onTu f).fb = s.fb ∧
    (s.onTu f).le = s.le ∧ (s.onTu f).pg = s.pg ∧ (s.onTu f).fp = s.fp ∧ (s.onTu f).ep = s.ep ∧
    (s.onTu f).ae = s.ae ∧ (s.onTu f).ang = s.ang ∧ (s.onTu f).cores = s.cores ∧ (s.onTu f).ks = s.ks ∧
    (s.onTu f).ms = s.ms ∧ (s.onTu f).dma = s.dma ∧ (s.onTu f).queues = s.queues ∧ (s.onTu f).hp = s.hp ∧
    (s.onTu f).he = s.he ∧ (s.onTu f).trc = s.trc ∧ (s.onTu f).hk = s.hk ∧ (s.onTu f).jtag = s.jtag ∧
    (s.onTu f).mpStatus = s.mpStatus ∧ (s.onTu f).tw = s.tw ∧ (s.onTu f).fs = s.fs ∧
    (s.onTu f).selfFaults = s.selfFaults ∧
    (s.onTu f).devQ = s.devQ ∧ (s.onTu f).saveFaults = s.saveFaults ∧ (s.onTu f).accHeld = s.accHeld ∧ (s.onTu f).devNow = s.devNow ∧
    (s.onTu f).ueDue = s.ueDue ∧ (s.onTu f).mpWait = s.mpWait :=
  ⟨rfl, rfl, rfl, rfl, rfl, rfl, rfl, rfl, rfl, rfl, rfl, rfl, rfl, rfl, rfl, rfl, rfl, rfl, rfl, rfl, rfl, rfl, rfl, rfl, rfl, rfl, rfl, rfl, rfl, rfl, rfl, rfl, rfl, rfl, rfl, rfl, rfl, rfl, rfl, rfl, rfl⟩

@[simp] theorem State.onDom_rest (s : State) (n : Nat) (f : PtpDom → PtpDom) :
    (s.onDom n f).pending = s.pending ∧ (s.onDom n f).time = s.time ∧ (s.onDom n f).regs = s.regs ∧
    (s.onDom n f).mem = s.mem ∧ (s.onDom n f).poison = s.poison ∧ (s.onDom n f).snaps = s.snaps ∧
    (s.onDom n f).hostMem = s.hostMem ∧ (s.onDom n f).free = s.free ∧ (s.onDom n f).out = s.out ∧
    (s.onDom n f).checks = s.checks ∧ (s.onDom n f).guards = s.guards ∧ (s.onDom n f).eh = s.eh ∧
    (s.onDom n f).cyc = s.cyc ∧ (s.onDom n f).sg = s.sg ∧ (s.onDom n f).fb = s.fb ∧ (s.onDom n f).le = s.le ∧
    (s.onDom n f).pg = s.pg ∧ (s.onDom n f).fp = s.fp ∧ (s.onDom n f).ep = s.ep ∧ (s.onDom n f).ae = s.ae ∧
    (s.onDom n f).ang = s.ang ∧ (s.onDom n f).cores = s.cores ∧ (s.onDom n f).ks = s.ks ∧ (s.onDom n f).ms = s.ms ∧
    (s.onDom n f).dma = s.dma ∧ (s.onDom n f).queues = s.queues ∧ (s.onDom n f).hp = s.hp ∧ (s.onDom n f).he = s.he ∧
    (s.onDom n f).trc = s.trc ∧ (s.onDom n f).hk = s.hk ∧ (s.onDom n f).jtag = s.jtag ∧
    (s.onDom n f).mpStatus = s.mpStatus ∧ (s.onDom n f).tw = s.tw ∧ (s.onDom n f).fs = s.fs ∧
    (s.onDom n f).selfFaults = s.selfFaults ∧ (s.onDom n f).devQ = s.devQ ∧ (s.onDom n f).saveFaults = s.saveFaults ∧
    (s.onDom n f).accHeld = s.accHeld ∧ (s.onDom n f).devNow = s.devNow ∧
    (s.onDom n f).ueDue = s.ueDue ∧ (s.onDom n f).mpWait = s.mpWait := by
  by_cases h : n = 0 <;> simp [State.onDom, h]

@[simp] theorem State.onQueue_rest (s : State) (n : Nat) (f : QueueSt → QueueSt) :
    (s.onQueue n f).pending = s.pending ∧ (s.onQueue n f).time = s.time ∧ (s.onQueue n f).regs = s.regs ∧
    (s.onQueue n f).mem = s.mem ∧ (s.onQueue n f).poison = s.poison ∧ (s.onQueue n f).snaps = s.snaps ∧
    (s.onQueue n f).hostMem = s.hostMem ∧ (s.onQueue n f).free = s.free ∧ (s.onQueue n f).out = s.out ∧
    (s.onQueue n f).checks = s.checks ∧ (s.onQueue n f).guards = s.guards ∧ (s.onQueue n f).eh = s.eh ∧
    (s.onQueue n f).cyc = s.cyc ∧ (s.onQueue n f).sg = s.sg ∧ (s.onQueue n f).fb = s.fb ∧ (s.onQueue n f).le = s.le ∧
    (s.onQueue n f).pg = s.pg ∧ (s.onQueue n f).fp = s.fp ∧ (s.onQueue n f).ep = s.ep ∧ (s.onQueue n f).ae = s.ae ∧
    (s.onQueue n f).ang = s.ang ∧ (s.onQueue n f).tu = s.tu ∧ (s.onQueue n f).cores = s.cores ∧
    (s.onQueue n f).ks = s.ks ∧ (s.onQueue n f).ms = s.ms ∧ (s.onQueue n f).dma = s.dma ∧ (s.onQueue n f).hp = s.hp ∧
    (s.onQueue n f).he = s.he ∧ (s.onQueue n f).trc = s.trc ∧ (s.onQueue n f).hk = s.hk ∧
    (s.onQueue n f).jtag = s.jtag ∧ (s.onQueue n f).mpStatus = s.mpStatus ∧ (s.onQueue n f).tw = s.tw ∧
    (s.onQueue n f).fs = s.fs ∧ (s.onQueue n f).selfFaults = s.selfFaults ∧
    (s.onQueue n f).devQ = s.devQ ∧ (s.onQueue n f).saveFaults = s.saveFaults ∧ (s.onQueue n f).accHeld = s.accHeld ∧ (s.onQueue n f).devNow = s.devNow ∧
    (s.onQueue n f).ueDue = s.ueDue ∧ (s.onQueue n f).mpWait = s.mpWait :=
  ⟨rfl, rfl, rfl, rfl, rfl, rfl, rfl, rfl, rfl, rfl, rfl, rfl, rfl, rfl, rfl, rfl, rfl, rfl, rfl, rfl, rfl, rfl, rfl, rfl, rfl, rfl, rfl, rfl, rfl, rfl, rfl, rfl, rfl, rfl, rfl, rfl, rfl, rfl, rfl, rfl, rfl⟩

@[simp] theorem State.onCore_rest (s : State) (n : Nat) (f : CoreSt → CoreSt) :
    (s.onCore n f).pending = s.pending ∧ (s.onCore n f).time = s.time ∧ (s.onCore n f).regs = s.regs ∧
    (s.onCore n f).mem = s.mem ∧ (s.onCore n f).poison = s.poison ∧ (s.onCore n f).snaps = s.snaps ∧
    (s.onCore n f).hostMem = s.hostMem ∧ (s.onCore n f).free = s.free ∧ (s.onCore n f).out = s.out ∧
    (s.onCore n f).checks = s.checks ∧ (s.onCore n f).guards = s.guards ∧ (s.onCore n f).eh = s.eh ∧
    (s.onCore n f).cyc = s.cyc ∧ (s.onCore n f).sg = s.sg ∧ (s.onCore n f).fb = s.fb ∧ (s.onCore n f).le = s.le ∧
    (s.onCore n f).pg = s.pg ∧ (s.onCore n f).fp = s.fp ∧ (s.onCore n f).ep = s.ep ∧ (s.onCore n f).ae = s.ae ∧
    (s.onCore n f).ang = s.ang ∧ (s.onCore n f).tu = s.tu ∧ (s.onCore n f).ks = s.ks ∧ (s.onCore n f).ms = s.ms ∧
    (s.onCore n f).dma = s.dma ∧ (s.onCore n f).queues = s.queues ∧ (s.onCore n f).hp = s.hp ∧
    (s.onCore n f).he = s.he ∧ (s.onCore n f).trc = s.trc ∧ (s.onCore n f).hk = s.hk ∧ (s.onCore n f).jtag = s.jtag ∧
    (s.onCore n f).mpStatus = s.mpStatus ∧ (s.onCore n f).tw = s.tw ∧ (s.onCore n f).fs = s.fs ∧
    (s.onCore n f).selfFaults = s.selfFaults ∧
    (s.onCore n f).devQ = s.devQ ∧ (s.onCore n f).saveFaults = s.saveFaults ∧ (s.onCore n f).accHeld = s.accHeld ∧ (s.onCore n f).devNow = s.devNow ∧
    (s.onCore n f).ueDue = s.ueDue ∧ (s.onCore n f).mpWait = s.mpWait :=
  ⟨rfl, rfl, rfl, rfl, rfl, rfl, rfl, rfl, rfl, rfl, rfl, rfl, rfl, rfl, rfl, rfl, rfl, rfl, rfl, rfl, rfl, rfl, rfl, rfl, rfl, rfl, rfl, rfl, rfl, rfl, rfl, rfl, rfl, rfl, rfl, rfl, rfl, rfl, rfl, rfl, rfl⟩

@[simp] theorem State.onPort_rest (s : State) (n : Nat) (f : FpSt → FpSt) :
    (s.onPort n f).pending = s.pending ∧ (s.onPort n f).time = s.time ∧ (s.onPort n f).regs = s.regs ∧
    (s.onPort n f).mem = s.mem ∧ (s.onPort n f).poison = s.poison ∧ (s.onPort n f).snaps = s.snaps ∧
    (s.onPort n f).hostMem = s.hostMem ∧ (s.onPort n f).free = s.free ∧ (s.onPort n f).out = s.out ∧
    (s.onPort n f).checks = s.checks ∧ (s.onPort n f).guards = s.guards ∧ (s.onPort n f).eh = s.eh ∧
    (s.onPort n f).cyc = s.cyc ∧ (s.onPort n f).sg = s.sg ∧ (s.onPort n f).fb = s.fb ∧ (s.onPort n f).le = s.le ∧
    (s.onPort n f).pg = s.pg ∧ (s.onPort n f).ep = s.ep ∧ (s.onPort n f).ae = s.ae ∧ (s.onPort n f).ang = s.ang ∧
    (s.onPort n f).tu = s.tu ∧ (s.onPort n f).cores = s.cores ∧ (s.onPort n f).ks = s.ks ∧ (s.onPort n f).ms = s.ms ∧
    (s.onPort n f).dma = s.dma ∧ (s.onPort n f).queues = s.queues ∧ (s.onPort n f).hp = s.hp ∧
    (s.onPort n f).he = s.he ∧ (s.onPort n f).trc = s.trc ∧ (s.onPort n f).hk = s.hk ∧ (s.onPort n f).jtag = s.jtag ∧
    (s.onPort n f).mpStatus = s.mpStatus ∧ (s.onPort n f).tw = s.tw ∧ (s.onPort n f).fs = s.fs ∧
    (s.onPort n f).selfFaults = s.selfFaults ∧
    (s.onPort n f).devQ = s.devQ ∧ (s.onPort n f).saveFaults = s.saveFaults ∧ (s.onPort n f).accHeld = s.accHeld ∧ (s.onPort n f).devNow = s.devNow ∧
    (s.onPort n f).ueDue = s.ueDue ∧ (s.onPort n f).mpWait = s.mpWait :=
  ⟨rfl, rfl, rfl, rfl, rfl, rfl, rfl, rfl, rfl, rfl, rfl, rfl, rfl, rfl, rfl, rfl, rfl, rfl, rfl, rfl, rfl, rfl, rfl, rfl, rfl, rfl, rfl, rfl, rfl, rfl, rfl, rfl, rfl, rfl, rfl, rfl, rfl, rfl, rfl, rfl, rfl⟩

@[simp] theorem State.onNode_rest (s : State) (n j : Nat) (f : FpNode → FpNode) :
    (s.onNode n j f).pending = s.pending ∧ (s.onNode n j f).time = s.time ∧ (s.onNode n j f).regs = s.regs ∧
    (s.onNode n j f).mem = s.mem ∧ (s.onNode n j f).poison = s.poison ∧ (s.onNode n j f).snaps = s.snaps ∧
    (s.onNode n j f).hostMem = s.hostMem ∧ (s.onNode n j f).free = s.free ∧ (s.onNode n j f).out = s.out ∧
    (s.onNode n j f).checks = s.checks ∧ (s.onNode n j f).guards = s.guards ∧ (s.onNode n j f).eh = s.eh ∧
    (s.onNode n j f).cyc = s.cyc ∧ (s.onNode n j f).sg = s.sg ∧ (s.onNode n j f).fb = s.fb ∧
    (s.onNode n j f).le = s.le ∧ (s.onNode n j f).pg = s.pg ∧ (s.onNode n j f).ep = s.ep ∧
    (s.onNode n j f).ae = s.ae ∧ (s.onNode n j f).ang = s.ang ∧ (s.onNode n j f).tu = s.tu ∧
    (s.onNode n j f).cores = s.cores ∧ (s.onNode n j f).ks = s.ks ∧ (s.onNode n j f).ms = s.ms ∧
    (s.onNode n j f).dma = s.dma ∧ (s.onNode n j f).queues = s.queues ∧ (s.onNode n j f).hp = s.hp ∧
    (s.onNode n j f).he = s.he ∧ (s.onNode n j f).trc = s.trc ∧ (s.onNode n j f).hk = s.hk ∧
    (s.onNode n j f).jtag = s.jtag ∧ (s.onNode n j f).mpStatus = s.mpStatus ∧ (s.onNode n j f).tw = s.tw ∧
    (s.onNode n j f).fs = s.fs ∧ (s.onNode n j f).selfFaults = s.selfFaults ∧
    (s.onNode n j f).devQ = s.devQ ∧ (s.onNode n j f).saveFaults = s.saveFaults ∧ (s.onNode n j f).accHeld = s.accHeld ∧ (s.onNode n j f).devNow = s.devNow ∧
    (s.onNode n j f).ueDue = s.ueDue ∧ (s.onNode n j f).mpWait = s.mpWait :=
  ⟨rfl, rfl, rfl, rfl, rfl, rfl, rfl, rfl, rfl, rfl, rfl, rfl, rfl, rfl, rfl, rfl, rfl, rfl, rfl, rfl, rfl, rfl, rfl, rfl, rfl, rfl, rfl, rfl, rfl, rfl, rfl, rfl, rfl, rfl, rfl, rfl, rfl, rfl, rfl, rfl, rfl⟩

@[simp] theorem State.onTw_rest (s : State) (f : TwSt → TwSt) :
    (s.onTw f).pending = s.pending ∧ (s.onTw f).time = s.time ∧ (s.onTw f).regs = s.regs ∧ (s.onTw f).mem = s.mem ∧
    (s.onTw f).poison = s.poison ∧ (s.onTw f).snaps = s.snaps ∧ (s.onTw f).hostMem = s.hostMem ∧
    (s.onTw f).free = s.free ∧ (s.onTw f).out = s.out ∧ (s.onTw f).checks = s.checks ∧ (s.onTw f).guards = s.guards ∧
    (s.onTw f).eh = s.eh ∧ (s.onTw f).cyc = s.cyc ∧ (s.onTw f).sg = s.sg ∧ (s.onTw f).fb = s.fb ∧
    (s.onTw f).le = s.le ∧ (s.onTw f).pg = s.pg ∧ (s.onTw f).fp = s.fp ∧ (s.onTw f).ep = s.ep ∧
    (s.onTw f).ae = s.ae ∧ (s.onTw f).ang = s.ang ∧ (s.onTw f).tu = s.tu ∧ (s.onTw f).cores = s.cores ∧
    (s.onTw f).ks = s.ks ∧ (s.onTw f).ms = s.ms ∧ (s.onTw f).dma = s.dma ∧ (s.onTw f).queues = s.queues ∧
    (s.onTw f).hp = s.hp ∧ (s.onTw f).he = s.he ∧ (s.onTw f).trc = s.trc ∧ (s.onTw f).hk = s.hk ∧
    (s.onTw f).jtag = s.jtag ∧ (s.onTw f).mpStatus = s.mpStatus ∧ (s.onTw f).fs = s.fs ∧
    (s.onTw f).selfFaults = s.selfFaults ∧
    (s.onTw f).devQ = s.devQ ∧ (s.onTw f).saveFaults = s.saveFaults ∧ (s.onTw f).accHeld = s.accHeld ∧ (s.onTw f).devNow = s.devNow ∧
    (s.onTw f).ueDue = s.ueDue ∧ (s.onTw f).mpWait = s.mpWait :=
  ⟨rfl, rfl, rfl, rfl, rfl, rfl, rfl, rfl, rfl, rfl, rfl, rfl, rfl, rfl, rfl, rfl, rfl, rfl, rfl, rfl, rfl, rfl, rfl, rfl, rfl, rfl, rfl, rfl, rfl, rfl, rfl, rfl, rfl, rfl, rfl, rfl, rfl, rfl, rfl, rfl, rfl⟩

@[simp] theorem State.onFeed_rest (s : State) (n : Nat) (f : FeedSt → FeedSt) :
    (s.onFeed n f).pending = s.pending ∧ (s.onFeed n f).time = s.time ∧ (s.onFeed n f).regs = s.regs ∧
    (s.onFeed n f).mem = s.mem ∧ (s.onFeed n f).poison = s.poison ∧ (s.onFeed n f).snaps = s.snaps ∧
    (s.onFeed n f).hostMem = s.hostMem ∧ (s.onFeed n f).free = s.free ∧ (s.onFeed n f).out = s.out ∧
    (s.onFeed n f).checks = s.checks ∧ (s.onFeed n f).guards = s.guards ∧ (s.onFeed n f).eh = s.eh ∧
    (s.onFeed n f).cyc = s.cyc ∧ (s.onFeed n f).sg = s.sg ∧ (s.onFeed n f).fb = s.fb ∧ (s.onFeed n f).le = s.le ∧
    (s.onFeed n f).pg = s.pg ∧ (s.onFeed n f).fp = s.fp ∧ (s.onFeed n f).ep = s.ep ∧ (s.onFeed n f).ae = s.ae ∧
    (s.onFeed n f).ang = s.ang ∧ (s.onFeed n f).tu = s.tu ∧ (s.onFeed n f).cores = s.cores ∧
    (s.onFeed n f).ks = s.ks ∧ (s.onFeed n f).ms = s.ms ∧ (s.onFeed n f).dma = s.dma ∧
    (s.onFeed n f).queues = s.queues ∧ (s.onFeed n f).hp = s.hp ∧ (s.onFeed n f).he = s.he ∧
    (s.onFeed n f).trc = s.trc ∧ (s.onFeed n f).hk = s.hk ∧ (s.onFeed n f).jtag = s.jtag ∧
    (s.onFeed n f).mpStatus = s.mpStatus ∧ (s.onFeed n f).tw = s.tw ∧ (s.onFeed n f).selfFaults = s.selfFaults ∧
    (s.onFeed n f).devQ = s.devQ ∧ (s.onFeed n f).saveFaults = s.saveFaults ∧ (s.onFeed n f).accHeld = s.accHeld ∧ (s.onFeed n f).devNow = s.devNow ∧
    (s.onFeed n f).ueDue = s.ueDue ∧ (s.onFeed n f).mpWait = s.mpWait := by
  by_cases h : n = 0 <;> simp [State.onFeed, h]

@[simp] theorem askTime_ask (s : State) (a : TimeAsk) : (askTime s a).cyc.ask = s.cyc.ask ++ [a] := rfl

/-! ### What an update writes -/

@[simp] theorem State.onTw_tw (s : State) (f : TwSt → TwSt) : (s.onTw f).tw = f s.tw := rfl
@[simp] theorem State.onHk_hk (s : State) (f : HkSt → HkSt) : (s.onHk f).hk = f s.hk := rfl
@[simp] theorem State.onHp_hp (s : State) (f : HpSt → HpSt) : (s.onHp f).hp = f s.hp := rfl
@[simp] theorem State.onTu_tu (s : State) (f : TuSt → TuSt) : (s.onTu f).tu = f s.tu := rfl
@[simp] theorem State.onKs_ks (s : State) (f : KsSt → KsSt) : (s.onKs f).ks = f s.ks := rfl
@[simp] theorem State.onJtag_jtag (s : State) (f : JtagSt → JtagSt) : (s.onJtag f).jtag = f s.jtag := rfl
@[simp] theorem State.emit_out (s : State) (o : Out) : (s.emit o).out = s.out ++ [o] := rfl
@[simp] theorem State.onCore_look (s : State) (n : Nat) (f : CoreSt → CoreSt) :
    (s.onCore n f).cores.look n = f (s.cores.look n) := by simp [State.onCore]
@[simp] theorem State.onFb_fbAx (s : State) (a : Nat) (f : FbAx → FbAx) : (s.onFb a f).fbAx a = f (s.fbAx a) := by
  simp [State.onFb, State.fbAx]
@[simp] theorem State.onLe_leAx (s : State) (a : Nat) (f : LeAx → LeAx) : (s.onLe a f).leAx a = f (s.leAx a) := by
  simp [State.onLe, State.leAx]
@[simp] theorem State.onEng_eng (s : State) (n : Nat) (f : LeEng → LeEng) : (s.onEng n f).eng n = f (s.eng n) := by
  simp [State.onEng, State.eng]
@[simp] theorem State.setPg_pgAx (s : State) (a : Nat) (x : PgAx) : (s.setPg a x).pgAx a = x := by
  simp [State.setPg, State.pgAx]
@[simp] theorem State.onGrp_grp (s : State) (n : Nat) (f : PgGrp → PgGrp) : (s.onGrp n f).grp n = f (s.grp n) := by
  simp [State.onGrp, State.grp]
@[simp] theorem State.onPort_port (s : State) (p : Nat) (f : FpSt → FpSt) : (s.onPort p f).port p = f (s.port p) := by
  simp [State.onPort, State.port]

end Sys2Proof.Machine
end

