-- ==== Sys2Proof/Laws/Frame.lean ====
section
/-! SUPPORT. What follows from a command behind its own effect (R77, R396, R398, R416, R424, R454): `after` changes nothing
but what `Follows` names. -/

namespace Sys2Proof

open Sys2Proof.Machine

/-! ### The relation

`Moves W K s u`: `u` is `s` with what events and notices change, of memory only bytes with `W`. `Follows` is `Moves` for the
rings and the context words, with what the disabled hub adds. -/

/-- What events and notices can change, with the bytes of memory that may change named by `W`; `K` says when the counts of the memory
page stay too. -/
structure Moves (W : Nat → Prop) (K : Prop) (s u : State) : Prop where
  regs : ∀ a, eventReg a = false → u.reg a = s.reg a
  cores : ∀ n, u.core n = { s.core n with
    prefetch := (u.core n).prefetch, preArch := (u.core n).preArch, preempt := (u.core n).preempt }
  hp : u.hp = { s.hp with msixPending := u.hp.msixPending }
  hk : u.hk = { s.hk with
    starting := u.hk.starting, started := u.hk.started, ending := u.hk.ending
    stagesDone := u.hk.stagesDone, stage10At := u.hk.stage10At, log := u.hk.log }
  start : s.hk.starting = false → u.hk = s.hk ∧ ∀ a, startReg a = true → u.reg a = s.reg a
  tw : u.tw = { s.tw with told := u.tw.told, followed := u.tw.followed, image := u.tw.image }
  ks : u.ks = { s.ks with ready := u.ks.ready, noticesLost := u.ks.noticesLost }
  out : s.out <+: u.out
  devQ : s.devQ <+: u.devQ
  mem : ∀ b, ¬ W b → u.byte b = s.byte b
  ms : u.ms = { s.ms with ueSram := u.ms.ueSram, ueDram := u.ms.ueDram }
  count : K → u.ms = s.ms
  rest : u = { s with
    regs := u.regs, mem := u.mem, poison := u.poison, hostMem := u.hostMem, free := u.free, out := u.out
    eh := u.eh, cores := u.cores, ks := u.ks, hp := u.hp, hk := u.hk, tw := u.tw, devQ := u.devQ, saveFaults := u.saveFaults
    ms := u.ms, ueDue := u.ueDue }

variable {W : Nat → Prop} {K : Prop}

theorem Moves.refl (s : State) : Moves W K s s :=
  ⟨fun _ _ => rfl, fun _ => rfl, rfl, rfl, fun _ => ⟨rfl, fun _ _ => rfl⟩, rfl, rfl, List.prefix_refl _, List.prefix_refl _, fun _ _ => rfl, rfl, fun _ => rfl, rfl⟩

theorem Moves.trans {s t u : State} (h : Moves W K s t) (k : Moves W K t u) : Moves W K s u where
  regs a ha := (k.regs a ha).trans (h.regs a ha)
  cores n := by rw [k.cores n, h.cores n]
  hp := by rw [k.hp, h.hp]
  hk := by rw [k.hk, h.hk]
  start q := by
    obtain ⟨a1, a2⟩ := h.start q
    obtain ⟨b1, b2⟩ := k.start (by rw [a1]; exact q)
    exact ⟨b1.trans a1, fun a ha => (b2 a ha).trans (a2 a ha)⟩
  tw := by rw [k.tw, h.tw]
  ks := by rw [k.ks, h.ks]
  out := h.out.trans k.out
  devQ := h.devQ.trans k.devQ
  mem b hb := (k.mem b hb).trans (h.mem b hb)
  ms := by rw [k.ms, h.ms]
  count c := (k.count c).trans (h.count c)
  rest := by rw [k.rest, h.rest]

theorem Moves.ite {c : Prop} [Decidable c] {s t u : State} (h : Moves W K s t) (k : Moves W K s u) :
    Moves W K s (if c then t else u) := by split <;> assumption

/-- An update of the poisoned words, host memory, the free values or the queues of the hub. -/
theorem Moves.update (s : State) (poison : List Nat) (hostMem : List (Nat × Byte)) (free : Nat) (eh : Tab EhQueue) :
    Moves W K s { s with poison, hostMem, free, eh } :=
  ⟨fun _ _ => rfl, fun _ => rfl, rfl, rfl, fun _ => ⟨rfl, fun _ _ => rfl⟩, rfl, rfl, List.prefix_refl _, List.prefix_refl _, fun _ _ => rfl, rfl, fun _ => rfl, rfl⟩

/-- The faults of save areas that are still to be reported. -/
theorem Moves.saveFaults (s : State) (l : List (Nat × Nat × Nat)) : Moves W K s { s with saveFaults := l } :=
  ⟨fun _ _ => rfl, fun _ => rfl, rfl, rfl, fun _ => ⟨rfl, fun _ _ => rfl⟩, rfl, rfl, List.prefix_refl _, List.prefix_refl _, fun _ _ => rfl, rfl, fun _ => rfl, rfl⟩

/-- The uncorrectable reads that are still to be reported. -/
theorem Moves.due (s : State) (l : List (Nat × Nat)) : Moves W K s { s with ueDue := l } :=
  ⟨fun _ _ => rfl, fun _ => rfl, rfl, rfl, fun _ => ⟨rfl, fun _ _ => rfl⟩, rfl, rfl, List.prefix_refl _, List.prefix_refl _, fun _ _ => rfl, rfl, fun _ => rfl, rfl⟩

theorem Moves.noteReadsBy (s : State) (m : Nat) (l : List Nat) : Moves W K s (s.noteReadsBy m l) := by
  unfold State.noteReadsBy
  exact Moves.ite (Moves.refl s) (Moves.due s _)

/-- Something more is sent. -/
theorem Moves.out' (s : State) (l : List Out) : Moves W K s { s with out := s.out ++ l } :=
  ⟨fun _ _ => rfl, fun _ => rfl, rfl, rfl, fun _ => ⟨rfl, fun _ _ => rfl⟩, rfl, rfl, List.prefix_append _ _, List.prefix_refl _, fun _ _ => rfl, rfl, fun _ => rfl, rfl⟩

theorem Moves.forEach {α : Type} (f : α → State → State) (l : List α) (hf : ∀ a ∈ l, ∀ s, Moves W K s (f a s)) :
    ∀ s, Moves W K s (forEach f l s) := by
  induction l with
  | nil => exact Moves.refl
  | cons a r ih =>
    intro s
    exact (hf a (by simp) s).trans (ih (fun b hb => hf b (by simp [hb])) _)

theorem hubReg_start {a : Nat} (h : startReg a = true) : hubReg a = false := by
  unfold startReg at h
  simp only [Bool.or_eq_true, decide_eq_true_eq] at h
  rcases h with rfl | rfl <;> decide

theorem Moves.setReg (s : State) (a v : Nat) (h : hubReg a = true) : Moves W K s (s.setReg a v) :=
  ⟨fun b hb => State.reg_setReg_other s v (by rintro rfl; simp [eventReg, h] at hb), fun _ => rfl, rfl, rfl,
    fun _ => ⟨rfl, fun b hb => State.reg_setReg_other s v (by rintro rfl; simp [hubReg_start hb] at h)⟩, rfl, rfl,
    List.prefix_refl _, List.prefix_refl _, fun _ _ => rfl, rfl, fun _ => rfl, rfl⟩

theorem Moves.put (s : State) (f : Fld) (v : Nat) (h : hubReg f.adr = true) : Moves W K s (s.put f v) :=
  Moves.setReg s _ _ h

/-! ### Memory -/

theorem setBytes_eq (n : Nat) : ∀ (s : State) (a v : Nat), s.setBytes a v n = { s with mem := (s.setBytes a v n).mem } := by
  induction n with
  | zero => intro s a v; rfl
  | succ n ih => intro s a v; unfold State.setBytes; rw [ih]; rfl

theorem setHostBytes_eq (n : Nat) : ∀ (s : State) (a v : Nat),
    s.setHostBytes a v n = { s with hostMem := (s.setHostBytes a v n).hostMem } := by
  induction n with
  | zero => intro s a v; rfl
  | succ n ih => intro s a v; unfold State.setHostBytes; rw [ih]; rfl

/-- A write of `n` bytes moves nothing beyond its own bytes. -/
theorem Moves.setBytes (s : State) (a v n : Nat) (h : ∀ b, a ≤ b → b < a + n → W b) : Moves W K s (s.setBytes a v n) where
  mem b hb := State.byte_setBytes_other n s a v
    (Decidable.byContradiction (fun k => hb (h b (by omega) (by omega))))
  regs c _ := by rw [setBytes_eq]; rfl
  cores m := by rw [setBytes_eq]; rfl
  hp := by rw [setBytes_eq]
  hk := by rw [setBytes_eq]
  start _ := by rw [setBytes_eq]; exact ⟨rfl, fun _ _ => rfl⟩
  tw := by rw [setBytes_eq]
  ks := by rw [setBytes_eq]
  out := by
    have e : (s.setBytes a v n).out = s.out := by rw [setBytes_eq]
    exact e ▸ List.prefix_refl _
  devQ := by
    have e : (s.setBytes a v n).devQ = s.devQ := by rw [setBytes_eq]
    exact e ▸ List.prefix_refl _
  ms := by rw [setBytes_eq]
  count _ := by rw [setBytes_eq]
  rest := by rw [setBytes_eq]

theorem Moves.setHostBytes (s : State) (a v n : Nat) : Moves W K s (s.setHostBytes a v n) := by
  rw [setHostBytes_eq]; exact Moves.update s _ _ _ _

theorem eventReg_poison {k : Nat} (h : k < 16) : hubReg (F.MEM_POISON_VALID k).adr = true := by
  simp only [hubReg, pMEM, pEH]; simp; omega

theorem Moves.heal (s : State) (a : Nat) : Moves W K s (s.heal a) := by
  unfold State.heal
  split
  · refine (Moves.update s (nsDel s.poison (a / 8 * 8)) s.hostMem s.free s.eh).trans ?_
    refine Moves.forEach _ _ (fun k hk r => ?_) _
    split
    · exact Moves.put r _ _ (eventReg_poison (List.mem_range.mp hk))
    · exact Moves.refl r
  · exact Moves.refl s

/-- A word write moves nothing beyond its own word. -/
theorem Moves.setWord (s : State) (a v : Nat) (h : ∀ b, b / 8 = a / 8 → W b) : Moves W K s (s.setWord a v) :=
  (Moves.heal s a).trans (Moves.setBytes _ _ _ _ (fun b h1 h2 => h b (by omega)))

theorem Moves.cxPut (s : State) (c : Nat) (f : Fld) (v : Nat) (hf : f.adr = 0x18) (h : ∀ b, contextWord b → W b) :
    Moves W K s (s.cxPut c f v) := by
  obtain ⟨l, e⟩ := State.mput_eq s (cxBase c) f v
  unfold State.cxPut
  rw [e]
  exact (Moves.setWord s _ _ (fun b hb => h b ⟨c, by rw [hb, hf]⟩)).trans (Moves.due _ _)

theorem Moves.nextFree (s : State) : Moves W K s s.nextFree := Moves.update s _ _ _ _

theorem Moves.cxOffCore (s : State) (c : Nat) (h : ∀ b, contextWord b → W b) : Moves W K s (s.cxOffCore c) := by
  unfold State.cxOffCore
  exact Moves.ite (Moves.refl s)
    (((Moves.cxPut s _ _ _ rfl h).trans (Moves.cxPut _ _ _ _ rfl h)).trans (Moves.nextFree _))

/-! ### Contexts and notices -/

theorem Moves.ready (s : State) (r : Tab (List Nat)) (n : Nat) :
    Moves W K s { s with ks := { s.ks with ready := r, noticesLost := n } } :=
  ⟨fun _ _ => rfl, fun _ => rfl, rfl, rfl, fun _ => ⟨rfl, fun _ _ => rfl⟩, rfl, rfl, List.prefix_refl _, List.prefix_refl _, fun _ _ => rfl, rfl, fun _ => rfl, rfl⟩

theorem Moves.onCore (s : State) (n : Nat) (f : CoreSt → CoreSt)
    (h : ∀ k, f k = { k with prefetch := (f k).prefetch, preArch := (f k).preArch, preempt := (f k).preempt }) :
    Moves W K s (s.onCore n f) := by
  refine ⟨fun _ _ => rfl, fun m => ?_, rfl, rfl, fun _ => ⟨rfl, fun _ _ => rfl⟩, rfl, rfl, List.prefix_refl _, List.prefix_refl _, fun _ _ => rfl, rfl, fun _ => rfl, rfl⟩
  show (s.cores.set n (f (s.cores.look n))).look m = _
  by_cases hm : m = n
  · subst hm
    have e : (s.onCore m f).core m = f (s.core m) := by simp [State.onCore, State.core]
    rw [e, look_set_self]
    exact h _
  · have e : (s.onCore n f).core m = s.core m := by simp [State.onCore, State.core, look_set_other _ _ hm]
    rw [e, look_set_other _ _ hm]
    rfl

section Notices

variable (hW : ∀ b, contextWord b → W b)
include hW

theorem Moves.enqueueReady (s : State) (c : Nat) (head : Bool) : Moves W K s (Machine.enqueueReady s c head) := by
  unfold Machine.enqueueReady Machine.setCxState
  exact ((Moves.cxPut s _ _ _ rfl hW).trans (Moves.cxOffCore _ _ hW)).trans (Moves.ready _ _ _)

theorem Moves.fillSlot (s : State) (n c : Nat) : Moves W K s (Machine.fillSlot s n c) := by
  unfold Machine.fillSlot Machine.setCxState Machine.unready
  refine Moves.trans ?_ (Moves.onCore _ n _ (fun _ => rfl))
  refine Moves.trans ?_ (Moves.cxPut _ c _ _ rfl hW)
  refine Moves.trans ?_ (Moves.cxPut _ c _ _ rfl hW)
  refine Moves.trans ?_ (Moves.cxPut _ c _ _ rfl hW)
  refine (Moves.noteReadsBy s (recordBlock (cxBase c + 8)) [cxBase c + 8]).trans ?_
  change Moves W K (s.noteRead (cxBase c + 8)) _
  generalize s.noteRead (cxBase c + 8) = u
  have k := (Moves.saveFaults (W := W) (K := K) u (u.saveFaults ++ saveFault u c)).trans (Moves.due _ (u.ueDue ++ savePoison u c))
  refine k.trans ?_
  exact Moves.ready { u with saveFaults := u.saveFaults ++ saveFault u c, ueDue := u.ueDue ++ savePoison u c } _ u.ks.noticesLost

theorem Moves.takeBack (s : State) (n : Nat) : Moves W K s (Machine.takeBack s n) := by
  unfold Machine.takeBack
  split
  · exact Moves.refl s
  · exact (Moves.onCore s n _ (fun _ => rfl)).trans (Moves.enqueueReady hW _ _ _)

theorem Moves.considerPreempt (s : State) (c : Nat) : Moves W K s (Machine.considerPreempt s c) := by
  unfold Machine.considerPreempt
  dsimp only
  refine Moves.ite (Moves.refl s) ?_
  split
  · exact Moves.refl s
  · exact Moves.ite
      (((Moves.takeBack hW s _).trans (Moves.fillSlot hW _ _ _)).trans (Moves.onCore _ _ _ (fun _ => rfl))) (Moves.refl s)

theorem Moves.makeReady (s : State) (c : Nat) (head : Bool) : Moves W K s (Machine.makeReady s c head) :=
  (Moves.enqueueReady hW s c head).trans (Moves.considerPreempt hW _ _)

theorem Moves.sendNotice (s : State) (c : Nat) : Moves W K s (Machine.sendNotice s c) := by
  unfold Machine.sendNotice
  dsimp only
  exact Moves.ite (Moves.makeReady hW s _ _) (Moves.ite (Moves.cxPut s _ _ _ rfl hW) (Moves.ready s s.ks.ready _))

end Notices

/-! ### The records of a queue -/

theorem Moves.eh (s : State) (e : Tab EhQueue) : Moves W K s { s with eh := e } := Moves.update s _ _ _ _

theorem Moves.msixSend (s : State) (v : Nat) : Moves W K s (Machine.msixSend s v) := by
  unfold Machine.msixSend
  split
  · exact ⟨fun _ _ => rfl, fun _ => rfl, rfl, rfl, fun _ => ⟨rfl, fun _ _ => rfl⟩, rfl, rfl, List.prefix_refl _, List.prefix_refl _, fun _ _ => rfl, rfl, fun _ => rfl, rfl⟩
  · exact (Moves.setHostBytes s _ _ _).trans (Moves.out' _ _)

/-- What an address in the ring of queue `q` of a state with the registers of `s` is allowed to write. -/
def RingIn (W : Nat → Prop) (s : State) (q : Nat) : Prop :=
  s.gb (F.EH_QCFG_EN q) = true → ∀ x, s.reg (F.EH_QBASE q).adr ≤ x → x < s.reg (F.EH_QBASE q).adr + 16 * ringSlots s q →
    ∀ b, (0x800000000000 ≤ x ∨ ∃ m, directTarget s x = .mem m ∧ m / 8 = b / 8) → W b

theorem directTarget_mem (s t : State) (x m : Nat) (h : directTarget s x = .mem m) :
    directTarget t x = .mem m := by
  unfold directTarget at *
  split at h
  · rename_i c; rw [if_pos c]; exact h
  · rename_i c; rw [if_neg c]
    split at h
    · rename_i c; rw [if_pos c]; exact h
    · exfalso
      split at h
      · unfold hostTarget at h
        split at h <;> cases h
      · cases h

theorem eventReg_ring {q : Nat} (h : q < 16) :
    eventReg (F.EH_QBASE q).adr = false ∧ eventReg (F.EH_QCFG_EN q).adr = false ∧
    eventReg (F.EH_QCFG_SIZE_LOG2 q).adr = false := by
  simp only [eventReg, hubReg, startReg, pMEM, pEH, pXU, pHK]; simp; omega

theorem Moves.ring {s t : State} (h : Moves W K s t) {q : Nat} (hq : q < 16) :
    t.reg (F.EH_QBASE q).adr = s.reg (F.EH_QBASE q).adr ∧ ringSlots t q = ringSlots s q ∧
    t.gb (F.EH_QCFG_EN q) = s.gb (F.EH_QCFG_EN q) := by
  obtain ⟨h1, h2, h3⟩ := eventReg_ring hq
  refine ⟨h.regs _ h1, ?_, ?_⟩
  · unfold ringSlots State.g; rw [h.regs _ h3]
  · unfold State.gb State.g; rw [h.regs _ h2]

theorem RingIn.of {s t : State} {q : Nat} (hq : q < 16) (k : Moves W K s t) (h : RingIn W s q) : RingIn W t q := by
  obtain ⟨h1, h2, h3⟩ := k.ring hq
  unfold RingIn at *
  rw [h1, h2, h3]
  intro he x hx hy b hb
  rcases hb with hb | ⟨m, hm, hmb⟩
  · exact h he x hx hy b (.inl hb)
  · by_cases hl : x < 0x800000000000
    · exact h he x hx hy b (.inr ⟨m, directTarget_mem t s x m hm, hmb⟩)
    · exact h he x hx hy b (.inl (by omega))

/-- The event hub writes a word of a ring. -/
theorem Moves.devWrite (s : State) (x v q : Nat) (h : RingIn W s q) (he : s.gb (F.EH_QCFG_EN q) = true)
    (h1 : s.reg (F.EH_QBASE q).adr ≤ x) (h2 : x < s.reg (F.EH_QBASE q).adr + 16 * ringSlots s q) :
    Moves W K s (Machine.devWrite s 0x4B x v) := by
  unfold Machine.devWrite
  simp only [show (decide (0x4B = 0x4B) || decide (0x4B = 0x4D)) = true from rfl, Bool.not_true, Bool.false_and, Bool.false_eq_true,
    if_false, if_true]
  split
  · rename_i d hm
    refine Moves.setWord s _ _ (fun b hb => h he x h1 h2 b ?_)
    by_cases hl : x < 0x800000000000
    · right
      refine ⟨d, ?_, hb.symm⟩
      unfold xlate at hm
      rw [if_neg (by omega), if_pos hl] at hm
      exact hm
    · left; omega
  · exact Moves.setHostBytes s _ _ _
  · exact ⟨fun _ _ => rfl, fun _ => rfl, rfl, rfl, fun _ => ⟨rfl, fun _ _ => rfl⟩, rfl, rfl, List.prefix_refl _,
      List.prefix_append _ _, fun _ _ => rfl, rfl, fun _ => rfl, rfl⟩
  · exact Moves.refl s

theorem Moves.devWrites (l : List Nat) (q : Nat) (hq : q < 16) : ∀ (s : State) (x : Nat), RingIn W s q →
    s.gb (F.EH_QCFG_EN q) = true → s.reg (F.EH_QBASE q).adr ≤ x →
    x + 8 * l.length ≤ s.reg (F.EH_QBASE q).adr + 16 * ringSlots s q → Moves W K s (Machine.devWrites s 0x4B x l) := by
  induction l with
  | nil => intro s x _ _ _ _; exact Moves.refl s
  | cons v r ih =>
    intro s x h he h1 h2
    rw [List.length_cons] at h2
    have k := Moves.devWrite (K := K) s x v q h he h1 (by omega)
    obtain ⟨e1, e2, e3⟩ := k.ring hq
    exact k.trans (ih _ (x + 8) (h.of hq k) (e3 ▸ he) (by omega) (by omega))

theorem slotWords_length (l : Slots) : (slotWords l).length = 2 * l.length := by
  induction l with
  | nil => rfl
  | cons a r ih => simp only [slotWords, List.map_cons, List.flatten_cons, List.length_append, List.length_cons] at *; simp at *; omega

theorem ringSlots_pos (s : State) (q : Nat) : 0 < ringSlots s q := by
  unfold ringSlots
  dsimp only
  split
  · decide
  · exact Nat.two_pow_pos _

theorem Moves.writeSlots (s : State) (q wr : Nat) (l : Slots) (hq : q < 16) (h : RingIn W s q)
    (he : s.gb (F.EH_QCFG_EN q) = true) (hl : wr % ringSlots s q + l.length ≤ ringSlots s q) :
    Moves W K s (Machine.writeSlots s q wr l) := by
  unfold Machine.writeSlots
  exact Moves.devWrites _ q hq s _ h he (by omega) (by rw [slotWords_length]; omega)

theorem eventReg_wr {q : Nat} (h : q < 16) : hubReg (F.EH_QWR_COUNT q).adr = true := by
  simp only [hubReg, pEH]; simp; omega

theorem eventReg_state {q : Nat} (h : q < 16) : hubReg (F.EH_QSTATE_LOST q).adr = true := by
  simp only [hubReg, pEH]; simp; omega

theorem Moves.placeRecord (s : State) (q : Nat) (l : Slots) (hq : q < 16) (h : RingIn W s q)
    (he : s.gb (F.EH_QCFG_EN q) = true) (hl : l.length ≤ ringSlots s q) : Moves W K s (Machine.placeRecord s q l) := by
  have hn := ringSlots_pos s q
  have hm := Nat.mod_lt (s.g (F.EH_QWR_COUNT q)) hn
  unfold Machine.placeRecord
  dsimp only
  refine Moves.trans ?_ (Moves.put _ _ _ (eventReg_wr hq))
  by_cases hp : padOf (ringSlots s q) (s.g (F.EH_QWR_COUNT q)) l.length = 0
  · rw [if_pos hp, hp]
    refine Moves.writeSlots s q _ l hq h he ?_
    unfold padOf at hp
    dsimp only at hp
    rw [Nat.add_zero]
    split at hp <;> omega
  · rw [if_neg hp]
    have hpad : padOf (ringSlots s q) (s.g (F.EH_QWR_COUNT q)) l.length =
        ringSlots s q - s.g (F.EH_QWR_COUNT q) % ringSlots s q := by
      unfold padOf at hp ⊢
      dsimp only at hp ⊢
      split at hp
      · rename_i c; rw [if_pos c]
      · exact absurd rfl hp
    have k : Moves W K s (Machine.writeSlots s q (s.g (F.EH_QWR_COUNT q))
        (header s.stamp 3 0 0 (padOf (ringSlots s q) (s.g (F.EH_QWR_COUNT q)) l.length) 0 ::
          List.replicate (padOf (ringSlots s q) (s.g (F.EH_QWR_COUNT q)) l.length - 1) (0, 0))) :=
      Moves.writeSlots s q _ _ hq h he (by rw [List.length_cons, List.length_replicate, hpad]; omega)
    obtain ⟨e1, e2, e3⟩ := k.ring hq
    refine k.trans (Moves.writeSlots _ q _ l hq (h.of hq k) (e3 ▸ he) ?_)
    rw [e2, hpad]
    have : (s.g (F.EH_QWR_COUNT q) + (ringSlots s q - s.g (F.EH_QWR_COUNT q) % ringSlots s q)) % ringSlots s q = 0 := by
      have := Nat.div_add_mod (s.g (F.EH_QWR_COUNT q)) (ringSlots s q)
      have e : s.g (F.EH_QWR_COUNT q) + (ringSlots s q - s.g (F.EH_QWR_COUNT q) % ringSlots s q) =
          ringSlots s q * (s.g (F.EH_QWR_COUNT q) / ringSlots s q + 1) := by rw [Nat.mul_add]; omega
      rw [e]; exact Nat.mul_mod_right _ _
    omega

theorem Moves.loseRecord (s : State) (q : Nat) (d : DT) (h : q < 16) : Moves W K s (Machine.loseRecord s q d) :=
  (Moves.put s _ _ (eventReg_state h)).trans (Moves.eh _ _)

theorem Moves.noteXuFault (s : State) (m k l a : Nat) : Moves W K s (Machine.noteXuFault s m k l a) :=
  (Moves.setReg s _ _ (by decide)).trans (Moves.setReg _ _ _ (by decide))

theorem Moves.noteTableEcc (s : State) (k a : Nat) : Moves W K s (Machine.noteTableEcc s k a) := by
  unfold Machine.noteTableEcc
  split
  · exact Moves.due s _
  · exact Moves.refl s

section Records

variable (hW : ∀ b, contextWord b → W b)
include hW

theorem Moves.fireQueue (s : State) (q : Nat) (h : q < 16) : Moves W K s (Machine.fireQueue s q) := by
  unfold Machine.fireQueue
  dsimp only
  refine Moves.trans (t := (Machine.msixSend s (s.g (F.EH_QCFG_VECTOR q))).put (F.EH_QSTATE_ARMED q) 0)
    ((Moves.msixSend s _).trans (Moves.put _ _ _ (eventReg_state h))) ?_
  exact Moves.ite (Moves.sendNotice hW _ _) (Moves.refl _)

theorem Moves.tryRecord (s : State) (q : Nat) (d : DT) (l : Slots) (hq : q < 16) (h : RingIn W s q) (u : State)
    (o : Option (Nat × Nat × Nat)) (e : Machine.tryRecord s q d l = (u, o)) : Moves W K s u := by
  have key : ∀ t, Moves W K s t → s.gb (F.EH_QCFG_EN q) = true → l.length ≤ ringSlots s q →
      Moves W K s (if (Machine.placeRecord t q l).gb (F.EH_QSTATE_ARMED q) then
      Machine.fireQueue (Machine.placeRecord t q l) q else Machine.placeRecord t q l) := fun t ht he hl => by
    obtain ⟨_, e2, e3⟩ := ht.ring hq
    exact ht.trans ((Moves.placeRecord t q l hq (h.of hq ht) (e3 ▸ he) (e2 ▸ hl)).trans
      (Moves.ite (Moves.fireQueue hW _ q hq) (Moves.refl _)))
  have lose := Moves.loseRecord (W := W) (K := K) s q d hq
  unfold Machine.tryRecord at e
  split at e
  · cases e; exact lose
  · rename_i c
    have he : s.gb (F.EH_QCFG_EN q) = true := by simp at c; exact c.2
    dsimp only at e
    generalize (if (s.eh.look q).lostCount = 0 then 0 else 1 + padOf (ringSlots s q) (s.g (F.EH_QWR_COUNT q)) 1) = first at e
    generalize (s.g (F.EH_QWR_COUNT q) + 2 ^ 32 - s.g (F.EH_QRD_COUNT q)) % 2 ^ 32 = used at e
    split at e
    · split at e
      · cases e; exact lose
      · cases e
        refine key _ ?_ he (by omega)
        refine Moves.ite (Moves.refl s) ((Moves.placeRecord s q _ hq h he ?_).trans (Moves.eh _ _))
        exact ringSlots_pos s q
    · cases e; exact lose

theorem Moves.hubFault (n : Nat) : ∀ (s : State) (f : Nat × Nat × Nat), (∀ q < 16, RingIn W s q) → Moves W K s (Machine.hubFault s f n) := by
  induction n with
  | zero => exact fun s _ _ => Moves.refl s
  | succ n ih =>
    intro s f h
    unfold Machine.hubFault
    have k := (Moves.noteXuFault (W := W) (K := K) s 0x4B f.1 f.2.1 f.2.2).trans
      (Moves.noteTableEcc (Machine.noteXuFault s 0x4B f.1 f.2.1 f.2.2) f.1 f.2.2)
    dsimp only
    generalize Machine.noteTableEcc (Machine.noteXuFault s 0x4B f.1 f.2.1 f.2.2) f.1 f.2.2 = u at k ⊢
    split
    · exact k
    · have hq : u.g (F.EH_SRC_QUEUE (pageSource pXU)) < 16 := Nat.mod_lt _ (Nat.two_pow_pos _)
      split
      · rename_i e
        exact k.trans (Moves.tryRecord hW u _ _ _ hq ((h _ hq).of hq k) _ _ e)
      · rename_i e
        have m := k.trans (Moves.tryRecord hW u _ _ _ hq ((h _ hq).of hq k) _ _ e)
        exact m.trans (ih _ _ (fun p hp => (h p hp).of hp m))

theorem Moves.emitRecord (s : State) (q : Nat) (d : DT) (l : Slots) (hq : q < 16) (h : ∀ q < 16, RingIn W s q) :
    Moves W K s (Machine.emitRecord s q d l) := by
  unfold Machine.emitRecord
  split
  · rename_i u e; exact Moves.tryRecord hW s q d l hq (h q hq) _ _ e
  · rename_i u f e
    have k := Moves.tryRecord (K := K) hW s q d l hq (h q hq) _ _ e
    exact k.trans (Moves.hubFault hW 2 u f (fun p hp => (h p hp).of hp k))

theorem Moves.closeOldest (s : State) (q : Nat) (hq : q < 16) (h : ∀ q < 16, RingIn W s q) :
    Moves W K s (Machine.closeOldest s q) := by
  unfold Machine.closeOldest
  dsimp only
  split
  · exact Moves.refl s
  · exact (Moves.eh s _).trans (Moves.emitRecord hW _ q _ _ hq (fun p hp => (h p hp).of hp (Moves.eh (K := K) s _)))

theorem Moves.closeDue (q : Nat) (hq : q < 16) (k : Nat) : ∀ s, (∀ q < 16, RingIn W s q) →
    Moves W K s (Machine.closeDue s q k) := by
  induction k with
  | zero => exact fun s _ => Moves.refl s
  | succ k ih =>
    intro s h
    unfold Machine.closeDue
    split
    · exact Moves.refl s
    · split
      · have m := Moves.closeOldest (K := K) hW s q hq h
        exact m.trans (ih _ (fun p hp => (h p hp).of hp m))
      · exact Moves.refl s

theorem Moves.groupOccurrence (s : State) (q axis event info group : Nat) (hq : q < 16) (h : ∀ q < 16, RingIn W s q) :
    Moves W K s (Machine.groupOccurrence s q axis event info group) := by
  unfold Machine.groupOccurrence
  dsimp only
  have m := Moves.closeDue (K := K) hW q hq 8 s h
  refine m.trans ?_
  split
  · exact Moves.eh _ _
  · refine Moves.trans ?_ (Moves.eh _ _)
    split
    · exact Moves.closeOldest hW _ q hq (fun p hp => (h p hp).of hp m)
    · exact Moves.refl _

theorem Moves.raiseWith (s : State) (src event info : Nat) (more : Option (Nat × Nat)) (h : ∀ q < 16, RingIn W s q) :
    Moves W K s (Machine.raiseWith s src event info more) := by
  have hq : s.g (F.EH_SRC_QUEUE src) < 16 := Nat.mod_lt _ (by exact Nat.two_pow_pos _)
  unfold Machine.raiseWith
  split
  · exact Moves.refl s
  · dsimp only
    split
    · split
      · exact Moves.loseRecord s _ _ hq
      · exact Moves.groupOccurrence hW s _ _ _ _ _ hq h
    · split <;> exact Moves.emitRecord hW s _ _ _ hq h

end Records

/-! ### `Follows` -/

theorem RingIn.self (s : State) (q : Nat) (hq : q < 16) : RingIn (fun b => ringWord s b ∨ contextWord b) s q :=
  fun he x h1 h2 _ hb => .inl ⟨q, x, hq, he, h1, h2, hb⟩

theorem Moves.ringWord {s t : State} (h : Moves W K s t) (b : Nat) (k : ringWord t b) : ringWord s b := by
  obtain ⟨q, x, hq, he, h1, h2, hb⟩ := k
  obtain ⟨e1, e2, e3⟩ := h.ring hq
  refine ⟨q, x, hq, e3 ▸ he, e1 ▸ h1, ?_, ?_⟩
  · rw [e1, e2] at h2; exact h2
  · rcases hb with hb | ⟨m, hm, hmb⟩
    · exact .inl hb
    · by_cases hl : x < 0x800000000000
      · exact .inr ⟨m, directTarget_mem t s x m hm, hmb⟩
      · exact .inl (by omega)

/-- A `Moves` of the rings and the context words is a `Follows`, with what the disabled hub leaves alone. -/
theorem Follows.of {s u : State} (h : Moves (fun b => Sys2Proof.ringWord s b ∨ contextWord b) K s u)
    (q : s.enabled pEH = false → u.mem = s.mem ∧ u.hostMem = s.hostMem ∧ u.ks = s.ks ∧ u.cores = s.cores ∧ u.devQ = s.devQ) : Follows K s u :=
  ⟨h.regs, h.cores, h.hp, h.hk, h.start, h.tw, h.ks, h.out, h.devQ, fun b h1 h2 => h.mem b (fun c => c.elim h1 h2), h.ms, h.count, q, h.rest⟩

theorem Follows.moves {s u : State} (h : Follows K s u) : Moves (fun b => ringWord s b ∨ contextWord b) K s u :=
  ⟨h.regs, h.cores, h.hp, h.hk, h.start, h.tw, h.ks, h.out, h.devQ, fun b hb => h.mem b (fun c => hb (.inl c)) (fun c => hb (.inr c)), h.ms, h.count, h.rest⟩

theorem Follows.refl (s : State) : Follows K s s := Follows.of (Moves.refl s) (fun _ => ⟨rfl, rfl, rfl, rfl, rfl⟩)

theorem Follows.enabled {s u : State} (h : Follows K s u) : u.enabled pEH = s.enabled pEH := by
  unfold State.enabled State.gb State.g
  rw [h.regs _ (by decide)]

theorem Follows.trans {s t u : State} (h : Follows K s t) (k : Follows K t u) : Follows K s u := by
  refine Follows.of (h.moves.trans ?_) (fun q => ?_)
  · have m := k.moves
    exact ⟨m.regs, m.cores, m.hp, m.hk, m.start, m.tw, m.ks, m.out, m.devQ,
      fun b hb => m.mem b (fun c => hb (c.elim (fun c => .inl (h.moves.ringWord b c)) .inr)), m.ms, m.count, m.rest⟩
  · obtain ⟨a1, a2, a3, a4, a5⟩ := h.quiet q
    obtain ⟨b1, b2, b3, b4, b5⟩ := k.quiet (h.enabled ▸ q)
    exact ⟨b1.trans a1, b2.trans a2, b3.trans a3, b4.trans a4, b5.trans a5⟩

theorem Follows.ite {c : Prop} [Decidable c] {s t u : State} (h : Follows K s t) (k : Follows K s u) :
    Follows K s (if c then t else u) := by split <;> assumption

theorem Follows.forEach {α : Type} (f : α → State → State) (l : List α) (hf : ∀ a ∈ l, ∀ s, Follows K s (f a s)) :
    ∀ s, Follows K s (forEach f l s) := by
  induction l with
  | nil => exact Follows.refl
  | cons a r ih =>
    intro s
    exact (hf a (by simp) s).trans (ih (fun b hb => hf b (by simp [hb])) _)

/-- The end of a start, which runs. -/
theorem Follows.onHk (s : State) (g : HkSt → HkSt) (h : s.hk.starting = true)
    (hg : ∀ t, g t = { t with
      starting := (g t).starting, started := (g t).started, ending := (g t).ending
      stagesDone := (g t).stagesDone, stage10At := (g t).stage10At, log := (g t).log }) : Follows K s (s.onHk g) :=
  Follows.of ⟨fun _ _ => rfl, fun _ => rfl, rfl, hg s.hk, fun k => absurd h (by rw [k]; decide), rfl, rfl, List.prefix_refl _,
    List.prefix_refl _, fun _ _ => rfl, rfl, fun _ => rfl, rfl⟩ (fun _ => ⟨rfl, rfl, rfl, rfl, rfl⟩)

/-- A register that tells of a start is written while the start ran. -/
theorem Follows.startPut {s u : State} (k : Follows K s u) (f : Fld) (v : Nat) (h : s.hk.starting = true)
    (hf : startReg f.adr = true) : Follows K s (u.put f v) := by
  refine Follows.of ⟨fun a ha => ?_, k.cores, k.hp, k.hk, fun q => absurd h (by rw [q]; decide), k.tw, k.ks, k.out,
    k.devQ, k.moves.mem, k.ms, k.count, ?_⟩ k.quiet
  · rw [← k.regs a ha]
    exact State.reg_setReg_other u _ (by rintro rfl; simp [eventReg, hf] at ha)
  · conv => lhs; rw [k.rest]
    rfl

theorem loseRecord_quiet (s : State) (q : Nat) (d : DT) :
    (loseRecord s q d).mem = s.mem ∧ (loseRecord s q d).hostMem = s.hostMem ∧ (loseRecord s q d).ks = s.ks ∧
    (loseRecord s q d).cores = s.cores ∧ (loseRecord s q d).devQ = s.devQ := ⟨rfl, rfl, rfl, rfl, rfl⟩

/-- With the event hub disabled a record is only counted as lost. -/
theorem emitRecord_disabled (s : State) (q : Nat) (d : DT) (l : Slots) (h : s.enabled pEH = false) :
    emitRecord s q d l = loseRecord s q d := by
  unfold emitRecord tryRecord
  simp [h]

/-- An event changes nothing but what `Follows` names. -/
theorem Follows.raiseWith (s : State) (src event info : Nat) (more : Option (Nat × Nat)) :
    Follows K s (Machine.raiseWith s src event info more) := by
  refine Follows.of (Moves.raiseWith (fun b hb => .inr hb) s src event info more (fun q hq => RingIn.self s q hq)) (fun h => ?_)
  unfold Machine.raiseWith
  split
  · exact ⟨rfl, rfl, rfl, rfl, rfl⟩
  · dsimp only
    split
    · rw [if_pos (by simp [h])]; exact loseRecord_quiet s _ _
    · split <;> (rw [emitRecord_disabled s _ _ _ h]; exact loseRecord_quiet s _ _)

theorem Follows.raiseAxis (s : State) (a e i : Nat) : Follows K s (Machine.raiseAxis s a e i) := Follows.raiseWith s _ _ _ _
theorem Follows.raisePage (s : State) (p e i : Nat) : Follows K s (Machine.raisePage s p e i) := Follows.raiseWith s _ _ _ _
theorem Follows.raisePage2 (s : State) (p e i x y : Nat) : Follows K s (Machine.raisePage2 s p e i x y) :=
  Follows.raiseWith s _ _ _ _

/-! ### What comes after a command -/

theorem Follows.levelPass (old new s : State) : Follows K s (Machine.levelPass old new s) := by
  unfold Machine.levelPass
  refine Follows.forEach _ _ (fun p _ r => ?_) _
  dsimp only
  split
  · exact Follows.refl r
  · exact Follows.raisePage2 r _ _ _ _ _

theorem Follows.levelRounds (n : Nat) : ∀ old new : State, Follows K new (Machine.levelRounds n old new) := by
  induction n with
  | zero => exact fun _ new => Follows.refl new
  | succ n ih =>
    intro old new
    unfold Machine.levelRounds
    exact Follows.ite (Follows.refl new) ((Follows.levelPass _ _ _).trans (ih _ _))

theorem Follows.levels (old new : State) : Follows K new (Machine.levels old new) := by
  unfold Machine.levels
  exact Follows.ite (Follows.refl new) (Follows.levelRounds _ _ _)

theorem Follows.onTw (s : State) (f : TwSt → TwSt) (h : ∀ t, f t = { t with told := (f t).told, followed := (f t).followed, image := (f t).image }) :
    Follows K s (s.onTw f) :=
  Follows.of ⟨fun _ _ => rfl, fun _ => rfl, rfl, rfl, fun _ => ⟨rfl, fun _ _ => rfl⟩, h s.tw, rfl, List.prefix_refl _, List.prefix_refl _, fun _ _ => rfl, rfl, fun _ => rfl, rfl⟩
    (fun _ => ⟨rfl, rfl, rfl, rfl, rfl⟩)

theorem Follows.completeStart (s : State) (n : Nat) (h : s.hk.starting = true) : Follows K s (Machine.completeStart s n) := by
  unfold Machine.completeStart
  dsimp only
  refine Follows.trans ?_ (Follows.raisePage _ _ _ _)
  refine Follows.startPut ?_ _ _ h (by decide)
  have k (o : Nat) (w : Word) :=
    Follows.onHk (K := K) s (fun h => { h with starting := false, started := true, ending := false, log := (o, w) :: h.log }) h (fun _ => rfl)
  exact Follows.ite (k 3 0) (Follows.startPut (k 1 0) _ _ h (by decide))

theorem Follows.noteStages (s : State) : Follows K s (Machine.noteStages s) := by
  unfold Machine.noteStages
  split
  · exact Follows.refl s
  · rename_i hs
    simp only [Bool.not_eq_true', Bool.not_eq_false] at hs
    dsimp only
    refine Follows.trans (t := s.onHk (fun h => { h with
      stagesDone := (s.hk.begun.filter (fun n => !nsHas s.hk.stagesDone n && stageMet s n)).foldl nsAdd h.stagesDone
      stage10At := if nsHas (s.hk.begun.filter (fun n => !nsHas s.hk.stagesDone n && stageMet s n)) 10 then s.dt
        else h.stage10At })) ?_ ?_
    · exact Follows.onHk s _ hs (fun _ => rfl)
    · exact Follows.ite (Follows.completeStart _ _ hs) (Follows.refl _)

theorem Follows.protFollow (s : State) : Follows K s (Machine.protFollow s) := by
  unfold Machine.protFollow
  dsimp only
  refine Follows.ite (Follows.refl s) ?_
  refine Follows.trans (Follows.onTw s (fun t => { t with
      followed := protLive s
      image := ((protLive s).filter (fun e => !s.tw.followed.contains e) ++
        (s.tw.followed.filter (fun e => !(protLive s).any (fun x => x.1 = e.1))).map (fun e => (e.1, regDefault e.1))).foldl
          (fun m e => tput regDefault m e.1 e.2) t.image }) (fun _ => rfl)) ?_
  exact Follows.ite (Follows.of (Moves.out' _ _) (fun _ => ⟨rfl, rfl, rfl, rfl, rfl⟩)) (Follows.refl _)

theorem Follows.reportSaves (s : State) : Follows K s (Machine.reportSaves s) := by
  unfold Machine.reportSaves
  refine Follows.ite (Follows.refl s) ?_
  refine (Follows.of (Moves.saveFaults s []) (fun _ => ⟨rfl, rfl, rfl, rfl, rfl⟩)).trans (Follows.forEach _ _ (fun f _ r => ?_) _)
  refine Follows.trans (Follows.of ((Moves.noteXuFault r _ _ _ _).trans (Moves.noteTableEcc _ _ _)) (fun _ => ?_))
    (Follows.raisePage2 _ _ _ _ _ _)
  unfold Machine.noteTableEcc
  split <;> exact ⟨rfl, rfl, rfl, rfl, rfl⟩

theorem raiseUe_log (a : Nat) (s : State) {k : Nat} (hk : k < 16) : Follows K s (s.setReg (F.MEM_POISON k).adr a) :=
  Follows.of (Moves.setReg s _ _ (eventReg_poison hk)) (fun _ => ⟨rfl, rfl, rfl, rfl, rfl⟩)

/-- The memory page counts an uncorrectable read. -/
theorem Follows.counts (s : State) (m : MemSt) (h : m = { s.ms with ueSram := m.ueSram, ueDram := m.ueDram }) :
    Follows False s { s with ms := m } :=
  Follows.of ⟨fun _ _ => rfl, fun _ => rfl, rfl, rfl, fun _ => ⟨rfl, fun _ _ => rfl⟩, rfl, rfl, List.prefix_refl _, List.prefix_refl _,
    fun _ _ => rfl, h, False.elim, rfl⟩ (fun _ => ⟨rfl, rfl, rfl, rfl, rfl⟩)

/-- The report of an uncorrectable read logs it, counts it and raises its event. -/
theorem Follows.raiseUe (s : State) (m a : Nat) : Follows False s (Machine.raiseUe s m a) := by
  unfold Machine.raiseUe
  dsimp only
  refine Follows.ite (Follows.raisePage2 s _ _ _ _ _) ?_
  refine Follows.trans ?_ (Follows.raisePage2 _ _ _ _ _ _)
  refine Follows.trans (t := if _ then s else _) (Follows.ite (Follows.refl s) ?_)
    (Follows.ite (Follows.counts _ _ rfl) (Follows.counts _ _ rfl))
  split
  · rename_i k e
    exact raiseUe_log _ s (List.mem_range.mp (List.mem_of_find?_eq_some e))
  · exact Follows.refl s

/-- What may follow from a command, of the counts of the memory page too. -/
theorem Follows.uncounted {s u : State} (h : Follows K s u) : Follows False s u :=
  ⟨h.regs, h.cores, h.hp, h.hk, h.start, h.tw, h.ks, h.out, h.devQ, h.mem, h.ms, False.elim, h.quiet, h.rest⟩

theorem Follows.reportUe (n : Nat) (s : State) : Follows (n = 0) s (Machine.reportUe n s) := by
  unfold Machine.reportUe
  by_cases h : n = 0
  · rw [if_pos h]; exact Follows.refl s
  · rw [if_neg h]
    have d : Follows False s { s with ueDue := s.ueDue.drop n } := Follows.of (Moves.due s _) (fun _ => ⟨rfl, rfl, rfl, rfl, rfl⟩)
    have k := d.trans (Follows.forEach (fun (e : Nat × Nat) s => Machine.raiseUe s e.1 e.2) (s.ueDue.take n)
      (fun e _ r => Follows.raiseUe r e.1 e.2) _)
    exact ⟨k.regs, k.cores, k.hp, k.hk, k.start, k.tw, k.ks, k.out, k.devQ, k.mem, k.ms, fun c => absurd c h, k.quiet, k.rest⟩

theorem Follows.enginesAgain (s : State) : Follows K s (Machine.enginesAgain s) := by
  unfold Machine.enginesAgain
  exact Follows.ite (Follows.onTw s _ (fun _ => rfl)) (Follows.refl s)

/-- What comes after a command changes nothing but what `Follows` names; the memory page counts only what was due before it. -/
theorem Follows.after (s r : State) : Follows (s.ueDue.length = 0) r (Machine.after s r) :=
  (((((Follows.reportUe s.ueDue.length r).trans (Follows.reportSaves _)).trans (Follows.enginesAgain _)).trans
    (Follows.protFollow _)).trans (Follows.noteStages _)).trans (Follows.levels _ _)

end Sys2Proof
end

