-- ==== Sys2Proof/Laws/Run.lean ====
section
/-! SUPPORT. How a command runs, said once: what it acts on, and what stands after it beside its own effect. -/

namespace Sys2Proof

open Sys2Proof.Machine

/-! ### The state in which a command acts -/

theorem anchor_eq (s : State) : anchor s = { s with tu := (anchor s).tu } := by
  unfold anchor
  split <;> rfl

theorem tuSettle_eq (s : State) : tuSettle s = { s with tu := (tuSettle s).tu } := by
  unfold tuSettle
  split
  · split
    · exact anchor_eq s
    · rfl
  · split
    · rfl
    · exact anchor_eq s

theorem arriveAt_eq (m : Time) (s : State) : arriveAt m s = { s with out := [], time := m, tu := (arriveAt m s).tu } :=
  tuSettle_eq { s with out := [], time := m, tu := s.tu.age m.dt }

/-- A command acts on the state before it, with the time, what was sent and the mapping of wall time brought up to date. -/
theorem arrive_eq (t : DT) (s : State) :
    arrive t s = { s with out := [], time := s.time.advance t, tu := (arrive t s).tu } := arriveAt_eq _ s

@[simp] theorem arrive_reg (t : DT) (s : State) (a : Nat) : (arrive t s).reg a = s.reg a := by rw [arrive_eq]; rfl
@[simp] theorem arrive_g (t : DT) (s : State) (f : Fld) : (arrive t s).g f = s.g f := by rw [arrive_eq]; rfl
@[simp] theorem arrive_core (t : DT) (s : State) (n : Nat) : (arrive t s).core n = s.core n := by rw [arrive_eq]; rfl
@[simp] theorem arrive_time (t : DT) (s : State) : (arrive t s).time = s.time.advance t := by rw [arrive_eq]
@[simp] theorem arrive_pending (t : DT) (s : State) : (arrive t s).pending = s.pending := by rw [arrive_eq]
@[simp] theorem arrive_cyc (t : DT) (s : State) : (arrive t s).cyc = s.cyc := by rw [arrive_eq]
@[simp] theorem arrive_checks (t : DT) (s : State) : (arrive t s).checks = s.checks := by rw [arrive_eq]
@[simp] theorem arrive_guards (t : DT) (s : State) : (arrive t s).guards = s.guards := by rw [arrive_eq]
@[simp] theorem arriveAt_time (m : Time) (s : State) : (arriveAt m s).time = m := by rw [arriveAt_eq]
@[simp] theorem arriveAt_pending (m : Time) (s : State) : (arriveAt m s).pending = s.pending := by rw [arriveAt_eq]

/-! ### What stands after a command -/

/-- What `Follows` leaves alone. -/
theorem Follows.cyc {K : Prop} {r u : State} (h : Follows K r u) : u.cyc = r.cyc := by rw [h.rest]

theorem Follows.close {K : Prop} {r v : State} (h : Follows K r v) (p : List Instr) (m : Time) (c : CycleSt) :
    Follows K { r with pending := p, time := m, cyc := c } { v with pending := p, time := m, cyc := c } :=
  ⟨h.regs, h.cores, h.hp, h.hk, h.start, h.tw, h.ks, h.out, h.devQ, h.mem, h.ms, h.count, h.quiet, by rw [h.rest]⟩

/-- What follows from a part of the effect is no claim on the effect. -/
theorem Ends.of {r v u : State} (k : Follows False r v) (h : Ends v u) : Ends r u := by
  unfold Ends asked at *
  have e : ({ v with time := v.cyc.ask.foldl Time.ask v.time, cyc := { v.cyc with ask := [] } } : State) =
      { v with pending := r.pending, time := r.cyc.ask.foldl Time.ask r.time, cyc := { r.cyc with ask := [] } } := by
    have h1 : v.cyc = r.cyc := k.cyc
    have h2 : v.time = r.time := by rw [k.rest]
    have h3 : v.pending = r.pending := by rw [k.rest]
    rw [h1, h2, ← h3]
  rw [e] at h
  exact (k.close r.pending _ _).trans h

/-- A command with effect `f` ends behind `f` of what it acts on. -/
theorem runAt_ends (s : State) (m : Time) (f : State → State) (ht : (f (arriveAt m s)).time = m)
    (hp : (f (arriveAt m s)).pending = s.pending) : Ends (f (arriveAt m s)) (runAt s m m f) := by
  have h : Follows False (f (arriveAt m s)) (Machine.after s (f (arriveAt m s))) := (Follows.after s _).uncounted
  have k := h.close s.pending ((f (arriveAt m s)).cyc.ask.foldl Time.ask m) { (f (arriveAt m s)).cyc with ask := [] }
  unfold Ends asked
  have e : runAt s m m f = { Machine.after s (f (arriveAt m s)) with
      pending := s.pending
      time := (f (arriveAt m s)).cyc.ask.foldl Time.ask m
      cyc := { (f (arriveAt m s)).cyc with ask := [] } } := by
    unfold runAt close_
    have hc := h.cyc
    change (Machine.after s (f (begin_ s m))).cyc = (f (begin_ s m)).cyc at hc
    unfold arriveAt
    rw [hc]
  rw [e, ht]
  rw [← hp] at k ⊢
  exact k

/-- An effect in which no waiting read is newly answered lets no register-access request go on. -/
theorem raGoOn_eq (s r : State) (h : ∀ n, raAnswered r n = true → raAnswered s n = true) : raGoOn s r = r := by
  have k : ∀ n, (raAnswered r n && !raAnswered s n) = false := by
    intro n
    cases hr : raAnswered r n
    · rfl
    · simp [h n hr]
  simp only [raGoOn, forEach]
  simp only [k, Bool.false_eq_true, if_false]

/-- An effect that leaves the Ethernet ports alone lets no register-access request go on. -/
theorem raGoOn_self (s r : State) (h : r.he = s.he) : raGoOn s r = r := by
  apply raGoOn_eq
  intro n hn
  unfold raAnswered at *
  rwa [h] at hn

/-- Held accesses of masters whose wait is not over stay held. -/
theorem accRun_eq (was : Nat → Bool) (r : State) (h : ∀ m, (was m && !masterWaits r m) = false) (l : List HeldAccess) :
    accRun was r l = (r, l) := by
  induction l with
  | nil => rfl
  | cons e l ih => simp only [accRun, h, Bool.false_eq_true, if_false, ih]

/-- An effect that ends no wait for a queue, and answers none, lets nothing go on. -/
theorem goOn_eq (s r : State) (h : ∀ m, (masterWaits s m && !masterWaits r m) = false) (k : raGoOn s r = r) : goOn s r = r := by
  unfold goOn
  cases r.accHeld.length with
  | zero => exact k
  | succ n =>
    simp only [goOnN, k]
    rw [accRun_eq (masterWaits s) { r with accHeld := [] } h]
    simp

/-- An effect that leaves the queues and the Ethernet ports alone lets nothing go on. -/
theorem goOn_self (s r : State) (hq : r.queues = s.queues) (hh : r.he = s.he) : goOn s r = r := by
  refine goOn_eq s r (fun m => ?_) (raGoOn_self s r hh)
  unfold masterWaits
  rw [hq]
  simp

/-- Without held accesses and register-access requests there is nothing that could go on. -/
theorem goOn_idle (s r : State) (h : r.accHeld = []) (k : ∀ n, (r.he.look n).reqs = []) : goOn s r = r := by
  unfold goOn
  rw [h]
  refine raGoOn_eq s _ (fun n hn => ?_)
  unfold raAnswered at hn
  rw [k n] at hn
  exact absurd hn (by decide)

/-- An effect behind which nothing goes on, and in which no block has asked for a write, is the whole. -/
theorem landed_eq (s r : State) (h : r.devNow = s.devNow) (k : goOn s r = r) : landed s r = r := by
  unfold landed; rw [if_pos h, k]

/-- Where nothing was held up before a boundary, nothing goes on behind it. -/
theorem boundaryPast_eq (s r : State) (h : NothingHeldUp s) : boundaryPast s r = r := by
  unfold boundaryPast heldBack
  simp [h.1, h.2]

/-- Where nothing stands before a master's access, it is not held up. -/
theorem Unhindered.free {t : DT} {m : Nat} {s : State} (h : Unhindered t m s) (e : HeldAccess) (k : e.master = m) :
    heldUp (arrive t s) e = false := by
  obtain ⟨h1, h2, h3⟩ := h
  have q : masterWaits (arrive t s) m = false := by rw [arrive_eq]; exact h1
  have l : (arrive t s).accHeld = s.accHeld := by rw [arrive_eq]
  have n : (s.accHeld.any (fun x => decide (x.master = m))) = false := by
    rw [List.any_eq_false]; intro x hx; simpa using h2 x hx
  unfold heldUp
  rw [k, l, q, h3, n]
  rfl

/-- An access that nothing holds up is made. -/
theorem behind_free (s : State) (e : HeldAccess) (f : State → State) (h : heldUp s e = false) : behind s e f = f s := by
  unfold behind; rw [h]; rfl

/-- An access that is held up waits behind those held already. -/
theorem behind_held (s : State) (e : HeldAccess) (f : State → State) (h : heldUp s e = true) :
    behind s e f = { s with accHeld := s.accHeld ++ [e] } := by
  unfold behind; rw [if_pos h]

/-- A command of a master that nothing holds up runs as any other. -/
theorem runBehind_free (t : DT) (s : State) (e : HeldAccess) (f : State → State) (h : heldUp (arrive t s) e = false) :
    runBehind t s e f = run t s f := by
  unfold runBehind run runAt
  have k : behind (begin_ s (s.time.advance t)) e f = f (begin_ s (s.time.advance t)) := behind_free _ e f h
  simp only [k]

/-- A command of a master to a page runs as any other where nothing holds it up and the core supplies are up (R26). -/
theorem runOn_powered (t : DT) (s : State) (p : Nat) (e : HeldAccess) (f : State → State) (b : heldUp (arrive t s) e = false)
    (h : s.hk.corePower = true) : runOn t s p e f = run t s f := by
  unfold runOn
  rw [runBehind_free t s e _ b]
  have k : supplied (begin_ s (s.time.advance t)) e.master p f = f (begin_ s (s.time.advance t)) := by
    have e : (begin_ s (s.time.advance t)).hk = s.hk := by
      have := arriveAt_eq (s.time.advance t) s
      unfold arriveAt at this
      rw [this]
    unfold supplied powered
    simp [e, h]
  unfold run runAt
  simp only [k]

/-- A command of a master to a page in the always-on domain runs whatever the core supplies are (R26). -/
theorem runOn_alwaysOn (t : DT) (s : State) (p : Nat) (e : HeldAccess) (f : State → State) (b : heldUp (arrive t s) e = false)
    (h : p < pSG) : runOn t s p e f = run t s f := by
  unfold runOn
  rw [runBehind_free t s e _ b]
  unfold supplied powered
  simp [h]

/-- The form in which a meaning is used: `r` is what `f` makes of the state it acts on. -/
theorem run_ends (t : DT) (s : State) (f : State → State) (r : State) (h : f (arrive t s) = r)
    (ht : r.time = s.time.advance t) (hp : r.pending = s.pending) (hg : landed s r = r) : Ends r (run t s f) := by
  subst h
  have k := runAt_ends s (s.time.advance t) (fun r => landed s (f r))
  have e : arriveAt (s.time.advance t) s = arrive t s := rfl
  simp only [e, hg] at k
  exact k ht hp

/-- Whatever the effect, the queue is left as it was found and nothing stays asked of the cycle. -/
theorem runAt_pending (s : State) (m l : Time) (f : State → State) :
    (runAt s m l f).pending = s.pending ∧ (runAt s m l f).cyc.ask = [] := ⟨rfl, rfl⟩

/-- The time after a command: the time it came with, and what its effect asked of the cycle. -/
theorem runAt_time (s : State) (m l : Time) (f : State → State) :
    (runAt s m l f).time = (f (arriveAt m s)).cyc.ask.foldl Time.ask l := by
  show ((Machine.after s (f (begin_ s m))).cyc.ask.foldl Time.ask l : Time) = _
  rw [(Follows.after s _).cyc]
  rfl

/-- Where no uncorrectable read was due before a command, the memory page counts what the command's own effect counts. -/
theorem runAt_ms (s : State) (m l : Time) (f : State → State) (h : s.ueDue = []) : (runAt s m l f).ms = (f (arriveAt m s)).ms :=
  (Follows.after s (f (arriveAt m s))).count (by rw [h]; rfl)

/-! ### Reading what a command leaves -/

/-- The rings lie where they lay when the registers are replaced by those that a command leaves. -/
theorem ringWord_regs {K : Prop} {r u : State} (h : Follows K r u) (b : Nat) : ringWord { r with regs := u.regs } b ↔ ringWord r b := by
  have k : ∀ q, q < 16 → ({ r with regs := u.regs } : State).reg (F.EH_QBASE q).adr = r.reg (F.EH_QBASE q).adr ∧
      ringSlots { r with regs := u.regs } q = ringSlots r q ∧
      ({ r with regs := u.regs } : State).gb (F.EH_QCFG_EN q) = r.gb (F.EH_QCFG_EN q) := fun q hq => h.moves.ring hq
  have d : ∀ x m, directTarget { r with regs := u.regs } x = .mem m ↔ directTarget r x = .mem m := fun x m =>
    ⟨directTarget_mem _ _ x m, directTarget_mem _ _ x m⟩
  unfold ringWord
  constructor
  · rintro ⟨q, x, hq, he, h1, h2, hb⟩
    obtain ⟨e1, e2, e3⟩ := k q hq
    refine ⟨q, x, hq, e3 ▸ he, e1 ▸ h1, by rw [e1, e2] at h2; exact h2, hb.imp_right ?_⟩
    rintro ⟨m, hm, hmb⟩; exact ⟨m, (d x m).mp hm, hmb⟩
  · rintro ⟨q, x, hq, he, h1, h2, hb⟩
    obtain ⟨e1, e2, e3⟩ := k q hq
    refine ⟨q, x, hq, e3 ▸ he, e1.symm ▸ h1, by rw [e1, e2]; exact h2, hb.imp_right ?_⟩
    rintro ⟨m, hm, hmb⟩; exact ⟨m, (d x m).mpr hm, hmb⟩

/-- The registers of the effect may be replaced by those that the command leaves: what remains is the claim on all the
rest of the state. -/
theorem Follows.withRegs {K : Prop} {r u : State} (h : Follows K r u) : Follows K { r with regs := u.regs } u where
  regs _ _ := rfl
  cores := h.cores
  hp := h.hp
  hk := h.hk
  start q := ⟨(h.start q).1, fun _ _ => rfl⟩
  tw := h.tw
  ks := h.ks
  out := h.out
  devQ := h.devQ
  mem b h1 h2 := h.mem b (fun k => h1 ((ringWord_regs h b).mpr k)) h2
  ms := h.ms
  count := h.count
  quiet q := h.quiet (by
    have e : u.enabled pEH = false := q
    rwa [h.enabled] at e)
  rest := h.rest

theorem Ends.withRegs {r u : State} (h : Ends r u) : Ends { r with regs := u.regs } u := Follows.withRegs h

/-- A register that no event changes is as the effect left it. -/
theorem Ends.reg {r u : State} (h : Ends r u) {a : Nat} (ha : eventReg a = false) : u.reg a = r.reg a := h.regs a ha

/-- A field of a register that no event changes is as the effect left it. -/
theorem Ends.g {r u : State} (h : Ends r u) {f : Fld} (ha : eventReg f.adr = false) : u.g f = r.g f := by
  unfold State.g; rw [h.reg ha]

/-! ### Where nothing follows by itself -/

/-- Where a state is calm, nothing follows from it. -/
theorem after_calm (s r : State) (h : Calm r) : Machine.after s r = r := by
  obtain ⟨h1, h2, h3, h4, h5, h6⟩ := h
  have e6 : reportUe s.ueDue.length r = r := by
    unfold reportUe
    split
    · rfl
    · have e : ({ r with ueDue := [] } : State) = r := by rw [← h6]
      rw [h6, List.take_nil, List.drop_nil, e]; rfl
  have e0 : reportSaves r = r := by unfold reportSaves; simp [h5]
  have e1 : enginesAgain r = r := by unfold enginesAgain; simp [h4]
  have e2 : protFollow r = r := by unfold protFollow; simp [h3]
  have e3 : noteStages r = r := by unfold noteStages; simp [h2]
  unfold Machine.after
  rw [e6, e0, e1, e2, e3]
  unfold levels
  simp [h1]

/-- A command whose effect leaves a calm state ends in exactly that state, with what was asked of the cycle carried out. -/
theorem run_calm (t : DT) (s : State) (f : State → State) (r : State) (h : f (arrive t s) = r)
    (ht : r.time = s.time.advance t) (hp : r.pending = s.pending) (hg : landed s r = r) (hc : Calm r) :
    run t s f = asked r := by
  subst h
  unfold run runAt
  change close_ s (Machine.after s (landed s (f (arrive t s)))) _ = _
  rw [hg, after_calm _ _ hc]
  unfold close_ asked
  rw [← ht, ← hp]

/-- The form in which a result is stated. -/
theorem run_does (t : DT) (s : State) (f : State → State) (r : State) (h : f (arrive t s) = r)
    (ht : r.time = s.time.advance t) (hp : r.pending = s.pending) (hg : landed s r = r) :
    Ends r (run t s f) ∧ (Calm r → run t s f = asked r) :=
  ⟨run_ends t s f r h ht hp hg, run_calm t s f r h ht hp hg⟩

end Sys2Proof
end

