-- ==== Sys2Proof/Tests/Slice0.lean ====
section
/-! SUPPORT. Tests: ill-formed commands are refused, words written out from Table 12.7 decode, single steps give what the manual
states, and the hypotheses of each statement are met in a concrete state. -/

set_option Elab.async false

namespace Sys2Proof.Tests

open Sys2Proof Sys2Proof.Machine

/-! ### Small states -/

/-- The machine after reset, its core supplies up. -/
def z : State := { State.reset with hk := { State.reset.hk with corePower := true } }
/-- The machine after reset, its core supplies down. -/
def dark : State := State.reset
/-- The page at `p` is enabled. -/
def onPage (p : Nat) (s : State) : State := s.put (F.CTRL_ENABLE p) 1
/-- The cycle runs and phase `k` was the last. -/
def cyc (k : Nat) : State := { z with time := { z.time with running := true }, cyc := { z.cyc with phase := k } }
/-- The unit has the role `r`. -/
def role (r : Nat) : State := { z with tw := { z.tw with role := r } }
/-- Core 3 holds context 5 and is otherwise as `f` makes it. -/
def core (f : CoreSt → CoreSt) : State := { z with cores := z.cores.set 3 (f { (default : CoreSt) with resident := some 5, inService := true }) }
/-- Core 3 runs with the registers that `f` makes. -/
def arch (f : Arch → Arch) : State := core (fun k => { k with arch := f k.arch })
/-- The action `a` is checked on the page at `p`. -/
def checking (p : Nat) (a : Action) : State := { z with checks := z.checks.set p ⟨some a, []⟩ }
/-- An ENABLE of the page at `p`, asked for by master `m`. -/
def enabling (p m : Nat) : Action := ⟨.pageEnable, p, 0, 1, m, none, 0⟩

/-- Slot 0 is in the state `d` and listens on HE0; slot 1 is off. -/
def ptp (d : PtpDom) : State :=
  { onPage (pHE 0) (onPage pPTP z) with tu := { z.tu with dom0 := d }, he := z.he.set 0 { (default : HeSt) with link := true } }

/-- A sound frame of `type` from `src` for port 7. -/
def frame (type src : Nat) : FrameHdr :=
  { (default : FrameHdr) with fcsOk := true, size := 64, etherType := z.g (F.FP_LINKCFG_ETHERTYPE 7), version := 1, seg := 7, type := type, src := src }

/-! ### Each statement's hypotheses are met, clause by clause -/

theorem witness_StepTakesTheFrontCommand :
    let a := pSG / 0x1000 * 0x1000 + 0x20
    let s : State := { z with devQ := [⟨7, a, 5⟩] }
    (z.pending = [] ∧ z.devQ = [] ∧ z.ueDue = [] ∧ z.accHeld = []) ∧ NothingHeldUp s ∧
    (s.pending = [] ∧ s.devQ = [⟨7, a, 5⟩] ∧ pSG < 0x100000 ∧ pageTypeInst (pSG / 0x1000 * 0x1000) ≠ none ∧ powered s a = true) := by
  refine ⟨by decide +kernel, ⟨rfl, fun _ => rfl⟩, by decide +kernel⟩

theorem witness_StepKeepsTheSchedule : (Inv z ∧ schedOk (nextWritten z) = true) ∧ step z = .next z := by
  refine ⟨?_, rfl⟩; unfold Inv; decide +kernel

theorem witness_T0BeginsACycle :
    (Inv { z with time := { z.time with starting := true } } ∧ z.standby = false) ∧
    (Inv (cyc 6) ∧ (cyc 6).standby = false ∧ (cyc 6).time.starting = false ∧ (cyc 6).time.running = true ∧
      (cyc 6).time.stopping = false ∧ (cyc 6).cyc.phase = 6 ∧ schedOk (nextWritten (cyc 6)) = true) ∧
    (Inv (cyc 5) ∧ (cyc 5).standby = false ∧ (cyc 5).time.starting = false ∧ (cyc 5).cyc.phase ≠ 6) ∧
    NothingHeldUp z ∧ ∀ k, NothingHeldUp (cyc k) := by
  refine ⟨?_, ?_, ?_, ⟨rfl, fun _ => rfl⟩, fun _ => ⟨rfl, fun _ => rfl⟩⟩ <;> unfold Inv <;> decide +kernel

theorem witness_StandbyFollowsTheActivesT0 :
    let s : State := { role 4 with tw := { (role 4).tw with link := true, mapT0 := some (7, 5) } }
    (s.standby = true ∧ s.tw.link = true ∧ s.tw.mapT0 = some (7, 5) ∧ s.tw.dtSlew = 0 ∧ s.tw.dtRate = 0 ∧ s.tw.takeover = 0 ∧
      s.tw.switchCycle ≠ some 7) ∧ s.tw.role = 4 ∧ ({ s.tw with switchCycle := some 7 } : TwSt).switchCycle = some 7 ∧
    ((role 4).standby = true ∧ (role 4).tw.mapT0 = none ∧ (role 4).time.running = false) ∧ NothingHeldUp s ∧
    NothingHeldUp (role 4) := by
  refine ⟨?_, ?_, ?_, ?_, ⟨rfl, fun _ => rfl⟩, ⟨rfl, fun _ => rfl⟩⟩ <;> decide +kernel

theorem witness_PhasesComeInOrder :
    (∀ k ∈ [1, 2, 3, 4, 5], (cyc k).time.running = true ∧ (cyc k).cyc.phase + 1 ∈ [2, 3, 4, 5, 6]) ∧
    (cyc 6).cyc.phase + 1 ∉ [2, 3, 4, 5, 6] ∧ z.time.running = false := by decide +kernel

theorem witness_PhasesActOnTheAxisRecords :
    let on (k : Nat) : State := (onPage pPG (cyc k)).setReg (F.LE_AXMAP 7).adr (2 ^ 63)
    let f : State := { cyc 1 with fb := { z.fb with ax := z.fb.ax.set 511 { (default : FbAx) with active := true, angOn := true } } }
    let e : State := { cyc 3 with cyc := { (cyc 3).cyc with enabledNow := [511] } }
    let x : PgAx := { (default : PgAx) with mode := 1, formed := true }
    let p : State := { on 4 with pg := { z.pg with ax := z.pg.ax.set 511 x } }
    (∀ s ∈ [f, cyc 2, e, p, cyc 5], s.time.running = true ∧ s.enabled pEH = false ∧ s.standby = false) ∧
    (f.cyc.phase = 1 ∧ QuadQuiet f ∧ f.tw.mirrors = [] ∧ (f.fbAx 511).active = true ∧ (f.fbAx 511).done = false ∧
      (f.fbAx 511).angOn = true) ∧
    ((cyc 2).cyc.phase = 2 ∧ (cyc 2).tw.recovering = false ∧ (cyc 2).cyc.enabledNow.length < 128) ∧
    (e.cyc.phase = 3 ∧ (∀ w ∈ e.le.win, w.res = none) ∧ 511 ∈ e.cyc.enabledNow ∧ e.le.released.contains 511 = false ∧
      axisWrongEpoch e 511 = false) ∧
    (p.cyc.phase = 4 ∧ p.tw.link = false ∧ enabledChs p = [] ∧ p.ae.told = ((arrive 0 p).tu.tstate, (arrive 0 p).tu.selected) ∧
      p.enabled pPG = true ∧ p.pg.starting = false ∧ p.pg.ending = false ∧ axisEnabled p 511 = true ∧
      (∀ w ∈ p.pg.ax, w.1 = 511 → w.2.mode ≠ 4) ∧ p.axb 511 F.PG_CTL_GO = false ∧ axisFaulted p 511 = false ∧
      p.tw.stopPending = false ∧ p.ax 511 F.PG_FOLLOW_FE_LIMIT = 0 ∧ (p.leAx 511).pgFresh = false ∧ (p.pgAx 511).mode = 1 ∧
      (p.pgAx 511).formed = true ∧ (p.pgAx 511).plan.kind = 0 ∧ (p.pgAx 511).plan.segs = [] ∧ (p.pgAx 511).ref.v = 0 ∧
      (p.pgAx 511).ref.a = 0 ∧ (p.pgAx 511).ref.j = 0) ∧
    ((cyc 5).cyc.phase = 5 ∧ (cyc 5).time.stopping = false) := by
  unfold QuadQuiet; decide +kernel

theorem witness_DeviceTimeOnlyAdvances :
    0 < ((5 : DT) - z.time.dt).toInt ∧ ((0 : DT) - z.time.dt).toInt ≤ 0 ∧
    Settled { z with time := { z.time with dt := -1 } } ∧ 0 < ((0 : DT) - (-1 : DT)).toInt := by
  unfold Settled; decide +kernel

theorem witness_SlackIsTrLessTheLatestCompletion :
    z.cyc.enabledNow = [] ∧
    (let s : State := { z with cyc := { z.cyc with enabledNow := [3] } }
     (∃ a ∈ s.cyc.enabledNow, ∀ p ∈ s.sg.done, p.1 ≠ a) ∧
     let u : State := { s with sg := { s.sg with done := [(3, 5)] } }
     u.cyc.enabledNow ≠ [] ∧ ∀ a ∈ u.cyc.enabledNow, u.sg.done.find? (fun p => p.1 = a) = some (a, 5)) := by decide +kernel

theorem witness_GovernorActsOnceAtDlEnd :
    let g (f : SgCfg → SgCfg) (s : State) : State := { s with sg := { s.sg with cfg := f s.sg.cfg } }
    let ok (s : State) : Prop := s.time.running = true ∧ s.cyc.phase = 5 ∧ s.tw.role ≠ 4 ∧ s.sg.cfg.vmin ≤ s.sg.cfg.vmax ∧
      s.sg.cfg.vmax ≤ 36 ∧ s.sg.cfg.vfixed ≤ 36 ∧ s.g F.SG_VCORE_CODE ≤ 36 ∧ NothingHeldUp s ∧
      (s.time.stopping = true → enabledAngs s = [] ∧ enabledChs s = [])
    let on := onPage pSG (cyc 5)
    let low := g (fun c => { c with vmin := 15 }) on
    let high := g (fun c => { c with vmax := 13 }) on
    let more : State := { on with cyc := { on.cyc with enabledNow := [3] } }
    (ok low ∧ low.enabled pSG = true ∧ low.sg.cfg.fixed = false ∧ low.g F.SG_VCORE_CODE < low.sg.cfg.vmin) ∧
    (ok high ∧ high.sg.cfg.vmax < high.g F.SG_VCORE_CODE) ∧
    (ok on ∧ on.sg.cfg.vmin ≤ on.g F.SG_VCORE_CODE ∧ on.g F.SG_VCORE_CODE ≤ on.sg.cfg.vmax ∧ slackOf on = none) ∧
    let last : State := { on with time := { on.time with stopping := true } }
    (ok more ∧ slackOf more = some none) ∧ (ok (cyc 5) ∧ (cyc 5).enabled pSG = false) ∧ (ok last ∧ last.time.stopping = true) := by
  refine ⟨⟨⟨?_, ?_, ?_, ?_, ?_, ?_, ?_, ⟨rfl, fun _ => rfl⟩, ?_⟩, ?_⟩, ⟨⟨?_, ?_, ?_, ?_, ?_, ?_, ?_, ⟨rfl, fun _ => rfl⟩, ?_⟩, ?_⟩,
    ⟨⟨?_, ?_, ?_, ?_, ?_, ?_, ?_, ⟨rfl, fun _ => rfl⟩, ?_⟩, ?_⟩, ⟨⟨?_, ?_, ?_, ?_, ?_, ?_, ?_, ⟨rfl, fun _ => rfl⟩, ?_⟩, ?_⟩,
    ⟨⟨?_, ?_, ?_, ?_, ?_, ?_, ?_, ⟨rfl, fun _ => rfl⟩, ?_⟩, ?_⟩, ⟨?_, ?_, ?_, ?_, ?_, ?_, ?_, ⟨rfl, fun _ => rfl⟩, ?_⟩, ?_⟩ <;> decide +kernel

theorem witness_WalkTakesAStepEvery10us :
    let w : State := { z with sg := { z.sg with cfg := { z.sg.cfg with vfixed := 3 } } }
    (w.sg.cfg.vfixed ≤ 36 ∧ w.g F.SG_VCORE_CODE ≤ 36 ∧ w.time.running = false ∧ w.g F.SG_VCORE_CODE ≠ w.sg.cfg.vfixed ∧
      z.g F.SG_VCORE_CODE = z.sg.cfg.vfixed ∧ ((z.time.advance 655360000).dt - z.sg.walkFrom).toInt ≥ 10000 * 65536) ∧
    ((z.time.advance 655359999).dt - z.sg.walkFrom).toInt < 10000 * 65536 ∧ (cyc 3).time.running = true := by decide +kernel

theorem witness_StatsResetClearsTheCounts : z.hk.corePower = true ∧ Unhindered 0 7 z := by unfold Unhindered; decide +kernel

theorem witness_SettingEnableRunsThePagesCheck :
    (EnableRequest 0 0 0 (.sgEnable 0 0) pSG ∧ EnableRequest 0 0 7 (.scEnable 0 0 7) (pSC 7)) ∧
    z.hk.corePower = true ∧ dark.hk.corePower = false ∧ (z.checks.look pSG).running = none ∧ z.enabled pSG = false ∧
    (onPage pSG z).enabled pSG = true ∧
    (∀ s ∈ [z, dark, onPage pSG z, checking pSG (enabling pSG 7)], Unhindered 0 0 s) ∧
    ((checking pSG (enabling pSG 7)).checks.look pSG).running = some (enabling pSG 7) := by
  refine ⟨⟨?_, ?_⟩, ?_⟩
  · simp [EnableRequest]
  · simp [EnableRequest]
  · unfold Unhindered; decide +kernel

theorem witness_AnActionRunsItsCheckOrIsHeld :
    PlainRequest 0 0 511 false 0 0 (.feedbackStart 0 0 511) ⟨.feedbackStart, pFBE, 511, 2 ^ 63 + 511, 0, none, 0⟩ ∧
    (dmaRefuses 5 15 = false ∧
      PlainRequest 0 5 15 false 1 0 (.dmaAbort 0 5 15 1) ⟨.dmaAbort, pDMA, 15, 1, 5, none, 0⟩) ∧
    (z.checks.look pFBE).running = none ∧ ((checking pFBE (enabling pFBE 0)).checks.look pFBE).running = some (enabling pFBE 0) ∧
    z.hk.corePower = true ∧ QuadQuiet z ∧ (∀ m ∈ [0, 5], Unhindered 0 m z ∧ Unhindered 0 m (checking pFBE (enabling pFBE 0))) ∧
    sameStream ⟨.streamStop, pAE, 255, 0, 0, none, 0⟩ ⟨.streamStart, pAE, 255, 0, 7, none, 0⟩ = true ∧
    sameStream ⟨.streamStop, pAE, 255, 0, 0, none, 0⟩ ⟨.streamStop, pAE, 255, 0, 0, none, 0⟩ = true := by
  refine ⟨?_, ⟨?_, ?_⟩, ?_⟩
  · simp [PlainRequest]
  · decide +kernel
  · refine Or.inr ⟨by decide +kernel, ?_⟩; simp
  · unfold QuadQuiet Unhindered; decide +kernel

theorem witness_ARefusedEnableHasNoEffect :
    let s := checking pCyc (enabling pCyc 7)
    pCyc % 0x1000 = 0 ∧ s.checks.look pCyc = ⟨some (enabling pCyc 7), []⟩ ∧ (enabling pCyc 7).master ≠ hkMaster ∧ s.enabled pCyc = false ∧
    actionCheck (arrive 1000 s) (enabling pCyc 7) 1 ≠ 0 ∧ actionCheck (arrive 1000 s) (enabling pCyc 7) 1 < 2 ^ 16 := by
  decide +kernel

theorem witness_GuardStepsOpenAndCarryTheSequence :
    (pBoot % 0x1000 = 0 ∧ pageTypeInst pBoot ≠ none ∧ powered z pBoot = true ∧ z.guards.look pBoot = none ∧ hasGw pBoot (0x80 / 8 % 512 * 8) = true) ∧
    (let q : GuardSeq := ⟨7, 0x80, 0, none⟩
     let s : State := { z with guards := z.guards.set pBoot (some q) }
     s.guards.look pBoot = some q ∧ ((s.time.advance 65536000).dt - q.last).toInt ≤ 1000 * 65536 ∧ Unhindered 65536000 7 s) ∧
    Unhindered 0 7 z := by
  unfold Unhindered; decide +kernel

theorem witness_ABadGuardStepDiscardsTheSequence :
    hasGw pBoot 0x88 = false ∧ powered z pBoot = true ∧ z.guards.look pBoot = none ∧
    (let q : GuardSeq := ⟨7, 0x80, 0, none⟩
     let s : State := { z with guards := z.guards.set pBoot (some q) }
     s.guards.look pBoot = some q ∧ 8 ≠ q.opener ∧ 1000 * 65536 < ((s.time.advance 65536001).dt - q.last).toInt ∧
     ((s.time.advance 65536000).dt - q.last).toInt ≤ 1000 * 65536 ∧ ({ q with value := some 5 } : GuardSeq).value ≠ none ∧
     (6 : Word) ≠ ~~~5 ∧ Unhindered 65536001 8 s ∧ Unhindered 65536000 7 s) ∧ Unhindered 0 7 z := by
  unfold Unhindered; decide +kernel

theorem witness_TheComplementCompletesAGuardedWrite :
    let q : GuardSeq := ⟨7, 0x80, 0, some 1⟩
    let s : State := { z with guards := z.guards.set pBoot (some q) }
    s.guards.look pBoot = some q ∧ ((s.time.advance 65536000).dt - q.last).toInt ≤ 1000 * 65536 ∧
    (s.checks.look pBoot).running = none ∧ Unhindered 65536000 7 s := by unfold Unhindered; decide +kernel

theorem witness_EvtMaskTakesTheValueWritten : pageTypeInst (pMP / 0x1000 * 0x1000) ≠ none ∧
    powered z (pMP / 0x1000 * 0x1000 + 0x20) = true ∧ Unhindered 0 7 z := by unfold Unhindered; decide +kernel

theorem witness_ASnapshotIsTheTakersOwn :
    TakeCommand 0 0 31 (.qeSnapTake 0 0 31) F.QE_SNAP_TAKE.adr (256 + 31) ∧ z.hk.corePower = true ∧ QuadQuiet z := by
  refine ⟨by simp [TakeCommand], ?_⟩; unfold QuadQuiet; decide +kernel

theorem witness_APassedEnableTakesEffect :
    EnableEffect pTU (fun s => { s with tu := { s.tu with onAt := s.time.dt } }) ∧ EnableEffect (pHE 1) id ∧
    (∀ p ∈ [pTU, pSG], ((checking p (enabling p 0)).checks.look p) = ⟨some (enabling p 0), []⟩ ∧
      actionCheck (arrive 1000 (checking p (enabling p 0))) (enabling p 0) 0 = 0) := by
  refine ⟨Or.inr (Or.inl ⟨rfl, rfl⟩), Or.inl ⟨?_, rfl⟩, ?_⟩ <;> decide +kernel

theorem witness_APassedCycleCheckStartsTheCycle :
    let a : Action := { enabling pCyc 0 with val := 6553600000 + 1000 }
    let s : State := onPage pSG (checking pCyc a)
    s.checks.look pCyc = ⟨some a, []⟩ ∧ actionCheck (arrive 1000 s) a 0 = 0 ∧ s.cyc.ask = [] := by decide +kernel

theorem witness_ClearingTheCyclesEnableLetsItEnd :
    let s := onPage pCyc (cyc 5)
    s.hk.corePower = true ∧ s.enabled pCyc = true ∧ (s.checks.look pCyc).running = none ∧ s.cyc.ask = [] ∧ s.time.starting = false ∧
    (onPage pCyc (cyc 6)).cyc.phase = 6 ∧ (onPage pCyc z).time.running = false ∧
    ((cyc 6).time.running = true ∧ (cyc 6).time.starting = false ∧ (cyc 6).ae.pinCycle = none ∧ (cyc 6).ang.ch = [] ∧
      ∀ p < 8, ((cyc 6).port p).commit = false) ∧
    (∀ k ∈ [5, 6], Unhindered 0 7 (onPage pCyc (cyc k))) ∧ Unhindered 0 7 (onPage pCyc z) := by
  unfold Unhindered; decide +kernel

theorem witness_ClearingEnableTakesEffectAtOnce :
    z.hk.corePower = true ∧ (∀ p ∈ [pSG, pPG, pPTP, pEH, pFBE, pCyc, pKS], z.enabled p = false ∧ (onPage p z).enabled p = true ∧
      ((onPage p z).checks.look p).running = none ∧ Unhindered 0 7 (onPage p z)) ∧ ∀ e ∈ z.ae.str, strLive z e.1 = false := by
  unfold Unhindered; decide +kernel

theorem witness_AGuardedOperationRunsItsCheck :
    (GuardedRequest 0 0 7 z (.commit 0 0 7) .commit (pFP 7) 0x148 7 1 ∧
      GuardedRequest 0 0 7 z (.disA 0 0 true) .disA pFS 0x80 0 1 ∧ GuardedRequest 0 0 0 z (.disB 0 0 true) .disB pFS 0x80 1 2 ∧
      GuardedRequest 0 0 7 z (.fpEnable 0 0 7) .pageEnable (pFP 7) 8 0 1) ∧
    z.standby = false ∧ powered z (pFP 7) = true ∧ (∀ p, z.guards.look p = none) ∧ (z.checks.look (pFP 7)).running = none ∧
    (let a : Action := ⟨.commit, pFP 7, 7, 1, 0, some 0x148, 0⟩; ((checking (pFP 7) a).checks.look (pFP 7)).running = some a ∧
     Unhindered 0 7 (checking (pFP 7) a)) ∧ (∀ m ∈ [0, 7], Unhindered 0 m z) := by
  refine ⟨⟨?_, ?_, ?_, ?_⟩, ?_⟩
  · exact Or.inl (by simp)
  · exact Or.inr (Or.inr (Or.inl ⟨by decide +kernel, by
      have h : z.g F.FS_FEED_DIS_DIS_B = 0 := by decide +kernel
      rw [h]⟩))
  · exact Or.inr (Or.inr (Or.inr ⟨by decide +kernel, by
      have h : z.g F.FS_FEED_DIS_DIS_A = 0 := by decide +kernel
      rw [h]⟩))
  · exact Or.inr (Or.inl ⟨by decide +kernel, rfl⟩)
  · refine ⟨by decide +kernel, by decide +kernel, fun _ => rfl, ?_⟩
    unfold Unhindered; decide +kernel

theorem witness_AGuardedOperationWithoutACheckActsAtOnce :
    (z.hk.corePower = true ∧ ∀ p, z.guards.look p = none) ∧ ((z.checks.look pLE).running = none ∧ z.standby = false) ∧
    (z.checks.look pFS).running = none ∧ ((onPage (pFP 7) z).enabled (pFP 7) = true ∧ (z.checks.look (pFP 7)).running = none) ∧
    (z.checks.look pPW).running = none ∧ z.g F.TW_FAULT_CAUSE = 0 ∧
    ((z.checks.look pHK).running = none ∧ (role 2).tw.role = 2 ∧ z.tw.role ≠ 2) ∧
    ((z.put F.FS_FEED_DIS_DIS_A 1).g F.FS_FEED_DIS_DIS_A = 1 ∧ (z.put F.FS_FEED_DIS_DIS_B 1).g F.FS_FEED_DIS_DIS_B = 1) ∧
    (role 3).standby = true ∧ (∀ s ∈ [z, onPage (pFP 7) z, role 2, role 3], Unhindered 0 7 s) := by
  refine ⟨⟨by decide +kernel, fun _ => rfl⟩, ?_⟩; unfold Unhindered; decide +kernel

/-! #### The signal cores -/

theorem witness_ExactResultsOfTheCores :
    WordResult 0 3 (arch id |>.core 3).arch [] 31 0 31 (-1) 7 (.andi 0 3 31 0 (-1)) (0 &&& BitVec.ofInt 64 (-1)) 1 ∧
    Runs (arch id) 3 .plain (.andi 0 3 31 0 (-1)) := by
  refine ⟨?_, ?_⟩
  · have h : ((arch id |>.core 3).arch.g.look 0) = 0 := by decide +kernel
    simp [WordResult, h]
  · unfold Runs; decide +kernel

theorem witness_SaturatingResultsOfTheCores :
    (let x := (arch (fun x => { x with g := x.g.set 1 0x7FFFFFFFFFFFFFFF })).core 3 |>.arch
     SaturatedResult 0 3 x 31 1 1 0 (.add 0 3 31 1 1) ((x.g.look 1).toInt + (x.g.look 1).toInt)) ∧
    Runs (arch (fun x => { x with g := x.g.set 1 0x7FFFFFFFFFFFFFFF })) 3 .plain (.add 0 3 31 1 1) := by
  refine ⟨?_, ?_⟩
  · simp [SaturatedResult]
  · unfold Runs; decide +kernel

theorem witness_DelayedResultsOfTheCores :
    (Runs (arch id) 3 .plain (.mul 0 3 31 0 1 127) ∧ Runs (arch id) 3 .plain (.sata 0 3 31 3 127)) ∧
    (IsSignRun 64 ((arch id |>.core 3).arch.g.look 0).toInt 63 ∧ Runs (arch id) 3 .plain (.exp 0 3 31 0) ∧
      Runs (arch id) 3 .plain (.norm 0 3 31 0)) ∧
    (IsSignRun 136 ((arch id |>.core 3).arch.a.look 3).toInt 135 ∧ Runs (arch id) 3 .plain (.expa 0 3 31 3)) := by
  unfold Runs IsSignRun; decide +kernel

theorem witness_AccumulatorResultsOfTheCores :
    ∀ c ∈ [Instr.mac 0 3 3 0 31, .msu 0 3 3 0 31, .adda 0 3 0 3, .lda 0 3 3 0 71, .clra 0 3 3], Runs (arch id) 3 .plain c := by
  unfold Runs; decide +kernel

theorem witness_PointerAndPlainInstructionsRetire :
    (∀ c ∈ [Instr.setp 0 3 7 0, .setm 0 3 7 0, .movsWrite 0 3 0, .nop 0 3, .trace 0 3 65535], Runs (arch id) 3 .plain c) ∧
    Runs (arch (fun x => { x with g := x.g.set 1 0x40000 })) 3 .plain (.setc 0 3 7 0 1) ∧
    Runs (arch (fun x => { x with g := x.g.set 1 0x40008 })) 3 .plain (.setc 0 3 7 0 1) ∧
    Runs (arch (fun x => { x with g := x.g.set 1 4 })) 3 .plain (.setc 0 3 7 0 1) ∧
    (0x40000 : BitVec 64).toNat % 2 ^ 32 % 8 = 0 ∧ 0x40000 < (0x40008 : BitVec 64).toNat % 2 ^ 32 ∧
    (4 : BitVec 64).toNat % 2 ^ 32 % 8 ≠ 0 ∧
    (let s : State := (onPage pTRC (core (fun k => { k with trcOn := true }))).put F.TRC_CFG_SYNC_EVERY 64
     let s := (s.put F.TRC_CFG_CORES 8).put F.TRC_CFG_SIZE_LOG2 16
     coreIssues s 3 = true ∧ issueCause s 3 .plain true = 0 ∧ trcTraced s 3 = true ∧ (s.core 3).trcBits = [] ∧ s.trc.lost = 0 ∧
     trcFault s 1 = none ∧ (s.core 3).trcSince + 1 < s.g F.TRC_CFG_SYNC_EVERY ∧
     (s.g F.TRC_WR_COUNT + 2 ^ 32 - s.g F.TRC_RD_COUNT) % 2 ^ 32 + 2 ≤ trcSize s) := by
  refine ⟨?_, ?_, ?_, ?_, ?_⟩
  · unfold Runs; decide +kernel
  · unfold Runs; decide +kernel
  · unfold Runs; decide +kernel
  · unfold Runs; decide +kernel
  · decide +kernel

theorem witness_BranchesHaveTwoDelaySlots :
    (BranchOf 0 3 0 0 (-8192) (arch id) (.beq 0 3 0 0 (-8192))
      (decide (((arch id).core 3).arch.g.look 0 = ((arch id).core 3).arch.g.look 0))
      (((arch id).core 3).arch.pc + BitVec.ofInt 14 (-8192)) ((arch id).core 3).arch ∧
      Runs (arch id) 3 .control (.beq 0 3 0 0 (-8192)) ∧ Runs (arch id) 3 .control (.call 0 3 8388607)) ∧
    (∀ k ∈ [0, 1, 2], Runs (arch (fun x => { x with slots := k })) 3 .plain (.nop 0 3)) := by
  refine ⟨⟨?_, ?_⟩, ?_⟩
  · simp [BranchOf]
  · unfold Runs; decide +kernel
  · unfold Runs; decide +kernel

theorem witness_RepeatsRunTheirBody :
    (∀ c ∈ [Instr.repi 0 3 0 16, .repi 0 3 65535 1, .repr 0 3 0 16], Runs (arch id) 3 .control c) ∧
    (∀ k ∈ [1, 2], let s := arch (fun x => { x with repOn := true, repLen := 1, repCount := k })
      Runs s 3 .plain (.nop 0 3) ∧ (s.core 3).arch.repLen ≤ ((s.core 3).arch.pc + 1 - (s.core 3).arch.repStart).toNat) := by
  unfold Runs; decide +kernel

theorem witness_LoadsSeeTheYoungestStore :
    (∀ z ∈ [0, 3], Runs (arch id) 3 .plain (.ld 0 3 31 7 1 z false)) ∧ GoodLocal (arch id) 3 0x3FFF8 8 ∧
    modPtr ((arch id).core 3).arch 7 1 8 = some 8 ∧
    (let s := core (fun k => { k with stores := [⟨8, 4, 5⟩] })
     Runs s 3 .plain (.ldd 0 3 31 0 8 2 true) ∧ GoodLocal s 3 8 4 ∧
     (∀ e ∈ (s.core 3).stores, e.size ∈ [1, 2, 4, 8] ∧ e.addr % e.size = 0 ∧ e.addr ≤ 0x3FFFF) ∧
     (BitVec.ofInt 32 (((s.core 3).arch.g.look 0).toInt + 8)).toNat = 8) := by
  unfold Runs GoodLocal; decide +kernel

theorem witness_PairedLoadsReadBothWords :
    let s := arch (fun x => { x with p := x.p.set 7 0x20000 })
    (s.core 3).stores = [] ∧ GoodLocal s 3 0 8 ∧ GoodLocal s 3 0x20000 8 ∧
    modPtr (s.core 3).arch 0 1 8 = some 8 ∧ modPtr (s.core 3).arch 7 1 8 = some 0x20008 ∧ modPtr (s.core 3).arch 7 2 8 ≠ none ∧
    (∀ c ∈ [Instr.ldxy 0 3 0 31 0 1 7 1, .macl 0 3 3 0 31 0 7 false true, .msul 0 3 3 0 31 0 7 false true], Runs s 3 .plain c) := by
  unfold Runs GoodLocal; decide +kernel

theorem witness_StoresWaitInTheBufferAndDrain :
    (Runs (arch id) 3 .plain (.st 0 3 31 0 2 3) ∧ modPtr ((arch id).core 3).arch 0 2 8 ≠ none ∧
      Runs (arch id) 3 .plain (.std 0 3 31 0 2047 0)) ∧
    (let s := core (fun k => { k with stores := [⟨0x3FFF8, 8, 5⟩] })
     Runs s 3 .plain (.nop 0 3) ∧ GoodLocal s 3 0x3FFF8 8 ∧ (s.core 3).arch.repOn = false) := by
  unfold Runs GoodLocal; decide +kernel

theorem witness_AFaultStopsTheContextAtItsPc :
    (let s := arch (fun x => { x with p := (x.p.set 0 0x40000).set 1 4, g := x.g.set 1 4 })
     Runs s 3 .plain (.ld 0 3 31 0 0 3 false) ∧ 0x3FFFF < ((s.core 3).arch.p.look 0).toNat ∧
     Runs s 3 .plain (.st 0 3 31 1 0 3) ∧ ((s.core 3).arch.p.look 1).toNat % 2 ^ 3 ≠ 0 ∧
     Runs s 3 .plain (.ldd 0 3 31 0 (-1) 3 false) ∧ 0x3FFFF < (BitVec.ofInt 32 (((s.core 3).arch.g.look 0).toInt + -1)).toNat ∧
     Runs s 3 .slot (.str 0 3 31 1 3) ∧ ((s.core 3).arch.g.look 1).toNat % 2 ^ 3 ≠ 0 ∧ QuadQuiet s) ∧
    (Runs (arch id) 3 .control (.unlock 0 3 255) ∧ (arch id).gb (F.KS_LOCK_HELD 255) = false) ∧
    Runs (arch id) 3 .control (.breakPoint 0 3) := by
  unfold Runs QuadQuiet; decide +kernel

theorem witness_RemoteAccessesWaitForTheirAnswer :
    (let s := (arch (fun x => { x with g := x.g.set 1 (BitVec.ofNat 64 dramBase) })).cxPut 5 F.CX_QUOTA_QUOTA 4
     Runs s 3 .slot (.ldr 0 3 31 1 3 false) ∧ Runs s 3 .slot (.str 0 3 31 1 3) ∧ Runs s 3 .slot (.fence 0 3) ∧
     directTarget s dramBase = .mem dramBase ∧ inDram dramBase = true ∧ s.poisoned dramBase = false ∧ s.enabled pEH = false ∧
     s.hk.corePower = true ∧ QuadQuiet s ∧
     (creditTake (arrive 0 s) 5).isSome = true) ∧
    (let s := core (fun k => { k with wait := .ldr 31 8 false 0 0 5 false true })
     (s.core 3).wait = .ldr 31 (2 ^ 3) false 0 0 5 false true ∧ trcTraced s 3 = false ∧ (s.core 3).resident ≠ none ∧
     ((100 * s.g (F.SC_CFG_REMOTE_TIMEOUT 3) * 65536 : Nat) : Int) ≤
       ((s.time.advance (BitVec.ofNat 64 (100 * s.g (F.SC_CFG_REMOTE_TIMEOUT 3) * 65536))).dt - 0).toInt) ∧
    (let s := core (fun k => { k with remote := [(0, 0), (8, 0)] })
     (s.core 3).remote = [(0, 0), (8, 0)] ∧ (s.core 3).wait ≠ .fence ∧ (s.core 3).wait ≠ .note ∧ Runs s 3 .slot (.fence 0 3)) ∧
    (let s := core (fun k => { k with remote := [(0, 0)], wait := .fence })
     (s.core 3).remote = [(0, 0)] ∧ (s.core 3).wait = .fence ∧ (s.core 3).stores = []) := by
  unfold Runs QuadQuiet; decide +kernel

theorem witness_ControlInADelaySlotFaults :
    ∀ k ∈ [1, 2], let s := arch (fun x => { x with slots := k })
      coreIssues s 3 = true ∧ issueCause s 3 .plain true = 0 ∧ (s.core 3).arch.slots ≠ 0 ∧ trcTraced s 3 = false ∧
      (s.core 3).trcOn = false ∧ (∀ c ∈ [Instr.br 0 3 (-1), .repi 0 3 0 16, .endProg 0 3], scWf c = true) := by
  decide +kernel

theorem witness_GovernorSettingsAreTakenAtEnable :
    (onPage pSG z).enabled pSG = true ∧ z.enabled pSG = false ∧ z.hk.corePower = true ∧ dark.hk.corePower = false ∧ z.fb.qe = [] ∧ F.SG_VLIMIT.adr = pSG + 0x90 ∧
    (let a := enabling pSG 0
     (checking pSG a).checks.look pSG = ⟨some a, []⟩ ∧ actionCheck (arrive 1000 (checking pSG a)) a 0 = 0) ∧
    (∀ s ∈ [onPage pSG z, z, dark, checking pSG (enabling pSG 0)], Unhindered 0 7 s) := by unfold Unhindered; decide +kernel

theorem witness_DecodeOfEncodeIsTheInstruction :
    scWf (.ldih 0 3 31 0xFFFFFFFF) = true ∧ scEncode (.ldih 0 3 31 0xFFFFFFFF) = some (0x27E00000, some 0xFFFFFFFF) ∧
    scDecode 0 3 0x20000000 7 = some (.ldi 0 3 0 7) := by decide +kernel

/-! #### Contexts, Keystone and memory -/

theorem witness_TheContextLeavesAtItsBoundary :
    (∀ c ∈ [Instr.endProg 0 3, .yield 0 3, .wait 0 3, .lock 0 3 31 255], Runs (arch id) 3 .control c) ∧
    (arch id).cx 5 F.CX_STATE_PENDING = 0 ∧ ((arch id).cxPut 5 F.CX_STATE_PENDING 1).cx 5 F.CX_STATE_PENDING ≠ 0 ∧
    Runs ((arch id).cxPut 5 F.CX_STATE_PENDING 1) 3 .control (.wait 0 3) ∧
    (((arch id).cxPut 5 F.CX_STATE_PENDING 1).core 3).remote = [] ∧ ((arch id).cxPut 5 F.CX_STATE_PENDING 1).enabled pEH = false ∧
    (let s := (core (fun k => { k with remote := [(0, 0)] })).cxPut 5 F.CX_STATE_PENDING 1
     Runs s 3 .control (.wait 0 3) ∧ (s.core 3).remote ≠ []) ∧
    (let s := ((arch id).put (F.KS_LOCK_HELD 255) 1).put (F.KS_LOCK_OWNER 255) 6
     Runs s 3 .control (.lock 0 3 31 255) ∧ s.gb (F.KS_LOCK_HELD 255) = true ∧ s.g (F.KS_LOCK_OWNER 255) ≠ 5) ∧
    (let s := core (fun k => { k with preempt := true })
     (s.core 3).resident ≠ none ∧ (s.core 3).preempt = true ∧ (s.core 3).arch.slots = 0 ∧ (s.core 3).arch.repOn = false) ∧
    (core (fun k => { k with preempt := true, arch := { k.arch with slots := 1 } }) |>.core 3).arch.slots ≠ 0 := by
  unfold Runs; decide +kernel

/-- Context 5 of core 3 leaves for the state `st`, by lock `l` where it blocks, and saves to DRAM. -/
def leaving (st : Nat) (head : Bool) (l : Option Nat) : State :=
  let s := core (fun k => { k with wait := .leaving st 0 head l })
  { s.setWord (cxBase 5 + 8) dramBase with ks := { s.ks with cfg := s.ks.cfg.set 5 { (default : CxRead) with cores := 8 } } }

theorem saves_of (s : State) (c a : Nat) (h : s.word (cxBase c + 8) = a ∧ ∀ i < 72, a + 8 * i < 0x800000000000 ∧
    directTarget s (a + 8 * i) = .mem (a + 8 * i) ∧ watchedWord (a + 8 * i) = false) : SavesToMemory s c := by
  intro i hi
  rw [h.1]
  exact ⟨a + 8 * i, h.2 i hi⟩

theorem witness_TheSaveFreesTheCore :
    let s : State := (leaving 7 false none).onCore 3 (fun k => { k with closing := true })
    SavesToMemory (leaving 7 false none) 5 ∧ ((leaving 7 false none).core 3).wait = .leaving 7 0 false none ∧
    (s.core 3).resident = some 5 ∧ (s.core 3).wait = .leaving 7 0 false none ∧ (s.core 3).resetting = false ∧
    (s.core 3).prefetch = none ∧ trcTraced s 3 = false ∧ s.enabled pEH = false ∧ (s.core 3).remote = [] ∧
    ({ s.core 3 with remote := [(0, 0)] } : CoreSt).remote ≠ [] := by
  refine ⟨saves_of _ _ dramBase ?_, ?_⟩ <;> decide +kernel

theorem witness_ADepartedContextGoesWhereItsInstructionSays :
    (∀ x ∈ [(0, false, none), (1, true, none), (1, false, none), (4, false, none), (5, false, some 255)],
      let s := leaving x.1 x.2.1 x.2.2
      let k := s.core 3
      k.resident = some 5 ∧ k.wait = .leaving x.1 0 x.2.1 x.2.2 ∧ k.resetting = false ∧ k.prefetch = none ∧ k.remote = [] ∧
      k.inService = true ∧ k.closing = false ∧ cxAllows s 5 3 = true ∧ trcTraced s 3 = false ∧ s.enabled pEH = false ∧
      (s.ks.cfg.look 5).flow = 0) ∧
    (leaving 4 false none).cx 5 F.CX_STATE_PENDING = 0 ∧
    ((leaving 4 false none).cxPut 5 F.CX_STATE_PENDING 1).cx 5 F.CX_STATE_PENDING ≠ 0 ∧
    ((leaving 5 false (some 255)).ks.granted.look 5).1 ≠ 255 + 1 ∧
    (let s := leaving 5 false (some 255)
     (({ s with ks := { s.ks with granted := s.ks.granted.set 5 (256, false) } } : State).ks.granted.look 5).1 = 255 + 1) ∧
    (∀ x ∈ [(0, false, none), (1, true, none), (1, false, none), (4, false, none), (5, false, some 255)],
      SavesToMemory (leaving x.1 x.2.1 x.2.2) 5) := by
  refine ⟨?_, ?_, ?_, ?_, ?_, fun x hx => saves_of _ _ dramBase ?_⟩
  · decide +kernel
  · decide +kernel
  · decide +kernel
  · decide +kernel
  · decide +kernel
  · revert x hx; decide +kernel

theorem witness_DormancyAndServiceOfACore :
    (let s : State := (core (fun k => { k with inService := true, resident := none })).put (F.SC_CFG_DORMANT_EN 3) 1
     (s.core 3).inService = true ∧ (s.core 3).dormant = false ∧ s.gb (F.SC_CFG_DORMANT_EN 3) = true ∧ (s.core 3).resident = none ∧
     trcTraced s 3 = false ∧ 50000 * 65536 ≤ ((s.time.advance 3276800000).dt - (s.core 3).idleSince).toInt ∧
     ((s.time.advance 3276799999).dt - (s.core 3).idleSince).toInt < 50000 * 65536) ∧
    (let s := core (fun k => { k with inService := true, dormant := true, resident := none, prefetch := some 5 })
     (s.core 3).prefetch = some 5 ∧ (s.core 3).dormant = true ∧ s.enabled pEH = false) ∧
    (let s := onPage (pSC 3) (arch id)
     s.hk.corePower = true ∧ s.enabled (pSC 3) = true ∧ (s.checks.look (pSC 3)).running = none ∧ (s.core 3).prefetch = none ∧ (s.core 3).resident ≠ none ∧
     Unhindered 0 7 s) := by
  unfold Unhindered; decide +kernel

theorem witness_ANoticeIsTakenKeptOrLost :
    (∀ k ∈ [0, 1, 2, 3, 4, 5, 6, 7], cxState (z.cxPut 1023 F.CX_STATE_STATE k) 1023 = k) ∧
    z.enabled pEH = false ∧ z.hk.corePower = true ∧ (z.checks.look pKS).running = none ∧ standbyRefuses z 0 F.KS_CXCTL_OP.adr = false ∧
    (let s := arch (fun x => { x with g := x.g.set 1 1023 })
     Runs s 3 .slot (.notify 0 3 1) ∧ (s.core 3).stores = [] ∧ ((s.core 3).arch.g.look 1).toNat % 1024 = 1023) ∧
    allowedCores z 1023 = [] ∧ Unhindered 0 0 z := by
  unfold Runs Unhindered; decide +kernel

theorem witness_LocksAreGivenAndPassedOn :
    let s : State := ((arch id).put (F.KS_LOCK_HELD 255) 1).put (F.KS_LOCK_OWNER 255) 5
    let m : State := { s with ks := { s.ks with lockMaster := s.ks.lockMaster.set 255 8 } }
    let q : State := { s with ks := { s.ks with lockQ := s.ks.lockQ.set 255 [6] } }
    (z.gb (F.KS_LOCK_HELD 255) = false ∧ z.enabled pEH = false ∧ z.hk.corePower = true) ∧ s.g (F.KS_LOCK_OWNER 255) = 5 ∧
    (s.gb (F.KS_LOCK_HELD 255) = true ∧ s.g (F.KS_LOCK_OWNER 255) ≠ 6) ∧
    (m.g (F.KS_LOCK_OWNER 255) = 5 ∧ m.ks.lockMaster.look 255 = 7 + 1 ∧ m.ks.lockQ.look 255 = []) ∧
    s.ks.lockMaster.look 255 ≠ 7 + 1 ∧ Runs (arch id) 3 .control (.lock 0 3 31 255) ∧
    (Runs q 3 .control (.unlock 0 3 255) ∧ q.g (F.KS_LOCK_OWNER 255) = (q.core 3).resident.getD 0 ∧
      q.ks.lockQ.look 255 = 6 :: []) ∧ (∀ u ∈ [z, s, m, q, arch id], Unhindered 0 7 u) := by
  unfold Runs Unhindered; decide +kernel

theorem witness_TheDelayListKeepsDtOrder :
    let s : State := { z with ks := { z.ks with ticked := true, lastTick := 5 } }
    (z.hk.corePower = true ∧ z.ks.delay.length < 8192 ∧ z.ks.ticked = false) ∧
    (s.ks.ticked = true ∧ (BitVec.ofNat 64 (ownCopy s 0 F.KS_DL_DT.adr) - s.ks.lastTick).toInt ≤ 0) ∧
    (let f : State := { z with ks := { z.ks with delay := List.replicate 8192 default } }
     8192 ≤ f.ks.delay.length ∧ Unhindered 0 0 f) ∧ Unhindered 0 0 z ∧ Unhindered 0 0 s := by
  refine ⟨?_, ?_, ⟨?_, ?_⟩, ?_, ?_⟩
  · decide +kernel
  · decide +kernel
  · show 8192 ≤ (List.replicate 8192 default : List DlEntry).length
    rw [List.length_replicate]
  all_goals unfold Unhindered; decide +kernel

theorem witness_ATickFiresTheEntriesDue :
    let s := onPage pKS z
    let e : DlEntry := ⟨0, false, 5, 0, 9, false, false⟩
    let d : State := { s.cxPut 5 F.CX_STATE_STATE 1 with ks := { s.ks with delay := [e, { e with dt := 1 }] } }
    z.enabled pKS = false ∧ ((onPage pKS { z with ks := { z.ks with lastTick := 5 } }).time.dt - 5).toInt < 0 ∧
    (s.enabled pKS = true ∧ 0 ≤ ((s.time.advance 0).dt - s.ks.lastTick).toInt ∧ s.ks.delay = []) ∧
    (d.ks.delay = [e, { e with dt := 1 }] ∧ (e.dt - d.ks.lastTick).toInt ≤ 0 ∧ ¬ ((1 : DT) - d.ks.lastTick).toInt ≤ 0 ∧
      cxState d (e.arg.toNat % 1024) ∈ [1, 2, 3, 5]) ∧ NothingHeldUp z ∧ NothingHeldUp s ∧ NothingHeldUp d := by
  refine ⟨?_, ?_, ?_, ?_, ⟨rfl, fun _ => rfl⟩, ⟨rfl, fun _ => rfl⟩, ⟨rfl, fun _ => rfl⟩⟩ <;> decide +kernel

theorem witness_CreditsReturnAndQuotasBind :
    (z.enabled pEH = false ∧ z.poisoned (cxBase 1023 + 0x10) = false ∧ (∀ n < 8, (z.core n).wait ≠ .str) ∧
      (∀ i < 32, (z.dma.look i).state ≠ 2 ∧ (z.dma.look i).state ≠ 3)) ∧ z.cx 1023 F.CX_QUOTA_USE = 0 ∧
    (z.cxPut 1023 F.CX_QUOTA_USE 2).cx 1023 F.CX_QUOTA_USE ≠ 0 ∧ 1 < (z.cxPut 1023 F.CX_QUOTA_USE 2).cx 1023 F.CX_QUOTA_USE ∧
    (z.cxPut 1023 F.CX_QUOTA_USE 2).cx 1023 F.CX_QUOTA_USE < 65535 ∧ z.hk.corePower = true ∧ dark.hk.corePower = false := by
  decide +kernel

theorem witness_PostsAreNumberedInOrder :
    let f (x : FlowSt) : State := z.onFlow 63 (fun _ => x)
    let on : FlowSt := { (default : FlowSt) with state := 1, next := 2 ^ 32 - 1 }
    let i : FlowItem := ⟨0, 0, none, false, false, 0⟩
    z.hk.corePower = true ∧ ((f on).flow 63 = on ∧ (∀ p ∈ (f on).ks.cfg, p.2.flow ≠ 63)) ∧
    128 ≤ ((f { on with items := List.replicate 128 i }).flow 63).items.length ∧ (z.flow 63).state ≠ 1 ∧
    (((f on).checks.look pKS).running = none ∧ standbyRefuses (f on) 0 F.KS_FLOWCTL_OP.adr = false) ∧
    ((f { on with items := [i] }).flow 63).items = [i] ∧
    (∀ s ∈ [z, f on, f { on with items := [i] }, f { on with items := List.replicate 128 i }], Unhindered 0 0 s) := by
  unfold Unhindered; decide +kernel

theorem witness_KeystoneResetsPlacesAndStops :
    let s : State := { (onPage pKS z).cxPut 5 F.CX_STATE_STATE 1 with
      ks := { z.ks with ready := z.ks.ready.set 0 [5], cfg := z.ks.cfg.set 5 ⟨0, 8, 0⟩ } }
    let s := { s with cores := s.cores.set 3 { (default : CoreSt) with inService := true } }
    (z.hk.corePower = true ∧ NothingHeldUp z) ∧
    (NothingHeldUp (arch id) ∧ NothingHeldUp s ∧ NothingHeldUp (onPage pKS z) ∧ NothingHeldUp (onPage pKS (cyc 3)) ∧
      ∀ u ∈ [z, arch id, s, onPage pKS z, onPage pKS (cyc 3)], Unhindered 0 7 u) ∧
    (z.enabled pEH = false ∧ (z.checks.look pKS).running = none ∧ standbyRefuses z 0 F.KS_CXCTL_OP.adr = false ∧
      (∀ k < 8, (z.core k).resident ≠ some 1023 ∧ (z.core k).prefetch ≠ some 1023) ∧ z.cx 1023 F.CX_ITEM_VALID = 0) ∧
    (((arch id).core 3).resident = some 5 ∧ (∀ k < 3, ((arch id).core k).resident ≠ some 5)) ∧
    nextPlacement z = none ∧ (nextPlacement s).isSome = true ∧ trcTraced s 3 = false ∧
    (onPage pKS z).enabled pKS = true ∧ (onPage pKS (cyc 3)).time.running = true := by
  refine ⟨⟨by decide +kernel, rfl, fun _ => rfl⟩, ⟨⟨rfl, fun _ => rfl⟩, ⟨rfl, fun _ => rfl⟩, ⟨rfl, fun _ => rfl⟩,
    ⟨rfl, fun _ => rfl⟩, ?_⟩, ?_⟩
  · unfold Unhindered; decide +kernel
  · decide +kernel

theorem witness_InvalidationsCompleteInOrder :
    (4095 < 4096 ∧ 2 ^ 36 - 1 < 2 ^ 36 ∧ z.ms.invals = [] ∧ z.hk.corePower = true ∧ dark.hk.corePower = false) ∧
    (let s : State := { z with ms := { z.ms with invals := [⟨some (0, 1)⟩, ⟨none⟩], cache := [⟨0, 12, 0, false, false⟩] } }
     s.ms.invals = ⟨some (0, 1)⟩ :: [⟨none⟩] ∧ ∀ e ∈ s.ms.cache, 12 ≤ e.sizeLog2) := by decide +kernel

theorem witness_TheScrubberCountsAndPoisons :
    let s : State := { z with ms := { z.ms with scrubSram := true, scrubDram := true } }
    (∀ a ∈ [sramBase, dramBase], a % 8 = 0 ∧ inMemory a = true ∧ s.poisoned a = false ∧ s.ueDue = []) ∧ inDram dramBase = true ∧
    inDram sramBase = false ∧ (s.ms.scrubDram && !s.ms.selfRefresh) = true ∧ z.ms.scrubSram = false := by decide +kernel

theorem witness_PacketsAreBuiltAndCommitted :
    let q (x : QueueSt) : State := { z with queues := z.queues.set 63 x }
    let on : QueueSt := { (default : QueueSt) with on := true, sizeLog2 := 2, base := dramBase }
    let o : QueueSt := { on with openPkt := some ⟨0, 1⟩, p := 2 }
    (z.queue 63).on = false ∧ z.enabled pEH = false ∧ z.hk.corePower = true ∧
    (∀ i < 32, (z.dma.look i).state ≠ 2 ∧ (z.dma.look i).state ≠ 3) ∧
    (((q on).queue 63).openPkt = none ∧ 2 ≤ qFree on) ∧ qFree { on with p := 3 } < 2 ∧
    (0 < qFree o ∧ ({ o with owner := ownerOf z 7 } : QueueSt).owner = ownerOf z 7 ∧ o.broken = false) ∧
    qFree { o with p := 4 } = 0 ∧ ({ o with owner := ownerOf z 8 } : QueueSt).owner ≠ ownerOf z 7 ∧
    (o.waits = [] ∧ o.notifyAddr = 0) ∧
    (∀ s ∈ [z, q on, q { on with p := 3 }, q { o with owner := ownerOf z 7 }, q { o with p := 4, owner := ownerOf z 7 },
      q { o with owner := ownerOf z 8 }, q { o with broken := true, owner := ownerOf z 7 }], Unhindered 0 7 s) := by
  unfold Unhindered; decide +kernel

theorem witness_WordsArePoppedOnce :
    let on : QueueSt := { (default : QueueSt) with on := true, sizeLog2 := 2, base := dramBase, timeout := 1 }
    (on.on = true ∧ on.waits = [] ∧ ({ on with packets := [⟨0, 2⟩], r := 2 } : QueueSt).packets = ⟨0, 2⟩ :: [] ∧
      z.poisoned (qAddr on 2) = false ∧ (z.he.look 6).reqs = [] ∧ (⟨0, 2⟩ : QPacket).head + 1 ≤ 2 ∧ 2 ≤ (⟨0, 2⟩ : QPacket).head + (⟨0, 2⟩ : QPacket).count) ∧
    (z.queue 63).on = false ∧ ({ on with timeout := 0 } : QueueSt).packets = [] ∧ on.timeout ≠ 0 ∧ (0x30 ≤ 0x30 ∨ 0x30 < 0x10) ∧
    (let w : QWait := ⟨7, 0, 5⟩; 0 ≤ ((z.time.advance 5).dt - w.deadline).toInt) ∧ z.accHeld = [] ∧
    (z.hp.reading = false ∧ z.mpWait = none ∧ z.jtag.reading = false ∧ ({ z.hp with reading := true } : HpSt).reading = true ∧
      ({ z.jtag with reading := true } : JtagSt).reading = true ∧ ({ z with mpWait := some 2 } : State).mpWait = some 2) ∧
    (∀ s ∈ [z, { z with queues := z.queues.set 63 { on with packets := [⟨0, 2⟩], r := 2 } }, { z with queues := z.queues.set 63 on }],
      Unhindered 0 7 s) ∧
    z.hk.corePower = true ∧ (∀ i < 32, (z.dma.look i).state ≠ 2 ∧ (z.dma.look i).state ≠ 3) := by
  unfold Unhindered; decide +kernel

theorem witness_DmaRingsPostAndWriteBack :
    let d : DmaRing := { (default : DmaRing) with state := 2, base := dramBase, finish := some 0, desc := List.replicate 64 0 }
    let s : State := { z with dma := z.dma.set 0 d }.put (F.DM_WR0 0) 1
    (∀ j ∈ [2 * 11, 2 * 11 + 1], (z.dma.look j).state = 0) ∧
    ((s.dma.look 0).state = 2 ∧ (s.dma.look 1).state = 0 ∧ inDram (dramBase + 48) = true ∧ inMemory (dramBase + 48) = true ∧
      (dramBase + 48) % 16 = 0 ∧ descField d 24 8 = 0 ∧ descFlag d 1 = false ∧ descFlag d 3 = false ∧
      dmaWr s 0 = (d.rd + 1) % 2 ^ 32 ∧ s.enabled pEH = false ∧ s.hk.corePower = true ∧ QuadQuiet s ∧ d.paid.look 3 ≠ 1 ∧
      (creditTake (arrive 0 (s.cxPut 5 F.CX_QUOTA_QUOTA 4)) 5).isSome = true ∧
      (((s.put (F.DM_CFG_CONTEXT 0) 5).cxPut 5 F.CX_QUOTA_QUOTA 4).g (F.DM_CFG_CONTEXT 0)) = 5) ∧
    d.turn = 0 ∧ Unhindered 0 7 z ∧ Unhindered 0 5 z := by
  unfold QuadQuiet Unhindered; decide +kernel

/-- Ring 0 of engine 11 is `d`, whose context has credits, and the action of `kind` on it is checked; its WR is `wr`. -/
def ringed (kind : ActKind) (wr : Nat) (d : DmaRing) : State :=
  let s := (((checking pDMA ⟨kind, pDMA, 11, 0, 7, none, 0⟩).cxPut 5 F.CX_QUOTA_QUOTA 4).put (F.DM_CFG_CONTEXT 11) 5)
  let s := ((onPage pDMA s).put (F.DM_CFG_SIZE_LOG2_0 11) 4).put (F.DM_WR0 11) wr
  { s.setReg (F.DM_BASE0 11).adr dramBase with dma := s.dma.set 22 d }

theorem witness_RingCommandsTakeEffect :
    let act (k : ActKind) : Action := ⟨k, pDMA, 11, 0, 7, none, 0⟩
    let d (st : Nat) : DmaRing := { (default : DmaRing) with state := st, base := dramBase, sizeLog2 := 4 }
    let passes (k : ActKind) (wr : Nat) (r : DmaRing) : Bool := let s := ringed k wr r
      s.hk.corePower && (s.dma.look 22).turn = 0 && [0, 1, 4, 5].contains (s.dma.look 23).state && !(s.dma.look 23).waiting &&
      s.checks.look pDMA = ⟨some (act k), []⟩ && actionCheck (arrive 0 s) (act k) 0 = 0 && !s.enabled pEH &&
      (creditTake (arrive 0 s) (s.g (F.DM_CFG_CONTEXT 11))).isSome && dmaWr s 22 = wr
    let owed (a : Nat) : Bool := inDram a && inMemory a && a % 16 = 0
    let cpl : DmaRing := { d 4 with
      fetched := true, finish := some dmaCpl
      desc := (List.range 64).map (fun k => if 24 ≤ k && k < 32 then dramBase / 256 ^ (k - 24) % 256 else 0) }
    let far : DmaRing := { d 4 with base := 2 ^ 47 }
    (passes .dmaEnable 0 (d 0) = true ∧ (d 0).rd % 2 ^ 32 = 0) ∧ passes .dmaContinue 0 (d 5) = true ∧
    (passes .dmaDisable 0 (d 1) = true ∧ (d 1).state ≠ 4) ∧
    (passes .dmaDisable 0 (d 4) = true ∧ owed (dramBase + 48) = true ∧ (d 4).paid.look 3 ≠ 1 ∧ descFlag (d 4) 1 = false) ∧
    (passes .dmaAbort 1 (d 4) = true ∧ ((d 4).rd + 1) % 2 ^ 32 = 1) ∧
    (passes .dmaResume 1 cpl = true ∧ owed (descField cpl 24 8) = true ∧ cpl.paid.look 4 ≠ 1 ∧ descFlag cpl 3 = false ∧
      cpl.waiting = false ∧ (cpl.rd + 1) % 2 ^ 32 = 1) ∧
    (passes .dmaResume 1 far = true ∧ far.fetched = false ∧
      (match xlate (arrive 0 (ringed .dmaResume 1 far)) (2 ^ 47) with | .fault .. => true | _ => false) = true) := by
  decide +kernel

/-! #### The ways in, events and time -/

theorem witness_AWriteReachesMemoryOrRegister :
    (inMemory dramBase = true ∧ inDram dramBase = true ∧ z.poisoned dramBase = false ∧ 8 + dramBase % 8 ≤ 8) ∧
    (z.standby = false ∧ Settled z) ∧ (onPage pSG z).enabled pSG = true ∧ z.hk.corePower = true ∧ QuadQuiet z ∧ Unhindered 0 7 z ∧
    Unhindered 0 7 (onPage pSG z) := by
  unfold Settled QuadQuiet Unhindered; decide +kernel

theorem witness_ADeviceWriteIsMadeOnAnEmptyQueue :
    let s : State := { z with devQ := [⟨0x2C, F.SG_CFG.adr, 5⟩] }
    (s.pending = [] ∧ s.devQ = [⟨0x2C, F.SG_CFG.adr, 5⟩] ∧ s.hk.corePower = true ∧ s.enabled pSG = false ∧ s.cyc.ask = []) ∧
    NothingHeldUp s := by
  refine ⟨by decide +kernel, rfl, fun _ => rfl⟩

/-- Master `m` waits for a read of queue 63; the cycle's next T0 comes at DT 0x7A120000 (31.25 µs); the host's link is up. -/
def waits (m : Nat) : State := { cyc 6 with
  queues := z.queues.set 63 { (default : QueueSt) with on := true, waits := [⟨m, 0, 5⟩] }, hp := { z.hp with link := true } }

theorem witness_AnAccessHeldUpWaitsInOrder :
    let behind : State := { waits 9 with accHeld := [.mpRead 0, .pop 7 3, .host 0 0 8 none, .jtag 0 0 none] }
    (∀ m ∈ [0, 3, 4, 7], masterWaits (waits m) m = true) ∧ QuadQuiet (waits 0) ∧ QuadQuiet behind ∧
    (∀ m ∈ [0, 3, 4, 7], behind.accHeld.any (fun h => h.master = m) = true) ∧
    (atBoundary (arrive 0x7A120000 (waits 9)) = true ∧ (HeldAccess.mpWrite 0 1).writes = true ∧
      (HeldAccess.bus 7 dramBase 8 5).writes = true ∧ (HeldAccess.reg 7 0 5).writes = true ∧
      (HeldAccess.host 2 0 8 (some (5, false))).writes = true ∧ (HeldAccess.jtag 2 0 (some 5)).writes = true) ∧
    (0 < spaceSize 2 ∧ (waits 0).hp.link = true ∧ (waits 0).hp.d3hot = false ∧ behind.hp.link = true) := by
  unfold QuadQuiet; decide +kernel

theorem witness_EveryWayInReachesMemory :
    let s : State := { z with hp := { z.hp with link := true } }
    z.poisoned (dramBase + 0x3FFFFFFF8) = false ∧ z.fb.qe = [] ∧ (s.hp.link = true ∧ s.hp.d3hot = false) ∧ z.hp.link = false ∧
    z.hk.corePower = true ∧ dark.hk.corePower = false ∧ z.mpStatus = 0 ∧ ({ z with mpStatus := 3 } : State).mpStatus ≠ 0 ∧
    (∀ m ∈ [0, 3, 4], Unhindered 0 m s ∧ Unhindered 0 m z ∧ Unhindered 0 m dark) ∧
    (let a : Word := BitVec.ofNat 64 (2 * 2 ^ 62)
     mpTaken z 1 [a, 5] none = true ∧ mpTaken z 2 [a] none = true ∧
     mpTaken z 1 [a, 5] (some 161) = true ∧ mpTaken z 1 [a, 5] (some 160) = false ∧ mpTaken z 2 [a] (some 152) = true ∧
     mpTaken z 2 [a] (some 153) = false) := by
  unfold Unhindered; decide +kernel

theorem witness_ARegisterAccessDatagramIsAnswered :
    let h : State := { (onPage (pHE 1) z).put (F.HE_RACFG_EN 1) 1 with he := z.he.set 1 { (default : HeSt) with link := true } }
    h.poisoned (dramBase + 0x3FFFFFFF8) = false ∧ QuadQuiet h ∧ h.enabled (pHE 1) = true ∧ (h.he.look 1).link = true ∧
    h.gb (F.HE_RACFG_EN 1) = true ∧ (h.he.look 1).replies = [] ∧ (h.he.look 1).reqs = [] ∧ atBoundary (arrive 0 h) = false ∧
    h.hk.corePower = true ∧ 0xEC50 ≠ 0xEC51 ∧ 1 ≠ h.g (F.HE_IP_IP 1) := by
  unfold QuadQuiet; decide +kernel

theorem witness_HostLinksComeAndGo :
    let s : State := { z with hp := { z.hp with link := true } }
    let h : State := { onPage (pHE 1) z with he := z.he.set 1 { (default : HeSt) with link := true } }
    (s.hp.link = true ∧ s.hp.msixPending = []) ∧ (z.hp.link = false ∧ z.enabled pEH = false ∧ z.hp.msixPending = []) ∧
    ((onPage (pHE 1) z).enabled (pHE 1) = true ∧ (z.he.look 1).link = false ∧ (z.he.look 1).noClock = false) ∧
    z.enabled (pHE 1) = false ∧ (h.enabled (pHE 1) = true ∧ (h.he.look 1).link = true) ∧ 1 ≠ h.g (F.HE_IP_IP 1) := by decide +kernel

theorem witness_JtagAnswersAndDrives :
    (z.time.running = false ∧ z.tw.role = 0 ∧ z.hk.minimal = false) ∧ (cyc 3).time.running = true ∧ (role 2).tw.role ≠ 0 := by
  decide +kernel

theorem witness_ARecordIsWrittenOrCounted :
    let s := (((onPage pEH z).put (F.EH_QCFG_EN 15) 1).put (F.EH_QCFG_SIZE_LOG2 15) 8).put (F.EH_QSTATE_ARMED 15) 0
    let full := s.put (F.EH_QWR_COUNT 15) 0x100
    z.enabled pEH = false ∧
    (s.enabled pEH = true ∧ s.gb (F.EH_QCFG_EN 15) = true ∧ (s.eh.look 15).lostCount = 0 ∧ ringFault s 15 2 = none ∧
      s.gb (F.EH_QSTATE_ARMED 15) = false ∧ 2 + 1 ≤ ringSlots s 15) ∧
    (full.gb (F.EH_QCFG_EN 15) = true ∧ ringFault full 15 2 = none ∧
      ringSlots full 15 < (full.g (F.EH_QWR_COUNT 15) + 2 ^ 32 - full.g (F.EH_QRD_COUNT 15)) % 2 ^ 32 + 2 + 1) := by decide +kernel

theorem witness_QueuesAreArmedAndFire :
    let on := (onPage pEH z).put (F.EH_QCFG_EN 15) 1
    (z.hk.corePower = true ∧ z.gb (F.EH_QCFG_EN 15) = false ∧ (z.checks.look pEH).running = none ∧ standbyRefuses z 0 (F.EH_QCFG_EN 15).adr = false) ∧
    (on.gb (F.EH_QCFG_EN 15) = true ∧ (on.checks.look pEH).running = none ∧ (on.eh.look 15).groups = []) ∧ z.g (F.EH_QWR_COUNT 15) = (0 : Word).toNat % 2 ^ 32 ∧
    (let s : State := { on.setReg (pHP + 0x808) 0 with hp := { z.hp with link := true, busMaster := true, msixOn := true } }
     s.g (F.EH_QWR_COUNT 15) ≠ (1 : Word).toNat % 2 ^ 32 ∧ s.gb (F.EH_QCFG_CTX_EN 15) = false ∧
     msixMasked s (s.g (F.EH_QCFG_VECTOR 15)) = false ∧ s.hpReach = true ∧ s.enabled pEH = true) ∧
    nsHas z.hp.msixPending 63 = false ∧
    (let s : State := { z with hp := { z.hp with link := true, busMaster := true, msixPending := [63], msixOn := true } }
     nsHas s.hp.msixPending 63 = true ∧ s.hpReach = true ∧ s.hp.msixOn = true ∧ s.hp.msixMask = false ∧ Unhindered 0 0 s) ∧
    (let g : EhGroup := ⟨1, 0, 0, 0, 0, 1, 1⟩
     let s : State := { on.put (F.EH_QCFG_WINDOW 15) 1 with eh := z.eh.set 15 ⟨[g], 0, 0⟩ }
     (s.eh.look 15).groups = [g] ∧ s.enabled pEH = true ∧ s.gb (F.EH_QCFG_EN 15) = true ∧
     ((s.time.advance 65535999).dt - (g.first + BitVec.ofNat 64 (s.g (F.EH_QCFG_WINDOW 15) * 1000 * 65536))).toInt < 0 ∧
     0 ≤ ((s.time.advance 65536000).dt - (g.first + BitVec.ofNat 64 (s.g (F.EH_QCFG_WINDOW 15) * 1000 * 65536))).toInt) ∧
    (Unhindered 0 0 z ∧ Unhindered 0 0 on ∧ dark.hk.corePower = false) := by
  unfold Unhindered; decide +kernel

theorem witness_ReferenceAndCorrectionsAreKept :
    z.tu.refLost = false ∧ ({ z with tu := { z.tu with refLost := true } } : State).tu.refLost = true ∧ 9 < 10 ∧
    z.hk.corePower = true ∧ dark.hk.corePower = false := by decide +kernel

theorem witness_PpsAndRef10AreMeasured :
    let s := (((onPage pTU z).put F.TU_REF_CFG_PPS_IN_EN 1).put F.TU_REF_CFG_REF10_IN_EN 1)
    let o := (((onPage pTU z).put F.TU_REF_CFG_PPS_OUT_EN 1).put F.TU_REF_CFG_PPS_OUT_SRC 1)
    z.enabled pTU = false ∧
    (s.enabled pTU = true ∧ s.gb F.TU_REF_CFG_PPS_IN_EN = true ∧ s.gb F.TU_REF_CFG_REF10_IN_EN = true ∧ (arrive 1000 s).tu.tstate = 0) ∧
    (65601536000000 < ((z.time.advance 65601536000001).dt - BitVec.ofNat 64 (z.reg F.TU_PPS_IN_DT.adr)).toInt ∧
      ((z.time.advance 65601536000000).dt - BitVec.ofNat 64 (z.reg F.TU_PPS_IN_DT.adr)).toInt ≤ 65601536000000) ∧
    ({ z with tu := { z.tu with ppsInSeen := true } } : State).tu.ppsInSeen = true ∧
    (o.gb F.TU_REF_CFG_PPS_OUT_EN = true ∧ o.gb F.TU_REF_CFG_PPS_OUT_SRC = true ∧ o.tu.ppsLast = none ∧
      0 ≤ ((0 : DT) - (arrive 0 o).tu.onAt).toInt ∧ s.gb F.PTP_SEL_HOLD_REF = false) := by decide +kernel

theorem witness_PtpMessagesReachTheirSlot :
    let d : PtpDom := { (default : PtpDom) with state := 2, src := 9 }
    let s := (ptp d).put (F.PTP_DOM_CFG_EN 0) 1
    let open_ (s : State) (p : Nat) : Prop := s.enabled (pHE p) = true ∧ (s.he.look p).link = true ∧ 64 ≤ 1536 ∧ 1536 ≤ 1536
    open_ s 0 ∧ ¬ open_ z 0 ∧
    Takes s 0 (s.g (F.PTP_DOM_CFG_PORT 0)) (s.g (F.PTP_DOM_CFG_DOMAIN 0)) (s.g (F.PTP_DOM_CFG_PROFILE 0))
      (s.g (F.PTP_DOM_CFG_TRANSPORT 0)) ∧
    (arrive 0 s).ae.told = ((arrive 0 s).tu.tstate, (arrive 0 s).tu.selected) ∧
    (arrive 0 s).dom 0 = d ∧ d.delayOk = false ∧ d.syncSeen = false ∧ s.gb (F.PTP_DOM_CFG_PROFILE 0) = false ∧
    (let q := (ptp { d with delayOk := true, reqOut := some 5 }).put (F.PTP_DOM_CFG_QUAL 0) 2
     ((arrive 0 q).dom 0).valid + 1 < q.g (F.PTP_DOM_CFG_QUAL 0) ∧ (arrive 0 q).tu.tstate = 0 ∧ (arrive 0 q).tu.selected = none ∧
     ((arrive 0 q).dom 1).state ≠ 3 ∧ ((arrive 0 q).dom 0).reqOut = some 5) ∧
    (let p := s.put (F.PTP_DOM_CFG_PROFILE 0) 1
     p.gb (F.PTP_DOM_CFG_PROFILE 0) = true ∧ ((arrive 0 p).dom 1).state = 0 ∧ p.enabled pPTP = true) ∧ z.enabled pPTP = false ∧
    (let q := ptp { d with reqOut := some 5, syncSeen := true }
     ((arrive 0 q).dom 0).reqOut = some 5 ∧ ((arrive 0 q).dom 0).syncSeen = true ∧ q.gb (F.PTP_DOM_CFG_PROFILE 0) = false) ∧
    (let h : State := { onPage (pHE 1) z with he := z.he.set 1 { (default : HeSt) with link := true } }
     h.enabled (pHE 1) = true ∧ (h.he.look 1).link = true ∧ (arrive 0 h).ae.told = ((arrive 0 h).tu.tstate, (arrive 0 h).tu.selected)) := by
  unfold Takes; decide +kernel

theorem witness_SlotsListenCalibrateAndFallBack :
    let m : ForeignMaster := ⟨9, [], 0, 0, 0, 1, 0⟩
    let d : PtpDom := { (default : PtpDom) with state := 1, masters := [m], src := 9 }
    let s := (ptp d).put (F.PTP_DOM_CFG_EN 0) 1
    (Takes s 0 (s.g (F.PTP_DOM_CFG_PORT 0)) (s.g (F.PTP_DOM_CFG_DOMAIN 0)) (s.g (F.PTP_DOM_CFG_PROFILE 0))
        (s.g (F.PTP_DOM_CFG_TRANSPORT 0)) ∧ ((arrive 0 s).dom 0).masters = [m] ∧ 1 ≤ m.seen ∧
      ((s.time.advance 0).dt - m.last).toInt ≤ 4 * logSpan 0 ∧ ((arrive 0 (ptp default)).dom 0).masters = []) ∧
    (let q : State := { ptp { d with state := 3 } with tu := { (ptp { d with state := 3 }).tu with
        selected := some 1, dom1 := { (default : PtpDom) with state := 3 } } }
     let t : DT := BitVec.ofNat 64 (4 * 65536000000000)
     (arrive t q).tu.selected = some (1 - 0) ∧ ((arrive t q).dom 1).state = 3 ∧ ((arrive t q).dom 0).state = 3 ∧
     4 * logSpan 0 ≤ ((q.time.advance t).dt - ((arrive t q).dom 0).syncAt).toInt ∧
     ((q.time.advance (t - 1)).dt - ((arrive t q).dom 0).syncAt).toInt < 4 * logSpan 0 ∧
     3 * logSpan 0 ≤ ((q.time.advance t).dt - m.last).toInt) ∧
    ((arrive 0 (ptp { d with state := 4 })).dom 0).state = 4 ∧ z.hk.corePower = true ∧ dark.hk.corePower = false ∧
    (s.enabled (pHE 0) = true ∧ (s.he.look 0).link = true) ∧ (arrive 0 z).tu.tstate = 0 ∧ z.enabled pPTP = false ∧
    ((arrive 0 (ptp { d with secCount := 1 })).dom 0).secCount = 1 ∧ (arrive 0 s).ae.told = (0, none) ∧
    (arrive 0 s).tu.tstate = 0 ∧ (arrive 0 s).tu.selected = none ∧ s.enabled pPTP = true ∧
    65536000000000 ≤ ((s.time.advance 65536000000000).dt - (arrive 65536000000000 s).tu.evalAt).toInt ∧
    ((s.time.advance 65535999999999).dt - (arrive 65535999999999 s).tu.evalAt).toInt < 65536000000000 := by
  unfold Takes; decide +kernel

/-! #### Feedback, loop engines, profiles -/

theorem witness_FeedbackIsLostSettledAndStopped :
    let f (x : FbAx) : State := { z with fb := { z.fb with ax := z.fb.ax.set 511 x } }
    let on : FbAx := { (default : FbAx) with active := true, lossDue := true }
    let e := (f on).setReg (F.LE_AXMAP 7).adr (2 ^ 63)
    (z.fbAx 511).active = false ∧ (((f on).fbAx 511).lossDue = true ∧ axisEnabled (f on) 511 = false) ∧
    (axisEnabled e 511 = true ∧ axisFaulted e 511 = false ∧ e.enabled pEH = false) ∧
    (let x : FbAx := { on with settleAt := 4, nmeas := 4 }
     (f x).axb 511 F.FB_STATUS_SETTLED = false ∧ x.restart = false ∧ x.settleAt ≠ 0 ∧ x.settleAt ≤ x.nmeas ∧ QuadQuiet (f x)) ∧
    (QuadQuiet z ∧ QuadQuiet (f on) ∧ QuadQuiet e) ∧
    ((z.checks.look pFBE).running = none ∧ z.standby = false ∧ z.hk.corePower = true ∧ Unhindered 0 7 z) := by
  unfold QuadQuiet Unhindered; decide +kernel

theorem witness_QuadratureChannelsCountGuardAndTrip :
    let s := z.put (F.QE_CFG_EN 31) 1
    QuadQuiet z ∧ QuadQuiet s ∧ (7 % 8 = 7 ∧ 8 % 8 = 0 ∧ 5 % 8 ≠ 7 ∧ 5 % 8 ≠ 0) ∧
    ((z.checks.look pQE).running = none ∧ z.standby = false ∧ z.hk.corePower = true ∧ qeOn z 31 = false) ∧
    (qeOn s 31 = true ∧ qeGuarded s 31 = false ∧ (s.qe 31).was = none ∧ s.g (F.QE_CFG_MODE 31) = 0 ∧ (s.qe 31).pend = [] ∧ (s.qe 31).a = (s.qe 31).ra ∧
      (s.qe 31).b = (s.qe 31).rb) ∧
    (quadPlace true true + 4 - quadPlace (s.qe 31).ra (s.qe 31).rb) % 4 = 2 ∧
    (quadPlace true false + 4 - quadPlace (s.qe 31).ra (s.qe 31).rb) % 4 = 1 ∧ Unhindered 0 7 z ∧ Unhindered 0 7 s := by
  unfold QuadQuiet Unhindered; decide +kernel

theorem witness_LoopEnginesCompleteAndAxesAreHeld :
    let on := z.setReg (F.LE_AXMAP 7).adr (2 ^ 63)
    let h := on.setWord (axisBase 511 + F.AX_STATUS_HOLD_RUN.adr) (2 ^ 64 - 1)
    let r : LeRes := { (default : LeRes) with axis := 511 }
    let e (b : Bool) (w : List WinEntry) : State := { z with le := { z.le with
      eng := z.le.eng.set 15 { (default : LeEng) with exe := some r }, windowOpen := b, win := w } }
    axisEnabled z 511 = false ∧
    (axisEnabled h 511 = true ∧ h.ax 511 F.AX_STATUS_HOLD_RUN = 3 ∧ (h.leAx 511).lateTold = false ∧ axisFaulted h 511 = false ∧
      h.enabled pEH = false) ∧ axisFaulted (h.setReg (F.LE_FAULTMAP 7).adr (2 ^ 63)) 511 = true ∧ (z.eng 15).exe = none ∧
    (((e false []).eng 15).exe = some r ∧ r.ecc = none ∧ (e false []).le.windowOpen = false) ∧
    ((e true [⟨511, none⟩]).le.win = [⟨r.axis, none⟩] ∧ (e true [⟨511, none⟩]).le.order = [] ∧ r.cycle = z.time.cycle ∧
      axisWrongEpoch (e true [⟨511, none⟩]) r.axis = false ∧ r.table = []) ∧
    ((z.checks.look pLE).running = none ∧ z.hk.corePower = true ∧ (z.eng 15).inService = false ∧ Unhindered 0 7 z) := by
  unfold Unhindered; decide +kernel

theorem witness_TableCopiesAreServedInOrder :
    (z.hk.corePower = true ∧ z.standby = false ∧ (role 3).standby = true ∧ Unhindered 0 7 z ∧ Unhindered 0 7 (role 3)) ∧
    ((¬ ∃ k, (511, k) ∈ z.le.syncs.take 8 ∧ (k = 0 ∨ z.standby = true)) ∧ ¬ (z.standby = true ∧ true = true ∧ z.tw.link = true)) ∧
    (let l : State := { role 3 with tw := { (role 3).tw with link := true } }; l.standby = true ∧ l.tw.link = true) ∧
    (let s : State := { z with le := { z.le with syncs := [(511, 0)] } }; (511, 0) ∈ s.le.syncs.take 8) ∧
    (let s : State := { role 3 with le := { z.le with syncs := [(511, 0)] } }
     (511, 0) ∈ s.le.syncs.take 8 ∧ s.standby = true ∧ s.enabled pEH = false ∧ ([7] : List Nat)[0]? = some 7 ∧
     0 < repN (s.word (axisBase 511 + 0x200)) ∧
     ∀ i < repN (s.word (axisBase 511 + 0x200)), s.poisoned (repEntryAddr (getBits (s.word (axisBase 511 + 0x200)) 0 20) i) = false) := by
  refine ⟨?_, ⟨?_, ?_⟩, ?_, ?_, ?_⟩
  · unfold Unhindered; decide +kernel
  · rintro ⟨k, h, -⟩; simp [show z.le.syncs = [] from rfl] at h
  all_goals decide +kernel

theorem witness_GearGroupsStopAndAxesAreFollowed :
    let on := (onPage pPG (cyc 4)).setReg (F.LE_AXMAP 7).adr (2 ^ 63)
    let s := (((on.setWord (axisBase 511 + 0x60) (2 ^ 40)).setWord (axisBase 511 + F.PG_FOLLOW_FE_LIMIT.adr)
      (1 <<< F.PG_FOLLOW_FE_LIMIT.lo)))
    (z.standby = false ∧ z.hk.corePower = true ∧ (z.checks.look pPG).running = none ∧ z.gb (F.PG_GRP_CFG_EN 31) = false ∧
      (z.put (F.PG_GRP_CFG_EN 31) 1).gb (F.PG_GRP_CFG_EN 31) = true) ∧
    (let q : State := (z.put (F.PG_GRP_CFG_EN 31) 1).onGrp 31 (fun g => { g with state := 3 })
     q.gb (F.PG_GRP_CFG_EN 31) = true ∧ (q.grp 31).state = 3 ∧ (q.grp 31).restart = false ∧ (z.grp 31).state ≠ 3) ∧ z.time.running = false ∧
    (s.time.running = true ∧ s.cyc.phase = 4 ∧ s.enabled pPG = true ∧ s.pg.starting = false ∧ axisEnabled s 511 = true ∧
      axisFaulted s 511 = false ∧ s.ax 511 F.AX_STATUS_CYCLE = s.cycN ∧ (s.pgAx 511).feSeen ≠ some s.cycN ∧
      s.ax 511 F.PG_FOLLOW_FE_LIMIT ≠ 0 ∧ s.ax 511 F.PG_FOLLOW_FE_LIMIT ≤ errCounts s 511 ∧
      max 1 (s.ax 511 F.PG_FOLLOW_FE_CYCLES) ≤ min 255 (s.ax 511 F.PG_STATUS_FE_RUN + 1) ∧ s.ax 511 F.PG_FOLLOW_FE_WARN = 0 ∧
      s.enabled pEH = false) ∧ Unhindered 0 7 z ∧ Unhindered 0 7 (z.put (F.PG_GRP_CFG_EN 31) 1) := by
  unfold Unhindered; decide +kernel

/-! #### Field ports -/

theorem witness_TheReceiveTestsAndTheGuardianCount :
    let s := onPage (pFP 7) z
    let h := frame 2 31
    z.fb.qe = [] ∧ fromFarHead s 7 (frame 2 0xFF) = false ∧ FrameArrives 0 7 h (.uplinkReceived 0 7 h default) ∧ z.enabled (pFP 7) = false ∧ s.enabled (pFP 7) = true ∧
    (h.fcsOk = true ∧ 64 ≤ h.size ∧ h.size ≤ 4096 ∧ h.etherType = s.g (F.FP_LINKCFG_ETHERTYPE 7) ∧ h.tagged = false ∧ h.version = 1 ∧
      h.seg = 7 ∧ 1 ≤ h.type ∧ h.type ≤ 6 ∧ h.size = max 64 (34 + h.length) ∧ h.full = false) ∧
    ¬ ({ h with version := 2 } : FrameHdr).version = 1 ∧ ¬ ({ h with etherType := 0 } : FrameHdr).etherType = s.g (F.FP_LINKCFG_ETHERTYPE 7) ∧
    ¬ (64 ≤ ({ h with size := 63 } : FrameHdr).size) ∧ ({ h with full := true } : FrameHdr).full = true ∧
    (s.gb (F.FP_GNODE_STATE_BOUND 7 31) = false ∧ (s.port 7).grants = []) ∧
    (let b := s.put (F.FP_GNODE_STATE_BOUND 7 31) 1
     b.gb (F.FP_GNODE_STATE_BOUND 7 31) = true ∧ b.gb (F.FP_GNODE_STATE_MUTED 7 31) = false ∧
     (b.put (F.FP_GNODE_STATE_MUTED 7 31) 1).gb (F.FP_GNODE_STATE_MUTED 7 31) = true ∧
     ({ h with epoch := 1 } : FrameHdr).epoch ≠ b.g F.FP_EPOCH_STATE_CURRENT % 256) := by
  refine ⟨?_, ?_, Or.inr (Or.inr (Or.inl ⟨_, rfl⟩)), ?_⟩ <;> decide +kernel

theorem witness_FramesOfDiscoveryAndTheFarHeadAreTaken :
    let s := onPage (pFP 7) z
    let b : State := { s.put (F.FP_STATE_LINK_UP 7) 1 with tw := { z.tw with role := 4 } }
    let h := frame 4 0xFF
    (7 < 8 ∧ s.enabled (pFP 7) = true ∧ h.full = false ∧ h.fcsOk = true ∧ 64 ≤ h.size ∧ h.size ≤ 4096 ∧
      h.etherType = s.g (F.FP_LINKCFG_ETHERTYPE 7) ∧ h.tagged = false ∧ h.version = 1 ∧ h.seg = 7 ∧ h.size = max 64 (34 + h.length)) ∧
    (h.src = 0xFF ∧ fromFarHead s 7 h = false) ∧ s.standby = false ∧ fromFarHead s 7 { h with headEnd := true } = true ∧
    (fromFarHead b 7 h = true ∧ b.standby = true ∧ b.gb (F.FP_STATE_LINK_UP 7) = true ∧ scheduled b 7 = false ∧
      b.tw.refused = false ∧ b.enabled (pFP 7) = true) ∧
    (let x : FpDisc := { (default : FpDisc) with k := 31 }
     let d := (s.put (F.FP_STATE_SEG_STATE 7) 1).onPort 7 (fun q => { q with disc := some x })
     (frame 5 0).src ≠ 0xFF ∧ d.active = true ∧ segState d 7 = 1 ∧ (d.port 7).disc = some x ∧ x.phase = 0 ∧ x.k < 32 ∧
     (default : AnnounceBody).head = false ∧ ({ (default : AnnounceBody) with number := 31 } : AnnounceBody).number = x.k ∧
     d.tw.refused = false) ∧
    ((frame 5 31).src < 32 ∧ ((0 : Int) :: (b.node 7 31).anns).length < 16 ∧
      ((0 : Int) :: ((b.onNode 7 31 (fun n => { n with anns := [1, 2, 3, 4, 5, 6, 7, 8, 9, 10, 11, 12, 13, 14, 15] })).node 7 31).anns).length = 16) ∧
    (let e := b.put (F.FP_STATE_END 7) 1
     e.standby = true ∧ (frame 1 0xFF).src = 0xFF ∧ fromFarHead e 7 (frame 1 0xFF) = true ∧ 32 ≤ (frame 1 32).src ∧
     (frame 1 32).src ≠ 0xFF) ∧
    (s.standby = false ∧ fromFarHead s 7 { frame 1 0xFF with headEnd := true } = true) := by decide +kernel

theorem witness_UplinksAndClaimsAreAccepted :
    let b := (onPage (pFP 7) z).put (F.FP_GNODE_STATE_BOUND 7 31) 1
    let slot (kind : Nat) : State := ((b.put (F.FP_SLOT_KIND 7 0 63) kind).put (F.FP_SLOT_NODE 7 0 63) 31).put (F.FP_SLOT_LENGTH 7 0 63) 64
    let h := frame 2 31
    let s := slot 1
    let p := (slot 3).put (F.FP_STATE_SEG_STATE 7) 4
    (s.gb (F.FP_GNODE_STATE_BOUND 7 31) = true ∧ s.gb (F.FP_GNODE_STATE_MUTED 7 31) = false ∧
      h.epoch = s.g F.FP_EPOCH_STATE_CURRENT % 256 ∧ h.cycle = s.cycN ∧ liveBank s 7 = 0 ∧
      (slotsOf s 7 (liveBank s 7)).filter (fun x => x.kind = 1 && x.node = h.src) = [⟨63, 1, 31, 64, 0⟩] ∧
      fitsSlot (arrive 0 s) 7 ⟨63, 1, 31, 64, 0⟩ h (ingressStamp (arrive 0 s) 7 h.capture) = true ∧ h.size ≤ 64 ∧
      (s.port 7).accepted = []) ∧
    (p.active = true ∧ (p.port 7).grants = [] ∧ (poolSlots p 7).any (fun e => e.k = 63) = true ∧
      inSpareWindow (arrive 0 p) 7 (slotOf p 7 (liveBank p 7) 63) (ingressStamp (arrive 0 p) 7 (frame 6 31).capture) = true ∧
      (frame 6 31).size ≤ (slotOf p 7 (liveBank p 7) 63).len ∧ (frame 6 31).src ≠ 0xFF) ∧ s.fb.qe = [] ∧
    (let n := slot 2
     let f := frame 3 31
     n.gb (F.FP_GNODE_STATE_BOUND 7 31) = true ∧ n.gb (F.FP_GNODE_STATE_MUTED 7 31) = false ∧ f.cycle = n.cycN ∧
     ((slotsOf n 7 (liveBank n 7)).filter (fun x => x.kind = 2 && x.node = f.src)).find?
       (fun x => fitsSlot (arrive 0 n) 7 x f (ingressStamp (arrive 0 n) 7 f.capture)) = some ⟨63, 2, 31, 64, 0⟩ ∧
     (n.port 7).accepted = [] ∧ relayOn n 7 = false ∧ (aeSensor (arrive 0 n) 7 31 (default : SensorBody)).devNow = n.devNow) := by
  decide +kernel

theorem witness_LinksComeUpAndSearchesEnd :
    let s := (onPage (pFP 7) z).put (F.FP_DISC_AUTO 7) 1
    let up := s.put (F.FP_STATE_LINK_UP 7) 1
    let d (x : FpDisc) : State := { z with fp := z.fp.set 7 { (default : FpSt) with disc := some x } }
    (up.gb (F.FP_STATE_LINK_UP 7) = true ∧ z.gb (F.FP_STATE_LINK_UP 7) = false) ∧ (z.put (F.FP_DISC_AUTO 7) 0).gb (F.FP_DISC_AUTO 7) = false ∧ (z.port 7).discAtUp = false ∧
    (scheduled s 7 = false ∧ (s.onPort 7 (fun q => { q with discAtUp := true }) |>.port 7).discAtUp = true ∧ s.tw.refused = false) ∧
    (z.active = true ∧ (role 4).active = false ∧ (default : FpDisc).phase = 0) ∧
    (segState s 7 = 0 ∧ s.gb (F.FP_DISC_AUTO 7) = true ∧ s.enabled (pFP 7) = true ∧ s.active = true) ∧
    segState (up.put (F.FP_STATE_SEG_STATE 7) 1) 7 = 1 ∧ (z.port 7).disc = none ∧
    ((d { (default : FpDisc) with tries := 2 }).port 7).disc = some { (default : FpDisc) with tries := 2 } ∧
    100000 * 65536 ≤ ((z.time.advance 6553600000).dt - 0).toInt ∧ ((z.time.advance 6553599999).dt - 0).toInt < 100000 * 65536 ∧
    (let b := up.put (F.FP_STATE_SEG_STATE 7) 2
     segState b 7 = 2 ∧ b.gb (F.FP_STATE_LINK_UP 7) = true ∧ b.enabled (pFP 7) = true ∧ (b.port 7).beacon = none) := by
  decide +kernel

theorem witness_NodesAreMutedHealedStoppedAndRelayed :
    let h := { z.put (F.FP_STATE_TOPO 7) 3 with fp := z.fp.set 7 { (default : FpSt) with healCycle := some 5 } }
    (z.standby = false ∧ z.hk.corePower = true ∧ muteDue z 7 31 = false) ∧
    (let m := ((z.put (F.FP_GNODE_STATE_BOUND 7 31) 1).onPort 7 (fun q => { q with muteLimit := 1, muteWindow := 8 })).onNode 7 31
       (fun n => { n with hist := [(0, 3)] })
     muteDue m 7 31 = true ∧ m.tw.recovering = false ∧
     muteDue { m with tw := { m.tw with recovering := true } } 7 31 = true) ∧
    ((h.port 7).healCycle = some 5 ∧ (5 : BitVec 32) ≠ h.time.cycle ∧ h.g (F.FP_STATE_TOPO 7) = 3) ∧ (z.port 7).healCycle = none ∧
    (z.active = true ∧ 16 ≤ (z.put (F.FP_GNODE_STATE_WE_RUN 7 31) 16).g (F.FP_GNODE_STATE_WE_RUN 7 31) ∧
      (z.node 7 31).stopTold = false) ∧ z.g (F.FP_GNODE_STATE_WE_RUN 7 31) < 16 ∧ z.tw.link = false ∧
    (let l : State := { onPage (pFP 7) z with tw := { z.tw with link := true } }
     l.tw.link = true ∧ l.enabled (pFP 7) = true ∧ (frame 2 31).full = false ∧ (frame 2 31).cycle = l.cycN ∧
     (l.port 7).accepted = [] ∧ relayOn l 7 = false ∧
     (let o := l.put (F.FP_STATE_TOPO 7) 3
      relayOn o 7 = true ∧ o.enabled (pFP 7) = true ∧ (o.port 7).accepted = [] ∧
        (aeSensor (arrive 0 o) 7 31 (default : SensorBody)).devNow = o.devNow)) ∧ Unhindered 0 7 z := by
  unfold Unhindered; decide +kernel

/-! #### Acquisition -/

theorem witness_TriggersFireAndPulsesLeave :
    let s := ((z.put (F.AE_TRG_CFG_EN 63) 1).put (F.AE_TRG_CFG_COND 63) 5).put (F.AE_TRG_CFG_CHANNEL 63) 7
    (z.standby = false ∧ z.hk.corePower = true ∧ (z.checks.look pAE).running = none ∧ z.gb (F.AE_TRG_CFG_EN 63) = false) ∧
    (∀ k < 64, watchesEdge z 7 true k = false) ∧ (watchesEdge s 7 true 63 = true ∧ (s.ae.trg.look 63).fired = none) ∧
    watchesEdge s 7 false 63 = false ∧
    (let f : State := { s.put (F.AE_TRG_CFG_HOLDOFF 63) 1 with ae := { s.ae with trg := s.ae.trg.set 63 ⟨false, false, some 0⟩ } }
     (pinEdge (arrive 0 f) 7 true (dtCount (0 - 327680) - 196608)).devNow = f.devNow ∧
     (f.ae.trg.look 63).fired = some 0 ∧ (dtCount ((f.time.advance 65535999).dt - 327680) - 196608 - 0).toInt < ((f.g (F.AE_TRG_CFG_HOLDOFF 63) * 1000 * 65536 : Nat) : Int)) ∧
    (let p : AePulse := ⟨7, 5, 9⟩
     Unhindered 0 7 z ∧ (pinEdge (arrive 0 s) 7 true (dtCount (0 - 327680) - 196608)).devNow = s.devNow ∧
     [p].filter (fun q => q.pin = 7 && decide (0 ≤ ((z.time.advance 5).dt - q.start).toInt)) = [p] ∧ z.ae.pulses = [] ∧
     z.ae.high.look 7 = none) := by
  unfold Unhindered; decide +kernel

theorem no_rings (s : State) (h : ∀ q < 16, s.gb (F.EH_QCFG_EN q) = false) (b : Nat) : ¬ ringWord s b := by
  rintro ⟨q, x, hq, he, -⟩
  simp [h q hq] at he

theorem witness_StreamsFlushMapAndTruncate :
    let s (x : AeStr) : State := (z.onStr 255 (fun _ => x)).mput (stBase 255) F.ST_STATUS_STATE 2
    let p : AePkt := ⟨0, [], []⟩
    let x : AeStr := { (default : AeStr) with state := 2, pkt := some p, cfg := 1, base := dramBase, size := 65536 }
    (z.str 255).pkt = none ∧ ((s x).str 255).pkt = some p ∧
    ((z.time.advance 65535999).dt - (p.opened + BitVec.ofInt 64 ((getBits x.cfg 0 32 * 1000 * 65536 : Nat) : Int))).toInt < 0 ∧
    0 ≤ ((z.time.advance 65536000).dt - (p.opened + BitVec.ofInt 64 ((getBits x.cfg 0 32 * 1000 * 65536 : Nat) : Int))).toInt ∧
    (z.str 255).state ≠ 2 ∧ ((max 1 (z.g F.AE_CFG_MAP_INTERVAL) * 1000000000 * 65536 : Nat) : Int) ≤
      ((z.time.advance (BitVec.ofNat 64 (max 1 (z.g F.AE_CFG_MAP_INTERVAL) * 1000000000 * 65536))).dt - ((s x).str 255).mapped).toInt ∧
    strLive (s x) 255 = true ∧ ((s x).str 255).state = 2 ∧ (∀ e ∈ z.ae.str, e.2.held = []) ∧
    (z.str 255).rcd = none ∧ ((s { x with rcd := some default }).str 255).rcd = some default ∧ members z 255 = [] ∧
    (let r : AeRec := default
     let y := s { x with rcd := some r, post := 1 }
     let y := (y.setReg (F.AE_CHMAP 63).adr (2 ^ 63)).onCh 4095 (fun h => { h with interval := 5, cfg := 255 * 2 ^ 53 })
     members y 255 = [4095] ∧ memberDone y 255 r 4095 = false ∧ spacing y 4095 = 5 ∧
     ((9 : DT) - r.dt).toInt < ((2 * 1 * 5 : Nat) : Int) ∧ ((2 * 1 * 5 : Nat) : Int) ≤ ((10 : DT) - r.dt).toInt) ∧
    ((z.checks.look pAE).running = none ∧ z.hk.corePower = true ∧ chOn z 4095 = false) ∧
    (chOn (z.setReg (F.AE_CHMAP 63).adr (2 ^ 63)) 4095 = true ∧ enabledAngs z = [] ∧ (z.str (z.aeCh 4095).stream).rcd = none) ∧
    (∀ b, ¬ ringWord (s x) b) ∧ (∀ u ∈ [z, s x], u.ae.told = ((arrive 0 u).tu.tstate, (arrive 0 u).tu.selected)) ∧
    (packetFlush (arrive 65536000 (s x)) 255).devNow = (s x).devNow ∧
    (mappingInterval (arrive (BitVec.ofNat 64 (max 1 (z.g F.AE_CFG_MAP_INTERVAL) * 1000000000 * 65536)) (s x)) 255).devNow = (s x).devNow ∧
    (recordTruncated (arrive 0 (s { x with rcd := some default })) 255).devNow = (s { x with rcd := some default }).devNow ∧
    Unhindered 0 7 z ∧ Unhindered 0 7 (z.setReg (F.AE_CHMAP 63).adr (2 ^ 63)) := by
  refine ⟨?_, ?_, ?_, ?_, ?_, ?_, ?_, ?_, ?_, ?_, ?_, ?_, ?_, ?_, ?_, no_rings _ (by decide +kernel), ?_, ?_, ?_, ?_, ?_, ?_, ?_⟩
  all_goals first | decide +kernel | (unfold Unhindered; decide +kernel)

theorem witness_AngleChannelsHistogramsAndCopies :
    let on := z.setReg (F.ANG_RUNMAP 7).adr (2 ^ 63)
    let e : Nat × AngRec := (511, default)
    let d : State := { on with ang := { z.ang with due := [e], ch := z.ang.ch.set 511 { (default : AngCh) with base := dramBase, size := 65536 } } }
    ((z.checks.look pANG).running = none ∧ z.hk.corePower = true ∧ angOn z 511 = false) ∧ angOn on 511 = true ∧ z.ang.due = [] ∧
    (d.ang.due.find? (fun e => e.1 = 511)).isSome = true ∧ z.ang.copy = none ∧
    ({ z with ang := { z.ang with copy := some (1, 2) } } : State).ang.copy = some (1, 2) ∧
    (angleRecordWrite (arrive 0 d) 511).devNow = d.devNow ∧ Unhindered 0 7 z ∧ Unhindered 0 7 on := by
  unfold Unhindered; decide +kernel

/-! #### The twin, the feeds and the start -/

/-- The party-wall page of a TWIN unit is enabled, and the unit has the role `r`. -/
def twin (r : Nat) : State :=
  let s := (onPage pPW z).put F.TW_CFG_MODE 1
  { s with tw := { s.tw with role := r } }
/-- The same with the link up. -/
def linked (r : Nat) : State := { twin r with tw := { (twin r).tw with link := true, lanes := 7 } }

theorem witness_ThePartyWallLinkComesUp :
    let ready (s : State) : Prop := s.le.syncs = [] ∧ s.enabled pPW = true ∧ s.gb F.TW_CFG_MODE = true ∧ s.tw.link = false ∧ 2 ≤ popCount 4 (3 % 16)
    let rejoins : State := { twin 4 with tw := { (twin 4).tw with isolated := true } }
    z.enabled pPW = false ∧ (∀ r ∈ [1, 2, 5], ready (twin r)) ∧ (ready rejoins ∧ rejoins.tw.role = 4 ∧ rejoins.tw.isolated = true) ∧
    ((twin 1).g F.TW_CFG_TWIN_ID = 0 ∧ (twin 1).g F.TW_CFG_TWIN_ID ≠ 1 % 2 ∧
      0x100 * getBits ((twin 1).g F.BOOT_STATUS_VERSION) 24 8 % 65536 / 256 = getBits ((twin 1).g F.BOOT_STATUS_VERSION) 24 8) := by
  decide +kernel

theorem witness_ThePartyWallLinkGoesDown :
    (twin 2).tw.link = false ∧ ((linked 4).tw.link = true ∧ (linked 4).tw.role = 4 ∧ ringSegs (linked 4) = []) ∧
    (linked 2).tw.role ≠ 4 := by decide +kernel

theorem witness_ALaneIsRemoved :
    (twin 2).tw.link = false ∧ bit (linked 2).tw.lanes 3 = false ∧ ((linked 2).tw.link = true ∧ bit (linked 2).tw.lanes 2 = true ∧
      2 ≤ popCount 4 (setBits (linked 2).tw.lanes 2 1 0)) ∧
    (let s : State := { linked 2 with tw := { (linked 2).tw with lanes := 3 } }
     bit s.tw.lanes 1 = true ∧ popCount 4 (setBits s.tw.lanes 1 1 0) < 2) := by decide +kernel

theorem witness_AHeartbeatIsTaken :
    (twin 4).tw.link = false ∧ (default : HeartbeatBody).full = false ∧ ({ z with tw := { z.tw with link := true } } : State).enabled pPW = false ∧
    (∀ r ∈ [2, 3, 4], (linked r).tw.link = true ∧ (linked r).enabled pPW = true) ∧ (linked 2).standby = false ∧ (linked 4).standby = true ∧
    (linked 4).tw.mapT0 = none ∧ ({ (linked 4).tw with mapT0 := some (3, 5) } : TwSt).mapT0 ≠ none ∧ protAddr (F.TU_TSCORR 9).adr = true := by decide +kernel

theorem witness_AMirroredWriteHasItsEffect :
    let s := linked 4
    let r : State := { s with time := { s.time with running := true }, tw := { s.tw with copyClosed := some 3, copyCycle := some 3 } }
    (twin 4).tw.link = false ∧ (linked 2).standby = false ∧ (s.standby = true ∧ s.tw.link = true ∧ s.tw.mirrors = [] ∧ mirrorReady s 0 = true) ∧
    (∀ e, (r.tw.mirrors ++ [(5, 0, (0 : Word))]).head? = some e → mirrorReady r e.1 = false) ∧
    (mirrorReady r 3 = true ∧ mirrorStale (r.setReg (F.LE_AXMAP 0).adr 1) 3 0x100080 = true) ∧
    ((0x200 : Word).getLsbD 9 = true ∧ (0 : Word).getLsbD 9 = false ∧ (0x4000000000000000 : Word).getLsbD 62 = true) ∧
    mirrorStale s 0 (0x100000 + 0x800 * 511 + 0x80) = false := by
  refine ⟨by decide +kernel, by decide +kernel, by decide +kernel, ?_, by decide +kernel⟩
  intro e h
  have : e = (5, 0, 0) := by simpa [linked, twin] using (Option.some.inj h).symm
  subst this; decide +kernel

/-- The standby in phase 1 of cycle 6. -/
def copying : State :=
  { cyc 1 with tw := { z.tw with role := 4, link := true }, time := { (cyc 1).time with cycle := 6 } }

theorem witness_AStateCopyIsAppliedOnce :
    let s := copying
    let n : State := { s with tw := { s.tw with role := 2, awaitCopy := some 5 } }
    (s.standby = true ∧ s.tw.link = true ∧ (5 : BitVec 32) + 1 = s.time.cycle ∧ s.tw.copyCycle ≠ some 5 ∧ s.tw.mirrors = [] ∧
      ((s.time.advance 0).dt - s.at s.time.live.ulEnd).toInt ≤ 0) ∧ (n.tw.awaitCopy = some 5 ∧ n.standby = false) ∧
    z.standby = false ∧ z.tw.awaitCopy = none ∧ z.tw.link = false ∧ copiedWord 0x80 = true ∧ 0x80 ≠ F.AX_STATUS_ENABLED.adr ∧
    0x80 ≠ F.REP_STATUS_REASON.adr ∧ copiedWord F.AX_STATUS_ENABLED.adr = true ∧ epochPending s = false ∧
    nsHas s.le.begun 511 = false ∧ (s.time.running = true ∧ s.time.cycle = 6) := by decide +kernel

theorem witness_TheBulkCopyIsTaken :
    (linked 3).tw.role = 3 ∧ (linked 3).tw.link = true ∧ z.tw.role ≠ 3 ∧ z.tw.link = false ∧ (default : BulkRest).full = false ∧
    (linked 3).enabled pEH = false ∧ bulkMem sramBase = true ∧ sramBase % 8 = 0 ∧ bulkMem dramBase = false := by decide +kernel

theorem witness_ASyncingUnitBecomesStandby :
    (let y : TwSt := { z.tw with role := 3, bulkDone := true, consecutive := 64, locked := true }
     y.role = 3 ∧ y.bulkDone = true ∧ 64 ≤ y.consecutive ∧ y.locked = true) ∧ z.tw.role ≠ 3 := by decide +kernel

theorem witness_TheShadowEvaluationCompares :
    let e : LeEng := { (default : LeEng) with inService := true }
    let f : State := { copying.setReg (F.LE_AXMAP 7).adr (2 ^ 63) with le := { z.le with eng := (z.le.eng.set 0 e).set 15 e } }
    z.tw.role ≠ 4 ∧ (f.tw.role = 4 ∧ f.tw.takeover = 0 ∧ f.tw.recovering = false ∧ f.tw.cmpFaulty = false ∧ axisEnabled f 511 = true ∧
      (f.eng 0).inService = true ∧ (f.eng 15).inService = true ∧ (f.time.cycle - 5).toNat ≤ 1 ∧ shadowBase f 5 = none ∧
      shadowBase { f with tw := { f.tw with copyCycle := some 4 } } 5 ≠ none) ∧
    (((2 ^ 64 : Int) - 0) % 2 ^ 64 = 0 ∧ ((1 : Int) - 0) % 2 ^ 64 ≠ 0 ∧ 32 % 32 = 0 % 32 ∧ 31 % 32 ≠ 0 % 32) := by decide +kernel

theorem witness_CoreFaultsSilenceStopOrHandOver :
    let t (f : TwSt → TwSt) : State := { z with tw := f z.tw }
    (∀ c ∈ [1, 2, 3, 4, 5, 8], nsHas (t (fun w => { w with standing := [c] })).tw.standing c = true) ∧
    (nsHas z.tw.standing 1 = false ∧ z.tw.link = false) ∧
    (let s := t (fun w => { w with role := 2, link := true, partnerRole := 4 })
     s.tw.role = 2 ∧ s.tw.link = true ∧ s.tw.partnerRole = 4 ∧ s.tw.recovering = false) ∧
    (let s := t (fun w => { w with role := 4, link := true }); s.tw.role = 4 ∧ s.tw.takeover = 0) ∧
    (∀ r ∈ [0, 1, 3, 5], (t (fun w => { w with role := r, link := true })).tw.link = true ∧ (3 ∈ [2, 3, 4] ∧ 5 ∉ [2, 3, 4])) ∧
    z.g F.TW_FAULT_CAUSE = 0 ∧ (enginesShort z = true ∨ enginesShort z = false) := by decide +kernel

theorem witness_FeedsAreMeasuredAndSupervised :
    let f (x : FeedSt) : State := { z with fs := { z.fs with a := x } }
    ((f ⟨1, 4800, none⟩).fs.a.state = 1 ∧ ¬ (feedAfter ⟨1, 4800, none⟩ 3249 = 1) ∧ feedAfter ⟨1, 4800, none⟩ 3250 = 1 ∧
      feedAfter ⟨1, 4800, none⟩ 7801 = 2 ∧ feedAfter ⟨1, 4800, none⟩ 7800 = 1 ∧ z.fs.powerFail = false) ∧
    (((f ⟨0, 3500, some 0⟩).feed 0).since = some 0 ∧ 10000000 * 65536 ≤ ((z.time.advance 655360000000).dt - 0).toInt) ∧
    ((z.time.advance 655359999999).dt - 0).toInt < 10000000 * 65536 ∧ ((f ⟨2, 7500, some 0⟩).feed 0).state = 2 ∧
    QuadQuiet z ∧ ({ (f ⟨1, 4800, none⟩).fs with charged := true } : FsSt).charged = true ∧ z.fs.charged = false := by
  unfold QuadQuiet; decide +kernel

theorem witness_OvertempWatchdogRegulatorAndShutdown :
    let h (k : HkSt → HkSt) : State := { z with hk := k z.hk }
    (({ z.fs with tjSince := some 0 } : FsSt).tjSince = some 0 ∧ 1000000 * 65536 ≤ ((z.time.advance 65536000000).dt - 0).toInt ∧
      nsHas z.tw.told 5 = false ∧ z.fs.tjSince = none) ∧ z.fs.regFault = false ∧ z.hk.booted = false ∧
    (let s := h (fun k => { k with booted := true, started := true })
     s.hk.minimal = false ∧ s.hk.restartAt = none ∧ s.hk.started = true) ∧
    (((h (fun k => { k with booted := true })).put F.HK_START_STATE_STAGE 14).g F.HK_START_STATE_STAGE = 14 ∧
      NothingHeldUp ((h (fun k => { k with booted := true })).put F.HK_FAILCNT_COUNT 2)) ∧
    (let s := h (fun k => { k with booted := true })
     s.hk.started = false ∧ s.g F.HK_START_STATE_STAGE ≠ 14 ∧ s.hk.imageFail = false ∧ s.g F.HK_FAILCNT_COUNT < 2 ∧
     2 ≤ (s.put F.HK_FAILCNT_COUNT 2).g F.HK_FAILCNT_COUNT) ∧
    (let s : State := { z with fs := { z.fs with powerFail := true } }
     s.fs.powerFail = true ∧ (s.put F.FS_AUX_HOLDUP 2399).g F.FS_AUX_HOLDUP < 2400) ∧ z.fs.powerFail = false := by
  refine ⟨?_, ?_, ?_, ?_, ⟨?_, ⟨rfl, fun _ => rfl⟩⟩, ?_, ?_, ?_⟩ <;> decide +kernel

theorem witness_TheModuleBoots :
    let s : State := { z with fs := { z.fs with a := ⟨1, 4800, none⟩ } }
    let b : BootIn := { (default : BootIn) with okA := true, selfTest := true }
    NothingHeldUp s ∧ (s.fs.a.state = 1 ∧ s.hk.booted = false) ∧ z.fs.a.state ≠ 1 ∧
    (s.put F.HK_FAILCNT_COUNT 3).g F.HK_FAILCNT_COUNT = 3 ∧ ((default : BootIn).okA = false ∧ (default : BootIn).okB = false) ∧
    (s.g F.HK_FAILCNT_COUNT < 3 ∧ s.g F.BOOT_SEL_IMAGE = 0 ∧ b.okA = true ∧ b.selfTest = true ∧ b.cfg0 = none ∧ b.cfg1 = none ∧
      (s.put F.HK_START_AUTO 0).g F.HK_START_AUTO = 0) := by
  refine ⟨⟨rfl, fun _ => rfl⟩, ?_⟩; decide +kernel

/-- The start is under way; of its stages those of `l` have begun. -/
def starting (l : List Nat) : State := { z with hk := { z.hk with starting := true, booted := true, begun := l } }

theorem witness_AStageBeginsWhenItIsReady :
    stageReady z 3 = false ∧ stageReady (starting []) 4 = true ∧
    (let s : State := { starting [3, 4, 6] with hk := { (starting [3, 4, 6]).hk with stagesDone := [4, 6] } }
     stageReady s 8 = true ∧ (s.checks.look pCyc).running = none ∧ s.enabled pCyc = false) := by decide +kernel

theorem witness_AStageWaitExpires :
    let s := ((starting [4]).put F.HK_START_SEGMENTS 128).put F.HK_START_PARTIAL 1
    (z.hk.starting = false) ∧ (s.hk.starting = true ∧ nsHas s.hk.begun 4 = true ∧ nsHas s.hk.stagesDone 4 = false ∧ 7 ∈ startPorts s ∧
      s.gb (F.FP_STATE_LINK_UP 7) = false ∧ ((s.g F.HK_START_PORT_WAIT * 1000000 * 65536 : Nat) : Int) ≤
        ((s.time.advance (BitVec.ofNat 64 (s.g F.HK_START_PORT_WAIT * 1000000 * 65536))).dt - s.hk.feedsAt).toInt) ∧
    s.gb F.HK_START_PARTIAL = true ∧ ((s.put F.HK_START_PARTIAL 0).gb F.HK_START_PARTIAL = false ∧ s.hk.imageFail = false ∧
      s.g F.HK_FAILCNT_COUNT < 2) := by decide +kernel

theorem witness_ThePairWaitExpires :
    let p : State := onPage pPW (role 1)
    z.enabled pPW = false ∧ p.enabled pPW = true ∧ p.tw.role = 1 ∧ p.g F.TW_CFG_TWIN_ID = 0 ∧
    ((p.g F.HK_START_PAIR_WAIT * 1000000 * 65536 : Nat) : Int) ≤
      ((p.time.advance (BitVec.ofNat 64 (p.g F.HK_START_PAIR_WAIT * 1000000 * 65536))).dt - p.hk.pairSince).toInt := by decide +kernel

theorem witness_ClearingAutoEndsTheStart :
    let s := (starting [4]).put F.HK_START_AUTO 1
    Unhindered 0 7 z ∧ Unhindered 0 7 s ∧ s.gb F.HK_START_AUTO = true ∧ s.hk.starting = true := by
  unfold Unhindered; decide +kernel

/-! ### Ill-formed commands -/

/-- One command out of range for each check of `Instr.wf`. -/
theorem test_illformed_commands_are_refused :
    ∀ i ∈ [Instr.cycleEnable 0 65536, .lateHold 0 512, .tscorrWrite 0 10 0, .rearm 0 2, .syncReceived 0 ⟨2, false, 64⟩ 0 0 0 0 0 0 0 0, .repSyncDone 0 ⟨false, 0, [2 ^ 32], 0⟩, .creditReturn 0 (.stream 4097),
      .creditReturn 0 (.context 1024), .pdelayReqReceived 0 ⟨⟨2, false, 64⟩, 0, 0⟩, .pdelayRespReceived 0 ⟨⟨2, false, 64⟩, 0⟩ 0 0 0,
      .feedbackStart 0 0 512, .axisDisable 0 65536 0, .inject 0 0 32, .qeEdge 0 32 7 7 7, .qeEdge 0 0 8 0 0, .axisStepComplete 0 16,
      .withdraw 0 0 16, .commit 0 0 8, .linkUp 0 8, .nodeMuted 0 0 32, .mute 0 0 8 0, .channelEnable 0 0 4096, .trigOutPulse 0 8,
      .triggerUnitEnable 0 0 64 0, .streamStart 0 0 256, .packetFlush 0 256, .angleChannelEnable 0 0 512, .angleRecordWrite 0 512,
      .copyMap 0 0 1024 true, .scEnable 0 0 8, .dormant 0 8, .cxStart 0 0 1024, .flowPost 0 0 64, .dlInsert 0 0 65536 true true,
      .acquire 0 0 256 0, .acquire 0 0 0 1024, .quotaWrite 0 1024 0, .xuInvalRange 0 (2 ^ 36) 0, .xuInvalRange 0 0 4096] ++
      [Instr.dmaRingEnable 0 0 16 0, .dmaRingEnable 0 0 0 2, .dmaPost 0 0 0 0 (2 ^ 32), .dmaDone 0 16 0, .qPop 0 0 64, .qPopTimeout 0 64,
      .scrubRead 0 0 3, .pwLinkUp 0 16 0 0 0 0, .pwLinkUp 0 0 0 0 8 0, .pwLinkUp 0 0 0 0 0 2, .pwLaneDown 0 4,
      .heartbeatReceived 0 (2 ^ 32) 0 0 0 true default, .heartbeatReceived 0 0 0 0 0 true { (default : HeartbeatBody) with acks := [(0, 32, 0)] }, .stateCopyApplied 0 (2 ^ 32) default, .shadowEvaluation 0 0 0 16 0 [] 0 0 0 default 0,
      .registerWrite 0 0 0 0 0, .registerWrite 0 0 1 8 0, .ehRdWrite 0 16 0, .ehQueueEnable 0 0 16 0, .msixUnmask 0 64,
      .hpLinkUp 0 3 1, .hpLinkUp 0 1 5, .hostAccess 0 3 0 1 .read, .hostAccess 0 0 7 2 .read, .bootSelWrite 0 0 2, .startStage 0 14, .stageWaitExpiry 0 0 8, .jtagDebug 0 3 0 none],
      i.wf = false := by decide +kernel

/-- One signal-core instruction out of range for each check of `scWf`, and one on a core that does not exist. -/
theorem test_illformed_instructions_are_refused :
    ∀ i ∈ [Instr.add 0 0 32 0 0, .mov 0 0 0 32, .addi 0 0 0 0 16384, .addi 0 0 0 0 (-16385), .ldi 0 0 0 (2 ^ 32), .mul 0 0 0 0 0 128,
      .mac 0 0 4 0 0, .macl 0 0 0 0 0 8 0 true true, .sata 0 0 0 0 128, .lda 0 0 0 0 72, .adda 0 0 0 4, .clra 0 0 4, .expa 0 0 32 0,
      .ld 0 0 0 8 0 0 true, .ld 0 0 0 0 4 0 true, .ld 0 0 0 0 0 3 true, .st 0 0 0 0 0 4, .ldxy 0 0 0 0 0 0 0 4, .ldd 0 0 0 0 2048 0 true,
      .std 0 0 0 0 (-2049) 0, .setp 0 0 8 0, .setc 0 0 0 0 32, .getp 0 0 0 8, .ldr 0 0 0 0 3 true, .str 0 0 0 0 4] ++
      [Instr.br 0 0 8388608, .bz 0 0 0 8192, .beq 0 0 0 0 (-8193), .jmp 0 0 32, .repi 0 0 65536 1, .repi 0 0 0 0, .repr 0 0 0 17,
      .movsRead 0 0 32, .movsWrite 0 0 32, .lock 0 0 0 256, .unlock 0 0 256, .notify 0 0 32, .trace 0 0 65536, .nop 0 8],
      i.wf = false := by decide +kernel

/-- The greatest operands are well formed. -/
theorem test_boundary_commands_are_wellformed :
    ∀ i ∈ [Instr.cycleEnable 0 65535, .lateHold 0 511, .tscorrWrite 0 9 0, .registerWrite 0 0 0 8 0, .registerWrite 0 0 7 1 0,
      .add 0 7 31 31 31, .addi 0 0 0 0 (-16384), .lda 0 0 3 31 71, .repi 0 0 65535 16, .ld 0 0 31 7 3 3 false, .br 0 0 8388607], i.wf = true := by
  decide +kernel

/-! ### Words written out from Table 12.7 -/

/-- Classes A, I and L. -/
theorem test_decode_arithmetic :
    scDecode 0 1 0b0000_001011_11111_00001_00010_0000000 0 = some (.seq 0 1 31 1 2) ∧
    scDecode 0 1 0b0001_110_00001_00010_100000000000000 0 = some (.shrui 0 1 1 2 (-16384)) ∧
    scDecode 0 1 0b0010_00_11111_000000000000000000000 5 = some (.ldi 0 1 31 5) := by decide +kernel

/-- Class M. -/
theorem test_decode_multiply :
    scDecode 0 1 0b0011_0000_00001_00010_00011_1111111_00 0 = some (.mul 0 1 1 2 3 127) ∧
    scDecode 0 1 0b0011_0110_11_00001_00000_1000111_00000 0 = some (.lda 0 1 3 1 71) ∧
    scDecode 0 1 0b0011_0110_11_00001_00000_1001000_00000 0 = none ∧
    scDecode 0 1 0b0011_0111_01_00000_00010_0000000_00000 0 = some (.adda 0 1 1 2) := by decide +kernel

/-- Classes X, P and G. -/
theorem test_decode_memory :
    scDecode 0 1 0b0100_001_11_0_00001_010_11_000000000000 0 = some (.st 0 1 1 2 3 3) ∧
    scDecode 0 1 0b0100_010_11_0_00001_00010_011_01_100_10_00 0 = some (.ldxy 0 1 1 2 3 1 4 2) ∧
    scDecode 0 1 0b0100_100_00_0_00001_00010_111111111111 0 = some (.std 0 1 1 2 (-1) 0) ∧
    scDecode 0 1 0b0100_000_11_1_00001_010_00_000000000000 0 = none ∧
    scDecode 0 1 0b0101_011_110_00001_00000_000000000000 0 = some (.getp 0 1 1 6) ∧
    scDecode 0 1 0b0110_00_01_1_00001_00010_0000000000000 0 = some (.ldr 0 1 1 2 1 true) ∧
    scDecode 0 1 0b0110_10_00_0_00000_00000_0000000000000 0 = some (.fence 0 1) := by decide +kernel

/-- Classes B and S. -/
theorem test_decode_flow :
    scDecode 0 1 0b0111_0001_100000000000000000000000 0 = some (.call 0 1 (-8388608)) ∧
    scDecode 0 1 0b0111_0010_00001_00000_00000000000001 0 = some (.bz 0 1 1 1) ∧
    scDecode 0 1 0b0111_1000_11111_0000000000000000000 0 = some (.jmp 0 1 31) ∧
    scDecode 0 1 0b0111_1001_1111111111111111_0000_1111 0 = some (.repi 0 1 65535 16) ∧
    scDecode 0 1 0b0111_1010_00001_000000000000000_0000 0 = some (.repr 0 1 1 1) ∧
    scDecode 0 1 0b1000_000010_00001_00000000000000000 0 = some (.movsWrite 0 1 1) ∧
    scDecode 0 1 0b1000_001010_00000_0_1111111111111111 0 = some (.trace 0 1 65535) := by decide +kernel

/-! ### Single steps, against the manual -/

/-- The outcome is a next state in which `p` holds. -/
def gives (o : Host.Outcome State Fault Refusal) (p : State → Bool) : Bool := match o with | .next u => p u | _ => false

/-- R312: ADD saturates and sets CSR.SAT. -/
theorem test_add_saturates :
    gives (step { arch (fun x => { x with g := x.g.set 1 0x7FFFFFFFFFFFFFFF }) with pending := [.add 0 3 2 1 1] })
      (fun u => (u.core 3).arch.g.look 2 = 0x7FFFFFFFFFFFFFFF && (u.core 3).arch.csr = 1 && (u.core 3).arch.pc = 1 && u.pending = []) = true := by
  decide +kernel

/-- R314: EXP of 1 has 62 redundant sign bits; the result is delayed (R304). -/
theorem test_exp_is_delayed :
    gives (exec (.exp 0 3 2 1) (arch (fun x => { x with g := x.g.set 1 1 })))
      (fun u => (u.core 3).arch.g.look 2 = 0 && (u.core 3).arch.delG = [(2, 62)]) = true := by decide +kernel

/-- R305: CALL leaves the address behind its two delay slots in g31, and branches after them. -/
theorem test_call_links_behind_its_slots :
    gives (exec (.call 0 3 (-1)) (arch id))
      (fun u => (u.core 3).arch.g.look 31 = 3 && (u.core 3).arch.slots = 2 && (u.core 3).arch.target = 0x3FFF && (u.core 3).arch.pc = 1) = true := by
  decide +kernel

/-- R30: a T0 that is due falls a live period after the last, 31.25 µs at reset. -/
theorem test_t0_follows_by_the_period :
    gives (exec (.t0 5) (cyc 6)) (fun u => u.time.t0 = BitVec.ofNat 64 (31250 * 65536) && u.time.cycle = 1) = true := by decide +kernel

/-- R413: setting ENABLE begins the check; R417: GUARD_SEL on an offset without a GW field gives result 6. -/
theorem test_enable_begins_a_check :
    gives (exec (.sgEnable 5 7) z) (fun u => !u.enabled pSG && u.g (F.CHECK_BUSY pSG) = 1) = true ∧
    gives (exec (.guardSelWrite 5 7 pBoot 0x88) z) (fun u => u.g (F.GUARD_STATE_RESULT pBoot) = 6) = true := by decide +kernel

/-- R450: IDCODE. -/
theorem test_jtag_idcode : gives (exec (.jtagIdcode 5) z) (fun u => u.out = [.jtag 0x1E512C3D]) = true := by decide +kernel

/-- The step and the command that the host's word places: no row has bits, so none is placed. -/
theorem test_no_word_spells_a_command : decodeTableWord 64 0 = none ∧ z.withFetchWord 64 0 = z ∧ step z = .next z := by
  refine ⟨rfl, rfl, rfl⟩

end Sys2Proof.Tests
end

section
/-! Rules about a command that makes an access: what it acts on, what goes on behind it, and the form of its result. -/

namespace Sys2Proof

open Sys2Proof.Machine

/-! ### The state in which a command acts -/

@[simp] theorem arrive_mem (t : DT) (s : State) : (arrive t s).mem = s.mem := by rw [arrive_eq]
@[simp] theorem arrive_poison (t : DT) (s : State) : (arrive t s).poison = s.poison := by rw [arrive_eq]
@[simp] theorem arrive_fb (t : DT) (s : State) : (arrive t s).fb = s.fb := by rw [arrive_eq]
@[simp] theorem arrive_hk (t : DT) (s : State) : (arrive t s).hk = s.hk := by rw [arrive_eq]
@[simp] theorem arrive_tw (t : DT) (s : State) : (arrive t s).tw = s.tw := by rw [arrive_eq]
@[simp] theorem arrive_hp (t : DT) (s : State) : (arrive t s).hp = s.hp := by rw [arrive_eq]
@[simp] theorem arrive_he (t : DT) (s : State) : (arrive t s).he = s.he := by rw [arrive_eq]
@[simp] theorem arrive_jtag (t : DT) (s : State) : (arrive t s).jtag = s.jtag := by rw [arrive_eq]
@[simp] theorem arrive_mpStatus (t : DT) (s : State) : (arrive t s).mpStatus = s.mpStatus := by rw [arrive_eq]
@[simp] theorem arrive_queues (t : DT) (s : State) : (arrive t s).queues = s.queues := by rw [arrive_eq]
@[simp] theorem arrive_accHeld (t : DT) (s : State) : (arrive t s).accHeld = s.accHeld := by rw [arrive_eq]
@[simp] theorem arrive_devNow (t : DT) (s : State) : (arrive t s).devNow = s.devNow := by rw [arrive_eq]

@[simp] theorem arrive_gb (t : DT) (s : State) (f : Fld) : (arrive t s).gb f = s.gb f := by simp [State.gb]
@[simp] theorem arrive_enabled (t : DT) (s : State) (p : Nat) : (arrive t s).enabled p = s.enabled p := by simp [State.enabled]
@[simp] theorem arrive_standby (t : DT) (s : State) : (arrive t s).standby = s.standby := by simp [State.standby]
@[simp] theorem arrive_poisoned (t : DT) (s : State) (a : Nat) : (arrive t s).poisoned a = s.poisoned a := by simp [State.poisoned]
@[simp] theorem arrive_masterWaits (t : DT) (s : State) (m : Nat) : masterWaits (arrive t s) m = masterWaits s m := by
  simp [masterWaits]
@[simp] theorem arrive_mpTaken (t : DT) (s : State) (c : Nat) (l : List Word) (pec : Option Byte) :
    mpTaken (arrive t s) c l pec = mpTaken s c l pec := by
  unfold mpTaken mpBlock; rw [arrive_g]

/-- Bytes read from a memory depend on the memory alone. -/
theorem bytesAt_congr {r s : State} (h : r.mem = s.mem) (n : Nat) : ∀ a, r.bytesAt a n = s.bytesAt a n := by
  induction n with
  | zero => exact fun _ => rfl
  | succ n ih => intro a; simp only [State.bytesAt, State.byte, h, ih]

@[simp] theorem arrive_bytesAt (t : DT) (s : State) (a n : Nat) : (arrive t s).bytesAt a n = s.bytesAt a n :=
  bytesAt_congr (arrive_mem t s) n a

/-- The memory after a write depends on the memory before it alone. -/
theorem setBytes_mem_congr (n : Nat) : ∀ {r s : State}, r.mem = s.mem → ∀ a v, (r.setBytes a v n).mem = (s.setBytes a v n).mem := by
  induction n with
  | zero => exact fun h _ _ => h
  | succ n ih =>
    intro r s h a v
    exact ih (by simp only [State.setByte, h]) _ _

@[simp] theorem arrive_setBytes (t : DT) (s : State) (a v n : Nat) : ((arrive t s).setBytes a v n).mem = (s.setBytes a v n).mem :=
  setBytes_mem_congr n (arrive_mem t s) a v

/-- Where no channel has anything due, the channels have nothing to catch up with (R95, R100). -/
theorem qeCatchUp_arrive {s : State} (h : QuadQuiet s) (t : DT) (late : Bool) : qeCatchUp (arrive t s) late = arrive t s := by
  have e : s.fb.qe.filter (fun p => p.2.due.isSome || p.2.injAt.isSome) = [] := by
    rw [List.filter_eq_nil_iff]
    intro p hp
    obtain ⟨h1, h2⟩ := h p hp
    simp [h1, h2]
  unfold qeCatchUp
  rw [arrive_fb, e]
  rfl

/-! ### What goes on behind an effect -/

/-- The effect `r` of a command at DT `t` on `s` lets nothing go on: it moves neither the time nor the queue of commands, asks for no
write, leaves the hardware queues alone and answers no register-access request. -/
structure Contained (t : DT) (s r : State) : Prop where
  time : r.time = s.time.advance t
  pending : r.pending = s.pending
  devNow : r.devNow = s.devNow
  queues : r.queues = s.queues
  answered : ∀ n, raAnswered r n = true → raAnswered s n = true

/-- An effect on what the command acts on, made on other parts of the state. -/
theorem Contained.of {t : DT} {s r : State} (time : r.time = (arrive t s).time) (pending : r.pending = (arrive t s).pending)
    (devNow : r.devNow = (arrive t s).devNow) (queues : r.queues = (arrive t s).queues) (he : r.he = (arrive t s).he) :
    Contained t s r where
  time := by rw [time, arrive_time]
  pending := by rw [pending, arrive_pending]
  devNow := by rw [devNow, arrive_devNow]
  queues := by rw [queues, arrive_queues]
  answered n hn := by unfold raAnswered at *; rwa [he, arrive_he] at hn

theorem Contained.arrive (t : DT) (s : State) : Contained t s (arrive t s) := .of rfl rfl rfl rfl rfl

/-- What may follow from a command lets nothing more go on. -/
theorem Contained.follows {K : Prop} {t : DT} {s r u : State} (h : Contained t s r) (k : Follows K r u) : Contained t s u where
  time := by rw [k.rest]; exact h.time
  pending := by rw [k.rest]; exact h.pending
  devNow := by rw [k.rest]; exact h.devNow
  queues := by rw [k.rest]; exact h.queues
  answered n hn := h.answered n (by rw [k.rest] at hn; exact hn)

theorem Contained.landed {t : DT} {s r : State} (h : Contained t s r) : landed s r = r := by
  refine landed_eq s r h.devNow (goOn_eq s r (fun m => ?_) (raGoOn_eq s r h.answered))
  unfold masterWaits
  rw [h.queues]
  simp

/-! ### The form of a result -/

/-- A command whose effect is contained does exactly that. -/
theorem doesExactly_of_effect {c : Instr} {t : DT} {s r : State} {f : State → State} (e : exec c s = .next (run t s f))
    (h : f (arrive t s) = r) (k : Contained t s r) : DoesExactly c s r := by
  obtain ⟨k1, k2⟩ := run_does t s f r h k.time k.pending k.landed
  exact ⟨_, e, k1, k2⟩

/-- A command ends behind its contained effect. -/
theorem run_ends_of_effect {t : DT} {s r : State} {f : State → State} (h : f (arrive t s) = r) (k : Contained t s r) :
    Ends r (run t s f) := run_ends t s f r h k.time k.pending k.landed

/-- An effect that consists of `r` and what may follow from it does `r`. -/
theorem does_of_follows {c : Instr} {t : DT} {s r v : State} {f : State → State} (e : exec c s = .next (run t s f))
    (h : f (arrive t s) = v) (k : Contained t s r) (l : Follows False r v) : Does c s r :=
  ⟨_, e, (run_ends_of_effect h (k.follows l)).of l⟩

/-- What was sent may be replaced by what the command leaves sent. -/
theorem Ends.withOut {r u : State} (h : Ends r u) : Ends { r with out := u.out } u where
  regs := h.regs
  cores := h.cores
  hp := h.hp
  hk := h.hk
  start := h.start
  tw := h.tw
  ks := h.ks
  out := List.prefix_refl _
  devQ := h.devQ
  mem := h.mem
  ms := h.ms
  count := h.count
  quiet := h.quiet
  rest := h.rest

/-- An effect on registers and on what is sent, its frame said without either. -/
theorem Ends.regsOut {r u : State} (h : Ends r u) : Ends { r with regs := u.regs, out := u.out } u := h.withRegs.withOut

/-- An effect that asks nothing of the cycle leaves the time as it is. -/
theorem Ends.time {r u : State} (h : Ends r u) (k : r.cyc.ask = []) : u.time = r.time := by
  have e : u.time = (asked r).time := by rw [h.rest]
  rw [e]
  unfold asked
  simp [k]

/-! ### Accesses that are held up -/

/-- A command whose access stands behind another one, or at a boundary, only joins the accesses held. -/
theorem doesExactly_held {c : Instr} {t : DT} {s : State} {e : HeldAccess} {f : State → State}
    (x : exec c s = .next (runBehind t s e f)) (h : heldUp (arrive t s) e = true) :
    DoesExactly c s { arrive t s with accHeld := s.accHeld ++ [e] } := by
  refine doesExactly_of_effect x ?_ (.of rfl rfl rfl rfl rfl)
  rw [behind_held _ e f h, arrive_accHeld]

end Sys2Proof
end
section
/-! Rules about DRAM as any master reaches it (R26, R358, R434). -/

namespace Sys2Proof

open Sys2Proof.Machine

/-! ### Bytes -/

/-- A byte of a number is that of the number cut to the bytes that are written. -/
theorem setBytes_mod (n : Nat) : ∀ (s : State) (a v : Nat), s.setBytes a (v % 2 ^ (8 * n)) n = s.setBytes a v n := by
  induction n with
  | zero => exact fun _ _ _ => rfl
  | succ n ih =>
    intro s a v
    have low : byteOf (v % 2 ^ (8 * (n + 1))) 0 = byteOf v 0 := by
      apply BitVec.eq_of_toNat_eq
      simp only [byteOf, Nat.mul_zero, Nat.shiftRight_zero, BitVec.toNat_ofNat]
      exact Nat.mod_mod_of_dvd v (Nat.pow_dvd_pow 2 (by omega))
    have high : (v % 2 ^ (8 * (n + 1))) >>> 8 = (v >>> 8) % 2 ^ (8 * n) := by
      rw [Nat.shiftRight_eq_div_pow, Nat.shiftRight_eq_div_pow, show 8 * (n + 1) = 8 + 8 * n by ring, Nat.pow_add,
        Nat.mod_mul_right_div_self]
    unfold State.setBytes
    rw [low, high, ih]

theorem bytesAt_lt (s : State) (n : Nat) : ∀ a, s.bytesAt a n < 2 ^ (8 * n) := by
  induction n with
  | zero => exact fun _ => Nat.one_pos
  | succ n ih =>
    intro a
    have h1 := (s.byte a).isLt
    have h2 := ih (a + 1)
    rw [show 8 * (n + 1) = 8 * n + 8 by ring, Nat.pow_add]
    unfold State.bytesAt
    omega

/-! ### DRAM -/

/-- The bounds of DRAM. -/
theorem dram_bounds {a : Nat} (hm : inMemory a = true) (hd : inDram a = true) : dramBase ≤ a ∧ a < dramBase + 0x400000000 := by
  unfold inMemory inDram sramBase dramBase at *
  simp only [Bool.or_eq_true, Bool.and_eq_true, decide_eq_true_eq] at *
  omega

/-- An offset of BAR4 names a byte of DRAM. -/
theorem dram_offset {off : Nat} (h : off < 0x400000000) : inMemory (dramBase + off) = true ∧ inDram (dramBase + off) = true := by
  unfold inMemory inDram sramBase dramBase
  simp only [Bool.or_eq_true, Bool.and_eq_true, decide_eq_true_eq]
  omega

section Dram

variable {a : Nat} (hm : inMemory a = true) (hd : inDram a = true)
include hm hd

theorem xlate_dram (s : State) : xlate s a = .mem a := by
  obtain ⟨h1, h2⟩ := dram_bounds hm hd
  unfold dramBase at h1 h2
  unfold xlate directTarget
  rw [if_neg (by omega), if_pos (by omega), if_neg (by omega), if_pos hm]

/-- DRAM lies outside the always-on domain (R26). -/
theorem powered_dram (s : State) : powered s a = s.hk.corePower := by
  obtain ⟨h1, _⟩ := dram_bounds hm hd
  unfold dramBase at h1
  unfold powered
  rw [decide_eq_false (by unfold pSG; omega), Bool.false_or]

/-- No axis record lies in DRAM. -/
theorem recordOffset_dram : recordOffset a = none := by
  obtain ⟨h1, _⟩ := dram_bounds hm hd
  unfold dramBase at h1
  unfold recordOffset sramBase
  rw [if_neg (by simp; omega)]

/-- No context's quota lies in DRAM. -/
theorem quotaWord_dram : quotaWord a = false := by
  obtain ⟨h1, _⟩ := dram_bounds hm hd
  unfold dramBase at h1
  unfold quotaWord cxBase sramBase
  rw [decide_eq_false (p := a / 8 * 8 < _) (by omega)]
  simp

/-- No block watches a word of DRAM. -/
theorem memWatch_dram (s : State) : memWatch s a = s := by
  obtain ⟨h1, _⟩ := dram_bounds hm hd
  unfold dramBase at h1
  unfold memWatch
  dsimp only
  rw [quotaWord_dram hm hd, if_neg (by unfold flowBase sramBase; simp; omega), if_neg (by decide)]

/-- A write that meets no poison stores its bytes. -/
theorem memStore_dram (s : State) (m v n : Nat) (hn : n + a % 8 ≤ 8) (hp : s.poisoned a = false) :
    memStore s m a v n = { s with mem := (s.setBytes a v n).mem } := by
  have heal : s.heal a = s := by unfold State.heal; rw [hp]; rfl
  unfold memStore
  rw [recordOffset_dram hm hd]
  dsimp only
  rw [memWatch_dram hm hd]
  unfold memWrite
  by_cases h8 : n = 8
  · have ha : a % 8 = 0 := by omega
    rw [if_pos (by simp [h8, ha])]
    unfold State.setWord
    rw [heal, h8, show a / 8 * 8 = a by omega]
    exact setBytes_eq 8 s a v
  · rw [if_neg (by simp [h8]), hp, if_neg (by decide)]
    exact setBytes_eq n s a v

/-- A write through the bus stores its bytes, little-endian, and nothing else (R7, R26). -/
theorem busWrite_dram (s : State) (m v n : Nat) (hn : n + a % 8 ≤ 8) (hp : s.poisoned a = false) (hc : s.hk.corePower = true) :
    busWrite s m a v n = { s with mem := (s.setBytes a v n).mem } := by
  unfold busWrite
  rw [busWriteN, xlate_dram hm hd]
  dsimp only
  unfold supplied
  rw [powered_dram hm hd, hc, if_pos rfl, quotaWord_dram hm hd]
  change memStore s m a (v % 2 ^ (8 * n)) n = _
  rw [memStore_dram hm hd s m _ n hn hp, setBytes_mod]

/-- A read through the bus that meets no poison is answered with the bytes as they stand. -/
theorem busRead_dram (s : State) (m n : Nat) (hp : s.poisoned a = false) (hc : s.hk.corePower = true) :
    busRead s m a n = (s, some (s.bytesAt a n, false)) := by
  unfold busRead
  rw [xlate_dram hm hd]
  dsimp only
  rw [powered_dram hm hd, hc, hp]
  rfl

end Dram

end Sys2Proof
end
section
/-! Rules about registers as a plain write reaches them (Table 0.2, R9, R32, R54, R418). -/

namespace Sys2Proof

open Sys2Proof.Machine

/-! ### Masked values -/

theorem testBit_blend (old v mask : Nat) {j : Nat} (h : j < 64) :
    (blend old v mask).testBit j = if mask.testBit j then v.testBit j else old.testBit j := by
  unfold blend
  rw [BitVec.testBit_toNat]
  simp only [BitVec.getLsbD_or, BitVec.getLsbD_and, BitVec.getLsbD_not, BitVec.getLsbD_ofNat, h, decide_true, Bool.true_and]
  cases mask.testBit j <;> simp

/-- A field whose bits all lie in the mask takes the value. -/
theorem getBits_blend (old v mask lo w : Nat) (h : lo + w ≤ 64) (hm : getBits mask lo w = 2 ^ w - 1) :
    getBits (blend old v mask) lo w = getBits v lo w := by
  unfold getBits at *
  refine Nat.eq_of_testBit_eq (fun i => ?_)
  have k := congrArg (fun x => x.testBit i) hm
  simp only [Nat.testBit_mod_two_pow, Nat.testBit_shiftRight, Nat.testBit_two_pow_sub_one] at k ⊢
  by_cases hi : i < w
  · rw [testBit_blend old v mask (by omega)]
    simp only [hi, decide_true, Bool.true_and] at k ⊢
    rw [k, if_pos rfl]
  · simp [hi]

/-- With no bit in the mask a word stays as it is. -/
theorem blend_none (old v : Nat) (h : old < 2 ^ 64) : blend old v 0 = old := by
  unfold blend
  rw [BitVec.not_zero, BitVec.and_allOnes, BitVec.and_zero, BitVec.or_zero, BitVec.toNat_ofNat, Nat.mod_eq_of_lt h]

theorem blend_lt (old v mask : Nat) : blend old v mask < 2 ^ 64 := BitVec.isLt _

/-! ### A write of a whole register -/

/-- What the register at `a` holds after a plain write of `v`: its RW bits that are not locked take the value. -/
def writtenValue (s : State) (a v : Nat) : Nat := blend (s.reg a) v (without (without (rwMask a) (lockMask s a)) 0)

theorem getBits_writtenValue (s : State) (a v : Nat) {lo w : Nat} (h : lo + w ≤ 64)
    (k : getBits (without (without (rwMask a) (lockMask s a)) 0) lo w = 2 ^ w - 1) :
    getBits (writtenValue s a v) lo w = getBits v lo w := getBits_blend _ _ _ _ _ h k

theorem writtenValue_lt (s : State) (a v : Nat) : writtenValue s a v < 2 ^ 64 := blend_lt _ _ _

/-- A plain write changes the register and, on the active of a pair, sends the write on (R390); set aside, it leaves the registers. -/
theorem setRw_accepted {s : State} {m a : Nat} (v : Nat) (h : standbyRefuses s m a = false) :
    setRw s m a v 0 = mirrorOut (s.setReg a (writtenValue s a v)) a (writtenValue s a v) := by
  unfold setRw
  rw [h]
  rfl

theorem mirrorOut_eq (s : State) (a v : Nat) : mirrorOut s a v = { s with out := (mirrorOut s a v).out } := by
  unfold mirrorOut
  split <;> rfl

/-- A register that is no mirrored one takes its write on every unit. -/
theorem standbyRefuses_unmirrored {a : Nat} (s : State) (m : Nat) (h : mirrored a = false) : standbyRefuses s m a = false := by
  unfold standbyRefuses
  rw [h, Bool.and_false]

/-- Only a standby sets a write aside. -/
theorem standbyRefuses_active {s : State} (m a : Nat) (h : s.standby = false) : standbyRefuses s m a = false := by
  unfold standbyRefuses
  rw [h, Bool.false_and, Bool.false_and]

theorem mirrorOut_reg (s : State) (a v b : Nat) : (mirrorOut s a v).reg b = s.reg b := by rw [mirrorOut_eq]; rfl

/-- A register that is no mirrored one is written and nothing is sent. -/
theorem setRw_unmirrored (s : State) (m : Nat) {a : Nat} (v : Nat) (h : mirrored a = false) :
    setRw s m a v 0 = s.setReg a (writtenValue s a v) := by
  rw [setRw_accepted v (standbyRefuses_unmirrored s m h)]
  unfold mirrorOut
  rw [h, Bool.and_false, if_neg (by decide)]

/-- The effect of a plain write that is taken: registers and what is sent. -/
theorem setRw_eq {s : State} {m a : Nat} (v : Nat) (h : standbyRefuses s m a = false) :
    setRw s m a v 0 = { s with regs := (setRw s m a v 0).regs, out := (setRw s m a v 0).out } := by
  rw [setRw_accepted v h, mirrorOut_eq]
  rfl

theorem setRw_reg_self {s : State} {m a : Nat} (v : Nat) (h : standbyRefuses s m a = false) :
    (setRw s m a v 0).reg a = writtenValue s a v := by
  rw [setRw_accepted v h, mirrorOut_reg, State.reg_setReg_self]
  exact Nat.mod_eq_of_lt (blend_lt _ _ _)

theorem setRw_reg_other {s : State} {m a : Nat} (v : Nat) (h : standbyRefuses s m a = false) {b : Nat} (hb : b ≠ a) :
    (setRw s m a v 0).reg b = s.reg b := by
  rw [setRw_accepted v h, mirrorOut_reg, State.reg_setReg_other _ _ hb]

/-- A write whose bits are all ignored leaves every register. -/
theorem setRw_reg_locked {s : State} {m a : Nat} (v : Nat) (h : standbyRefuses s m a = false)
    (k : without (without (rwMask a) (lockMask s a)) 0 = 0) (b : Nat) : (setRw s m a v 0).reg b = s.reg b := by
  by_cases hb : b = a
  · subst hb
    rw [setRw_reg_self v h, writtenValue, k, blend_none _ _ (s.reg_lt _)]
  · exact setRw_reg_other v h hb

/-- A field of a register whose bits take the value. -/
theorem setRw_g {s : State} {m : Nat} (f : Fld) (v : Nat) (h : standbyRefuses s m f.adr = false) (hf : f.lo + f.w ≤ 64)
    (k : getBits (without (without (rwMask f.adr) (lockMask s f.adr)) 0) f.lo f.w = 2 ^ f.w - 1) :
    (setRw s m f.adr v 0).g f = getBits v f.lo f.w := by
  unfold State.g
  rw [setRw_reg_self v h, getBits_writtenValue s f.adr v hf k]

/-! ### The bus reaches a register -/

/-- An address of BAR0 below the record windows names a register. -/
theorem xlate_page {a : Nat} (s : State) (h : a < 0x100000) : xlate s a = .reg a := by
  unfold xlate directTarget
  rw [if_neg (by omega), if_pos (by omega), if_pos (by omega), if_neg (by simp; omega), if_neg (by simp; omega),
    if_neg (by simp; omega)]

/-- A write of a whole word reaches the register as it is. -/
theorem busWrite_page {a : Nat} (s : State) (m v : Nat) (h : a < 0x100000) (h8 : a % 8 = 0) (hv : v < 2 ^ 64)
    (hc : s.hk.corePower = true) : busWrite s m a v 8 = regWriteOn (busWriteN 7) busRead s m a v := by
  unfold busWrite
  rw [busWriteN, xlate_page s h]
  dsimp only
  rw [if_pos rfl, Nat.mod_eq_of_lt hv, show a / 8 * 8 = a by omega]
  unfold regWrite supplied powered
  rw [hc, Bool.or_true, if_pos rfl]

/-- From offset 0x080 on, a register is its block's own; a plain write of one with a GW field is reported (R418). -/
theorem regWriteOn_block (bw : BusW) (br : BusR) (s : State) (m a v : Nat) (hp : pageTypeInst (a / 0x1000 * 0x1000) ≠ none)
    (ho : 0x80 ≤ a % 0x1000) : regWriteOn bw br s m a v =
      if hasGw (a / 0x1000 * 0x1000) (a % 0x1000) then
        guardPlain (blockWrite bw br s m (a / 0x1000 * 0x1000) a v) (a / 0x1000 * 0x1000) m (a % 0x1000)
      else blockWrite bw br s m (a / 0x1000 * 0x1000) a v := by
  unfold regWriteOn
  dsimp only
  rw [if_neg hp, if_neg (by omega), if_neg (by omega), if_neg (by omega), if_neg (by omega), if_neg (by omega),
    if_neg (by omega)]

/-- CYC_PERIOD_NEXT is set by a plain write. -/
theorem regWriteOn_cycPeriodNext (bw : BusW) (br : BusR) (s : State) (m v : Nat) :
    regWriteOn bw br s m F.CYC_PERIOD_NEXT.adr v = setRw s m F.CYC_PERIOD_NEXT.adr v 0 := by
  have g : hasGw (F.CYC_PERIOD_NEXT.adr / 0x1000 * 0x1000) (F.CYC_PERIOD_NEXT.adr % 0x1000) = false := by decide +kernel
  rw [regWriteOn_block _ _ _ _ _ _ (by decide) (by decide), g, if_neg (by decide)]
  rfl

/-- SG_CFG is set by a plain write. -/
theorem regWriteOn_sgCfg (bw : BusW) (br : BusR) (s : State) (m v : Nat) :
    regWriteOn bw br s m F.SG_CFG.adr v = setRw s m F.SG_CFG.adr v 0 := by
  have g : hasGw (F.SG_CFG.adr / 0x1000 * 0x1000) (F.SG_CFG.adr % 0x1000) = false := by decide +kernel
  rw [regWriteOn_block _ _ _ _ _ _ (by decide) (by decide), g, if_neg (by decide)]
  rfl

/-- A plain write to LE_AXEN, whose fields are GW, is reported (R418). -/
theorem regWriteOn_leAxen (bw : BusW) (br : BusR) (s : State) (m v : Nat) :
    regWriteOn bw br s m F.LE_AXEN_AXIS.adr v = guardPlain (setRw s m F.LE_AXEN_AXIS.adr v 0) pLE m 0x80 := by
  have g : hasGw (F.LE_AXEN_AXIS.adr / 0x1000 * 0x1000) (F.LE_AXEN_AXIS.adr % 0x1000) = true := by decide +kernel
  rw [regWriteOn_block _ _ _ _ _ _ (by decide) (by decide), g, if_pos rfl]
  rfl

/-! ### Which bits of these registers are written -/

theorem rwMask_cycPeriodNext : rwMask F.CYC_PERIOD_NEXT.adr = 0x1fff1fff := by decide
theorem rwMask_sgCfg : rwMask F.SG_CFG.adr = 0xffff01ffffffffff := by decide
/-- LE_AXEN has no RW bits: its fields are GW. -/
theorem rwMask_leAxen : rwMask F.LE_AXEN_AXIS.adr = 0 := by decide

theorem lockMask_cycPeriodNext (s : State) : lockMask s F.CYC_PERIOD_NEXT.adr = 0 := rfl
/-- The configuration of the governor is locked while it is enabled (R54). -/
theorem lockMask_sgCfg (s : State) : lockMask s F.SG_CFG.adr = if s.enabled pSG then allBits else 0 := rfl

/-- GUARD_STATE after a plain write of a register with a GW field: RESULT 10 and the master (R418). -/
theorem guardPlain_state (s : State) {p m off : Nat} (hm : m < 65536) (ho : off < 4096) (he : eventReg (F.GUARD_STATE p).adr = false) :
    (guardPlain s p m off).g (F.GUARD_STATE_RESULT p) = 10 ∧ (guardPlain s p m off).g (F.GUARD_STATE_MASTER p) = m := by
  have hp : s.g (F.GUARD_STATE_PENDING p) < 2 ^ 1 := getBits_lt _ _ _
  have hq : s.g (F.GUARD_STATE_OPEN p) < 2 ^ 1 := getBits_lt _ _ _
  have k : (guardPlain s p m off).reg (F.GUARD_STATE p).adr = m * 2 ^ 48 + off * 2 ^ 32 + s.g (F.GUARD_STATE_PENDING p) * 2 ^ 9 +
      s.g (F.GUARD_STATE_OPEN p) * 2 ^ 8 + 10 := by
    unfold guardPlain guardFail
    rw [(Follows.raisePage2 (K := False) _ _ _ _ _ _).regs _ he, State.reg_setReg_self]
    simp only [Nat.shiftLeft_eq]
    omega
  unfold State.g
  rw [k]
  unfold getBits
  simp only [Nat.shiftRight_eq_div_pow]
  omega

/-- A plain write of a register with a GW field changes no other register but those of events. -/
theorem guardPlain_reg (s : State) (p m off : Nat) {b : Nat} (hb : b ≠ (F.GUARD_STATE p).adr) (he : eventReg b = false) :
    (guardPlain s p m off).reg b = s.reg b := by
  unfold guardPlain guardFail
  rw [(Follows.raisePage2 (K := False) _ _ _ _ _ _).regs _ he, State.reg_setReg_other _ _ hb]

end Sys2Proof
end
section
/-! While the event hub is disabled, what follows from a command heals no poisoned word (R358, R428). -/

namespace Sys2Proof

open Sys2Proof.Machine

/-- The event hub is disabled, and the poisoned words are those of `l`. -/
def PoisonKept (l : List Nat) (s : State) : Prop := s.enabled pEH = false ∧ s.poison = l

variable {l : List Nat}

/-- What may follow from a command leaves the hub disabled; it is left to see that it heals nothing. -/
theorem PoisonKept.follows {K : Prop} {s u : State} (h : PoisonKept l s) (k : Follows K s u) (p : u.poison = s.poison) :
    PoisonKept l u := ⟨k.enabled.trans h.1, p.trans h.2⟩

theorem PoisonKept.ite {c : Prop} [Decidable c] {s t : State} (h : PoisonKept l s) (k : PoisonKept l t) :
    PoisonKept l (if c then s else t) := by split <;> assumption

/-- With the hub disabled an event is at most counted as lost. -/
theorem PoisonKept.raiseWith {s : State} (h : PoisonKept l s) (src event info : Nat) (more : Option (Nat × Nat)) :
    PoisonKept l (Machine.raiseWith s src event info more) := by
  refine h.follows (Follows.raiseWith (K := False) s src event info more) ?_
  unfold Machine.raiseWith
  split
  · rfl
  · dsimp only
    split
    · rw [if_pos (by simp [h.1])]; rfl
    · split <;> (rw [emitRecord_disabled s _ _ _ h.1]; rfl)

theorem PoisonKept.ms {s : State} (h : PoisonKept l s) (m : MemSt) : PoisonKept l { s with ms := m } := ⟨h.1, h.2⟩

theorem PoisonKept.raiseUe {s : State} (h : PoisonKept l s) (m a : Nat) : PoisonKept l (Machine.raiseUe s m a) := by
  unfold Machine.raiseUe
  dsimp only
  refine PoisonKept.ite (h.raiseWith _ _ _ _) (PoisonKept.raiseWith ?_ _ _ _ _)
  refine PoisonKept.ite (PoisonKept.ms (PoisonKept.ite h ?_) _) (PoisonKept.ms (PoisonKept.ite h ?_) _)
  all_goals
    split
    · rename_i k e
      exact h.follows (raiseUe_log (K := False) _ s (List.mem_range.mp (List.mem_of_find?_eq_some e))) rfl
    · exact h

theorem PoisonKept.reportUe {s : State} (h : PoisonKept l s) (n : Nat) : PoisonKept l (Machine.reportUe n s) := by
  unfold Machine.reportUe
  exact PoisonKept.ite h (forEach_keeps _ (fun e _ k => k.raiseUe e.1 e.2) _ _ ⟨h.1, h.2⟩)

theorem PoisonKept.reportSaves {s : State} (h : PoisonKept l s) : PoisonKept l (Machine.reportSaves s) := by
  unfold Machine.reportSaves
  refine PoisonKept.ite h (forEach_keeps _ (fun f r k => PoisonKept.raiseWith ?_ _ _ _ _) _ _ ⟨h.1, h.2⟩)
  have e : ∀ r : State, (Machine.noteTableEcc (Machine.noteXuFault r 0x41 f.1 f.2.1 f.2.2) f.1 f.2.2).poison = r.poison := by
    intro r
    unfold Machine.noteTableEcc
    split <;> rfl
  refine ⟨?_, (e r).trans k.2⟩
  have m := (Moves.noteXuFault (W := fun _ => True) (K := False) r 0x41 f.1 f.2.1 f.2.2).trans
    (Moves.noteTableEcc _ f.1 f.2.2)
  rw [← k.1]
  unfold State.enabled State.gb State.g
  rw [m.regs _ (by decide)]

theorem PoisonKept.enginesAgain {s : State} (h : PoisonKept l s) : PoisonKept l (Machine.enginesAgain s) := by
  refine h.follows (Follows.enginesAgain (K := False) s) ?_
  unfold Machine.enginesAgain
  split <;> rfl

theorem PoisonKept.protFollow {s : State} (h : PoisonKept l s) : PoisonKept l (Machine.protFollow s) := by
  refine h.follows (Follows.protFollow (K := False) s) ?_
  unfold Machine.protFollow
  dsimp only
  split
  · rfl
  · split <;> rfl

theorem PoisonKept.put {s : State} (h : PoisonKept l s) (f : Fld) (v : Nat) (hf : (F.CTRL_ENABLE pEH).adr ≠ f.adr) :
    PoisonKept l (s.put f v) := by
  refine ⟨?_, h.2⟩
  rw [← h.1]
  unfold State.enabled State.gb State.g
  rw [State.reg_put_other s f v hf]

theorem PoisonKept.completeStart {s : State} (h : PoisonKept l s) (n : Nat) : PoisonKept l (Machine.completeStart s n) := by
  unfold Machine.completeStart
  dsimp only
  refine PoisonKept.raiseWith (PoisonKept.put ?_ _ _ (by decide)) _ _ _ _
  have k : PoisonKept l (s.put F.HK_FAILCNT_COUNT 0) := h.put _ _ (by decide)
  split
  · exact ⟨h.1, h.2⟩
  · exact ⟨k.1, k.2⟩

theorem PoisonKept.onHk {s : State} (h : PoisonKept l s) (g : HkSt → HkSt) : PoisonKept l (s.onHk g) := ⟨h.1, h.2⟩

theorem PoisonKept.noteStages {s : State} (h : PoisonKept l s) : PoisonKept l (Machine.noteStages s) := by
  unfold Machine.noteStages
  refine PoisonKept.ite h ?_
  exact PoisonKept.ite ((h.onHk _).completeStart _) (h.onHk _)

theorem PoisonKept.levelPass {s : State} (h : PoisonKept l s) (old new : State) : PoisonKept l (Machine.levelPass old new s) :=
  forEach_keeps _ (fun p r k => by dsimp only; exact PoisonKept.ite k (k.raiseWith _ _ _ _)) _ _ h

theorem PoisonKept.levelRounds (n : Nat) : ∀ (old : State) {new : State}, PoisonKept l new → PoisonKept l (Machine.levelRounds n old new) := by
  induction n with
  | zero => exact fun _ _ h => h
  | succ n ih =>
    intro old new h
    exact PoisonKept.ite h (ih _ (h.levelPass _ _))

/-- Nothing that comes after a command heals a word while the hub is disabled. -/
theorem PoisonKept.after {r : State} (h : PoisonKept l r) (s : State) : PoisonKept l (Machine.after s r) :=
  have k := (h.reportUe s.ueDue.length).reportSaves.enginesAgain.protFollow.noteStages
  PoisonKept.ite k (PoisonKept.levelRounds 256 s k)

/-- A command whose effect leaves words poisoned leaves them so while the hub is disabled. -/
theorem run_poison {t : DT} {s r : State} {f : State → State} (h : f (arrive t s) = r) (k : Contained t s r)
    (e : r.enabled pEH = false) : (run t s f).poison = r.poison := by
  subst h
  have p : (Machine.after s (landed s (f (arrive t s)))).poison = (f (arrive t s)).poison := by
    rw [k.landed]
    exact (PoisonKept.after ⟨e, rfl⟩ s).2
  exact p

end Sys2Proof
end
section
/-! A master's write by address, a write of the device's own blocks, and an access that is held up (R7, R27, R363, R379). -/

namespace Sys2Proof

open Sys2Proof.Machine

/-! ### A master's write -/

/-- A write within one word by a master that nothing holds up acts through the bus. -/
theorem exec_registerWrite {t : DT} {m n : Nat} {s : State} (a : Nat) (v : Word) (h1 : 1 ≤ n) (hn : n + a % 8 ≤ 8)
    (hu : Unhindered t m s) : exec (.registerWrite t m a n v) s =
      .next (run t s (fun s => busWrite (qeCatchUp s false) m a (v.toNat % 2 ^ (8 * n)) n)) := by
  change execRegisterWrite t m a n v s = _
  unfold execRegisterWrite
  rw [if_pos (by simp [h1, hn]), runBehind_free t s (.bus m a n v) _ (hu.free (.bus m a n v) rfl)]

/-- The effect of a write of a whole register. -/
theorem registerWrite_page {t : DT} {m a : Nat} {s : State} (v : Word) (hu : Unhindered t m s) (hq : QuadQuiet s)
    (hc : s.hk.corePower = true) (ha : a < 0x100000) (h8 : a % 8 = 0) {r : State}
    (hr : regWriteOn (busWriteN 7) busRead (arrive t s) m a v.toNat = r) (hk : Contained t s r) :
    ∃ u, exec (.registerWrite t m a 8 v) s = .next u ∧ Ends r u := by
  refine ⟨_, exec_registerWrite a v (by decide) (by omega) hu, run_ends_of_effect ?_ hk⟩
  rw [qeCatchUp_arrive hq, busWrite_page _ _ _ ha h8 (Nat.mod_lt _ (by decide)) (by rw [arrive_hk]; exact hc),
    Nat.mod_eq_of_lt v.isLt]
  exact hr

/-- A plain write that is taken, its frame said without registers and what is sent. -/
theorem registerWrite_setRw {t : DT} {m a : Nat} {s : State} (v : Word) (hu : Unhindered t m s) (hq : QuadQuiet s)
    (hc : s.hk.corePower = true) (ha : a < 0x100000) (h8 : a % 8 = 0)
    (hw : ∀ bw br r, regWriteOn bw br r m a v.toNat = setRw r m a v.toNat 0)
    (hs : standbyRefuses (arrive t s) m a = false) :
    ∃ u, exec (.registerWrite t m a 8 v) s = .next u ∧ Ends (setRw (arrive t s) m a v.toNat 0) u ∧
      Ends { arrive t s with regs := u.regs, out := u.out } u := by
  have e := setRw_eq v.toNat hs
  obtain ⟨u, h1, h2⟩ := registerWrite_page v hu hq hc ha h8 (hw _ _ _)
    (.of (by rw [e]) (by rw [e]) (by rw [e]) (by rw [e]) (by rw [e]))
  refine ⟨u, h1, h2, ?_⟩
  have k := h2.regsOut
  rw [e] at k
  exact k

/-- Registers and what is sent let nothing go on. -/
theorem Contained.regsOut {t : DT} {s r : State} (h : Contained t s r) (regs : List (Nat × Word)) (out : List Out) :
    Contained t s { r with regs := regs, out := out } := ⟨h.time, h.pending, h.devNow, h.queues, h.answered⟩

theorem Contained.setReg {t : DT} {s r : State} (h : Contained t s r) (a v : Nat) : Contained t s (r.setReg a v) :=
  h.regsOut (tput regDefault r.regs a (BitVec.ofNat 64 v)) r.out

/-- A plain write of a register with a GW field is contained. -/
theorem Contained.guardPlain {t : DT} {s r : State} (h : Contained t s r) (p m off : Nat) : Contained t s (guardPlain r p m off) := by
  unfold Machine.guardPlain guardFail
  exact (h.setReg _ _).follows (Follows.raisePage2 (K := False) _ _ _ _ _ _)

/-- A plain write to LE_AXEN, taken or set aside by a standby, sets no bit of a register. -/
theorem setRw_leAxen {t : DT} {s r : State} (m v : Nat) (h : Contained t s r) :
    Contained t s (setRw r m F.LE_AXEN_AXIS.adr v 0) ∧
    ∀ b, eventReg b = false → (setRw r m F.LE_AXEN_AXIS.adr v 0).reg b = r.reg b := by
  by_cases k : standbyRefuses r m F.LE_AXEN_AXIS.adr = true
  · have e : setRw r m F.LE_AXEN_AXIS.adr v 0 = raiseWriteRefused r := by unfold setRw; rw [if_pos k]
    have f : Follows False r (raiseWriteRefused r) := Follows.raisePage _ _ _ _
    rw [e]
    exact ⟨h.follows f, fun b hb => f.regs b hb⟩
  · rw [Bool.not_eq_true] at k
    have e := setRw_eq v k
    refine ⟨?_, fun b _ => setRw_reg_locked v k ?_ b⟩
    · rw [e]
      exact h.regsOut _ _
    · rw [rwMask_leAxen]
      simp [without]

section Parts

variable {t : DT} {m : Nat} {s : State} (v : Word) (hu : Unhindered t m s) (hq : QuadQuiet s) (hc : s.hk.corePower = true)
include hu hq hc

/-- The bytes of a write within a word of DRAM are stored. -/
theorem registerWrite_dram {a n : Nat} (h1 : 1 ≤ n) (hn : n + a % 8 ≤ 8) (ha : inMemory a = true) (hd : inDram a = true)
    (hp : s.poisoned a = false) :
    DoesExactly (.registerWrite t m a n v) s { arrive t s with mem := (s.setBytes a v.toNat n).mem } := by
  refine doesExactly_of_effect (exec_registerWrite a v h1 hn hu) ?_ (.of rfl rfl rfl rfl rfl)
  rw [qeCatchUp_arrive hq, busWrite_dram ha hd _ _ _ _ hn (by rw [arrive_poisoned]; exact hp) (by rw [arrive_hk]; exact hc),
    arrive_setBytes, setBytes_mod]

/-- The fields of CYC_PERIOD_NEXT take the value; the time and the schedule in force stay (R32). -/
theorem registerWrite_cycPeriodNext (hs : s.standby = false) (ht : Settled s) :
    ∃ u, exec (.registerWrite t m F.CYC_PERIOD_NEXT.adr 8 v) s = .next u ∧
      (∀ f ∈ [F.CYC_PERIOD_NEXT_PERIOD, F.CYC_PERIOD_NEXT_DL_END], u.g f = getBits v.toNat f.lo f.w) ∧
      u.time = s.time.advance t ∧ (∀ b, eventReg b = false → b ≠ F.CYC_PERIOD_NEXT.adr → u.reg b = s.reg b) ∧
      Ends { arrive t s with regs := u.regs, out := u.out } u := by
  have hs' : standbyRefuses (arrive t s) m F.CYC_PERIOD_NEXT.adr = false :=
    standbyRefuses_active _ _ (by rw [arrive_standby]; exact hs)
  obtain ⟨u, h1, h2, h3⟩ := registerWrite_setRw v hu hq hc (by decide) (by decide)
    (fun bw br r => regWriteOn_cycPeriodNext bw br r m v.toNat) hs'
  have field : ∀ f : Fld, f.adr = F.CYC_PERIOD_NEXT.adr → f.lo + f.w ≤ 64 → getBits 0x1fff1fff f.lo f.w = 2 ^ f.w - 1 →
      u.g f = getBits v.toNat f.lo f.w := by
    intro f ha hf hb
    rw [h2.g (by rw [ha]; decide)]
    rw [← ha] at hs' ⊢
    refine setRw_g f _ hs' hf ?_
    rw [ha, rwMask_cycPeriodNext, lockMask_cycPeriodNext]
    exact hb
  refine ⟨u, h1, ?_, ?_, fun b hb hne => ?_, h3⟩
  · intro f hf
    fin_cases hf <;> exact field _ rfl (by decide) (by decide)
  · exact (h3.time ((congrArg CycleSt.ask (arrive_cyc t s)).trans ht)).trans (arrive_time t s)
  · rw [h2.reg hb, setRw_reg_other _ hs' hne, arrive_reg]

/-- While the governor is enabled SG_CFG keeps its value (R54). -/
theorem registerWrite_sgCfg_locked (hg : s.enabled pSG = true) :
    ∃ u, exec (.registerWrite t m F.SG_CFG_TARGET.adr 8 v) s = .next u ∧ (∀ b, eventReg b = false → u.reg b = s.reg b) ∧
      Ends { arrive t s with regs := u.regs, out := u.out } u := by
  have hs : standbyRefuses (arrive t s) m F.SG_CFG.adr = false := standbyRefuses_unmirrored _ _ (by decide)
  obtain ⟨u, h1, h2, h3⟩ := registerWrite_setRw v hu hq hc (by decide) (by decide)
    (fun bw br r => regWriteOn_sgCfg bw br r m v.toNat) hs
  refine ⟨u, h1, fun b hb => ?_, h3⟩
  rw [h2.reg hb, setRw_reg_locked _ hs ?_, arrive_reg]
  rw [rwMask_sgCfg, lockMask_sgCfg, arrive_enabled, hg]
  decide

/-- A plain write to LE_AXEN leaves it, and GUARD_STATE shows RESULT 10 with the master (R418). -/
theorem registerWrite_leAxen (hm : m < 65536) :
    ∃ u, exec (.registerWrite t m F.LE_AXEN_AXIS.adr 8 v) s = .next u ∧ u.g (F.GUARD_STATE_RESULT pLE) = 10 ∧
      u.g (F.GUARD_STATE_MASTER pLE) = m ∧ u.reg F.LE_AXEN_AXIS.adr = s.reg F.LE_AXEN_AXIS.adr ∧
      (∀ b, eventReg b = false → b ≠ (F.GUARD_STATE pLE).adr → u.reg b = s.reg b) := by
  obtain ⟨h1, h2⟩ := setRw_leAxen m v.toNat (.arrive t s)
  obtain ⟨u, h3, h4⟩ := registerWrite_page v hu hq hc (by decide) (by decide) (regWriteOn_leAxen _ _ _ _ _) (h1.guardPlain pLE m 0x80)
  obtain ⟨h5, h6⟩ := guardPlain_state (setRw (arrive t s) m F.LE_AXEN_AXIS.adr v.toNat 0) (p := pLE) (off := 0x80) hm
    (by decide) (by decide)
  have frame : ∀ b, eventReg b = false → b ≠ (F.GUARD_STATE pLE).adr → u.reg b = s.reg b := fun b hb hne => by
    rw [h4.reg hb, guardPlain_reg _ _ _ _ hne hb, h2 b hb, arrive_reg]
  exact ⟨u, h3, (h4.g (by decide)).trans h5, (h4.g (by decide)).trans h6, frame _ (by decide) (by decide), frame⟩

end Parts

/-- A master's write: DRAM takes the bytes, a register its RW bits (R7, R9, R32, R54, R418). -/
theorem aWriteReachesMemoryOrRegister : AWriteReachesMemoryOrRegister := fun _ _ _ _ v _ hm hc hq hu =>
  ⟨registerWrite_dram v hu hq hc, registerWrite_cycPeriodNext v hu hq hc, registerWrite_sgCfg_locked v hu hq hc,
    registerWrite_leAxen v hu hq hc hm⟩

/-! ### A write of the device's own blocks -/

/-- What a step on an empty queue of commands makes of the writes of the device's own blocks that wait. -/
def madeOnIdle (s r : State) : State := boundaryPast s (landed r (devWritten r.devQ { r with devQ := [] }))

/-- The state in which they are made: none of them waits any more. -/
def devQTaken (s : State) : State := { arriveAt s.time s with devQ := [] }

theorem devQTaken_reg (s : State) (b : Nat) : (devQTaken s).reg b = s.reg b := by
  unfold devQTaken
  rw [arriveAt_eq]
  rfl

theorem devQTaken_enabled (s : State) (p : Nat) : (devQTaken s).enabled p = s.enabled p := by
  unfold State.enabled State.gb State.g
  rw [devQTaken_reg]

theorem devQTaken_hk (s : State) : (devQTaken s).hk = s.hk := by
  unfold devQTaken
  rw [arriveAt_eq]

/-- With one write waiting, of a register that is no mirrored one, the step makes it as a plain write. -/
theorem madeOnIdle_setRw {s : State} {m a : Nat} {v : Word} (hd : s.devQ = [⟨m, a, v⟩]) (hn : NothingHeldUp s)
    (hc : s.hk.corePower = true) (ha : a < 0x100000) (h8 : a % 8 = 0) (hu : mirrored a = false)
    (hw : ∀ bw br r, regWriteOn bw br r m a v.toNat = setRw r m a v.toNat 0) :
    madeOnIdle s (arriveAt s.time s) = (devQTaken s).setReg a (writtenValue (devQTaken s) a v.toNat) := by
  have w : devWritten (arriveAt s.time s).devQ (devQTaken s) =
      (devQTaken s).setReg a (writtenValue (devQTaken s) a v.toNat) := by
    rw [show (arriveAt s.time s).devQ = s.devQ by rw [arriveAt_eq], hd]
    change busWrite (devQTaken s) m a v.toNat 8 = _
    rw [busWrite_page _ m _ ha h8 v.isLt (by rw [devQTaken_hk]; exact hc), hw, setRw_unmirrored _ _ _ hu]
  unfold madeOnIdle
  change boundaryPast s (landed (arriveAt s.time s) (devWritten (arriveAt s.time s).devQ (devQTaken s))) = _
  rw [w, boundaryPast_eq s _ hn]
  exact landed_eq _ _ rfl (goOn_self _ _ rfl rfl)

/-- The device's own write that waits is made where no command does (R363). -/
theorem aDeviceWriteIsMadeOnAnEmptyQueue : ADeviceWriteIsMadeOnAnEmptyQueue := by
  intro m v s hp hd hc hn hg
  have x : step s = .next (runAt s s.time s.time (madeOnIdle s)) := by
    unfold step idle
    rw [hp, hd]
    rfl
  have made := madeOnIdle_setRw hd hn hc (by decide) (by decide) (by decide) (fun bw br r => regWriteOn_sgCfg bw br r m v.toNat)
  have h := runAt_ends s s.time (madeOnIdle s) (by rw [made]; exact arriveAt_time _ _) (by rw [made]; exact arriveAt_pending _ _)
  rw [made] at h
  have field : ∀ f : Fld, f.adr = F.SG_CFG.adr → f.lo + f.w ≤ 64 → getBits 0xffff01ffffffffff f.lo f.w = 2 ^ f.w - 1 →
      (runAt s s.time s.time (madeOnIdle s)).g f = getBits v.toNat f.lo f.w := by
    intro f ha hf hb
    have k : ((devQTaken s).setReg F.SG_CFG.adr (writtenValue (devQTaken s) F.SG_CFG.adr v.toNat)).g f =
        getBits (writtenValue (devQTaken s) F.SG_CFG.adr v.toNat) f.lo f.w := by
      rw [← ha, State.g_setReg_self, Nat.mod_eq_of_lt (writtenValue_lt _ _ _)]
    rw [h.g (by rw [ha]; decide), k]
    refine getBits_writtenValue _ _ _ hf ?_
    rw [rwMask_sgCfg, lockMask_sgCfg, devQTaken_enabled, hg]
    exact hb
  refine ⟨_, x, ?_, fun b hb hne => ?_, h.withRegs⟩
  · intro f hf
    fin_cases hf <;> exact field _ rfl (by decide) (by decide)
  · rw [h.reg hb, State.reg_setReg_other _ _ hne, devQTaken_reg]

/-! ### An access that is held up -/

/-- What stands before an access at the command's DT holds it up. -/
theorem heldUp_arrive {t : DT} {s : State} {e : HeldAccess}
    (h : (masterWaits s e.master || s.accHeld.any (fun x => x.master = e.master) || (atBoundary (arrive t s) && e.writes)) = true) :
    heldUp (arrive t s) e = true := by
  unfold heldUp
  rw [arrive_masterWaits, arrive_accHeld, Bool.or_right_comm]
  exact h

/-- An offset that lies in its space names an address, in the same place of its word. -/
theorem spaceAddr_some {sp off : Nat} (h : off < spaceSize sp) : ∃ a, spaceAddr sp off = some a ∧ a % 8 = off % 8 := by
  refine ⟨_, if_pos h, ?_⟩
  unfold sramBase dramBase
  split_ifs <;> omega

/-- An access of the host within a word comes to the bus while the link is up and the function is in D0 (R433). -/
theorem hostAccess_reaches {s : State} {sp off n a : Nat} (w : Option (Word × Bool)) (ha : spaceAddr sp off = some a)
    (h8 : a % 8 = off % 8) (hl : s.hp.link = true) (hd : s.hp.d3hot = false) (h1 : 1 ≤ n) (hn : n + off % 8 ≤ 8) :
    hostAccess s sp off n w false = behind s (.host sp off n w) (fun s => hostMake s sp off n w) := by
  unfold hostAccess hpInbound
  rw [ha]
  dsimp only
  rw [hl, hd, if_neg (by simp; omega), Bool.false_and, if_neg (by decide)]

/-- A message without a PEC byte is taken (R442). -/
theorem mpTaken_none (s : State) (c : Nat) (l : List Word) : mpTaken s c l none = true := rfl

theorem mpWrite_taken {s : State} {i : MpIn} {v : Word} (h : mpTaken s 1 [i.addr, v] i.pec = true) :
    mpWrite s i v = behind s (.mpWrite i.addr v) (fun s => mpWriteMake s i.addr v) := if_pos h

theorem mpRead_taken {s : State} {i : MpIn} (h : mpTaken s 2 [i.addr] i.pec = true) :
    mpRead s i = behind s (.mpRead i.addr) (fun s => mpReadMake s i.addr) := if_pos h

/-- Whether an access is held up does not depend on the JTAG port. -/
theorem heldUp_onJtag {s : State} {e : HeldAccess} {f : JtagSt → JtagSt} : heldUp (s.onJtag f) e = heldUp s e := rfl

/-- An access behind another one joins those held (R27, R379, R421). -/
theorem anAccessHeldUpWaitsInOrder : AnAccessHeldUpWaitsInOrder := by
  intro t m a n q sp off v addr w s hq
  refine ⟨fun h1 hn h => ?_, fun h => ?_, fun h => ?_, fun h h1 hn hsp ho hl hd => ?_, fun h => ?_, fun h => ?_, fun x h => ?_⟩
  · refine doesExactly_held (f := fun s => busWrite (qeCatchUp s false) m a (v.toNat % 2 ^ (8 * n)) n) ?_ (heldUp_arrive h)
    change execRegisterWrite t m a n v s = _
    unfold execRegisterWrite
    rw [if_pos (by simp [h1, hn])]
  · exact doesExactly_held rfl (heldUp_arrive h)
  · exact doesExactly_held rfl (heldUp_arrive h)
  · obtain ⟨b, hb, h8⟩ := spaceAddr_some ho
    have k : hostAccess (qeCatchUp (arrive t s) false) sp off n w false =
        { arrive t s with accHeld := s.accHeld ++ [.host sp off n w] } := by
      rw [qeCatchUp_arrive hq, hostAccess_reaches w hb h8 (by rw [arrive_hp]; exact hl) (by rw [arrive_hp]; exact hd) h1 hn,
        behind_held _ _ _ (heldUp_arrive h), arrive_accHeld]
    refine ⟨fun e => ?_, fun x p e => ?_⟩ <;> subst e <;> exact doesExactly_of_effect rfl k (.of rfl rfl rfl rfl rfl)
  · refine doesExactly_of_effect rfl ?_ (.of rfl rfl rfl rfl rfl)
    dsimp only
    rw [qeCatchUp_arrive hq, mpWrite_taken (mpTaken_none _ _ _), behind_held _ _ _ (heldUp_arrive h), arrive_accHeld]
  · refine doesExactly_of_effect rfl ?_ (.of rfl rfl rfl rfl rfl)
    dsimp only
    rw [qeCatchUp_arrive hq, mpRead_taken (mpTaken_none _ _ _), behind_held _ _ _ (heldUp_arrive h), arrive_accHeld]
  · refine doesExactly_of_effect rfl ?_ (.of rfl rfl rfl rfl rfl)
    dsimp only
    rw [qeCatchUp_arrive hq]
    unfold jtagDebug
    rw [behind_held _ _ _ (heldUp_onJtag.trans (heldUp_arrive h))]
    unfold State.onJtag
    rw [arrive_accHeld, arrive_jtag]

end Sys2Proof
end
section
/-! The other ways in to DRAM (R21, R26, R433 to R436, R442, R450): the host through BAR4, MP and JTAG's DEBUG. -/

namespace Sys2Proof

open Sys2Proof.Machine

/-! ### The spaces -/

/-- BAR4 is DRAM. -/
theorem spaceAddr_bar4 {off : Nat} (h : off < 0x400000000) : spaceAddr 2 off = some (dramBase + off) := if_pos h

/-- The space and the offset that an address word of MP spells. -/
theorem mpAddr_bar4 {off : Nat} (h : off < 0x400000000) :
    getBits (BitVec.ofNat 64 (2 * 2 ^ 62 + off)).toNat 62 2 = 2 ∧ getBits (BitVec.ofNat 64 (2 * 2 ^ 62 + off)).toNat 0 62 = off := by
  rw [BitVec.toNat_ofNat, Nat.mod_eq_of_lt (by omega)]
  unfold getBits
  simp only [Nat.shiftRight_eq_div_pow]
  omega

/-- A word of DRAM is 64 bits. -/
theorem toNat_bytesAt (s : State) (a : Nat) : (BitVec.ofNat 64 (s.bytesAt a 8)).toNat = s.bytesAt a 8 := by
  rw [BitVec.toNat_ofNat, Nat.mod_eq_of_lt (bytesAt_lt s 8 a)]

/-- An access within a word of BAR4 lies within a word of DRAM. -/
theorem dramBase_mod (off : Nat) : (dramBase + off) % 8 = off % 8 := by unfold dramBase; omega

section Ways

variable {off : Nat} (ho : off < 0x400000000)
include ho

/-! ### What each way in makes of DRAM -/

section Powered

variable {s : State} (hp : s.poisoned (dramBase + off) = false) (hc : s.hk.corePower = true)
include hp hc

theorem hostMake_write (n : Nat) (v : Word) (hn : n + off % 8 ≤ 8) :
    hostMake s 2 off n (some (v, false)) = { s with mem := (s.setBytes (dramBase + off) v.toNat n).mem } := by
  obtain ⟨hm, hd⟩ := dram_offset ho
  unfold hostMake supplied
  rw [spaceAddr_bar4 ho]
  dsimp only
  rw [powered_dram hm hd, hc, if_pos rfl, busWrite_dram hm hd _ _ _ _ (by rw [dramBase_mod]; exact hn) hp hc]

theorem hostMake_read (n : Nat) :
    hostMake s 2 off n none = s.emit (.hostReply false (BitVec.ofNat 64 (s.bytesAt (dramBase + off) n))) := by
  obtain ⟨hm, hd⟩ := dram_offset ho
  unfold hostMake supplied
  rw [spaceAddr_bar4 ho]
  dsimp only
  rw [powered_dram hm hd, hc, if_pos rfl, busRead_dram hm hd _ _ _ hp hc]

omit hp in
/-- A poisoned TLP poisons the word and shows in Advanced Error Reporting. -/
theorem hostMake_poison (n : Nat) (v : Word) : hostMake s 2 off n (some (v, true)) =
    memPoison (s.onHp (fun h => { h with aer := h.aer ||| 2 ^ 12 })) (dramBase + off) := by
  obtain ⟨hm, hd⟩ := dram_offset ho
  unfold hostMake supplied
  rw [spaceAddr_bar4 ho]
  dsimp only
  rw [powered_dram hm hd, hc, if_pos rfl]
  unfold poisonedWrite
  dsimp only
  rw [xlate_dram hm hd]
  dsimp only
  rw [recordOffset_dram hm hd, standbyRefuses_unmirrored _ _ (by decide), if_neg (by decide)]

end Powered

theorem hostMake_dark {s : State} (hc : s.hk.corePower = false) (n : Nat) (w : Option (Word × Bool)) :
    hostMake s 2 off n w = s.emit (.noPower 0) := by
  obtain ⟨hm, hd⟩ := dram_offset ho
  unfold hostMake supplied
  rw [spaceAddr_bar4 ho]
  dsimp only
  rw [powered_dram hm hd, hc, if_neg (by decide)]

/-- While the link is down or the function in D3hot nothing of the host comes in. -/
theorem hostAccess_closed {s : State} (h : s.hp.link = false ∨ s.hp.d3hot = true) (n : Nat) (w : Option (Word × Bool)) (full : Bool) :
    hostAccess s 2 off n w full = s := by
  unfold hostAccess
  rw [spaceAddr_bar4 ho]
  dsimp only
  have k : hpInbound s = false := by
    unfold hpInbound
    rcases h with h | h <;> simp [h]
  rw [k, if_pos (by simp)]

/-- A write that meets the full ingress buffer is discarded (R21). -/
theorem hostAccess_full {s : State} {n : Nat} (w : Word × Bool) (hl : s.hp.link = true) (hd : s.hp.d3hot = false) (h1 : 1 ≤ n)
    (hn : n + off % 8 ≤ 8) : hostAccess s 2 off n (some w) true = hpDiscard s := by
  have h8 := dramBase_mod off
  unfold hostAccess hpInbound
  rw [spaceAddr_bar4 ho]
  dsimp only
  rw [hl, hd, if_neg (by simp; omega)]
  rfl

/-- Why MP cannot reach an aligned word of DRAM: the core supplies are down. -/
theorem mpStatusOf_bar4 (s : State) (h8 : off % 8 = 0) : mpStatusOf s 2 off = if s.hk.corePower then 0 else 3 := by
  obtain ⟨hm, hd⟩ := dram_offset ho
  have k : spaceSize 2 = 0x400000000 := rfl
  unfold mpStatusOf
  rw [spaceAddr_bar4 ho, if_neg (by omega), if_neg (by omega), Option.all_some, powered_dram hm hd]
  cases s.hk.corePower <;> rfl

section Aligned

variable {s : State} (h8 : off % 8 = 0)
include h8

theorem mpWriteMake_dark (v : Word) (hc : s.hk.corePower = false) :
    mpWriteMake s (BitVec.ofNat 64 (2 * 2 ^ 62 + off)) v = { s with mpStatus := 3 } := by
  obtain ⟨e1, e2⟩ := mpAddr_bar4 ho
  unfold mpWriteMake
  dsimp only
  rw [e1, e2, mpStatusOf_bar4 ho s h8, hc]
  rfl

/-- A read of MP answers with the status kept from before, or else with its own. -/
theorem mpReadMake_dark (hc : s.hk.corePower = false) : mpReadMake s (BitVec.ofNat 64 (2 * 2 ^ 62 + off)) =
    mpAnswer { s with mpStatus := 0 } (if s.mpStatus ≠ 0 then s.mpStatus else 3) 0 := by
  obtain ⟨e1, e2⟩ := mpAddr_bar4 ho
  unfold mpReadMake
  dsimp only
  rw [e1, e2, mpStatusOf_bar4 ho s h8, hc]
  rfl

theorem jtagMake_dark (w : Option Word) (hc : s.hk.corePower = false) : jtagMake s 2 off w = s.emit (.noPower 4) := by
  obtain ⟨hm, hd⟩ := dram_offset ho
  unfold jtagMake supplied
  rw [show off / 8 * 8 = off by omega, spaceAddr_bar4 ho]
  dsimp only
  rw [powered_dram hm hd, hc, if_neg (by decide)]

variable (hp : s.poisoned (dramBase + off) = false) (hc : s.hk.corePower = true)
include hp hc

theorem mpWriteMake_stores (v : Word) : mpWriteMake s (BitVec.ofNat 64 (2 * 2 ^ 62 + off)) v =
    { s with mem := (s.setBytes (dramBase + off) v.toNat 8).mem } := by
  obtain ⟨hm, hd⟩ := dram_offset ho
  obtain ⟨e1, e2⟩ := mpAddr_bar4 ho
  unfold mpWriteMake
  dsimp only
  rw [e1, e2, mpStatusOf_bar4 ho s h8, spaceAddr_bar4 ho, hc]
  exact busWrite_dram hm hd s 3 _ 8 (by rw [dramBase_mod]; omega) hp hc

theorem mpReadMake_answers : mpReadMake s (BitVec.ofNat 64 (2 * 2 ^ 62 + off)) =
    mpAnswer { s with mpStatus := 0 } (if s.mpStatus ≠ 0 then s.mpStatus else 0) (s.bytesAt (dramBase + off) 8) := by
  obtain ⟨hm, hd⟩ := dram_offset ho
  obtain ⟨e1, e2⟩ := mpAddr_bar4 ho
  have k : busRead { s with mpStatus := 0 } 3 (dramBase + off) 8 =
      ({ s with mpStatus := 0 }, some (s.bytesAt (dramBase + off) 8, false)) :=
    (busRead_dram hm hd { s with mpStatus := 0 } 3 8 hp hc).trans (by rw [bytesAt_congr (r := { s with mpStatus := 0 }) (s := s) rfl])
  unfold mpReadMake
  dsimp only
  rw [e1, e2, mpStatusOf_bar4 ho s h8, spaceAddr_bar4 ho, hc]
  simp only [if_true, k]
  rfl

theorem jtagMake_stores (v : Word) : jtagMake s 2 off (some v) =
    { s with mem := (s.setBytes (dramBase + off) v.toNat 8).mem } := by
  obtain ⟨hm, hd⟩ := dram_offset ho
  unfold jtagMake supplied
  rw [show off / 8 * 8 = off by omega, spaceAddr_bar4 ho]
  dsimp only
  rw [powered_dram hm hd, hc, if_pos rfl]
  exact busWrite_dram hm hd s 4 _ 8 (by rw [dramBase_mod]; omega) hp hc

theorem jtagMake_answers : jtagMake s 2 off none =
    s.emit (.jtag (BitVec.ofNat 64 (s.bytesAt (dramBase + off) 8))) := by
  obtain ⟨hm, hd⟩ := dram_offset ho
  unfold jtagMake supplied
  rw [show off / 8 * 8 = off by omega, spaceAddr_bar4 ho]
  dsimp only
  rw [powered_dram hm hd, hc, if_pos rfl, busRead_dram hm hd s 4 8 hp hc]
  rfl

end Aligned

end Ways

end Sys2Proof
end
section
/-! Each way in, as a command (R434, R442, R450). -/

namespace Sys2Proof

open Sys2Proof.Machine

theorem nsHas_nsAdd (l : List Nat) (n : Nat) : nsHas (nsAdd l n) n = true := by
  unfold nsHas
  rw [List.contains_iff_mem]
  induction l with
  | nil => simp [nsAdd]
  | cons a r ih =>
    unfold nsAdd
    split_ifs with h1 h2
    · simp
    · simp [h2]
    · simp [ih]

section Ways

variable {t : DT} {off : Nat} {s : State} (ho : off < 0x400000000) (hp : s.poisoned (dramBase + off) = false) (hq : QuadQuiet s)
include ho hp hq

/-! ### The host -/

section Host

variable {n : Nat} (hu : Unhindered t 0 s) (h1 : 1 ≤ n) (hn : n + off % 8 ≤ 8) (hl : s.hp.link = true) (h3 : s.hp.d3hot = false)
include hu h1 hn hl h3

omit hp in
/-- An access of the host that nothing holds up is made. -/
theorem hostAccess_made (w : Option (Word × Bool)) :
    hostAccess (qeCatchUp (arrive t s) false) 2 off n w false = hostMake (arrive t s) 2 off n w := by
  rw [qeCatchUp_arrive hq, hostAccess_reaches w (spaceAddr_bar4 ho) (dramBase_mod off) (by rw [arrive_hp]; exact hl)
    (by rw [arrive_hp]; exact h3) h1 hn, behind_free _ _ _ (hu.free (.host 2 off n w) rfl)]

theorem hostWrite_stores (v : Word) (hc : s.hk.corePower = true) : DoesExactly (.hostAccess t 2 off n (.write v false false)) s
    { arrive t s with mem := (s.setBytes (dramBase + off) v.toNat n).mem } := by
  refine doesExactly_of_effect rfl ((hostAccess_made ho hq hu h1 hn hl h3 (some (v, false))).trans ?_) (.of rfl rfl rfl rfl rfl)
  rw [hostMake_write ho (by rw [arrive_poisoned]; exact hp) (by rw [arrive_hk]; exact hc) n v hn, arrive_setBytes]

theorem hostRead_answers (hc : s.hk.corePower = true) : DoesExactly (.hostAccess t 2 off n .read) s
    ((arrive t s).emit (.hostReply false (BitVec.ofNat 64 (s.bytesAt (dramBase + off) n)))) := by
  refine doesExactly_of_effect rfl ((hostAccess_made ho hq hu h1 hn hl h3 none).trans ?_) (.of rfl rfl rfl rfl rfl)
  rw [hostMake_read ho (by rw [arrive_poisoned]; exact hp) (by rw [arrive_hk]; exact hc) n, arrive_bytesAt]

omit hp in
/-- A poisoned TLP poisons its word, and it stays so while the event hub is disabled. -/
theorem hostWrite_poisons (v : Word) (hc : s.hk.corePower = true) :
    ∃ u, exec (.hostAccess t 2 off n (.write v false true)) s = .next u ∧
      (s.enabled pEH = false → u.poisoned (dramBase + off) = true) ∧ u.hp.aer = s.hp.aer ||| 2 ^ 12 := by
  have e := (hostAccess_made ho hq hu h1 hn hl h3 (some (v, true))).trans
    (hostMake_poison ho (by rw [arrive_hk]; exact hc) n v)
  have k : Contained t s (memPoison ((arrive t s).onHp (fun h => { h with aer := h.aer ||| 2 ^ 12 })) (dramBase + off)) :=
    .of rfl rfl rfl rfl rfl
  refine ⟨_, rfl, fun hg => ?_, ?_⟩
  · unfold State.poisoned
    rw [run_poison e k ((arrive_enabled t s pEH).trans hg)]
    exact nsHas_nsAdd _ _
  · rw [(run_ends_of_effect e k).hp]
    change (arrive t s).hp.aer ||| 2 ^ 12 = _
    rw [arrive_hp]

omit hp in
/-- With the core supplies down the host is told (R26). -/
theorem hostAccess_dark (v : Word) (hc : s.hk.corePower = false) :
    DoesExactly (.hostAccess t 2 off n (.write v false false)) s ((arrive t s).emit (.noPower 0)) ∧
    DoesExactly (.hostAccess t 2 off n .read) s ((arrive t s).emit (.noPower 0)) := by
  have k := fun w => (hostAccess_made ho hq hu h1 hn hl h3 w).trans (hostMake_dark ho (by rw [arrive_hk]; exact hc) n w)
  exact ⟨doesExactly_of_effect rfl (k (some (v, false))) (.of rfl rfl rfl rfl rfl),
    doesExactly_of_effect rfl (k none) (.of rfl rfl rfl rfl rfl)⟩

end Host

omit hp in
/-- A write that meets the full ingress buffer is counted, and nothing else is left of it (R21). -/
theorem hostWrite_discarded {n : Nat} (v : Word) (h1 : 1 ≤ n) (hn : n + off % 8 ≤ 8) (hl : s.hp.link = true) (h3 : s.hp.d3hot = false) :
    Does (.hostAccess t 2 off n (.write v true false)) s
      { arrive t s with hp := { s.hp with discards := s.hp.discards + 1 } } := by
  have e : hostAccess (qeCatchUp (arrive t s) false) 2 off n (some (v, false)) true = hpDiscard (arrive t s) := by
    rw [qeCatchUp_arrive hq, hostAccess_full ho _ (by rw [arrive_hp]; exact hl) (by rw [arrive_hp]; exact h3) h1 hn]
  refine does_of_follows rfl e (.of rfl rfl rfl rfl rfl) ?_
  rw [← arrive_hp t s]
  exact (Follows.of (Moves.nextFree _) (fun _ => ⟨rfl, rfl, rfl, rfl, rfl⟩)).trans (Follows.raisePage _ _ _ _)

omit hp in
theorem hostAccess_closed_does {n : Nat} (o : HostOp) (h : s.hp.link = false ∨ s.hp.d3hot = true) :
    DoesExactly (.hostAccess t 2 off n o) s (arrive t s) := by
  have e : ∀ w full, hostAccess (qeCatchUp (arrive t s) false) 2 off n w full = arrive t s := fun w full => by
    rw [qeCatchUp_arrive hq, hostAccess_closed ho (by rw [arrive_hp]; exact h)]
  cases o <;> exact doesExactly_of_effect rfl (e _ _) (.arrive t s)

/-! ### MP and JTAG -/

omit ho hp in
/-- A write to MP that is taken and not held up is carried out. -/
theorem mpWrite_made {addr v : Word} {pec : Option Byte} (hu : Unhindered t 3 s) (hk : mpTaken s 1 [addr, v] pec = true) :
    mpWrite (qeCatchUp (arrive t s) false) ⟨addr, pec⟩ v = mpWriteMake (arrive t s) addr v := by
  rw [qeCatchUp_arrive hq, mpWrite_taken (i := ⟨addr, pec⟩) ((arrive_mpTaken _ _ _ _ _).trans hk),
    behind_free _ _ _ (hu.free (.mpWrite addr v) rfl)]

omit ho hp in
/-- A read of MP that is taken and not held up is carried out. -/
theorem mpRead_made {addr : Word} {pec : Option Byte} (hu : Unhindered t 3 s) (hk : mpTaken s 2 [addr] pec = true) :
    mpRead (qeCatchUp (arrive t s) false) ⟨addr, pec⟩ = mpReadMake (arrive t s) addr := by
  rw [qeCatchUp_arrive hq, mpRead_taken (i := ⟨addr, pec⟩) ((arrive_mpTaken _ _ _ _ _).trans hk),
    behind_free _ _ _ (hu.free (.mpRead addr) rfl)]

omit ho hp in
/-- A message to MP whose PEC byte does not fit changes nothing. -/
theorem mp_refused {pec : Option Byte} (addr v : Word) :
    (mpTaken s 1 [addr, v] pec = false → DoesExactly (.mpWrite t ⟨addr, pec⟩ v) s (arrive t s)) ∧
    (mpTaken s 2 [addr] pec = false → DoesExactly (.mpRead t ⟨addr, pec⟩) s (arrive t s)) := by
  refine ⟨fun h => doesExactly_of_effect rfl ?_ (.arrive t s), fun h => doesExactly_of_effect rfl ?_ (.arrive t s)⟩
  · unfold mpWrite
    rw [qeCatchUp_arrive hq, arrive_mpTaken, h, if_neg (by decide)]
  · unfold mpRead
    rw [qeCatchUp_arrive hq, arrive_mpTaken, h, if_neg (by decide)]

section Aligned

variable (h8 : off % 8 = 0)
include h8

theorem mpWrite_does {pec : Option Byte} (v : Word) (hu : Unhindered t 3 s)
    (hk : mpTaken s 1 [BitVec.ofNat 64 (2 * 2 ^ 62 + off), v] pec = true) :
    (s.hk.corePower = true → DoesExactly (.mpWrite t ⟨BitVec.ofNat 64 (2 * 2 ^ 62 + off), pec⟩ v) s
      { arrive t s with mem := (s.setBytes (dramBase + off) v.toNat 8).mem }) ∧
    (s.hk.corePower = false → DoesExactly (.mpWrite t ⟨BitVec.ofNat 64 (2 * 2 ^ 62 + off), pec⟩ v) s
      { arrive t s with mpStatus := 3 }) := by
  refine ⟨fun hc => ?_, fun hc => ?_⟩ <;>
    refine doesExactly_of_effect rfl ((mpWrite_made hq hu hk).trans ?_) (.of rfl rfl rfl rfl rfl)
  · rw [mpWriteMake_stores ho h8 (by rw [arrive_poisoned]; exact hp) (by rw [arrive_hk]; exact hc), arrive_setBytes]
  · exact mpWriteMake_dark ho h8 v (by rw [arrive_hk]; exact hc)

theorem mpRead_does {pec : Option Byte} (hu : Unhindered t 3 s)
    (hk : mpTaken s 2 [BitVec.ofNat 64 (2 * 2 ^ 62 + off)] pec = true) :
    (s.hk.corePower = true → DoesExactly (.mpRead t ⟨BitVec.ofNat 64 (2 * 2 ^ 62 + off), pec⟩) s
      (mpAnswer { arrive t s with mpStatus := 0 } (if s.mpStatus ≠ 0 then s.mpStatus else 0) (s.bytesAt (dramBase + off) 8))) ∧
    (s.hk.corePower = false → DoesExactly (.mpRead t ⟨BitVec.ofNat 64 (2 * 2 ^ 62 + off), pec⟩) s
      (mpAnswer { arrive t s with mpStatus := 0 } (if s.mpStatus ≠ 0 then s.mpStatus else 3) 0)) := by
  refine ⟨fun hc => ?_, fun hc => ?_⟩ <;>
    refine doesExactly_of_effect rfl ((mpRead_made hq hu hk).trans ?_) (.of rfl rfl rfl rfl rfl)
  · rw [mpReadMake_answers ho h8 (by rw [arrive_poisoned]; exact hp) (by rw [arrive_hk]; exact hc), arrive_mpStatus, arrive_bytesAt]
  · rw [mpReadMake_dark ho h8 (by rw [arrive_hk]; exact hc), arrive_mpStatus]

/-- DEBUG is loaded, and its access is made by BAR offset. -/
theorem jtagDebug_does (v : Word) (hu : Unhindered t 4 s) :
    let j : State := { arrive t s with jtag := { s.jtag with ir := 4 } }
    (s.hk.corePower = true →
      DoesExactly (.jtagDebug t 2 off (some v)) s { j with mem := (s.setBytes (dramBase + off) v.toNat 8).mem } ∧
      DoesExactly (.jtagDebug t 2 off none) s (j.emit (.jtag (BitVec.ofNat 64 (s.bytesAt (dramBase + off) 8))))) ∧
    (s.hk.corePower = false → ∀ x, DoesExactly (.jtagDebug t 2 off x) s (j.emit (.noPower 4))) := by
  intro j
  have made : ∀ w, jtagDebug (qeCatchUp (arrive t s) false) 2 off w = jtagMake j 2 off w := fun w => by
    have e : (arrive t s).onJtag (fun x => { x with ir := 4 }) = j := by
      unfold State.onJtag
      rw [arrive_jtag]
    rw [qeCatchUp_arrive hq, ← e]
    unfold jtagDebug
    exact behind_free _ _ _ (heldUp_onJtag.trans (hu.free (.jtag 2 off w) rfl))
  have hp' : j.poisoned (dramBase + off) = false := (arrive_poisoned t s _).trans hp
  have hk : j.hk = s.hk := arrive_hk t s
  have hm : j.mem = s.mem := arrive_mem t s
  refine ⟨fun hc => ⟨?_, ?_⟩, fun hc x => ?_⟩
  · refine doesExactly_of_effect rfl ((made (some v)).trans ?_) (.of rfl rfl rfl rfl rfl)
    rw [jtagMake_stores ho h8 hp' (hk ▸ hc), setBytes_mem_congr 8 hm]
  · refine doesExactly_of_effect rfl ((made none).trans ?_) (.of rfl rfl rfl rfl rfl)
    rw [jtagMake_answers ho h8 hp' (hk ▸ hc), bytesAt_congr hm]
  · exact doesExactly_of_effect rfl ((made x).trans (jtagMake_dark ho h8 x (hk ▸ hc))) (.of rfl rfl rfl rfl rfl)

end Aligned

end Ways

/-- The host, MP and JTAG reach the memory that the bus reaches (R26, R434, R442, R450). -/
theorem everyWayInReachesMemory : EveryWayInReachesMemory := by
  intro t off n pec v s ho hp hq
  refine ⟨fun hu h1 hn => ⟨fun hl h3 => ⟨fun hc => ?_, hostAccess_dark ho hq hu h1 hn hl h3 v, hostWrite_discarded ho hq v h1 hn hl h3⟩, fun h => ?_⟩,
    fun hu h8 hk => mpWrite_does ho hp hq h8 v hu hk, fun hu h8 hk => ?_, (mp_refused hq _ v).1, (mp_refused hq _ v).2,
    fun hu h8 => jtagDebug_does ho hp hq h8 v hu⟩
  · exact ⟨hostWrite_stores ho hp hq hu h1 hn hl h3 v hc, hostRead_answers ho hp hq hu h1 hn hl h3 hc,
      hostWrite_poisons ho hq hu h1 hn hl h3 v hc⟩
  · exact ⟨hostAccess_closed_does ho hq _ h, hostAccess_closed_does ho hq _ h⟩
  · obtain ⟨k1, k2⟩ := mpRead_does ho hp hq h8 hu hk
    have unkept : s.mpStatus = 0 → ({ arrive t s with mpStatus := 0 } : State) = arrive t s := fun h => by
      rw [← h, ← arrive_mpStatus t s]
    rw [toNat_bytesAt]
    refine ⟨fun h hc => ?_, fun h hc => ?_, fun h hc => ?_⟩
    · have k := k1 hc
      rwa [unkept h, if_neg (not_not.mpr h)] at k
    · have k := k2 hc
      rwa [unkept h, if_neg (not_not.mpr h)] at k
    · have k := k1 hc
      rwa [if_pos h] at k

end Sys2Proof
end
section
/-! A register-access datagram (R438 to R441). -/

namespace Sys2Proof

open Sys2Proof.Machine

@[simp] theorem onHe_look (s : State) (n : Nat) (f : HeSt → HeSt) : (s.onHe n f).he.look n = f (s.he.look n) := look_set_self _ _ _

theorem onHe_look_other (s : State) (n : Nat) (f : HeSt → HeSt) {k : Nat} (h : k ≠ n) :
    (s.onHe n f).he.look k = s.he.look k := look_set_other _ _ h

/-- A frame of a size that a port takes, with room in its buffer, acts on the open port (R438). -/
theorem heTakes_open {s : State} {p size : Nat} (f : State → State) (ho : heOpen s p = true) (h1 : 64 ≤ size) (h2 : size ≤ 1536) :
    heTakes s ⟨p, false, size⟩ f = f s := by
  unfold heTakes
  dsimp only
  rw [ho, if_neg (by simp; omega), if_neg (by decide)]

/-! ### Serving the one request of a port -/

/-- The one request at a port, new and not held up by a boundary, is carried out and answered. -/
theorem raServe_one {s u : State} {n : Nat} {q : RaReq} {rep : List (Nat × Nat)} (hr : (s.he.look n).reqs = [q])
    (hw : q.waits = false) (ha : q.answer = none) (hd : q.done = []) (hb : atBoundary s = false) (hc : (s.he.look n).replies = [])
    (ho : raOps (s.onHe n (fun h => { h with reqs := [] })) n q.pass [] q.ops = (u, rep, none)) :
    raServe s n 1 = raReply u n q rep := by
  have k : raCached (s.onHe n (fun h => { h with reqs := [] })) n q = none := by
    unfold raCached
    rw [onHe_look, hc]
    rfl
  rw [raServe, hr]
  simp only [hw, hb, ha, hd, Bool.false_and, Bool.or_self, Bool.false_eq_true, if_false, k, ho]
  rfl

/-- The reply to a source that has none cached is sent and cached (R439, R441). -/
theorem raSend_first (s : State) (n : Nat) (q : RaReq) (rep : List (Nat × Nat)) (hc : (s.he.look n).replies = []) :
    raSend s n q rep = (s.onHe n (fun h => { h with replies := [⟨q.ip, q.port, q.seq, rep⟩] })).emit
      (.raReply n q.ip q.port (raHead rep.length q.seq) rep) := by
  unfold raSend
  rw [hc]
  rfl

/-- Behind the one request of a port: `M` is the memory that its operations leave, the reply is sent and cached, no request waits. -/
theorem raServe_answers {s : State} {n : Nat} {q : RaReq} {rep : List (Nat × Nat)} {M : List Host.Cell} (hr : (s.he.look n).reqs = [q])
    (hw : q.waits = false) (ha : q.answer = none) (hd : q.done = []) (hb : atBoundary s = false) (hc : (s.he.look n).replies = [])
    (ho : ∀ x : State, x.hk = s.hk → x.mem = s.mem → x.poison = s.poison →
      raOps x n q.pass [] q.ops = ({ x with mem := M }, rep, none)) :
    ∃ T : Tab HeSt, raServe s n 1 = { s with mem := M, he := T }.emit
        (.raReply n q.ip q.port (raHead (List.zipWith raWord q.all rep).length q.seq) (List.zipWith raWord q.all rep)) ∧
      T.look n = { s.he.look n with reqs := [], replies := [⟨q.ip, q.port, q.seq, List.zipWith raWord q.all rep⟩] } ∧
      ∀ k, k ≠ n → T.look k = s.he.look k := by
  have served := raServe_one hr hw ha hd hb hc (ho (s.onHe n (fun h => { h with reqs := [] })) rfl rfl rfl)
  have look : ({ s.onHe n (fun h => { h with reqs := [] }) with mem := M } : State).he.look n = { s.he.look n with reqs := [] } :=
    onHe_look s n (fun h => { h with reqs := [] })
  have sent := raSend_first { s.onHe n (fun h => { h with reqs := [] }) with mem := M } n q (List.zipWith raWord q.all rep)
    (by rw [look]; exact hc)
  refine ⟨_, served.trans sent, ?_, fun k hk => ?_⟩
  · rw [look_set_self, onHe_look]
  · exact (look_set_other _ _ hk).trans (look_set_other _ _ hk)

/-! ### The operations -/

/-- An operation whose OFFSET is no multiple of 8 is refused as such (R440). -/
theorem raOp_misaligned (s : State) (n pass op sp : Nat) {off : Nat} (v : Word) (h : off % 8 ≠ 0) :
    raOp s n pass (op, sp, off, v) = (s, some (2, 0)) := if_pos h

section Dram

variable {s : State} {off : Nat} (ho : off < 0x400000000) (h8 : off % 8 = 0) (hp : s.poisoned (dramBase + off) = false)
  (hc : s.hk.corePower = true)
include ho h8 hp hc

theorem raOp_read (n pass : Nat) (v : Word) : raOp s n pass (1, 2, off, v) = (s, some (0, s.bytesAt (dramBase + off) 8)) := by
  obtain ⟨hm, hd⟩ := dram_offset ho
  unfold raOp
  dsimp only
  rw [if_neg (by omega), if_neg (by decide), spaceAddr_bar4 ho]
  dsimp only
  rw [powered_dram hm hd, hc, if_neg (by decide), if_neg (by decide), if_pos rfl, busRead_dram hm hd s _ 8 hp hc]
  rfl

theorem raOp_write (n pass : Nat) (v : Word) : raOp s n pass (2, 2, off, v) =
    ({ s with mem := (s.setBytes (dramBase + off) v.toNat 8).mem }, some (0, v.toNat)) := by
  obtain ⟨hm, hd⟩ := dram_offset ho
  unfold raOp
  dsimp only
  rw [if_neg (by omega), if_neg (by decide), spaceAddr_bar4 ho]
  dsimp only
  rw [powered_dram hm hd, hc, if_neg (by decide), if_pos rfl,
    busWrite_dram hm hd s _ _ 8 (by rw [dramBase_mod]; omega) hp hc]

/-- A read and a write of one word, in order: the read gives the word as it stood. -/
theorem raOps_readWrite (n pass : Nat) (v : Word) : raOps s n pass [] [(1, 2, off, 0), (2, 2, off, v)] =
    ({ s with mem := (s.setBytes (dramBase + off) v.toNat 8).mem }, [(0, s.bytesAt (dramBase + off) 8), (0, v.toNat)], none) := by
  simp only [raOps, raOp_read ho h8 hp hc, raOp_write ho h8 hp hc, if_true]
  rfl

end Dram

/-- After an operation that is not OK the rest is NOT_DONE (R440). -/
theorem raOps_misaligned (s : State) (n pass op sp : Nat) {off : Nat} (v : Word) (e : Nat × Nat × Nat × Word) (h : off % 8 ≠ 0) :
    raOps s n pass [] [(op, sp, off, v), e] = (s, [(2, 0), (3, 0)], none) := by
  simp only [raOps, raOp_misaligned s n pass op sp v h]
  rfl

/-! ### The datagram -/

/-- The first word of a reply, as a number (Table 17.3). -/
theorem raHead_eq (count seq : Nat) : raHead count seq = 0xEC51 + 0x81 * 2 ^ 16 + count * 2 ^ 24 + seq * 2 ^ 32 := by
  unfold raHead
  rw [Nat.shiftLeft_eq, Nat.shiftLeft_eq, Nat.shiftLeft_eq]

/-- The first word of an operation in a reply, as a number (Table 17.3). -/
theorem raWord_eq (op sp off st x : Nat) (v : Word) :
    raWord (op, sp, off, v) (st, x) = (op + st * 2 ^ 8 + sp * 2 ^ 16 + off * 2 ^ 18, x) := by
  unfold raWord
  rw [Nat.shiftLeft_eq, Nat.shiftLeft_eq, Nat.shiftLeft_eq]

/-- A request as it arrives: none of its operations is made yet. -/
def newRequest (ip port seq pass : Nat) (ops : List (Nat × Nat × Nat × Word)) : RaReq :=
  { ip, port, seq, pass, all := ops, ops, done := [], waits := false, answer := none }

section Datagram

variable {t : DT} {p size : Nat} {s : State} (hq : QuadQuiet s) (h1 : 64 ≤ size) (h2 : size ≤ 1536)
  (hp2 : p < 2) (he : s.enabled (pHE p) = true) (hl : (s.he.look p).link = true)
include hq h1 h2 hp2 he hl

/-- A register-access datagram that comes to an open port. -/
theorem exec_registerAccess (ip port target dport magic count seq pass : Nat) (ops : List (Nat × Nat × Nat × Word)) :
    ∃ f : State → State, exec (.registerAccessRequest t ⟨p, false, size⟩ ip port target dport magic 1 count seq pass ops) s = .next (run t s f) ∧
      f (arrive t s) = raRequest (arrive t s) p ip port target dport magic 1 count seq pass ops := by
  refine ⟨_, rfl, ?_⟩
  rw [qeCatchUp_arrive hq]
  refine heTakes_open _ ?_ h1 h2
  unfold heOpen
  rw [arrive_enabled, arrive_he, he, hl, decide_eq_true hp2]
  rfl

/-- One addressed elsewhere is not taken. -/
theorem registerAccess_elsewhere {ip port target dport magic count seq pass : Nat} {ops : List (Nat × Nat × Nat × Word)}
    (k : target ≠ s.g (F.HE_IP_IP p)) :
    Does (.registerAccessRequest t ⟨p, false, size⟩ ip port target dport magic 1 count seq pass ops) s (arrive t s) := by
  obtain ⟨f, e1, e2⟩ := exec_registerAccess (t := t) hq h1 h2 hp2 he hl ip port target dport magic count seq pass ops
  refine does_of_follows e1 (e2.trans ?_) (.arrive t s) (Follows.refl _)
  unfold raRequest
  rw [arrive_g, decide_eq_false k, if_pos (by simp)]

/-- One that is not for the service is discarded, with an event (R439). -/
theorem registerAccess_discarded {ip port target dport magic count seq pass : Nat} {ops : List (Nat × Nat × Nat × Word)}
    (k : target = s.g (F.HE_IP_IP p)) (kd : dport = s.g (F.HE_RACFG_PORT p)) (ke : s.gb (F.HE_RACFG_EN p) = true)
    (km : magic ≠ 0xEC51) :
    Does (.registerAccessRequest t ⟨p, false, size⟩ ip port target dport magic 1 count seq pass ops) s (arrive t s) := by
  obtain ⟨f, e1, e2⟩ := exec_registerAccess (t := t) hq h1 h2 hp2 he hl ip port target dport magic count seq pass ops
  refine does_of_follows e1 (e2.trans ?_) (.arrive t s) (Follows.raisePage (arrive t s) (pHE p) 3 0)
  unfold raRequest heOpen
  rw [arrive_enabled, arrive_he, he, hl, arrive_g, arrive_g, arrive_gb, ke, decide_eq_true k, decide_eq_true kd,
    decide_eq_true hp2, if_neg (by decide), if_pos (by simp [km])]

variable (hr : (s.he.look p).reqs = []) (hc : (s.he.look p).replies = []) (hb : atBoundary (arrive t s) = false)
include hr hc hb

section Answered

variable {ip port seq pass : Nat} {ops : List (Nat × Nat × Nat × Word)} (ke : s.gb (F.HE_RACFG_EN p) = true)
  (kl : ops ≠ []) (kl' : ops.length ≤ 64) {M : List Host.Cell} {rep : List (Nat × Nat)}
  (ko : ∀ x : State, x.hk = s.hk → x.mem = s.mem → x.poison = s.poison → raOps x p pass [] ops = ({ x with mem := M }, rep, none))
include ke kl kl' ko

omit hq h1 h2 in
/-- The effect of one for the port: the memory `M` behind its operations, the reply sent and cached. -/
theorem raRequest_answered :
    ∃ T : Tab HeSt, raRequest (arrive t s) p ip port (s.g (F.HE_IP_IP p)) (s.g (F.HE_RACFG_PORT p)) 0xEC51 1 ops.length seq pass ops =
        { arrive t s with mem := M, he := T }.emit (.raReply p ip port (raHead (List.zipWith raWord ops rep).length seq)
          (List.zipWith raWord ops rep)) ∧
      T.look p = { s.he.look p with reqs := [], replies := [⟨ip, port, seq, List.zipWith raWord ops rep⟩] } ∧
      ∀ n, n ≠ p → T.look n = s.he.look n := by
  have look : ((arrive t s).onHe p (fun h => { h with reqs := h.reqs ++ [newRequest ip port seq pass ops] })).he.look p =
      { s.he.look p with reqs := [newRequest ip port seq pass ops] } := by
    rw [onHe_look, arrive_he, hr]
    rfl
  have e : raRequest (arrive t s) p ip port (s.g (F.HE_IP_IP p)) (s.g (F.HE_RACFG_PORT p)) 0xEC51 1 ops.length seq pass ops =
      raServe ((arrive t s).onHe p (fun h => { h with reqs := h.reqs ++ [newRequest ip port seq pass ops] })) p 1 := by
    unfold raRequest heOpen
    rw [arrive_enabled, arrive_he, he, hl, arrive_g, arrive_g, arrive_gb, ke, decide_eq_true rfl, decide_eq_true rfl,
      decide_eq_true hp2, if_neg (by decide), if_neg (by simp [kl]; omega)]
    exact congrArg (fun h : HeSt => raServe _ p h.reqs.length) look
  obtain ⟨T, h1, h2, h3⟩ := raServe_answers (q := newRequest ip port seq pass ops) (congrArg HeSt.reqs look) rfl rfl rfl hb
    ((congrArg HeSt.replies look).trans hc)
    (fun x xk xm xp => ko x (xk.trans (arrive_hk t s)) (xm.trans (arrive_mem t s)) (xp.trans (arrive_poison t s)))
  refine ⟨T, e.trans h1, ?_, fun n hn => ?_⟩
  · rw [h2, look]
    rfl
  · rw [h3 n hn, onHe_look_other _ _ _ hn, arrive_he]

/-- One for the port is carried out in order and answered. -/
theorem registerAccess_answered :
    ∃ u, exec (.registerAccessRequest t ⟨p, false, size⟩ ip port (s.g (F.HE_IP_IP p)) (s.g (F.HE_RACFG_PORT p)) 0xEC51 1 ops.length
        seq pass ops) s = .next u ∧
      .raReply p ip port (raHead (List.zipWith raWord ops rep).length seq) (List.zipWith raWord ops rep) ∈ u.out ∧
      (u.he.look p).replies = [⟨ip, port, seq, List.zipWith raWord ops rep⟩] ∧
      Ends { arrive t s with mem := M, he := u.he, out := u.out } u := by
  obtain ⟨f, e1, e2⟩ := exec_registerAccess (t := t) hq h1 h2 hp2 he hl ip port (s.g (F.HE_IP_IP p)) (s.g (F.HE_RACFG_PORT p)) 0xEC51
    ops.length seq pass ops
  obtain ⟨T, k1, k2, k3⟩ := raRequest_answered (t := t) (ip := ip) (port := port) (seq := seq) hp2 he hl hr hc hb ke kl kl' ko
  have k : Contained t s ({ arrive t s with mem := M, he := T }.emit (.raReply p ip port
      (raHead (List.zipWith raWord ops rep).length seq) (List.zipWith raWord ops rep))) := by
    refine ⟨arrive_time t s, arrive_pending t s, arrive_devNow t s, arrive_queues t s, fun n hn => ?_⟩
    change (T.look n).reqs.any _ = true at hn
    by_cases h : n = p
    · rw [h, k2] at hn
      exact absurd hn Bool.false_ne_true
    · rwa [k3 n h] at hn
  have h := run_ends_of_effect (e2.trans k1) k
  have hhe : (run t s f).he = T := by rw [h.rest]; rfl
  refine ⟨_, e1, h.out.subset (List.mem_append_right _ (List.mem_singleton_self _)), ?_, ?_⟩
  · rw [hhe, k2]
  · rw [hhe]
    exact h.withOut

end Answered

end Datagram

/-- A register-access datagram is carried out and answered, discarded or not taken (R438 to R441). -/
theorem aRegisterAccessDatagramIsAnswered : ARegisterAccessDatagramIsAnswered := by
  intro t off p ip port seq pass size magic target v s ho hp2 hp hq h1 h2 he hl ke hr hc hb
  refine ⟨fun h8 hpw => ?_, fun h8 => ?_, registerAccess_discarded hq h1 h2 hp2 he hl rfl rfl ke,
    registerAccess_elsewhere hq h1 h2 hp2 he hl⟩
  · obtain ⟨u, e, out, rep, ends⟩ := registerAccess_answered hq h1 h2 hp2 he hl hr hc hb (ip := ip) (port := port) (seq := seq)
      (pass := pass) (ops := [(1, 2, off, 0), (2, 2, off, v)]) ke (List.cons_ne_nil _ _) (Nat.le_of_ble_eq_true rfl)
      (M := (s.setBytes (dramBase + off) v.toNat 8).mem) (rep := [(0, s.bytesAt (dramBase + off) 8), (0, v.toNat)])
      (fun x xk xm xp => by
        rw [raOps_readWrite ho h8 (by unfold State.poisoned; rw [xp]; exact hp) (by rw [xk]; exact hpw), setBytes_mem_congr 8 xm,
          bytesAt_congr xm])
    simp only [List.zipWith_cons_cons, List.zipWith_nil_left, raWord_eq, raHead_eq] at out rep
    exact ⟨u, e, ⟨out, rep⟩, ends⟩
  · obtain ⟨u, e, out, rep, ends⟩ := registerAccess_answered hq h1 h2 hp2 he hl hr hc hb (ip := ip) (port := port) (seq := seq)
      (pass := pass) (ops := [(1, 2, off, 0), (2, 2, off, v)]) ke (List.cons_ne_nil _ _) (Nat.le_of_ble_eq_true rfl)
      (M := s.mem) (rep := [(2, 0), (3, 0)])
      (fun x _ xm _ => by rw [raOps_misaligned x p pass 1 2 0 _ h8, ← xm])
    simp only [List.zipWith_cons_cons, List.zipWith_nil_left, raWord_eq, raHead_eq] at out rep
    rw [← arrive_mem t s] at ends
    exact ⟨u, e, ⟨out, rep⟩, ends⟩

end Sys2Proof
end
section
namespace Sys2Proof

/-- Settles O38: each way in reaches memory and registers as its part says, and accesses that are held up wait in their order. -/
theorem writesReachMemoryOrRegister : Obligations.WritesReachMemoryOrRegister :=
  ⟨aWriteReachesMemoryOrRegister, aDeviceWriteIsMadeOnAnEmptyQueue, anAccessHeldUpWaitsInOrder, everyWayInReachesMemory,
    aRegisterAccessDatagramIsAnswered⟩

end Sys2Proof
end
section
/-! A DISABLE of a ring by an action whose master number has bit 31 (R382, R413, R414): the counterexample to O33. -/

namespace Sys2Proof

open Sys2Proof.Machine

/-- CHECK behind a check that passes: the master number is stored from bit 32 on, and its bit 31 is what REFUSED shows. -/
theorem recordCheck_passed_refused (s : State) (p m : Nat) :
    (recordCheck s p m 0).g (F.CHECK_REFUSED p) = m / 2 ^ 31 % 2 := by
  have hseq : (s.g (F.CHECK_SEQ p) + 1) % 65536 < 2 ^ 16 := Nat.mod_lt _ (by decide)
  have none_refused : b2n ((0 : Nat) != 0) = 0 := rfl
  unfold recordCheck
  dsimp only
  rw [State.g_setReg_self s _ (F.CHECK_REFUSED p), none_refused]
  unfold getBits
  simp only [Nat.shiftLeft_eq, Nat.shiftRight_eq_div_pow]
  omega

/-- The result of a check is a write of CHECK. -/
theorem recordCheck_eq (s : State) (p m code : Nat) :
    recordCheck s p m code = { s with regs := (recordCheck s p m code).regs } := rfl

/-- Ring `k` of engine `n` behind a DISABLE: it is OFF and keeps RD (R382). -/
def ringOff (s : State) (n k : Nat) : State :=
  s.onRing (ringIx n k) (fun r => { (default : DmaRing) with rd := r.rd, turn := r.turn })

theorem ringOff_reg (s : State) (n k b : Nat) : (ringOff s n k).reg b = s.reg b := rfl

theorem ringOff_checks (s : State) (n k : Nat) : (ringOff s n k).checks = s.checks := rfl

theorem dmaBusy_congr {s u : State} (h : u.dma = s.dma) (n : Nat) : dmaBusy u n = dmaBusy s n := by
  unfold dmaBusy
  rw [h]

theorem ringOff_dma_congr {s u : State} (h : u.dma = s.dma) (n k : Nat) : (ringOff u n k).dma = (ringOff s n k).dma := by
  unfold ringOff State.onRing
  rw [h]

/-- A DISABLE of a ring that is not SUSPENDED, where no ring of the engine is left to run, is no more than that. -/
theorem dmaDisable_quiet {bw : BusW} {br : BusR} {s : State} {n k : Nat} (h4 : (s.dma.look (ringIx n k)).state ≠ 4)
    (hb : dmaBusy (ringOff s n k) n = false) : dmaDisable bw br s n k = ringOff s n k := by
  unfold dmaDisable dmaEngine
  dsimp only
  rw [if_neg h4]
  exact if_neg (ne_true_of_eq_false hb)

/-- The state `s` with the result of a passed check by master `m` in CHECK of the page at `p`, which holds no other action. -/
def checkPassed (s : State) (p m : Nat) : State :=
  { recordCheck s p m 0 with checks := s.checks.set p ⟨none, []⟩ }

theorem checkPassed_eq (s : State) (p m : Nat) : checkPassed s p m =
    { s with regs := (checkPassed s p m).regs, checks := s.checks.set p ⟨none, []⟩ } := by
  unfold checkPassed
  rw [recordCheck_eq]

theorem checkPassed_refused (s : State) (p m : Nat) : (checkPassed s p m).g (F.CHECK_REFUSED p) = m / 2 ^ 31 % 2 := by
  have regs : (checkPassed s p m).regs = (recordCheck s p m 0).regs := by
    unfold checkPassed
    with_reducible rfl
  rw [← recordCheck_passed_refused s p m]
  unfold State.g State.reg
  rw [regs]

theorem checkPassed_dma (s : State) (p m : Nat) : (checkPassed s p m).dma = s.dma := by rw [checkPassed_eq]

theorem checkPassed_checks (s : State) (p m : Nat) : (checkPassed s p m).checks = s.checks.set p ⟨none, []⟩ := by
  rw [checkPassed_eq]

theorem endCheck_passed {s : State} {a : Action} (hc : s.checks.look a.page = ⟨some a, []⟩) (hg : a.guarded = none) :
    endCheck s a 0 = checkPassed s a.page a.master := by
  unfold endCheck checkPassed
  rw [recordCheck_eq]
  simp only [hc, hg]

theorem mirrorOut_checks (s : State) (a v : Nat) : (mirrorOut s a v).checks = s.checks := by rw [mirrorOut_eq]

/-- The effect of a passed DISABLE on a page that holds no other action: the result in CHECK, the ring OFF, and what is sent. -/
theorem checkEnds_dmaDisable {s : State} {a : Action} {p pass : Nat} (hc : s.checks.look p = ⟨some a, []⟩)
    (hk : a.kind = .dmaDisable) (hp : a.page = p) (hg : a.guarded = none) (h0 : actionCheck s a pass = 0)
    (h4 : (s.dma.look (ringIx a.idx a.val)).state ≠ 4) (hb : dmaBusy (ringOff s a.idx a.val) a.idx = false) :
    checkEnds s p pass = mirrorOut (ringOff (checkPassed s p a.master) a.idx a.val) (actReg a / 8 * 8) a.val := by
  subst hp
  have no_words : descUe s a = s := by
    have e : descWords a = [] := by simp only [descWords, hk]
    unfold descUe
    rw [e]
    rfl
  have applied : passApply busWrite busRead (checkPassed s a.page a.master) a pass =
      ringOff (checkPassed s a.page a.master) a.idx a.val := by
    simp only [passApply, hk]
    refine dmaDisable_quiet (by rwa [checkPassed_dma]) ?_
    rwa [dmaBusy_congr (ringOff_dma_congr (checkPassed_dma _ _ _) _ _)]
  have sent (u : State) : mirrorAct u a = mirrorOut u (actReg a / 8 * 8) a.val := if_neg (by rw [hk]; decide)
  have none_held (u : State) (h : u.checks = s.checks.set a.page ⟨none, []⟩) :
      takeHeld u a.page (u.checks.look a.page).held.length = u := by
    rw [h, look_set_self]
    rfl
  unfold checkEnds checkDone
  simp only [hc, h0, ne_eq, not_true_eq_false, decide_false, Bool.false_and, Bool.false_eq_true, if_false, if_true]
  rw [no_words, endCheck_passed hc hg, applied, sent, none_held]
  rw [mirrorOut_checks, ringOff_checks, checkPassed_checks]

theorem Contained.checkPassed {t : DT} {s r : State} (h : Contained t s r) (p m : Nat) :
    Contained t s (Sys2Proof.checkPassed r p m) := by
  rw [checkPassed_eq]
  generalize (Sys2Proof.checkPassed r p m).regs = regs
  exact ⟨h.time, h.pending, h.devNow, h.queues, h.answered⟩

theorem Contained.ringOff {t : DT} {s r : State} (h : Contained t s r) (n k : Nat) : Contained t s (Sys2Proof.ringOff r n k) :=
  ⟨h.time, h.pending, h.devNow, h.queues, h.answered⟩

theorem Contained.mirrorOut {t : DT} {s r : State} (h : Contained t s r) (a v : Nat) : Contained t s (Machine.mirrorOut r a v) := by
  rw [mirrorOut_eq]
  exact ⟨h.time, h.pending, h.devNow, h.queues, h.answered⟩

/-- Behind a DISABLE that passed its check, REFUSED shows bit 31 of the action's master number. -/
theorem checkDone_dmaDisable_refused (t : DT) {s : State} {a : Action} {pass : Nat}
    (hc : s.checks.look pDMA = ⟨some a, []⟩) (hk : a.kind = .dmaDisable) (hp : a.page = pDMA) (hg : a.guarded = none)
    (h0 : actionCheck (arrive t s) a pass = 0) (h4 : ((arrive t s).dma.look (ringIx a.idx a.val)).state ≠ 4)
    (hb : dmaBusy (ringOff (arrive t s) a.idx a.val) a.idx = false) :
    ∃ u, exec (.checkDone t pDMA pass) s = .next u ∧ u.g (F.CHECK_REFUSED pDMA) = a.master / 2 ^ 31 % 2 := by
  have effect := checkEnds_dmaDisable (by rw [arrive_checks]; exact hc) hk hp hg h0 h4 hb
  have ends := run_ends_of_effect (f := fun s => checkEnds s pDMA pass) effect
    ((((Contained.arrive t s).checkPassed _ _).ringOff _ _).mirrorOut _ _)
  refine ⟨_, rfl, (ends.g (by decide)).trans (Eq.trans ?_ (checkPassed_refused (arrive t s) pDMA a.master))⟩
  unfold State.g
  rw [mirrorOut_reg, ringOff_reg]

/-- A DISABLE of ring 0 of DM0 by an action whose master number has bit 31. Masters have 16 bits (Table 16.8), so that no write of the
machine makes it; an action's `master` is any natural number, and the statement bounds it by nothing. -/
def overlongDisable : Action :=
  { kind := .dmaDisable, page := pDMA, idx := 0, val := 0, master := 2 ^ 31, guarded := none, at_ := 0 }

/-- The machine after reset with its core supplies up and the DMA page enabled; the check of that DISABLE runs. -/
def overlongChecking : State :=
  { State.reset.put (F.CTRL_ENABLE pDMA) 1 with
    hk := { State.reset.hk with corePower := true }
    checks := State.reset.checks.set pDMA ⟨some overlongDisable, []⟩ }

theorem overlongChecking_passes : actionCheck (arrive 0 overlongChecking) overlongDisable 0 = 0 := by decide +kernel

/-- A passed DISABLE by that action leaves CHECK.REFUSED = 1. -/
theorem overlongChecking_refused :
    ∃ u, exec (.checkDone 0 pDMA 0) overlongChecking = .next u ∧ u.g (F.CHECK_REFUSED pDMA) = 1 :=
  checkDone_dmaDisable_refused 0 rfl rfl rfl rfl overlongChecking_passes (by decide +kernel) (by decide +kernel)

/-- Refutes O33, in its part `RingCommandsTakeEffect`: that part leaves out the premise `a.master < 2 ^ 16`, which the statement on
refused checks has. Of an action whose master number has bit 31, that bit falls on CHECK.REFUSED, which the part says is 0
behind a passed DISABLE. -/
theorem not_dmaRingsPostAndWriteBack : ¬ Obligations.DmaRingsPostAndWriteBack := by
  rintro ⟨-, commands⟩
  obtain ⟨-, -, disable, -⟩ := commands 0 0 0 0 overlongChecking overlongChecking overlongDisable (by decide) (by decide)
    rfl rfl (by decide) rfl rfl rfl rfl rfl rfl overlongChecking_passes
  obtain ⟨u, hu, -, accepted, -⟩ := disable rfl (by decide)
  obtain ⟨v, hv, refused⟩ := overlongChecking_refused
  rw [hu] at hv
  cases hv
  rw [accepted] at refused
  exact absurd refused (by decide)

end Sys2Proof
end
section
/-! Device time (R60 to R62), and what the time unit keeps while device time comes to a command's instant (R68, R73). -/

namespace Sys2Proof

open Sys2Proof.Machine

/-! ### Device time -/

theorem advance_ahead {m : Time} {t : DT} (h : 0 < (t - m.dt).toInt) :
    m.advance t = { m with dt := t, era := if t.toNat < m.dt.toNat then m.era + 1 else m.era } := if_pos h

theorem advance_behind {m : Time} {t : DT} (h : (t - m.dt).toInt ≤ 0) : m.advance t = m := if_neg (not_lt.mpr h)

/-- DT comes to 0 only from a value above it, so that ERA counts (R61). -/
theorem wrap_ahead {m : Time} (h : 0 < (0 - m.dt).toInt) : m.wrap = { m with dt := 0, era := m.era + 1 } := by
  have above : (0 : DT).toNat < m.dt.toNat := by
    refine Nat.pos_of_ne_zero fun zero => ?_
    rw [BitVec.eq_of_toNat_eq (y := 0) zero] at h
    exact absurd h (by decide)
  rw [Time.wrap, advance_ahead h, if_pos above]

/-- Where no request of the cycle is left over, DT_WRAP is the passing of DT to 0 and nothing else. -/
theorem exec_dtWrap {t : DT} {s : State} (hs : Settled s) :
    ∃ u, exec (.dtWrap t) s = .next u ∧ u.time = s.time.wrap ∧ Ends (arrive 0 s) u := by
  have ask : (arriveAt s.time.wrap s).cyc.ask = [] := by rw [arriveAt_eq]; exact hs
  have ends := runAt_ends s s.time.wrap id (arriveAt_time _ _) (arriveAt_pending _ _)
  refine ⟨_, rfl, ?_, ends⟩
  exact (ends.time ask).trans (arriveAt_time _ _)

/-- Settles O5: the signed difference of R62 decides whether DT comes to an instant, and DT_WRAP is the instant 0. -/
theorem deviceTimeOnlyAdvances : Obligations.DeviceTimeOnlyAdvances := by
  refine ⟨fun _ _ => advance_ahead, fun _ _ => advance_behind, fun t s hs h => ?_⟩
  rw [← wrap_ahead h]
  exact exec_dtWrap hs

/-! ### What the time unit keeps -/

/-- An anchor changes nothing of the time unit but the mapping of wall time and its state. -/
theorem anchor_tu (s : State) : (anchor s).tu = { s.tu with
    mapW := (anchor s).tu.mapW, mapD := (anchor s).tu.mapD, mapCycle := (anchor s).tu.mapCycle
    rate := (anchor s).tu.rate, slewEnd := (anchor s).tu.slewEnd, tstate := (anchor s).tu.tstate } := by
  unfold anchor
  split <;> rfl

theorem tuSettle_tu (s : State) : (tuSettle s).tu = { s.tu with
    mapW := (tuSettle s).tu.mapW, mapD := (tuSettle s).tu.mapD, mapCycle := (tuSettle s).tu.mapCycle
    rate := (tuSettle s).tu.rate, slewEnd := (tuSettle s).tu.slewEnd, tstate := (tuSettle s).tu.tstate } := by
  have cases : tuSettle s = s ∨ tuSettle s = anchor s := by
    unfold tuSettle
    split <;> split <;> simp
  rcases cases with h | h <;> rw [h]
  exact anchor_tu s

/-- A command acts on a time unit whose kept instants stay behind it and whose mapping is brought up to date. -/
theorem arrive_tu (t : DT) (s : State) : (arrive t s).tu = { s.tu.age (s.time.advance t).dt with
    mapW := (arrive t s).tu.mapW, mapD := (arrive t s).tu.mapD, mapCycle := (arrive t s).tu.mapCycle
    rate := (arrive t s).tu.rate, slewEnd := (arrive t s).tu.slewEnd, tstate := (arrive t s).tu.tstate } :=
  tuSettle_tu { s with out := [], time := s.time.advance t, tu := s.tu.age (s.time.advance t).dt }

@[simp] theorem arrive_refLost (t : DT) (s : State) : (arrive t s).tu.refLost = s.tu.refLost := by rw [arrive_tu]; rfl
@[simp] theorem arrive_ppsInSeen (t : DT) (s : State) : (arrive t s).tu.ppsInSeen = s.tu.ppsInSeen := by rw [arrive_tu]; rfl
@[simp] theorem arrive_dt (t : DT) (s : State) : (arrive t s).dt = (s.time.advance t).dt := by
  unfold State.dt; rw [arrive_time]
@[simp] theorem arrive_fp (t : DT) (s : State) : (arrive t s).fp = s.fp := by rw [arrive_eq]

theorem arrive_ppsLast (t : DT) {s : State} (h : s.tu.ppsLast = none) : (arrive t s).tu.ppsLast = none := by
  rw [arrive_tu]
  exact congrArg (Option.map _) h

/-- What may follow from a command leaves the time unit alone. -/
theorem Ends.tu {r u : State} (h : Ends r u) : u.tu = r.tu := by rw [h.rest]; rfl

theorem Ends.fp {r u : State} (h : Ends r u) : u.fp = r.fp := by rw [h.rest]; rfl
theorem Ends.he {r u : State} (h : Ends r u) : u.he = r.he := by rw [h.rest]; rfl

/-- The state `s` with the registers of `v` and the time unit `m`: what an effect on those two leaves. -/
def withRegsTu (s v : State) (m : TuSt) : State := { s with regs := v.regs, tu := m }

theorem withRegsTu_reg (s v : State) (m : TuSt) (b : Nat) : (withRegsTu s v m).reg b = v.reg b := rfl
theorem withRegsTu_g (s v : State) (m : TuSt) (f : Fld) : (withRegsTu s v m).g f = v.g f := rfl
theorem withRegsTu_tu (s v : State) (m : TuSt) : (withRegsTu s v m).tu = m := rfl

theorem onTu_puti_setReg (s : State) (a v : Nat) (f : Fld) (e : Int) (g : TuSt → TuSt) :
    ((s.setReg a v).puti f e).onTu g = withRegsTu s ((s.setReg a v).puti f e) (g s.tu) := rfl

theorem onTu_puti (s : State) (f : Fld) (e : Int) (g : TuSt → TuSt) :
    (s.puti f e).onTu g = withRegsTu s (s.puti f e) (g s.tu) := rfl

/-- An effect on registers and the time unit lets nothing go on. -/
theorem withRegsTu_contained (t : DT) (s v : State) (m : TuSt) : Contained t s (withRegsTu (arrive t s) v m) :=
  .of rfl rfl rfl rfl rfl

/-- An effect on registers and the time unit, its frame said without either. -/
theorem Ends.regsTu {r v u : State} {m : TuSt} (h : Ends (withRegsTu r v m) u) : Ends { r with regs := u.regs, tu := u.tu } u := by
  have k := h.withRegs
  rw [h.tu]
  exact k

end Sys2Proof
end
section
/-! The reference and the correction registers (R15, R26, R64, R68). -/

namespace Sys2Proof

open Sys2Proof.Machine

/-! ### The PLLs -/

/-- The table in which each of the entries `l` is changed by `f`. -/
def changed {β : Type} [Inhabited β] [DecidableEq β] (f : β → β) (l : List Nat) (m : Tab β) : Tab β :=
  forEach (fun n m => m.set n (f (m.look n))) l m

theorem look_changed {β : Type} [Inhabited β] [DecidableEq β] (f : β → β) {l : List Nat} (hl : l.Nodup) (m : Tab β) (k : Nat) :
    (changed f l m).look k = if k ∈ l then f (m.look k) else m.look k := by
  induction l generalizing m with
  | nil => rfl
  | cons a l ih =>
    obtain ⟨ha, hl⟩ := List.nodup_cons.mp hl
    change (changed f l (m.set a (f (m.look a)))).look k = _
    rw [ih hl, look_set]
    by_cases h : k = a
    · subst h
      simp [ha]
    · simp [h]

theorem forEach_onPort (f : FpSt → FpSt) (l : List Nat) (s : State) :
    forEach (fun p s => s.onPort p f) l s = { s with fp := changed f l s.fp } := by
  induction l generalizing s with
  | nil => rfl
  | cons a l ih => exact ih _

theorem forEach_onHe (f : HeSt → HeSt) (l : List Nat) (s : State) :
    forEach (fun n (s : State) => { s with he := s.he.set n (f (s.he.look n)) }) l s = { s with he := changed f l s.he } := by
  induction l generalizing s with
  | nil => rfl
  | cons a l ih => exact ih _

/-- The state with the PLLs unlocked or locked, and with the causes of core faults that stand (R15, R64). -/
def pllsSet (s : State) (lost : Bool) (standing : List Nat) : State :=
  { s with
    tu := { s.tu with refLost := lost, unlocked := lost }
    fb := { s.fb with noSampling := lost }
    fp := changed (fun q => { q with noClock := lost }) (List.range 8) s.fp
    he := changed (fun h => { h with noClock := lost }) (List.range 2) s.he
    tw := { s.tw with noClock := lost, standing := standing } }

theorem pllsLock_eq (s : State) (lost : Bool) : pllsLock s lost = pllsSet s lost s.tw.standing := by
  refine (forEach_onHe (fun h => { h with noClock := lost }) (List.range 2) _).trans ?_
  rw [forEach_onPort]
  rfl

theorem pllsSet_fp (s : State) (lost : Bool) (standing : List Nat) :
    (pllsSet s lost standing).fp = changed (fun q => { q with noClock := lost }) (List.range 8) s.fp := rfl

theorem pllsSet_he (s : State) (lost : Bool) (standing : List Nat) :
    (pllsSet s lost standing).he = changed (fun h => { h with noClock := lost }) (List.range 2) s.he := rfl

theorem detect_pllsSet (s : State) (lost : Bool) (standing : List Nat) (cause : Nat) :
    detect (pllsSet s lost standing) cause = pllsSet s lost (nsAdd standing cause) := rfl

/-- A PLL of an Ethernet port answers no request that waits there. -/
theorem pllsSet_contained (t : DT) (s : State) (lost : Bool) (standing : List Nat) :
    Contained t s (pllsSet (arrive t s) lost standing) where
  time := arrive_time t s
  pending := arrive_pending t s
  devNow := arrive_devNow t s
  queues := arrive_queues t s
  answered n hn := by
    unfold raAnswered at hn ⊢
    rw [pllsSet_he, look_changed _ List.nodup_range, arrive_he] at hn
    split at hn <;> exact hn

/-- What the obligation says of a state behind a change of the PLLs. -/
theorem exec_plls {c : Instr} {t : DT} {s v : State} {f : State → State} {lost : Bool} {standing : List Nat}
    (e : exec c s = .next (run t s f)) (h : f (arrive t s) = v) (k : Follows False (pllsSet (arrive t s) lost standing) v) :
    ∃ u, exec c s = .next u ∧ (∀ p < 8, u.port p = { s.port p with noClock := lost }) ∧
      (∀ n < 2, u.he.look n = { s.he.look n with noClock := lost }) ∧
      Ends { arrive t s with
        tu := { (arrive t s).tu with refLost := lost, unlocked := lost }, fb := { s.fb with noSampling := lost }, fp := u.fp, he := u.he
        tw := { s.tw with noClock := lost, standing := standing } } u := by
  have ends : Ends (pllsSet (arrive t s) lost standing) (run t s f) :=
    (run_ends_of_effect h ((pllsSet_contained t s lost standing).follows k)).of k
  have fp : (run t s f).fp = changed (fun q => { q with noClock := lost }) (List.range 8) s.fp := by
    rw [ends.fp, pllsSet_fp, arrive_fp]
  have he : (run t s f).he = changed (fun h => { h with noClock := lost }) (List.range 2) s.he := by
    rw [ends.he, pllsSet_he, arrive_he]
  refine ⟨_, e, fun p hp => ?_, fun n hn => ?_, ?_⟩
  · unfold State.port
    rw [fp, look_changed _ List.nodup_range, if_pos (List.mem_range.mpr hp)]
  · rw [he, look_changed _ List.nodup_range, if_pos (List.mem_range.mpr hn)]
  · rw [fp, he]
    unfold pllsSet at ends
    rw [arrive_fp, arrive_fb, arrive_he, arrive_tw] at ends
    exact ends

/-! ### A loss and its end -/

/-- A detected cause stands beside what may follow from a command. -/
theorem Follows.detect {K : Prop} {s u : State} (h : Follows K s u) (cause : Nat) :
    Follows K (Machine.detect s cause) (Machine.detect u cause) where
  regs := h.regs
  cores := h.cores
  hp := h.hp
  hk := h.hk
  start := h.start
  tw := by
    change ({ u.tw with standing := nsAdd u.tw.standing cause } : TwSt) = _
    rw [h.tw]
    rfl
  ks := h.ks
  out := h.out
  devQ := h.devQ
  mem := h.mem
  ms := h.ms
  count := h.count
  quiet := h.quiet
  rest := by
    conv => lhs; rw [h.rest]
    rfl

theorem refLost_held {s : State} (h : s.tu.refLost = true) : refLost s = s := if_pos h

theorem refRestored_unlost {s : State} (h : s.tu.refLost = false) : refRestored s = s := if_neg (by simp [h])

/-- A first loss unlocks the PLLs and stands as cause 4 (Table 15.5). -/
theorem refLost_follows {t : DT} {s : State} (h : s.tu.refLost = false) :
    Follows False (pllsSet (arrive t s) true (nsAdd s.tw.standing 4)) (refLost (arrive t s)) := by
  unfold refLost
  rw [arrive_refLost, h, if_neg (by decide), pllsLock_eq, arrive_tw, ← detect_pllsSet]
  exact (Follows.raisePage _ _ _ _).detect 4

/-- The end of a loss locks the PLLs again; a cause that stands stays. -/
theorem refRestored_follows {t : DT} {s : State} (h : s.tu.refLost = true) :
    Follows False (pllsSet (arrive t s) false s.tw.standing) (refRestored (arrive t s)) := by
  unfold refRestored
  rw [arrive_refLost, if_pos h, pllsLock_eq, arrive_tw]
  exact Follows.raisePage _ _ _ _

/-- A command that leaves its state as it finds it does nothing but come at its instant. -/
theorem does_nothing {c : Instr} {t : DT} {s : State} {f : State → State} (e : exec c s = .next (run t s f))
    (h : f (arrive t s) = arrive t s) : Does c s (arrive t s) := does_of_follows e h (.arrive t s) (Follows.refl _)

/-! ### Corrections -/

/-- The time pages lie outside the always-on domain (R26). -/
theorem suppliedTo_core {a : Nat} (ha : pSG ≤ a) (s : State) (f : State → State) :
    suppliedTo s a f = if s.hk.corePower then f s else s := by
  unfold suppliedTo powered
  rw [decide_eq_false (Nat.not_lt.mpr ha), Bool.false_or]

theorem eventReg_tscorr {n : Nat} (h : n < 10) : eventReg (F.TU_TSCORR n).adr = false := by
  simp only [eventReg, hubReg, startReg, pMEM, pEH, pXU, pHK, pTU]
  simp
  omega

/-- The time unit that keeps the INGRESS correction of port `n` with the present DT (R68). -/
def correctionKept (s : State) (n : Nat) : TuSt :=
  { s.tu with corrOld := s.tu.corrOld.set n ((s.tu.corrOld.look n) ++ [(s.dt, s.g (F.TU_TSCORR_INGRESS n))]) }

theorem tscorrWrite_eq (s : State) (n v : Nat) :
    tscorrWrite s n v = withRegsTu s (s.setReg (F.TU_TSCORR n).adr v) (correctionKept s n) := rfl

theorem correctionKept_last (s : State) (n : Nat) :
    ((correctionKept s n).corrOld.look n).getLast? = some (s.dt, s.g (F.TU_TSCORR_INGRESS n)) := by
  unfold correctionKept
  rw [look_set_self, List.getLast?_concat]

/-- TU_TSCORRn takes the value; the INGRESS correction it replaces is kept with the DT of the write (R68). -/
theorem exec_tscorrWrite {t : DT} {n : Nat} {v : Word} {s : State} (hn : n < 10) (hc : s.hk.corePower = true) :
    ∃ u, exec (.tscorrWrite t n v) s = .next u ∧ u.reg (F.TU_TSCORR n).adr = v.toNat ∧
      (u.tu.corrOld.look n).getLast? = some ((s.time.advance t).dt, s.g (F.TU_TSCORR_INGRESS n)) ∧
      (∀ b, eventReg b = false → b ≠ (F.TU_TSCORR n).adr → u.reg b = s.reg b) ∧
      Ends { arrive t s with regs := u.regs, tu := { (arrive t s).tu with corrOld := u.tu.corrOld } } u := by
  have effect : (if n < 10 then suppliedTo (arrive t s) pTU (fun s => tscorrWrite s n v.toNat) else arrive t s) =
      withRegsTu (arrive t s) ((arrive t s).setReg (F.TU_TSCORR n).adr v.toNat) (correctionKept (arrive t s) n) := by
    rw [if_pos hn, suppliedTo_core (by decide), arrive_hk, if_pos hc, tscorrWrite_eq]
  have ends := run_ends_of_effect (f := fun s => if n < 10 then suppliedTo s pTU (fun s => tscorrWrite s n v.toNat) else s)
    effect (withRegsTu_contained _ _ _ _)
  refine ⟨_, rfl, ?_, ?_, fun b hb hne => ?_, ?_⟩
  · rw [ends.reg (eventReg_tscorr hn), withRegsTu_reg, State.reg_setReg_self]
    exact Nat.mod_eq_of_lt v.isLt
  · rw [ends.tu, withRegsTu_tu, correctionKept_last, arrive_dt, arrive_g]
  · rw [ends.reg hb, withRegsTu_reg, State.reg_setReg_other _ _ hne, arrive_reg]
  · have k := ends.regsTu
    rw [ends.tu] at k ⊢
    exact k

/-- A loss is held until the reference returns; a correction is written while the core supplies are up (R26, R64, R68). -/
theorem referenceAndCorrectionsAreKept : ReferenceAndCorrectionsAreKept := by
  intro t n v s hn
  refine ⟨fun h => ⟨exec_plls rfl rfl (refLost_follows h), ?_⟩, fun h => ⟨?_, exec_plls rfl rfl (refRestored_follows h)⟩,
    fun hc => ?_, exec_tscorrWrite hn⟩
  · exact does_nothing rfl (refRestored_unlost ((arrive_refLost t s).trans h))
  · exact does_nothing rfl (refLost_held ((arrive_refLost t s).trans h))
  · refine does_nothing rfl ?_
    rw [if_pos hn, suppliedTo_core (by decide), arrive_hk, hc, if_neg (by decide)]

end Sys2Proof
end
section
/-! The inputs and outputs of time: PPS_IN, REF10_IN and PPS_OUT (R81 to R83). -/

namespace Sys2Proof

open Sys2Proof.Machine

theorem mag_le {x c : Int} : mag x ≤ c ↔ -c ≤ x ∧ x ≤ c := by
  unfold mag
  split <;> omega

/-- A number within the range of a signed field is its own saturation and its own reading. -/
theorem satS_of_range {w : Nat} {i : Int} (h1 : minS w ≤ i) (h2 : i ≤ maxS w) : satS w i = i := by
  unfold satS clampI
  rw [if_neg (by omega), if_neg (by omega)]

theorem toS_ofS_32 {i : Int} (h1 : -(2 ^ 31) ≤ i) (h2 : i < 2 ^ 31) : toS 32 (ofS 32 i) = i := by
  unfold toS ofS
  dsimp only
  split <;> omega

/-! ### With the page's ENABLE clear -/

section Disabled

variable {s : State} (h : s.enabled pTU = false)
include h

theorem ppsIn_disabled : ppsIn s = s := if_pos (by simp [h])
theorem ref10Gate_disabled (rate : Int) : ref10Gate s rate = s := if_pos (by simp [h])
theorem ppsOut_disabled : ppsOut s = s := if_pos (by simp [h])

end Disabled

/-! ### PPS_IN -/

/-- A gap between two edges lies within 1 ms of a second (R81). -/
def secondApart (gap : Int) : Bool :=
  decide (-(1000000 * 65536) ≤ gap - 65536000000000 ∧ gap - 65536000000000 ≤ 1000000 * 65536)

theorem secondApart_eq (gap : Int) : secondApart gap = decide (mag (gap - secUnits) ≤ (nsUnits 1000000 : Int)) :=
  decide_eq_decide.mpr mag_le.symm

/-- The time from the captured edge to the next one (R81). -/
def edgeGap (s : State) : Int := (dtCount s.dt - BitVec.ofNat 64 (s.reg F.TU_PPS_IN_DT.adr)).toInt

/-- The time unit behind an edge on PPS_IN while FREE. -/
def edgeSeen (s : State) : TuSt :=
  { s.tu with ppsInSeen := true, ppsPresent := s.tu.ppsInSeen && secondApart (edgeGap s), ppsInError := false }

/-- The registers with an edge captured at the present DT, with the error 0. -/
def edgeRegs (s : State) : State := (s.setReg F.TU_PPS_IN_DT.adr (dtCount s.dt).toNat).puti F.TU_REFIN_MEAS_PPS_ERR 0

/-- An edge on PPS_IN is captured; while FREE its error reads 0 and passes its test. -/
theorem ppsIn_free {s : State} (he : s.enabled pTU = true) (hi : s.gb F.TU_REF_CFG_PPS_IN_EN = true) (hf : s.tu.tstate = 0) :
    ppsIn s = withRegsTu s (edgeRegs s) (edgeSeen s) := by
  have error : wallError s = 0 := if_pos hf
  have near : ¬ mag 0 > (s.g F.TU_REF_CFG_PPS_ERR_LIMIT : Int) := by
    unfold mag
    omega
  have read : satS 32 0 = 0 := by decide
  unfold edgeSeen
  rw [secondApart_eq]
  unfold ppsIn
  rw [he, hi, error, if_neg (by decide)]
  dsimp only
  rw [if_neg (by simpa using near), read, decide_eq_false near, onTu_puti_setReg]
  rfl

theorem exec_ppsInEdge {t : DT} {s : State} (he : s.enabled pTU = true) (hi : s.gb F.TU_REF_CFG_PPS_IN_EN = true)
    (hf : (arrive t s).tu.tstate = 0) :
    ∃ u, exec (.ppsInEdge t) s = .next u ∧ u.reg F.TU_PPS_IN_DT.adr = (dtCount (s.time.advance t).dt).toNat ∧
      u.g F.TU_REFIN_MEAS_PPS_ERR = 0 ∧ u.tu = edgeSeen (arrive t s) ∧
      (∀ b, eventReg b = false → b ≠ F.TU_PPS_IN_DT.adr → b ≠ F.TU_REFIN_MEAS_PPS_ERR.adr → u.reg b = s.reg b) ∧
      Ends { arrive t s with regs := u.regs, tu := u.tu } u := by
  have effect := ppsIn_free ((arrive_enabled t s pTU).trans he) ((arrive_gb t s _).trans hi) hf
  have ends := run_ends_of_effect (f := fun s => ppsIn s) effect (withRegsTu_contained _ _ _ _)
  refine ⟨_, rfl, ?_, ?_, ends.tu, fun b hb h1 h2 => ?_, ends.regsTu⟩
  · rw [ends.reg (by decide), withRegsTu_reg]
    refine (State.reg_put_other _ _ _ (by decide)).trans ?_
    rw [State.reg_setReg_self, arrive_dt]
    exact Nat.mod_eq_of_lt (dtCount _).isLt
  · rw [ends.g (by decide), withRegsTu_g]
    exact State.g_put_self _ _ _ (by decide)
  · rw [ends.reg hb, withRegsTu_reg]
    exact ((State.reg_put_other _ _ _ h2).trans (State.reg_setReg_other _ _ h1)).trans (arrive_reg t s b)

/-- PPS_PRESENT clears 1.001 s after an edge without another, and no sooner (R81). -/
theorem exec_ppsPresentTimeout {t : DT} {s : State} (h : s.tu.ppsInSeen = true) :
    (65601536000000 < ((s.time.advance t).dt - BitVec.ofNat 64 (s.reg F.TU_PPS_IN_DT.adr)).toInt →
      Does (.ppsPresentTimeout t) s { arrive t s with tu := { (arrive t s).tu with ppsPresent := false } }) ∧
    (((s.time.advance t).dt - BitVec.ofNat 64 (s.reg F.TU_PPS_IN_DT.adr)).toInt ≤ 65601536000000 →
      Does (.ppsPresentTimeout t) s (arrive t s)) := by
  have limit : secUnits + (nsUnits 1000000 : Int) = 65601536000000 := by decide
  have timeout : ppsTimeout (arrive t s) =
      if 65601536000000 < ((s.time.advance t).dt - BitVec.ofNat 64 (s.reg F.TU_PPS_IN_DT.adr)).toInt then
        (arrive t s).onTu (fun t => { t with ppsPresent := false }) else arrive t s := by
    unfold ppsTimeout dtDiff
    rw [arrive_ppsInSeen, h, arrive_dt, arrive_reg, limit]
    simp
  refine ⟨fun late => ?_, fun soon => ?_⟩
  · exact does_of_follows rfl (timeout.trans (if_pos late)) (.of rfl rfl rfl rfl rfl) (Follows.refl _)
  · exact does_nothing rfl (timeout.trans (if_neg (not_lt.mpr soon)))

/-! ### REF10_IN -/

/-- The time unit behind a gate with the measured rate: REF10_IN is present within 200 ppm. -/
def gateEnded (s : State) (rate : Int) : TuSt :=
  { s.tu with ref10Present := decide (-51200000 ≤ rate ∧ rate ≤ 51200000) }

/-- Outside HOLDOVER the mapping keeps its rate (R80). -/
theorem holdRate_elsewhere {s : State} (h : s.tu.tstate ≠ 3) : holdRate s = s := by
  unfold holdRate
  split
  · rw [if_neg h]
  · rfl

/-- Outside HOLDOVER, or where it runs without REF10_IN, a gate only measures (R80, R82). -/
theorem ref10Gate_measures {s : State} {rate : Int} (he : s.enabled pTU = true) (hi : s.gb F.TU_REF_CFG_REF10_IN_EN = true)
    (h1 : -(2 ^ 31) ≤ rate) (h2 : rate < 2 ^ 31) (hold : s.tu.tstate ≠ 3 ∨ s.gb F.PTP_SEL_HOLD_REF = false) :
    ref10Gate s rate = withRegsTu s (s.puti F.TU_REFIN_MEAS_REF10_RATE rate) (gateEnded s rate) := by
  have read : satS 32 rate = rate := satS_of_range (by unfold minS; omega) (by unfold maxS; omega)
  have ref : (withRegsTu s (s.puti F.TU_REFIN_MEAS_REF10_RATE rate) (gateEnded s rate)).gb F.PTP_SEL_HOLD_REF =
      s.gb F.PTP_SEL_HOLD_REF := by
    unfold State.gb
    rw [withRegsTu_g, State.puti, State.g_put_other s _ _ (by decide)]
  have near : decide (mag rate ≤ 51200000) = decide (-51200000 ≤ rate ∧ rate ≤ 51200000) := decide_eq_decide.mpr mag_le
  unfold ref10Gate
  rw [he, hi, if_neg (by decide), read]
  dsimp only
  rw [onTu_puti, near, ← gateEnded, ref]
  rcases hold with h | h
  · rw [holdRate_elsewhere (s := withRegsTu s _ (gateEnded s rate)) h, ite_self]
  · rw [h, if_neg (by decide)]

theorem exec_ref10Gate {t : DT} {rate : Int} {s : State} (he : s.enabled pTU = true) (hi : s.gb F.TU_REF_CFG_REF10_IN_EN = true)
    (h1 : -(2 ^ 31) ≤ rate) (h2 : rate < 2 ^ 31) (hold : (arrive t s).tu.tstate ≠ 3 ∨ s.gb F.PTP_SEL_HOLD_REF = false) :
    ∃ u, exec (.ref10Gate t rate) s = .next u ∧ toS 32 (u.g F.TU_REFIN_MEAS_REF10_RATE) = rate ∧
      u.tu = { (arrive t s).tu with ref10Present := decide (-51200000 ≤ rate ∧ rate ≤ 51200000) } ∧
      Ends { arrive t s with regs := u.regs, tu := u.tu } u := by
  have effect := ref10Gate_measures ((arrive_enabled t s pTU).trans he) ((arrive_gb t s _).trans hi) h1 h2
    (hold.imp_right (arrive_gb t s _).trans)
  have ends := run_ends_of_effect (f := fun s => ref10Gate s rate) effect (withRegsTu_contained _ _ _ _)
  refine ⟨_, rfl, ?_, ends.tu, ends.regsTu⟩
  have field : (run t s (fun s => ref10Gate s rate)).g F.TU_REFIN_MEAS_REF10_RATE = ofS 32 rate := by
    rw [ends.g (by decide), withRegsTu_g]
    refine (State.g_put_self _ _ _ (by decide)).trans (Nat.mod_eq_of_lt ?_)
    unfold ofS
    omega
  rw [field, toS_ofS_32 h1 h2]

/-! ### PPS_OUT -/

/-- The last whole second of DT. -/
def wholeSecond (d : DT) : DT := d - BitVec.ofNat 64 (d.toNat % 65536000000000)

theorem lastSecond_dt {s : State} (h : s.gb F.TU_REF_CFG_PPS_OUT_SRC = true) : lastSecond s = wholeSecond s.dt := by
  unfold lastSecond dtAdd wholeSecond secUnits
  rw [if_pos h, BitVec.ofInt_neg, ← BitVec.sub_eq_add_neg]
  norm_cast

/-- On device time, a first whole second that lies after ENABLE gives a pulse (R83). -/
theorem ppsOut_dt {s : State} (he : s.enabled pTU = true) (ho : s.gb F.TU_REF_CFG_PPS_OUT_EN = true)
    (hd : s.gb F.TU_REF_CFG_PPS_OUT_SRC = true) (hl : s.tu.ppsLast = none) (ha : 0 ≤ (wholeSecond s.dt - s.tu.onAt).toInt) :
    ppsOut s = { s with
      tu := { s.tu with ppsLast := some (wholeSecond s.dt), ppsWall := false }
      out := s.out ++ [.pulse 8 (wholeSecond s.dt) (s.g F.TU_REF_CFG_PPS_WIDTH * 1000000)] } := by
  have fits : ppsFits s (wholeSecond s.dt) = true := by
    unfold ppsFits dtDiff
    rw [decide_eq_true ha, hd, hl]
    cases s.tu.stepAt <;> rfl
  unfold ppsOut
  dsimp only
  rw [lastSecond_dt hd, fits, he, ho, hd, if_neg (by simp), if_neg (by decide)]
  simp only [Bool.not_true, Bool.and_false, Bool.false_eq_true, if_false, List.append_nil]
  rfl

theorem exec_ppsOutPulse {t : DT} {s : State} (he : s.enabled pTU = true) (ho : s.gb F.TU_REF_CFG_PPS_OUT_EN = true)
    (hd : s.gb F.TU_REF_CFG_PPS_OUT_SRC = true) (hl : s.tu.ppsLast = none)
    (ha : 0 ≤ (wholeSecond (s.time.advance t).dt - (arrive t s).tu.onAt).toInt) :
    ∃ u, exec (.ppsOutPulse t) s = .next u ∧ u.tu.ppsLast = some (wholeSecond (s.time.advance t).dt) ∧
      .pulse 8 (wholeSecond (s.time.advance t).dt) (s.g F.TU_REF_CFG_PPS_WIDTH * 1000000) ∈ u.out ∧
      Ends { arrive t s with tu := u.tu, out := u.out } u := by
  rw [← arrive_dt t s] at ha ⊢
  have effect := ppsOut_dt ((arrive_enabled t s pTU).trans he) ((arrive_gb t s _).trans ho) ((arrive_gb t s _).trans hd)
    (arrive_ppsLast t hl) ha
  have ends := run_ends_of_effect (f := fun s => ppsOut s) effect (.of rfl rfl rfl rfl rfl)
  refine ⟨_, rfl, ?_, ends.out.subset ?_, ?_⟩
  · rw [ends.tu]
  · rw [← arrive_g t s F.TU_REF_CFG_PPS_WIDTH]
    exact List.mem_append_right _ (List.mem_singleton_self _)
  · have k := ends.withOut
    rw [ends.tu]
    exact k

/-- Each input and output of time does what R81 to R83 say of it, and nothing with the page's ENABLE clear. -/
theorem ppsAndRef10AreMeasured : PpsAndRef10AreMeasured := by
  intro t rate s
  refine ⟨fun h => ?_, fun he hi hf => ?_, exec_ppsPresentTimeout, exec_ref10Gate, exec_ppsOutPulse⟩
  · have off := (arrive_enabled t s pTU).trans h
    exact ⟨does_nothing rfl (ppsIn_disabled off), does_nothing rfl (ref10Gate_disabled off rate), does_nothing rfl (ppsOut_disabled off)⟩
  · have k := exec_ppsInEdge he hi hf
    unfold edgeSeen edgeGap secondApart at k
    rw [arrive_ppsInSeen, arrive_dt, arrive_reg] at k
    exact k

/-- Settles O41: the reference and the corrections, and the inputs and outputs of time, each by its part. -/
theorem timeInputsAreMeasured : Obligations.TimeInputsAreMeasured :=
  ⟨referenceAndCorrectionsAreKept, ppsAndRef10AreMeasured⟩

end Sys2Proof
end
section
/-! A stream's mirror over CTRL of the PTP page (R257, R262, R363): the counterexample to O42. -/

namespace Sys2Proof

open Sys2Proof.Machine

/-- What a command leaves of the time unit: what its effect and the writes that blocks asked for in it have made of it. -/
theorem run_tu (t : DT) (s : State) (f : State → State) : (run t s f).tu = (landed s (f (arrive t s))).tu := by
  have h : Follows False (landed s (f (arrive t s))) (Machine.after s (landed s (f (arrive t s)))) :=
    (Follows.after s _).uncounted
  change (Machine.after s (landed s (f (arrive t s)))).tu = _
  rw [h.rest]

/-- A slot that is QUALIFIED, without an outlier for 64 evaluations. -/
def cleanSlot : PtpDom := { (default : PtpDom) with state := 3, clean := 64 }

/-- The machine after reset with its core supplies up and the PTP page enabled, REVERT set, both slots QUALIFIED and the second one
selected. Stream 0 is RUNNING with a ring of 4 KiB in DRAM, and its ST_MIRROR is the address of CTRL of the PTP page; the streams
have been told the time state and the selection. -/
def mirrorOnPtpCtrl : State :=
  let s := (State.reset.put (F.CTRL_ENABLE pPTP) 1).put F.PTP_SEL_REVERT 1
  let s := { s with
    hk := { s.hk with corePower := true }
    tu := { s.tu with selected := some 1, stepDue := true, dom0 := cleanSlot, dom1 := cleanSlot }
    ae := { s.ae with told := (0, some 1), str := [(0, { (default : AeStr) with base := dramBase, size := 4096 })] } }
  (s.setWord (stBase 0 + 0x28) (F.CTRL_ENABLE pPTP).adr).setWord (stBase 0 + 0x40) (2 <<< 61)

/-- One second of DT. -/
def oneSecond : DT := 65536000000000

/-- The evaluation after that second returns the selection to the primary, and the MAPPING packet that tells of it asks for the write
of ST_WR, 128, to ST_MIRROR. That write is made before the command ends; its bit 0 is clear, so that it disables the page, whose
slots begin anew (R77). -/
theorem mirrorOnPtpCtrl_clears :
    ((landed mirrorOnPtpCtrl (timeFollowed rateEvaluation (arrive oneSecond mirrorOnPtpCtrl))).dom 0).secs = [] := by
  decide +kernel

theorem mirrorOnPtpCtrl_told : (arrive oneSecond mirrorOnPtpCtrl).ae.told =
    ((arrive oneSecond mirrorOnPtpCtrl).tu.tstate, (arrive oneSecond mirrorOnPtpCtrl).tu.selected) := by decide +kernel

theorem mirrorOnPtpCtrl_due : mirrorOnPtpCtrl.enabled pPTP = true ∧ 65536000000000 ≤
    ((mirrorOnPtpCtrl.time.advance oneSecond).dt - (arrive oneSecond mirrorOnPtpCtrl).tu.evalAt).toInt := by decide +kernel

/-- Refutes O42, in the last clause of its part `SlotsListenCalibrateAndFallBack`: the clause leaves out the premise that the evaluation
asks for no write (`devNow`), which the statements on streams have. An evaluation that changes the selection writes MAPPING packets;
a stream's ring or mirror may lie over registers, and where its mirror is CTRL of the PTP page the same command disables the page and
leaves the slot without the second's average. -/
theorem not_ptpSlotsMeasureAndFallBack : ¬ Obligations.PtpSlotsMeasureAndFallBack := by
  rintro ⟨-, slots⟩
  obtain ⟨-, -, -, -, -, -, -, evaluation⟩ :=
    slots oneSecond 0 0 0 0 0 0 0 0 [] 0 0 mirrorOnPtpCtrl (by decide) mirrorOnPtpCtrl_told
  obtain ⟨enabled, second⟩ := mirrorOnPtpCtrl_due
  obtain ⟨u, hu, -, -, -, secs⟩ := evaluation enabled second
  have run_eq : u = run oneSecond mirrorOnPtpCtrl (timeFollowed rateEvaluation) := (Host.Outcome.next.inj hu).symm
  have tu := run_tu oneSecond mirrorOnPtpCtrl (timeFollowed rateEvaluation)
  have none_left : (u.dom 0).secs = [] := by
    rw [← mirrorOnPtpCtrl_clears, run_eq]
    unfold State.dom
    rw [tu]
  rw [none_left] at secs
  exact List.cons_ne_nil _ _ secs.symm

end Sys2Proof
end
section
/-! Rules about the words of a record in memory, as a block of the device writes them and reads them back (R6, R9, R358). -/

namespace Sys2Proof

open Sys2Proof.Machine

/-! ### Words -/

theorem byte_congr {r s : State} (h : r.mem = s.mem) (b : Nat) : r.byte b = s.byte b := by
  unfold State.byte
  rw [h]

theorem word_congr {r s : State} (hm : r.mem = s.mem) (hp : r.poison = s.poison) (a : Nat) : r.word a = s.word a := by
  unfold State.word State.poisoned
  rw [hp, bytesAt_congr hm]

theorem ax_congr {r s : State} (hm : r.mem = s.mem) (hp : r.poison = s.poison) (a : Nat) (f : Fld) : r.ax a f = s.ax a f := by
  unfold State.ax State.mg
  rw [word_congr hm hp]

theorem axb_congr {r s : State} (hm : r.mem = s.mem) (hp : r.poison = s.poison) (a : Nat) (f : Fld) : r.axb a f = s.axb a f := by
  unfold State.axb State.mgb
  exact congrArg (· != 0) (ax_congr hm hp a f)

/-- Bytes that have been written read back, little-endian. -/
theorem bytesAt_setBytes (n : Nat) : ∀ (s : State) (a v : Nat), (s.setBytes a v n).bytesAt a n = v % 2 ^ (8 * n) := by
  induction n with
  | zero => exact fun _ _ v => (Nat.mod_one v).symm
  | succ n ih =>
    intro s a v
    have low : ((s.setByte a (byteOf v 0)).setBytes (a + 1) (v >>> 8) n).byte a = byteOf v 0 := by
      rw [State.byte_setBytes_other n _ _ _ (.inl (Nat.lt_succ_self a)), State.byte_setByte_self]
    unfold State.setBytes State.bytesAt
    rw [low, ih, show 8 * (n + 1) = 8 + 8 * n by ring, Nat.pow_add, Nat.mod_mul, Nat.shiftRight_eq_div_pow]
    rfl

theorem word_lt (s : State) (a : Nat) : s.word a < 2 ^ 64 := by
  unfold State.word
  split
  · decide
  · exact bytesAt_lt s 8 _

/-- Clearing poison changes no more than the poisoned words and their log. -/
theorem heal_eq (s : State) (a : Nat) : ∃ regs, s.heal a =
    { s with regs := regs, poison := if s.poisoned a then nsDel s.poison (a / 8 * 8) else s.poison } := by
  unfold State.heal
  split
  · refine forEach_keeps (P := fun r : State => ∃ regs, r = { s with regs := regs, poison := nsDel s.poison (a / 8 * 8) })
      _ (fun k r h => ?_) _ _ ⟨s.regs, rfl⟩
    obtain ⟨regs, rfl⟩ := h
    split
    · exact ⟨_, rfl⟩
    · exact ⟨regs, rfl⟩
  · exact ⟨s.regs, rfl⟩

/-- A word is poisoned no longer once its poison is cleared. -/
theorem heal_poisoned (s : State) (a : Nat) : (s.heal a).poisoned a = false := by
  obtain ⟨regs, e⟩ := heal_eq s a
  rw [e]
  unfold State.poisoned nsHas nsDel
  dsimp only
  cases h : s.poison.contains (a / 8 * 8)
  · rw [if_neg (by decide), h]
  · simp

/-- A write of a word changes the memory, and clears its poison. -/
theorem setWord_eq (s : State) (a v : Nat) : s.setWord a v =
    { s with regs := (s.setWord a v).regs, mem := (s.setWord a v).mem, poison := (s.setWord a v).poison } := by
  obtain ⟨regs, e⟩ := heal_eq s a
  unfold State.setWord
  rw [setBytes_eq, e]

theorem setWord_poison (s : State) (a v : Nat) : (s.setWord a v).poison = (s.heal a).poison := by
  unfold State.setWord
  rw [setBytes_eq]

/-- A word that has been written reads back. -/
theorem word_setWord (s : State) (a v : Nat) : (s.setWord a v).word a = v % 2 ^ 64 := by
  have clear : (s.setWord a v).poisoned a = false := by
    unfold State.poisoned
    rw [setWord_poison]
    exact heal_poisoned s a
  unfold State.word
  rw [clear, if_neg (by decide)]
  exact bytesAt_setBytes 8 _ _ v

/-! ### Fields -/

/-- A write of a field of a record changes the memory, clears the word's poison and may leave a read to be reported. -/
theorem mput_eq (s : State) (base : Nat) (f : Fld) (v : Nat) : s.mput base f v = { s with
    regs := (s.mput base f v).regs, mem := (s.mput base f v).mem, poison := (s.mput base f v).poison
    ueDue := (s.mput base f v).ueDue } := by
  obtain ⟨l, h⟩ := State.mput_eq s base f v
  rw [h, setWord_eq]

theorem mput_poison (s : State) (base : Nat) (f : Fld) (v : Nat) : (s.mput base f v).poison =
    (s.setWord (base + f.adr) (setBits (s.word (base + f.adr)) f.lo f.w v)).poison := by
  obtain ⟨l, h⟩ := State.mput_eq s base f v
  rw [h]

theorem mput_regs (s : State) (base : Nat) (f : Fld) (v : Nat) : (s.mput base f v).regs =
    (s.setWord (base + f.adr) (setBits (s.word (base + f.adr)) f.lo f.w v)).regs := by
  obtain ⟨l, h⟩ := State.mput_eq s base f v
  rw [h]

/-- The word of a field that has been written. -/
theorem word_mput {f : Fld} (hf : f.lo + f.w ≤ 64) (s : State) (base v : Nat) :
    (s.mput base f v).word (base + f.adr) = setBits (s.word (base + f.adr)) f.lo f.w v := by
  rw [word_congr (State.mput_mem s base f v) (mput_poison s base f v), word_setWord]
  exact Nat.mod_eq_of_lt (setBits_lt _ _ _ _ 64 (word_lt s _) hf)

/-- A field of an axis record that has been written reads back. -/
theorem ax_axPut {f : Fld} (hf : f.lo + f.w ≤ 64) (s : State) (a v : Nat) : (s.axPut a f v).ax a f = v % 2 ^ f.w := by
  unfold State.ax State.axPut State.mg
  rw [word_mput hf, getBits_setBits_self]

/-- A field above one that has been written in the same word stays. -/
theorem ax_axPut_above {f k : Fld} (hf : f.lo + f.w ≤ 64) (ha : k.adr = f.adr) (h : f.lo + f.w ≤ k.lo) (s : State) (a v : Nat) :
    (s.axPut a f v).ax a k = s.ax a k := by
  unfold State.ax State.axPut State.mg
  rw [ha, word_mput hf, getBits_setBits_above _ _ _ _ h]

/-- A write of a field leaves the bytes of every other word. -/
theorem byte_axPut (s : State) (a : Nat) (f : Fld) (v : Nat) {b : Nat} (h : b / 8 ≠ (axisBase a + f.adr) / 8) :
    (s.axPut a f v).byte b = s.byte b := by
  rw [← State.byte_setWord_other s _ (setBits (s.word (axisBase a + f.adr)) f.lo f.w v) h]
  unfold State.byte State.axPut
  rw [State.mput_mem]

/-- A write of a field of a record leaves every register but those that an event can change. -/
theorem reg_axPut (s : State) (a : Nat) (f : Fld) (v : Nat) {b : Nat} (h : eventReg b = false) :
    (s.axPut a f v).reg b = s.reg b := by
  unfold State.reg State.axPut
  rw [mput_regs]
  exact (Moves.setWord (W := fun _ => True) (K := False) s _ _ (fun _ _ => trivial)).regs b h

/-- A one-bit field of a register reads as its bit. -/
theorem bit_eq_getBits (v i : Nat) : bit v i = (getBits v i 1 != 0) := by
  unfold bit getBits
  rw [Nat.testBit_eq_decide_div_mod_eq, Nat.shiftRight_eq_div_pow, pow_one]
  rcases Nat.mod_two_eq_zero_or_one (v / 2 ^ i) with h | h <;> simp [h]

/-- A bit of a map that has been set reads as set. -/
theorem bit_mapBit {i : Nat} (s : State) (base : Nat) :
    bit ((mapBit s base i true).reg (base + 8 * (i / 64))) (i % 64) = true := by
  have low : i % 64 + 1 ≤ 64 := Nat.mod_lt i (by decide)
  have e : (mapBit s base i true).reg (base + 8 * (i / 64)) = setBits (s.reg (base + 8 * (i / 64))) (i % 64) 1 1 :=
    State.reg_put_self s ⟨base + 8 * (i / 64), i % 64, 1⟩ 1 low
  rw [e, bit_eq_getBits, getBits_setBits_self]
  decide

end Sys2Proof
end
section
/-! Rules about feedback commands: what they read on arrival, what writing FB_STATUS changes, the fault state, and what an
event with the hub disabled leaves (R7, R88, R109, R114, R144, R428). -/

namespace Sys2Proof

open Sys2Proof.Machine

/-! ### The state in which a command acts -/

@[simp] theorem arrive_axb (t : DT) (s : State) (a : Nat) (f : Fld) : (arrive t s).axb a f = s.axb a f :=
  axb_congr (arrive_mem t s) (arrive_poison t s) a f
@[simp] theorem arrive_fbAx (t : DT) (s : State) (a : Nat) : (arrive t s).fbAx a = s.fbAx a := by
  unfold State.fbAx
  rw [arrive_fb]
@[simp] theorem arrive_qe (t : DT) (s : State) (n : Nat) : (arrive t s).qe n = s.qe n := by
  unfold State.qe
  rw [arrive_fb]
@[simp] theorem arrive_axisEnabled (t : DT) (s : State) (a : Nat) : axisEnabled (arrive t s) a = axisEnabled s a := by
  unfold axisEnabled
  rw [arrive_reg]

/-- A write that a master makes of a page runs as any other where nothing holds it up and the core supplies are up (R26). -/
theorem runOn_made {t : DT} {m : Nat} {s : State} (p : Nat) {e : HeldAccess} (f : State → State) (hu : Unhindered t m s)
    (he : e.master = m) (hc : s.hk.corePower = true) : runOn t s p e f = run t s f :=
  runOn_powered t s p e f (hu.free e he) hc

/-! ### What is sent -/

/-- What an effect sends beside all else may be left out of what a command is said to do. -/
theorem Follows.sent {K : Prop} (s : State) {out : List Out} (h : s.out <+: out) : Follows K s { s with out := out } := by
  obtain ⟨l, rfl⟩ := h
  exact Follows.of (Moves.out' s l) (fun _ => ⟨rfl, rfl, rfl, rfl, rfl⟩)

theorem mirrorOut_out (s : State) (a v : Nat) : s.out <+: (mirrorOut s a v).out := by
  unfold mirrorOut
  split
  · exact List.prefix_append _ _
  · exact List.prefix_refl _

/-- A mirrored write is sent, and that is all (R390). -/
theorem Follows.mirrorOut {K : Prop} (s : State) (a v : Nat) : Follows K s (Machine.mirrorOut s a v) := by
  rw [mirrorOut_eq]
  exact Follows.sent s (mirrorOut_out s a v)

/-! ### What writing the feedback words changes -/

/-- `r` is `s` with the feedback engine's own state, words of memory and their poison changed; of the registers only those that an
event can change. -/
structure FeedbackWrite (s r : State) : Prop where
  regs : ∀ b, eventReg b = false → r.reg b = s.reg b
  rest : r = { s with regs := r.regs, mem := r.mem, poison := r.poison, ueDue := r.ueDue, fb := r.fb }

theorem FeedbackWrite.refl (s : State) : FeedbackWrite s s := ⟨fun _ _ => rfl, rfl⟩

theorem FeedbackWrite.trans {s r u : State} (h : FeedbackWrite s r) (k : FeedbackWrite r u) : FeedbackWrite s u where
  regs b hb := (k.regs b hb).trans (h.regs b hb)
  rest := by rw [k.rest, h.rest]

theorem FeedbackWrite.setWord (s : State) (a v : Nat) : FeedbackWrite s (s.setWord a v) where
  regs b hb := (Moves.setWord (W := fun _ => True) (K := False) s a v (fun _ _ => trivial)).regs b hb
  rest := by
    generalize e : s.setWord a v = r
    rw [setWord_eq] at e
    rw [← e]

theorem FeedbackWrite.noteReads (s : State) (m a n : Nat) : FeedbackWrite s (s.noteReads m a n) := by
  unfold State.noteReads State.noteReadsBy
  split
  · exact .refl s
  · exact ⟨fun _ _ => rfl, rfl⟩

theorem FeedbackWrite.onFb (s : State) (a : Nat) (f : FbAx → FbAx) : FeedbackWrite s (s.onFb a f) := ⟨fun _ _ => rfl, rfl⟩
theorem FeedbackWrite.onQe (s : State) (n : Nat) (f : QeCh → QeCh) : FeedbackWrite s (s.onQe n f) := ⟨fun _ _ => rfl, rfl⟩

theorem FeedbackWrite.fbSync (s : State) (a : Nat) : FeedbackWrite s (Machine.fbSync s a) := by
  unfold Machine.fbSync
  exact (FeedbackWrite.noteReads s _ _ _).trans (.onFb _ a _)

theorem FeedbackWrite.fbPutStatus (s : State) (a : Nat) : FeedbackWrite s (Machine.fbPutStatus s a) := .setWord s _ _

theorem FeedbackWrite.contained {t : DT} {s r u : State} (k : FeedbackWrite r u) (h : Contained t s r) : Contained t s u where
  time := by rw [k.rest]; exact h.time
  pending := by rw [k.rest]; exact h.pending
  devNow := by rw [k.rest]; exact h.devNow
  queues := by rw [k.rest]; exact h.queues
  answered n hn := h.answered n (by rw [k.rest] at hn; exact hn)

theorem fbPutStatus_fb (s : State) (a : Nat) : (fbPutStatus s a).fb = s.fb := by
  unfold fbPutStatus
  dsimp only
  rw [setWord_eq]

theorem fbPutStatus_fbAx (s : State) (a k : Nat) : (fbPutStatus s a).fbAx k = s.fbAx k := by
  unfold State.fbAx
  rw [fbPutStatus_fb]

theorem fbPutStatus_byte (s : State) (a : Nat) {b : Nat} (h : b / 8 ≠ (axisBase a + F.FB_STATUS.adr) / 8) :
    (fbPutStatus s a).byte b = s.byte b := State.byte_setWord_other s _ _ h

theorem noteReads_eq (s : State) (m a n : Nat) : s.noteReads m a n = { s with ueDue := (s.noteReads m a n).ueDue } := by
  unfold State.noteReads State.noteReadsBy
  split <;> rfl

theorem fbSync_mem (s : State) (a : Nat) : (fbSync s a).mem = s.mem := by
  change (s.noteReads _ _ _).mem = _
  rw [noteReads_eq]

/-- Reading FB_STATUS leaves an axis active or not. -/
theorem fbSync_active (s : State) (a : Nat) : ((fbSync s a).fbAx a).active = (s.fbAx a).active := by
  have own : (s.noteReads 0x43 (axisBase a + 0x100) 16).fbAx a = s.fbAx a := by rw [noteReads_eq]; rfl
  unfold fbSync
  rw [State.onFb_fbAx, own]
  split <;> rfl

/-! ### Events with the hub disabled -/

/-- With the hub disabled an event leaves the memory and what is poisoned in it. -/
theorem raiseAxis_disabled {s : State} (h : s.enabled pEH = false) (a e i : Nat) :
    (raiseAxis s a e i).mem = s.mem ∧ (raiseAxis s a e i).poison = s.poison :=
  ⟨((Follows.raiseAxis (K := False) s a e i).quiet h).1, (PoisonKept.raiseWith ⟨h, rfl⟩ _ _ _ _).2⟩

/-- With the hub disabled a command leaves the memory of its effect, and what is poisoned in it. -/
theorem run_disabled {t : DT} {s r : State} {f : State → State} (h : f (arrive t s) = r) (k : Contained t s r)
    (e : r.enabled pEH = false) : (run t s f).mem = r.mem ∧ (run t s f).poison = r.poison :=
  ⟨((run_ends_of_effect h k).quiet e).1, run_poison h k e⟩

/-- The state `s` with the registers and the memory of `u`. -/
def withMemory (s u : State) : State := { s with regs := u.regs, mem := u.mem, poison := u.poison }

/-- What follows with the hub disabled follows also beside registers and memory that are those of `u` throughout. -/
theorem Follows.withMemory {K : Prop} {r v : State} (h : Follows K r v) (e : r.enabled pEH = false) (u : State) :
    Follows K (Sys2Proof.withMemory r u) (Sys2Proof.withMemory v u) where
  regs _ _ := rfl
  cores := h.cores
  hp := h.hp
  hk := h.hk
  start q := ⟨(h.start q).1, fun _ _ => rfl⟩
  tw := h.tw
  ks := h.ks
  out := h.out
  devQ := h.devQ
  mem _ _ _ := rfl
  ms := h.ms
  count := h.count
  quiet _ := ⟨rfl, (h.quiet e).2⟩
  rest := by
    conv => lhs; rw [h.rest]
    rfl

/-- The frame of a command that ends in `u` with the hub disabled, said without registers and memory. -/
theorem Ends.withMemory {r u : State} (h : Ends r u) (e : r.enabled pEH = false) : Ends (Sys2Proof.withMemory r u) u :=
  Follows.withMemory h e u

theorem Ends.fb {r u : State} (h : Ends r u) : u.fb = r.fb := by rw [h.rest]; rfl

/-- What a command leaves whose effect is `x` and an event of an axis, with the hub disabled. -/
theorem run_raising {t : DT} {s x : State} {f : State → State} {a e i : Nat} (h : f (arrive t s) = raiseAxis x a e i)
    (k : Contained t s x) (hub : x.enabled pEH = false) :
    (run t s f).mem = x.mem ∧ (run t s f).poison = x.poison ∧ (run t s f).fb = x.fb ∧
    (∀ b, eventReg b = false → (run t s f).reg b = x.reg b) ∧ Ends (withMemory x (run t s f)) (run t s f) := by
  have told : Follows False x (raiseAxis x a e i) := Follows.raiseAxis x a e i
  have contained := k.follows told
  have ends : Ends x (run t s f) := (run_ends_of_effect h contained).of told
  obtain ⟨mem1, poison1⟩ := raiseAxis_disabled hub a e i
  obtain ⟨mem2, poison2⟩ := run_disabled h contained (told.enabled.trans hub)
  exact ⟨mem2.trans mem1, poison2.trans poison1, ends.fb, fun b hb => ends.reg hb, ends.withMemory hub⟩

/-! ### The fault state (R144) -/

theorem eventReg_axMap {a : Nat} (h : a < 512) :
    eventReg (F.LE_AXMAP (a / 64)).adr = false ∧ eventReg (F.LE_FAULTMAP (a / 64)).adr = false := by
  simp only [eventReg, hubReg, startReg, pMEM, pEH, pXU, pHK, pLE]
  simp
  omega

theorem axisEnabled_congr {s r : State} {a : Nat} (ha : a < 512) (h : ∀ b, eventReg b = false → r.reg b = s.reg b) :
    axisEnabled r a = axisEnabled s a := by
  unfold axisEnabled
  rw [h _ (eventReg_axMap ha).1]

theorem axisFaulted_congr {s r : State} {a : Nat} (ha : a < 512) (h : ∀ b, eventReg b = false → r.reg b = s.reg b) :
    axisFaulted r a = axisFaulted s a := by
  unfold axisFaulted
  rw [h _ (eventReg_axMap ha).2]

theorem enabled_congr {s r : State} (h : ∀ b, eventReg b = false → r.reg b = s.reg b) : r.enabled pEH = s.enabled pEH := by
  unfold State.enabled State.gb State.g
  rw [h _ (by decide)]

/-- Axis `a` with FAULT and the cause in AX_STATUS, and its bit in LE_FAULTMAPn. -/
def faultShown (s : State) (a cause : Nat) : State :=
  ((mapBit s (F.LE_FAULTMAP 0).adr a true).axPut a F.AX_STATUS_CAUSE cause).axPut a F.AX_STATUS_FAULT 1

/-- An axis that is not enabled enters no fault state. -/
theorem faultAxis_off {s : State} {a : Nat} (h : axisEnabled s a = false) (cause : Nat) : faultAxis s a cause = s :=
  if_pos (by simp [h])

/-- An enabled axis without a fault enters the fault state, which is an event. -/
theorem faultAxis_on {s : State} {a : Nat} (h : axisEnabled s a = true) (k : axisFaulted s a = false) (cause : Nat) :
    faultAxis s a cause = raiseAxis (faultShown s a cause) a 1 cause := if_neg (by simp [h, k])

section FaultShown

variable (s : State) {a : Nat} (cause : Nat)

theorem faultShown_eq : faultShown s a cause = { withMemory s (faultShown s a cause) with ueDue := (faultShown s a cause).ueDue } := by
  unfold faultShown State.axPut
  rw [mput_eq, mput_eq]
  rfl

/-- Beside registers and memory a fault that is shown changes nothing but what is to be reported. -/
theorem faultShown_follows (u : State) : Follows False (withMemory s u) (withMemory (faultShown s a cause) u) := by
  rw [faultShown_eq]
  exact Follows.of (Moves.due _ _) (fun _ => ⟨rfl, rfl, rfl, rfl, rfl⟩)

theorem faultShown_contained {t : DT} {r : State} (h : Contained t r s) : Contained t r (faultShown s a cause) := by
  rw [faultShown_eq]
  exact ⟨h.time, h.pending, h.devNow, h.queues, h.answered⟩

theorem faultShown_fb : (faultShown s a cause).fb = s.fb := by
  rw [faultShown_eq]
  rfl

theorem faultShown_reg {b : Nat} (hb : eventReg b = false) (hne : b ≠ (F.LE_FAULTMAP (a / 64)).adr) :
    (faultShown s a cause).reg b = s.reg b := by
  unfold faultShown
  rw [reg_axPut _ _ _ _ hb, reg_axPut _ _ _ _ hb]
  exact State.reg_put_other s _ _ hne

theorem faultShown_hub (ha : a < 512) : (faultShown s a cause).enabled pEH = s.enabled pEH := by
  have e : (F.CTRL_ENABLE pEH).adr ≠ (F.LE_FAULTMAP (a / 64)).adr := by simp only [pEH, pLE]; omega
  unfold State.enabled State.gb State.g
  rw [faultShown_reg s cause (by decide) e]

theorem faultShown_faulted (ha : a < 512) : axisFaulted (faultShown s a cause) a = true := by
  obtain ⟨-, hb⟩ := eventReg_axMap ha
  unfold axisFaulted faultShown
  rw [reg_axPut _ _ _ _ hb, reg_axPut _ _ _ _ hb]
  exact bit_mapBit s (F.LE_FAULTMAP 0).adr

theorem faultShown_cause : (faultShown s a cause).ax a F.AX_STATUS_CAUSE = cause % 2 ^ 8 := by
  unfold faultShown
  rw [ax_axPut_above (f := F.AX_STATUS_FAULT) (k := F.AX_STATUS_CAUSE) (by decide) rfl (by decide), ax_axPut (by decide)]

theorem faultShown_fault : (faultShown s a cause).axb a F.AX_STATUS_FAULT = true := by
  unfold faultShown State.axb State.mgb
  change (State.ax _ a F.AX_STATUS_FAULT != 0) = true
  rw [ax_axPut (by decide)]
  rfl

theorem faultShown_byte {b : Nat} (h : b / 8 ≠ (axisBase a + F.AX_STATUS_FAULT.adr) / 8) :
    (faultShown s a cause).byte b = s.byte b := by
  unfold faultShown
  rw [byte_axPut _ a F.AX_STATUS_FAULT _ h, byte_axPut _ a F.AX_STATUS_CAUSE _ h]
  rfl

end FaultShown

end Sys2Proof
end
section
/-! FB_LOST, SETTLED and the STOP of an axis (R88, R109, R114). -/

namespace Sys2Proof

open Sys2Proof.Machine

/-! ### FB_LOST -/

/-- The loss of axis `a` shown in FB_STATUS, as the engine has read it. -/
def lossShown (s : State) (a : Nat) : State :=
  fbPutStatus ((fbSync s a).onFb a (fun f => { f with lost := true, lossDue := false })) a

theorem lossShown_write (s : State) (a : Nat) : FeedbackWrite s (lossShown s a) :=
  ((FeedbackWrite.fbSync s a).trans (.onFb _ a _)).trans (.fbPutStatus _ a)

theorem lossShown_byte (s : State) (a : Nat) {b : Nat} (h : b / 8 ≠ (axisBase a + F.FB_STATUS.adr) / 8) :
    (lossShown s a).byte b = s.byte b := by
  unfold lossShown
  rw [fbPutStatus_byte _ a h]
  exact byte_congr (fbSync_mem s a) b

/-- The loss shown and told as an event. -/
def lossTold (s : State) (a : Nat) : State := raiseAxis (lossShown s a) a 5 0

theorem lossTold_fb (s : State) (a : Nat) : (lossTold s a).fb = (lossShown s a).fb := by
  unfold lossTold
  rw [(Follows.raiseAxis (K := False) (lossShown s a) a 5 0).rest]

theorem lossTold_mem {s : State} {a : Nat} (h : (lossShown s a).enabled pEH = false) :
    (lossTold s a).mem = (lossShown s a).mem := (raiseAxis_disabled h a 5 0).1

theorem lossShown_fbAx (s : State) (a : Nat) :
    ((lossShown s a).fbAx a).lost = true ∧ ((lossShown s a).fbAx a).active = (s.fbAx a).active := by
  unfold lossShown
  rw [fbPutStatus_fbAx, State.onFb_fbAx]
  exact ⟨rfl, fbSync_active s a⟩

theorem fbLost_due {s : State} {a : Nat} (h : (s.fbAx a).active = true) (k : (s.fbAx a).lossDue = true) :
    fbLost s a = faultAxis (raiseAxis (lossShown s a) a 5 0) a 2 := if_pos (by unfold fbLostDue; simp [h, k])

theorem fbLost_undue {s : State} {a : Nat} (h : (s.fbAx a).active = false ∨ (s.fbAx a).lossDue = false) : fbLost s a = s :=
  if_neg (by unfold fbLostDue; rcases h with h | h <;> simp [h])

/-! ### SETTLED -/

/-- SETTLED of axis `a` shown in FB_STATUS, as the engine has read it. -/
def settledShown (s : State) (a : Nat) : State :=
  fbPutStatus ((fbSync s a).onFb a (fun f => { f with settled := true })) a

theorem settledShown_write (s : State) (a : Nat) : FeedbackWrite s (settledShown s a) :=
  ((FeedbackWrite.fbSync s a).trans (.onFb _ a _)).trans (.fbPutStatus _ a)

theorem settledDue_arrive (t : DT) (s : State) (a : Nat) : settledDue (arrive t s) a = ((s.fbAx a).active && !s.axb a F.FB_STATUS_SETTLED &&
    !(s.fbAx a).restart && (s.fbAx a).nmeas ≥ (s.fbAx a).settleAt && (s.fbAx a).settleAt ≠ 0) := by
  unfold settledDue
  rw [arrive_fbAx, arrive_axb]

/-! ### The commands -/

section Commands

variable {t : DT} {a : Nat} {s : State} (ha : a < 512) (hq : QuadQuiet s)
include ha hq

theorem exec_fbLost : ∃ f, exec (.fbLost t a) s = .next (run t s f) ∧ f (arrive t s) = fbLost (arrive t s) a := by
  refine ⟨_, rfl, ?_⟩
  rw [qeCatchUp_arrive hq, Nat.mod_eq_of_lt ha]

theorem exec_settled : ∃ f, exec (.settled t a) s = .next (run t s f) ∧ f (arrive t s) = fbSettled (arrive t s) a := by
  refine ⟨_, rfl, ?_⟩
  rw [qeCatchUp_arrive hq, Nat.mod_eq_of_lt ha]

/-- FB_LOST that is not due does nothing. -/
theorem fbLost_nothing (h : (s.fbAx a).active = false ∨ (s.fbAx a).lossDue = false) : Does (.fbLost t a) s (arrive t s) := by
  obtain ⟨f, e, hf⟩ := exec_fbLost (t := t) ha hq
  exact does_nothing e (hf.trans (fbLost_undue (by rwa [arrive_fbAx])))

/-- The loss of an axis that is not enabled is shown and told. -/
theorem fbLost_shown (h : (s.fbAx a).active = true) (k : (s.fbAx a).lossDue = true) (off : axisEnabled s a = false) :
    Does (.fbLost t a) s (lossShown (arrive t s) a) := by
  obtain ⟨f, e, hf⟩ := exec_fbLost (t := t) ha hq
  have told := Follows.raiseAxis (K := False) (lossShown (arrive t s) a) a 5 0
  have unfaulted : axisEnabled (raiseAxis (lossShown (arrive t s) a) a 5 0) a = false := by
    rw [axisEnabled_congr ha told.regs, axisEnabled_congr ha (lossShown_write _ a).regs, arrive_axisEnabled, off]
  refine does_of_follows e (hf.trans ?_) ((lossShown_write _ a).contained (.arrive t s)) told
  rw [fbLost_due (by rwa [arrive_fbAx]) (by rwa [arrive_fbAx]), faultAxis_off unfaulted]

/-- The loss of an enabled axis puts it into the fault state with cause 2; its feedback stays active (R109). -/
theorem fbLost_faults (h : (s.fbAx a).active = true) (k : (s.fbAx a).lossDue = true) (on : axisEnabled s a = true)
    (free : axisFaulted s a = false) (hub : s.enabled pEH = false) :
    ∃ u, exec (.fbLost t a) s = .next u ∧ axisFaulted u a = true ∧ u.ax a F.AX_STATUS_CAUSE = 2 ∧
      u.axb a F.AX_STATUS_FAULT = true ∧ (u.fbAx a).lost = true ∧ (u.fbAx a).active = true ∧
      (∀ b, eventReg b = false → b ≠ (F.LE_FAULTMAP (a / 64)).adr → u.reg b = s.reg b) ∧
      (∀ b, b / 8 ≠ (axisBase a + F.FB_STATUS.adr) / 8 → b / 8 ≠ (axisBase a + F.AX_STATUS_FAULT.adr) / 8 →
        u.byte b = s.byte b) ∧
      Ends (withMemory (lossShown (arrive t s) a) u) u := by
  obtain ⟨f, e, hf⟩ := exec_fbLost (t := t) ha hq
  have write := lossShown_write (arrive t s) a
  have told := Follows.raiseAxis (K := False) (lossShown (arrive t s) a) a 5 0
  have regs : ∀ b, eventReg b = false → (lossTold (arrive t s) a).reg b = s.reg b := fun b hb => by
    rw [← arrive_reg t s, ← write.regs b hb]
    exact told.regs b hb
  have shown_hub : (lossShown (arrive t s) a).enabled pEH = false := by rw [enabled_congr write.regs, arrive_enabled, hub]
  have told_hub : (lossTold (arrive t s) a).enabled pEH = false := told.enabled.trans shown_hub
  have effect : f (arrive t s) = raiseAxis (faultShown (lossTold (arrive t s) a) a 2) a 1 2 := by
    rw [hf, fbLost_due (by rwa [arrive_fbAx]) (by rwa [arrive_fbAx])]
    exact faultAxis_on ((axisEnabled_congr ha regs).trans on) ((axisFaulted_congr ha regs).trans free) 2
  have contained : Contained t s (lossTold (arrive t s) a) := (write.contained (.arrive t s)).follows told
  obtain ⟨mem, poison, fb, reg, ends⟩ := run_raising effect (faultShown_contained _ 2 contained)
    ((faultShown_hub _ 2 ha).trans told_hub)
  have fbAx : (run t s f).fbAx a = (lossShown (arrive t s) a).fbAx a := by
    unfold State.fbAx
    rw [fb, faultShown_fb, lossTold_fb]
  obtain ⟨lost, active⟩ := lossShown_fbAx (arrive t s) a
  refine ⟨_, e, ?_, ?_, ?_, ?_, ?_, fun b hb hne => ?_, fun b h1 h2 => ?_, ?_⟩
  · rw [axisFaulted_congr ha reg]
    exact faultShown_faulted _ 2 ha
  · exact (ax_congr mem poison a _).trans (faultShown_cause _ 2)
  · exact (axb_congr mem poison a _).trans (faultShown_fault _ 2)
  · rw [fbAx, lost]
  · rw [fbAx, active, arrive_fbAx, h]
  · rw [reg b hb, faultShown_reg _ 2 hb hne, regs b hb]
  · rw [byte_congr mem, faultShown_byte _ 2 h2, byte_congr (lossTold_mem shown_hub), lossShown_byte _ a h1,
      byte_congr (arrive_mem t s)]
  · exact ends.of ((told.withMemory shown_hub _).trans (faultShown_follows _ 2 _))

/-- Measured updates that have reached the count of R114 settle an active axis. -/
theorem settled_shown (h : (s.fbAx a).active = true) (k : s.axb a F.FB_STATUS_SETTLED = false) (hr : (s.fbAx a).restart = false)
    (h0 : (s.fbAx a).settleAt ≠ 0) (hn : (s.fbAx a).settleAt ≤ (s.fbAx a).nmeas) :
    Does (.settled t a) s (settledShown (arrive t s) a) := by
  obtain ⟨f, e, hf⟩ := exec_settled (t := t) ha hq
  have due : settledDue (arrive t s) a = true := by
    rw [settledDue_arrive]
    simp [h, k, hr, h0, hn]
  exact does_of_follows e (hf.trans (if_pos due)) ((settledShown_write _ a).contained (.arrive t s)) (Follows.refl _)

/-- SETTLED that is not due does nothing. -/
theorem settled_nothing (h : (s.fbAx a).active = false ∨ s.axb a F.FB_STATUS_SETTLED = true ∨ (s.fbAx a).restart = true ∨
    (s.fbAx a).settleAt = 0 ∨ (s.fbAx a).nmeas < (s.fbAx a).settleAt) : Does (.settled t a) s (arrive t s) := by
  obtain ⟨f, e, hf⟩ := exec_settled (t := t) ha hq
  have undue : settledDue (arrive t s) a = false := by
    rw [settledDue_arrive]
    rcases h with h | h | h | h | h <;> simp [h]
  exact does_nothing e (hf.trans (if_neg (ne_true_of_eq_false undue)))

end Commands

/-! ### STOP -/

/-- The value that asks FBE_AXCTL for the STOP of an axis names the axis and STOP alone. -/
theorem axctl_stop {a : Nat} (ha : a < 512) :
    getBits ((1 <<< 62) + a) 0 9 = a ∧ bit ((1 <<< 62) + a) 63 = false ∧ bit ((1 <<< 62) + a) 62 = true := by
  unfold getBits bit
  simp only [Nat.testBit_eq_decide_div_mod_eq, Nat.shiftRight_zero, Nat.shiftLeft_eq, decide_eq_true_eq, decide_eq_false_iff_not]
  omega

/-- A STOP that no check holds up is carried out, and is sent on as a mirrored write (R88, R390, R413). -/
theorem axctlWrite_stop {s : State} {m a : Nat} (ha : a < 512) (hr : (s.checks.look pFBE).running = none) (hs : s.standby = false) :
    axctlWrite s m ((1 <<< 62) + a) =
      mirrorOut (fbStop s a) (F.FBE_AXCTL_AXIS.adr / 8 * 8) ((1 <<< 62) + a) := by
  obtain ⟨axis, start, stop⟩ := axctl_stop ha
  have accepted : standbyRefuses s m F.FBE_AXCTL_AXIS.adr = false := standbyRefuses_active m _ hs
  unfold axctlWrite
  rw [axis, start, stop]
  simp only [Bool.false_eq_true, if_false, if_true]
  unfold reqAct
  simp only [actReg, accepted, Bool.and_false, Bool.false_eq_true, if_false]
  unfold actNow act
  simp only [hr, if_true, opWrite, alreadyOn, hasCheck]
  unfold submitPlain
  simp only [hr]
  rfl

theorem feedbackStop_does {t : DT} {m a : Nat} {s : State} (ha : a < 512) (hr : (s.checks.look pFBE).running = none)
    (hu : Unhindered t m s) (hs : s.standby = false) (hc : s.hk.corePower = true) :
    Does (.feedbackStop t m a) s ((arrive t s).onFb a (fun f => { f with pendStart := none, pendStop := f.active })) := by
  have e : exec (.feedbackStop t m a) s = .next (run t s (fun s => axctlWrite s m ((1 <<< 62) + a % 512))) :=
    congrArg Host.Outcome.next (runOn_made pFBE _ hu rfl hc)
  refine does_of_follows e ?_ (.of rfl rfl rfl rfl rfl) (Follows.mirrorOut _ (F.FBE_AXCTL_AXIS.adr / 8 * 8) ((1 <<< 62) + a))
  rw [Nat.mod_eq_of_lt ha]
  exact axctlWrite_stop ha (by rwa [arrive_checks]) (by rwa [arrive_standby])

/-- Settles O43: each command by what it finds due on its axis, the fault of a loss by the rules of the fault state, a STOP as an
action without a check. -/
theorem feedbackIsLostSettledAndStopped : Obligations.FeedbackIsLostSettledAndStopped := by
  intro t m a s ha hq
  refine ⟨fbLost_nothing ha hq, fbLost_shown ha hq, fbLost_faults ha hq, settled_shown ha hq, settled_nothing ha hq,
    fun hr hu hs hc => feedbackStop_does ha hr hu hs hc⟩

end Sys2Proof
end
section
/-! Rules about a quadrature channel: its place in the table, its samples, the turn of its edges and illegal transitions (R92,
R93, R96). -/

namespace Sys2Proof

open Sys2Proof.Machine

/-! ### A channel in its table -/

theorem terase_tins {β : Type} (m : List (Nat × β)) (k : Nat) (v : β) : terase (tins m k v) k = terase m k := by
  induction m with
  | nil => simp [tins, terase]
  | cons e r ih =>
    obtain ⟨a, w⟩ := e
    unfold tins
    split
    · simp [terase]
    · simp only [terase, ih]

theorem terase_terase {β : Type} (m : List (Nat × β)) (k : Nat) : terase (terase m k) k = terase m k := by
  induction m with
  | nil => rfl
  | cons e r ih =>
    obtain ⟨a, w⟩ := e
    by_cases h : a = k <;> simp [terase, h, ih]

/-- Of two writes of one key the second stands. -/
theorem set_set {β : Type} [Inhabited β] [DecidableEq β] (m : Tab β) (k : Nat) (v w : β) : (m.set k v).set k w = m.set k w := by
  have erased : terase (m.set k v) k = terase m k := by
    unfold Tab.set tput
    split
    · exact terase_terase m k
    · rw [terase_tins, terase_terase]
  change (if w = default then terase (m.set k v) k else tins (terase (m.set k v) k) k w) = _
  rw [erased]
  rfl

/-- What a key reads as stands in the table or is the default. -/
theorem look_mem {β : Type} [Inhabited β] (m : Tab β) (k : Nat) : (k, m.look k) ∈ m ∨ m.look k = default := by
  unfold Tab.look
  induction m with
  | nil => exact .inr rfl
  | cons e r ih =>
    obtain ⟨a, v⟩ := e
    unfold tget
    split
    · rename_i h
      exact .inl (h ▸ List.mem_cons_self)
    · exact ih.imp_left (List.mem_cons_of_mem _)

/-- A channel of which nothing is due has no latch due. -/
theorem QuadQuiet.due {s : State} (h : QuadQuiet s) (n : Nat) : (s.qe n).due = none := by
  rcases look_mem s.fb.qe n with k | k
  · exact (h _ k).1
  · unfold State.qe
    rw [k]
    rfl

@[simp] theorem onQe_qe (s : State) (n : Nat) (f : QeCh → QeCh) : (s.onQe n f).qe n = f (s.qe n) := look_set_self _ _ _

theorem onQe_qe_other (s : State) (n : Nat) (f : QeCh → QeCh) {k : Nat} (h : k ≠ n) : (s.onQe n f).qe k = s.qe k :=
  look_set_other _ _ h

theorem onQe_onQe (s : State) (n : Nat) (f g : QeCh → QeCh) : (s.onQe n f).onQe n g = s.onQe n (fun c => g (f c)) := by
  change { s with fb := { s.fb with qe := (s.fb.qe.set n (f (s.qe n))).set n (g ((s.onQe n f).qe n)) } } = _
  rw [onQe_qe, set_set]
  rfl

theorem onQe_congr {s : State} {n : Nat} {f g : QeCh → QeCh} (h : f (s.qe n) = g (s.qe n)) : s.onQe n f = s.onQe n g := by
  unfold State.onQe
  rw [h]

/-! ### The turn of the edges (R93) -/

/-- The quadrature steps forward from levels `ra`, `rb` to `a`, `b`, of four. -/
def quadStep (ra rb a b : Bool) : Nat := (quadPlace a b + 4 - quadPlace ra rb) % 4

theorem quadStep_eq_zero : ∀ ra rb a b, quadStep ra rb a b = 0 ↔ a = ra ∧ b = rb := by decide

/-- Both levels change where the turn is two steps: with MODE 0 that is illegal. -/
theorem qeIsIllegal_quadStep : ∀ ra rb a b, qeIsIllegal 0 (ra != a) (rb != b) a b = decide (quadStep ra rb a b = 2) := by decide

/-- With MODE 0 the count follows the turn. -/
theorem qeDelta_quadStep : ∀ ra rb a b, quadStep ra rb a b ≠ 2 → qeDelta 0 (ra != a) (rb != b) a b =
    if quadStep ra rb a b = 1 then 1 else if quadStep ra rb a b = 3 then -1 else 0 := by decide

/-! ### A sample -/

/-- The level that three samples confirm (R92), as the bits of `w` show them. -/
theorem qeLevel_of_samples {w : Nat} {old new : Bool}
    (h : if w % 8 = 7 then new = true else if w % 8 = 0 then new = false else new = old) : qeLevel old w = new := by
  unfold qeLevel
  split_ifs at h ⊢ <;> exact h.symm

/-- A channel behind a confirmed edge that gives it the levels `a` and `b`: the count follows the turn, and the edge is dated `ts`. -/
def quadTurned (a b : Bool) (ts : DT) (c : QeCh) : QeCh :=
  let step := quadStep c.ra c.rb a b
  { c with
    ra := a, rb := b, a := a, b := b
    count := if step = 1 then c.count + 1 else if step = 3 then c.count - 1 else c.count
    edgeDt := if step = 0 then c.edgeDt else ts }

/-- A turn of no step leaves a channel whose levels are the confirmed ones. -/
theorem quadTurned_still {c : QeCh} (ts : DT) (ha : c.a = c.ra) (hb : c.b = c.rb) : quadTurned c.ra c.rb ts c = c := by
  have still : quadStep c.ra c.rb c.ra c.rb = 0 := (quadStep_eq_zero _ _ _ _).mpr ⟨rfl, rfl⟩
  have kept : ∀ x y, x = c.a → y = c.b → ({ c with a := x, b := y } : QeCh) = c := by
    rintro _ _ rfl rfl
    rfl
  unfold quadTurned
  rw [still]
  exact kept c.ra c.rb ha.symm hb.symm

/-- A channel behind an illegal transition to the levels `a` and `b`, which is counted and told. -/
def quadJumped (a b : Bool) (c : QeCh) : QeCh :=
  { c with ra := a, rb := b, a := a, b := b, illegal := satInc 32 c.illegal, told := true }

/-- A channel that is not guarded is guarded for no edge while no rule of a T0 before stands (R99). -/
theorem qeGuardedAt_unguarded {s r : State} {n : Nat} (ts : DT) (h : qeGuarded s n = false) (hw : (r.qe n).was = none)
    (hon : qeOn r n = qeOn s n) (hp : (r.qe n).policy = (s.qe n).policy) (hf : (r.qe n).phase = (s.qe n).phase) :
    qeGuardedAt r n ts = false := by
  rw [← h]
  unfold qeGuardedAt qeGuarded qePolicy qeRule
  rw [hw, hon, hf, ← hp]

/-- An accepted edge of A and B with MODE 0. -/
theorem qeAccept_mode0 {s : State} {n : Nat} {e : QePend} (hm : s.g (F.QE_CFG_MODE n) = 0) (hz : e.cZ = false) :
    qeAccept s n e =
      let bad := qeIsIllegal 0 e.cA e.cB (if e.cA then e.a else (s.qe n).a) (if e.cB then e.b else (s.qe n).b)
      let d := if bad then 0 else qeDelta 0 e.cA e.cB (if e.cA then e.a else (s.qe n).a) (if e.cB then e.b else (s.qe n).b)
      let r := s.onQe n (fun c => { c with
        a := if e.cA then e.a else c.a, b := if e.cB then e.b else c.b
        count := c.count + BitVec.ofInt 32 d, edgeDt := if d = 0 then c.edgeDt else e.ts })
      if bad then qeIllegal r n e.ts else r := by
  unfold qeAccept
  simp only [hm, hz, Bool.false_and, Bool.false_eq_true, if_false]
  rfl

section Samples

variable {s : State} {n wa wb wz : Nat} {a b : Bool} (ha : qeLevel (s.qe n).ra wa = a) (hb : qeLevel (s.qe n).rb wb = b)
  (hz : qeLevel (s.qe n).rz wz = (s.qe n).rz)
include ha hb hz

/-- Samples that confirm no new level leave the channel as it is. -/
theorem qeSample_still (h1 : a = (s.qe n).ra) (h2 : b = (s.qe n).rb) : qeSample s n wa wb wz = s.onQe n id := by
  unfold qeSample
  simp only [ha, hb, hz, h1, h2, bne_self_eq_false, Bool.or_self, Bool.not_false, if_true]
  exact onQe_congr rfl

/-- With the channel off only the levels follow. -/
theorem qeSample_off (off : qeOn s n = false) (h : a ≠ (s.qe n).ra ∨ b ≠ (s.qe n).rb) :
    qeSample s n wa wb wz = s.onQe n (fun c => { c with a := a, b := b, z := c.rz, ra := a, rb := b, pend := [] }) := by
  have changed : ((s.qe n).ra != a || (s.qe n).rb != b) = true := by
    simpa [Bool.or_eq_true, bne_iff_ne, ne_comm] using h
  have off' (f : QeCh → QeCh) : qeOn (s.onQe n f) n = false := off
  unfold qeSample
  simp only [ha, hb, hz, changed, bne_self_eq_false, Bool.or_false, Bool.not_true, Bool.false_eq_true, if_false, off',
    Bool.not_false, if_true]
  rw [onQe_onQe]
  exact onQe_congr rfl

section Counting

variable (on : qeOn s n = true) (free : qeGuarded s n = false) (was : (s.qe n).was = none)
  (mode : s.g (F.QE_CFG_MODE n) = 0) (pend : (s.qe n).pend = [])
include on free was pend

/-- A confirmed edge of an unguarded channel is accepted at once. -/
theorem qeSample_accepts (h : a ≠ (s.qe n).ra ∨ b ≠ (s.qe n).rb) : qeSample s n wa wb wz =
    qeAccept (s.onQe n (fun c => { c with ra := a, rb := b })) n
      ⟨s.edgeStamp, (s.qe n).ra != a, (s.qe n).rb != b, false, a, b, (s.qe n).rz⟩ := by
  have changed : ((s.qe n).ra != a || (s.qe n).rb != b) = true := by
    simpa [Bool.or_eq_true, bne_iff_ne, ne_comm] using h
  have same : s.onQe n (fun c => { c with ra := a, rb := b, rz := (s.qe n).rz }) =
      s.onQe n (fun c => { c with ra := a, rb := b }) := onQe_congr rfl
  have on' : qeOn (s.onQe n (fun c => { c with ra := a, rb := b })) n = true := on
  have unguarded (ts : DT) : qeGuardedAt (s.onQe n (fun c => { c with ra := a, rb := b })) n ts = false :=
    qeGuardedAt_unguarded ts free (by rw [onQe_qe]; exact was) rfl (by rw [onQe_qe]) (by rw [onQe_qe])
  unfold qeSample
  simp only [ha, hb, hz, changed, bne_self_eq_false, Bool.or_false, Bool.not_true, Bool.false_eq_true, if_false, same, on',
    unguarded, Bool.not_false, if_true]
  rw [onQe_qe, pend]
  rfl

variable (la : (s.qe n).a = (s.qe n).ra) (lb : (s.qe n).b = (s.qe n).rb)
include mode la lb

/-- What an unguarded channel with MODE 0 makes of confirmed levels: a legal turn or an illegal transition (R93). -/
theorem qeSample_edge (h : a ≠ (s.qe n).ra ∨ b ≠ (s.qe n).rb) : qeSample s n wa wb wz =
    if quadStep (s.qe n).ra (s.qe n).rb a b = 2 then
      qeIllegal (s.onQe n (fun c => { c with ra := a, rb := b, a := a, b := b })) n s.edgeStamp
    else s.onQe n (quadTurned a b s.edgeStamp) := by
  have levelA : (if (s.qe n).ra != a then a else (s.qe n).ra) = a := by
    by_cases e : (s.qe n).ra = a <;> simp [e]
  have levelB : (if (s.qe n).rb != b then b else (s.qe n).rb) = b := by
    by_cases e : (s.qe n).rb = b <;> simp [e]
  have turned : quadStep (s.qe n).ra (s.qe n).rb a b ≠ 0 := fun e => by
    obtain ⟨e1, e2⟩ := (quadStep_eq_zero _ _ _ _).mp e
    exact h.elim (absurd e1) (absurd e2)
  have mode' : (s.onQe n (fun c => { c with ra := a, rb := b })).g (F.QE_CFG_MODE n) = 0 := mode
  rw [qeSample_accepts ha hb hz on free was pend h, qeAccept_mode0 mode' rfl]
  simp only [onQe_qe, la, lb, levelA, levelB, qeIsIllegal_quadStep, onQe_onQe]
  by_cases illegal : quadStep (s.qe n).ra (s.qe n).rb a b = 2
  · simp only [illegal, decide_true, if_true]
    refine congrArg (fun x => qeIllegal x n s.edgeStamp) (onQe_congr ?_)
    simp [la, lb]
  · simp only [illegal, decide_false, Bool.false_eq_true, if_false, qeDelta_quadStep _ _ _ _ illegal]
    refine onQe_congr ?_
    unfold quadTurned
    have odd : quadStep (s.qe n).ra (s.qe n).rb a b = 1 ∨ quadStep (s.qe n).ra (s.qe n).rb a b = 3 := by
      have := Nat.mod_lt (quadPlace a b + 4 - quadPlace (s.qe n).ra (s.qe n).rb) (show 4 > 0 by decide)
      unfold quadStep at turned illegal ⊢
      omega
    rcases odd with e | e
    · simp [la, lb, e]
    · simp [la, lb, e, BitVec.sub_eq_add_neg]

end Counting

end Samples

/-! ### An illegal transition (R96, R97) -/

/-- What a channel's axes are told of a fault stays within the feedback words, and leaves the channels. -/
theorem qeSuspect_write (s : State) (n : Nat) : FeedbackWrite s (qeSuspect s n) ∧ (qeSuspect s n).fb.qe = s.fb.qe := by
  unfold qeSuspect
  refine forEach_keeps (P := fun r : State => FeedbackWrite s r ∧ r.fb.qe = s.fb.qe) _ (fun a r h => ⟨?_, ?_⟩) _ _ ⟨.refl s, rfl⟩
  · exact (h.1.trans (.onFb r a _)).trans (.fbPutStatus _ a)
  · rw [fbPutStatus_fb]
    exact h.2

/-- An illegal transition of an unguarded channel of which no latch is due: it is counted and told, and may raise its event. -/
theorem qeIllegal_unguarded {s : State} {n : Nat} {ts : DT} (hd : (s.qe n).due = none) (hg : qeGuardedAt s n ts = false) :
    ∃ r, FeedbackWrite s r ∧ r.fb.qe = (s.onQe n (fun c => { c with illegal := satInc 32 c.illegal, told := true })).fb.qe ∧
      Follows False r (qeIllegal s n ts) := by
  have same : s.onQe n (fun c => { c with illegal := satInc 32 c.illegal, told := true, now := c.now + b2n false }) =
      s.onQe n (fun c => { c with illegal := satInc 32 c.illegal, told := true }) := onQe_congr rfl
  obtain ⟨write, channels⟩ := qeSuspect_write (s.onQe n (fun c => { c with illegal := satInc 32 c.illegal, told := true })) n
  refine ⟨_, (FeedbackWrite.onQe s n _).trans write, channels, ?_⟩
  have late : qeLate (s.qe n) ts = false := by
    unfold qeLate
    rw [hd]
  unfold qeIllegal
  simp only [late, hg, Bool.false_eq_true, if_false, same]
  exact Follows.ite (Follows.refl _) (Follows.raisePage _ _ _ _)

end Sys2Proof
end
section
/-! The commands of the QE page (R92, R93, R96, R98 to R100, R118, R120). -/

namespace Sys2Proof

open Sys2Proof.Machine

/-! ### The state in which a command acts -/

/-- An edge that a sample confirms is dated by the first of three samples less 3 ns (R92). -/
theorem arrive_edgeStamp (t : DT) (s : State) : (arrive t s).edgeStamp =
    dtCount ((s.time.advance t).dt - BitVec.ofNat 64 (5 * 65536)) - BitVec.ofNat 64 (3 * 65536) := by
  have first : BitVec.ofInt 64 (-(5 * 65536)) = -BitVec.ofNat 64 (5 * 65536) := by decide
  have line : BitVec.ofInt 64 (-(3 * 65536)) = -BitVec.ofNat 64 (3 * 65536) := by decide
  unfold State.edgeStamp dtAdd
  rw [arrive_time, first, line, ← BitVec.sub_eq_add_neg, ← BitVec.sub_eq_add_neg]

@[simp] theorem arrive_qeOn (t : DT) (s : State) (n : Nat) : qeOn (arrive t s) n = qeOn s n := arrive_gb t s _
@[simp] theorem arrive_qeGuarded (t : DT) (s : State) (n : Nat) : qeGuarded (arrive t s) n = qeGuarded s n := by
  unfold qeGuarded qePolicy
  rw [arrive_qe, arrive_qeOn]
@[simp] theorem arrive_qeTripDue (t : DT) (s : State) (n : Nat) : qeTripDue (arrive t s) n = qeTripDue s n := by
  unfold qeTripDue qeFaults
  rw [arrive_qe, arrive_qeGuarded, arrive_cyc]
@[simp] theorem arrive_qeCleanDue (t : DT) (s : State) (n : Nat) : qeCleanDue (arrive t s) n = qeCleanDue s n := by
  unfold qeCleanDue
  rw [arrive_qe, arrive_qeOn]

theorem onQe_contained (t : DT) (s : State) (n : Nat) (f : QeCh → QeCh) : Contained t s ((arrive t s).onQe n f) :=
  .of rfl rfl rfl rfl rfl

/-! ### Edges -/

section Edges

variable {t : DT} {n wa wb wz : Nat} {a b : Bool} {s : State} (hn : n < 32) (hq : QuadQuiet s)
include hn hq

/-- With no latch due a sample acts on the channel as it stands. -/
theorem exec_qeEdge : ∃ f, exec (.qeEdge t n wa wb wz) s = .next (run t s f) ∧
    f (arrive t s) = qeSample (arrive t s) n wa wb wz := by
  refine ⟨_, rfl, ?_⟩
  rw [if_pos hn]
  unfold qeEdge
  rw [arrive_qe, hq.due n, qeCatchUp_arrive hq]
  rfl

variable (ha : qeLevel (s.qe n).ra wa = a) (hb : qeLevel (s.qe n).rb wb = b)
  (hz : qeLevel (s.qe n).rz wz = (s.qe n).rz)
include ha hb hz

theorem qeEdge_still (h1 : a = (s.qe n).ra) (h2 : b = (s.qe n).rb) :
    Does (.qeEdge t n wa wb wz) s ((arrive t s).onQe n id) := by
  obtain ⟨f, e, hf⟩ := exec_qeEdge (t := t) (wa := wa) (wb := wb) (wz := wz) hn hq
  rw [← arrive_qe t s n] at ha hb hz h1 h2
  exact does_of_follows e (hf.trans (qeSample_still ha hb hz h1 h2)) (onQe_contained t s n _) (Follows.refl _)

theorem qeEdge_off (off : qeOn s n = false) (h : a ≠ (s.qe n).ra ∨ b ≠ (s.qe n).rb) :
    Does (.qeEdge t n wa wb wz) s ((arrive t s).onQe n (fun c => { c with
      a := a, b := b, z := c.rz, ra := a, rb := b, pend := [] })) := by
  obtain ⟨f, e, hf⟩ := exec_qeEdge (t := t) (wa := wa) (wb := wb) (wz := wz) hn hq
  rw [← arrive_qe t s n] at ha hb hz h
  rw [← arrive_qeOn t s n] at off
  exact does_of_follows e (hf.trans (qeSample_off ha hb hz off h)) (onQe_contained t s n _) (Follows.refl _)

section Counting

variable (on : qeOn s n = true) (free : qeGuarded s n = false) (was : (s.qe n).was = none)
  (mode : s.g (F.QE_CFG_MODE n) = 0) (pend : (s.qe n).pend = []) (la : (s.qe n).a = (s.qe n).ra) (lb : (s.qe n).b = (s.qe n).rb)
include on free was mode pend la lb

omit hn hq in
/-- The effect of samples on an unguarded channel with MODE 0 whose levels change. -/
theorem arrive_qeSample (h : a ≠ (s.qe n).ra ∨ b ≠ (s.qe n).rb) : qeSample (arrive t s) n wa wb wz =
    if quadStep (s.qe n).ra (s.qe n).rb a b = 2 then
      qeIllegal ((arrive t s).onQe n (fun c => { c with ra := a, rb := b, a := a, b := b })) n (arrive t s).edgeStamp
    else (arrive t s).onQe n (quadTurned a b (arrive t s).edgeStamp) := by
  have k := qeSample_edge (s := arrive t s) (n := n) (wa := wa) (wb := wb) (wz := wz) (a := a) (b := b)
  rw [arrive_qe, arrive_qeOn, arrive_qeGuarded, arrive_g] at k
  exact k ha hb hz on free was mode pend la lb h

/-- A legal edge counts one step of the turn (R93). -/
theorem qeEdge_turns (h : quadStep (s.qe n).ra (s.qe n).rb a b ≠ 2) :
    Does (.qeEdge t n wa wb wz) s ((arrive t s).onQe n (quadTurned a b (arrive t s).edgeStamp)) := by
  by_cases still : quadStep (s.qe n).ra (s.qe n).rb a b = 0
  · obtain ⟨h1, h2⟩ := (quadStep_eq_zero _ _ _ _).mp still
    have same : quadTurned a b (arrive t s).edgeStamp (s.qe n) = s.qe n := by
      rw [h1, h2]
      exact quadTurned_still _ la lb
    have k := qeEdge_still (t := t) hn hq ha hb hz h1 h2
    rwa [onQe_congr (g := quadTurned a b (arrive t s).edgeStamp) (by rw [arrive_qe, same]; rfl)] at k
  · obtain ⟨f, e, hf⟩ := exec_qeEdge (t := t) (wa := wa) (wb := wb) (wz := wz) hn hq
    have moved : a ≠ (s.qe n).ra ∨ b ≠ (s.qe n).rb := by
      rwa [quadStep_eq_zero, not_and_or] at still
    refine does_of_follows e (hf.trans ?_) (onQe_contained t s n _) (Follows.refl _)
    rw [arrive_qeSample ha hb hz on free was mode pend la lb moved, if_neg h]

/-- Where both levels change the transition is counted and told, and the count stays (R96). -/
theorem qeEdge_jumps (h : quadStep (s.qe n).ra (s.qe n).rb a b = 2) :
    ∃ u, exec (.qeEdge t n wa wb wz) s = .next u ∧ u.qe n = quadJumped a b (s.qe n) ∧
      ∀ x, eventReg x = false → u.reg x = s.reg x := by
  obtain ⟨f, e, hf⟩ := exec_qeEdge (t := t) (wa := wa) (wb := wb) (wz := wz) hn hq
  have moved : a ≠ (s.qe n).ra ∨ b ≠ (s.qe n).rb := by
    rw [← not_and_or, ← quadStep_eq_zero, h]
    decide
  rw [arrive_qeSample ha hb hz on free was mode pend la lb moved, if_pos h] at hf
  generalize hl : (arrive t s).onQe n (fun c => { c with ra := a, rb := b, a := a, b := b }) = levels at hf
  have channel : levels.qe n = { s.qe n with ra := a, rb := b, a := a, b := b } := by rw [← hl, onQe_qe, arrive_qe]
  have unguarded : qeGuardedAt levels n (arrive t s).edgeStamp = false := by
    refine qeGuardedAt_unguarded _ free (by rw [channel]; exact was) ?_ (by rw [channel]) (by rw [channel])
    rw [← hl]
    exact arrive_qeOn t s n
  obtain ⟨r, write, counted, told⟩ := qeIllegal_unguarded (ts := (arrive t s).edgeStamp)
    (by rw [channel]; exact hq.due n) unguarded
  have whole : FeedbackWrite (arrive t s) r := by
    rw [← hl] at write
    exact (FeedbackWrite.onQe _ _ _).trans write
  have ends := (run_ends_of_effect hf ((whole.contained (.arrive t s)).follows told)).of told
  refine ⟨_, e, ?_, fun x hx => ?_⟩
  · unfold State.qe at channel ⊢
    rw [ends.fb, counted]
    change (levels.onQe n _).qe n = _
    rw [onQe_qe]
    unfold State.qe
    rw [channel]
    rfl
  · rw [ends.reg hx, whole.regs x hx, arrive_reg]

end Counting

end Edges

/-! ### Trip and end of the guarded phase -/

/-- A command that changes its channel and raises an event where something is due, and does nothing where it is not. -/
theorem dueOnQe_does {c : Instr} {t : DT} {n e : Nat} {s : State} {g : State → State} (due : Bool) (f : QeCh → QeCh)
    (x : exec c s = .next (run t s g))
    (h : g (arrive t s) = if due then raisePage ((arrive t s).onQe n f) pQE e n else arrive t s) :
    Does c s (if due then (arrive t s).onQe n f else arrive t s) := by
  cases due with
  | true => exact does_of_follows x h (onQe_contained t s n f) (Follows.raisePage _ _ _ _)
  | false => exact does_nothing x h

section Phases

variable {t : DT} {n : Nat} {s : State} (hn : n < 32) (hq : QuadQuiet s)
include hn hq

/-- The trip comes where it is due (R98). -/
theorem qeTrip_does : Does (.qeTrip t n) s
    (if qeTripDue s n then (arrive t s).onQe n (fun c => { c with tripped := true }) else arrive t s) := by
  refine dueOnQe_does (n := n) (e := 2) (qeTripDue s n) _ rfl ?_
  rw [if_pos hn, qeCatchUp_arrive hq, ← arrive_qeTripDue t]
  rfl

/-- The guarded phase ends where its end is due (R99). -/
theorem qeClean_does : Does (.qeClean t n) s
    (if qeCleanDue s n then (arrive t s).onQe n (fun c => { c with phase := false }) else arrive t s) := by
  refine dueOnQe_does (n := n) (e := 3) (qeCleanDue s n) _ rfl ?_
  rw [if_pos hn, qeCatchUp_arrive hq, ← arrive_qeCleanDue t]
  rfl

end Phases

/-! ### QE_CTRLn -/

/-- What QE_CTRLn asks for is marked for the next T0, and sent on as a mirrored write (R98, R100, R118, R390). -/
theorem qeCtrl_active {s : State} (m n : Nat) (i c r : Bool) (h : s.standby = false) : qeCtrl s m n i c r =
    mirrorOut (s.onQe n (fun x => { x with inject := x.inject || i, clr := x.clr || c, reguard := x.reguard || r }))
      (F.QE_CTRL n).adr ((b2n i <<< 2) + (b2n c <<< 1) + b2n r) := by
  have accepted : standbyRefuses s m (F.QE_CTRL n).adr = false := standbyRefuses_active m _ h
  unfold qeCtrl
  simp only [accepted, Bool.false_eq_true, if_false]

theorem qeCtrl_does {c : Instr} {t : DT} {m n : Nat} {s : State} {e : HeldAccess} {i l r : Bool} (hn : n < 32)
    (x : exec c s = .next (runOn t s pQE e (fun s => qeCtrl s m (n % 32) i l r))) (he : e.master = m)
    (hu : Unhindered t m s) (hs : s.standby = false) (hc : s.hk.corePower = true) (f : QeCh → QeCh)
    (hf : ∀ q : QeCh, f q = { q with inject := q.inject || i, clr := q.clr || l, reguard := q.reguard || r }) :
    Does c s ((arrive t s).onQe n f) := by
  rw [runOn_made pQE _ hu he hc, Nat.mod_eq_of_lt hn] at x
  refine does_of_follows x (qeCtrl_active m n i l r (by rwa [arrive_standby])) (onQe_contained t s n _) ?_
  rw [funext hf]
  exact Follows.mirrorOut _ _ _

/-! ### QE_CFGn -/

/-- QE_CFGn lies in the mirrored ranges, and no event changes it. -/
theorem eventReg_qeCfg {n : Nat} (h : n < 32) : eventReg (F.QE_CFG n).adr = false := by
  simp only [eventReg, hubReg, startReg, pMEM, pEH, pXU, pHK, pQE]
  simp
  omega

/-- The bits of QE_CFGn that software writes: its reserved bits are 1, 6, 7 and 11 to 15 (R9). -/
theorem rwMask_qeCfg : ∀ n < 32, rwMask (F.QE_CFG n).adr = 0xFFFFFFFFFFFF073D := by decide +kernel

/-- No bit of QE_CFGn is locked while its channel is off. -/
theorem lockMask_qeCfg {s : State} {n : Nat} (hn : n < 32) (h : qeOn s n = false) : lockMask s (F.QE_CFG n).adr = 0 := by
  have page : (F.QE_CFG n).adr / 0x1000 * 0x1000 = pQE := by simp only [pQE]; omega
  have channel : ((F.QE_CFG n).adr % 0x1000 - 0x100) / 0x10 = n := by simp only [pQE]; omega
  have range : 0x100 ≤ (F.QE_CFG n).adr % 0x1000 ∧ (F.QE_CFG n).adr % 0x1000 < 0x300 := by simp only [pQE]; omega
  unfold lockMask
  simp only [page, channel, range, h, decide_true, Bool.and_true, if_true, Bool.false_eq_true, if_false]
  rfl

/-- A field none of whose bits lies in the mask keeps its value. -/
theorem getBits_blend_kept (old v mask lo w : Nat) (h : lo + w ≤ 64) (hm : getBits mask lo w = 0) :
    getBits (blend old v mask) lo w = getBits old lo w := by
  unfold getBits at *
  refine Nat.eq_of_testBit_eq (fun i => ?_)
  have k := congrArg (fun x => x.testBit i) hm
  simp only [Nat.testBit_mod_two_pow, Nat.testBit_shiftRight, Nat.zero_testBit] at k ⊢
  by_cases hi : i < w
  · rw [testBit_blend old v mask (by omega)]
    simp only [hi, decide_true, Bool.true_and] at k ⊢
    rw [k, if_neg (by decide)]
  · simp [hi]

/-- The bits of QE_CFGn that a write of it sets: EN waits for its check (R120). -/
def qeCfgMask : Nat := without (without 0xFFFFFFFFFFFF073D 0) 1

/-- What QE_CFGn holds behind a write of `v` that asks for its EN. -/
def qeCfgAsked (s : State) (n v : Nat) : Nat := blend (s.reg (F.QE_CFG n).adr) (setBits v 0 1 1) qeCfgMask

theorem qeCfgAsked_on (s : State) (n v : Nat) : getBits (qeCfgAsked s n v) 0 1 = s.g (F.QE_CFG_EN n) :=
  getBits_blend_kept _ _ _ _ _ (by decide) (by decide)

/-- Lowest bit and width of the fields of QE_CFGn that are written beside EN. -/
def qeCfgFields : List (Nat × Nat) := [(2, 2), (4, 2), (8, 3), (16, 8), (24, 8), (32, 16), (48, 16)]

theorem qeCfgFields_written : ∀ p ∈ qeCfgFields, 0 + 1 ≤ p.1 ∧ p.1 + p.2 ≤ 64 ∧ getBits qeCfgMask p.1 p.2 = 2 ^ p.2 - 1 := by
  decide

theorem qeCfgAsked_field (s : State) (n v : Nat) {lo w : Nat} (h : (lo, w) ∈ qeCfgFields) :
    getBits (qeCfgAsked s n v) lo w = getBits v lo w := by
  obtain ⟨above, within, written⟩ := qeCfgFields_written _ h
  exact (getBits_blend _ _ _ _ _ within written).trans (getBits_setBits_above _ _ _ _ above)

section Asked

variable {s : State} {m n : Nat} (v : Nat) (hn : n < 32) (off : qeOn s n = false) (hs : s.standby = false)
include hn off hs

theorem setRw_qeCfg : setRw s m (F.QE_CFG n).adr (setBits v 0 1 1) 1 =
    mirrorOut (s.setReg (F.QE_CFG n).adr (qeCfgAsked s n v)) (F.QE_CFG n).adr (qeCfgAsked s n v) := by
  have accepted : standbyRefuses s m (F.QE_CFG n).adr = false := standbyRefuses_active m _ hs
  unfold setRw
  rw [accepted, rwMask_qeCfg n hn, lockMask_qeCfg hn off]
  rfl

end Asked

/-- Asking for EN of a channel that is off begins its check where none runs (R120, R413). -/
theorem reqAct_qeChannelEnable {s : State} {n : Nat} (v m : Nat) (hr : (s.checks.look pQE).running = none)
    (off : qeOn s n = false) :
    reqAct s .qeChannelEnable pQE n v m none = beginsCheck s ⟨.qeChannelEnable, pQE, n, v, m, none, s.dt⟩ := by
  have unset : s.gb (F.QE_CFG_EN n) = false := off
  unfold reqAct
  simp only [hasCheck, Bool.not_true, Bool.false_and, Bool.false_eq_true, if_false]
  unfold actNow act
  simp only [hr, if_true, opWrite, alreadyOn, unset, hasCheck, streamMark]
  unfold submit
  simp only [hr]
  rfl

/-! ### A check that begins -/

/-- A check that begins changes the page's list and its CHECK. -/
theorem beginsCheck_eq (s : State) (x : Action) :
    beginsCheck s x = { s with regs := (beginsCheck s x).regs, checks := (beginsCheck s x).checks } := by
  unfold beginsCheck State.put State.setReg State.reg
  with_reducible rfl

theorem beginsCheck_reg (s : State) (x : Action) {b : Nat} (h : b ≠ (F.CHECK x.page).adr) : (beginsCheck s x).reg b = s.reg b := by
  unfold beginsCheck
  exact State.reg_put_other _ (F.CHECK_BUSY x.page) 1 h

theorem beginsCheck_busy (s : State) (x : Action) : (beginsCheck s x).g (F.CHECK_BUSY x.page) = 1 :=
  State.g_put_self _ (F.CHECK_BUSY x.page) 1 (show 62 + 1 ≤ 64 by decide)

/-- A check begins beside what is sent. -/
theorem beginsCheck_sent (s : State) {out : List Out} (h : s.out <+: out) (x : Action) :
    Follows False (beginsCheck s x) (beginsCheck { s with out := out } x) := by
  have beside : beginsCheck { s with out := out } x = { beginsCheck s x with out := out } := by
    unfold beginsCheck State.put State.setReg State.reg
    with_reducible rfl
  have kept : (beginsCheck s x).out = s.out := by
    unfold beginsCheck State.put State.setReg State.reg
    with_reducible rfl
  rw [← kept] at h
  rw [beside]
  exact Follows.sent _ h

/-- An effect on registers and on the lists of the pages lets nothing more go on. -/
theorem Contained.regsChecks {t : DT} {s r u : State} (h : Contained t s r)
    (e : u = { r with regs := u.regs, checks := u.checks }) : Contained t s u where
  time := by rw [e]; exact h.time
  pending := by rw [e]; exact h.pending
  devNow := by rw [e]; exact h.devNow
  queues := by rw [e]; exact h.queues
  answered n hn := h.answered n (by rw [e] at hn; exact hn)

/-! ### The enable of a channel -/

theorem mirrorOut_dt (s : State) (a v : Nat) : (mirrorOut s a v).dt = s.dt := by
  unfold State.dt
  rw [mirrorOut_eq]

theorem mirrorOut_qeOn (s : State) (a v n : Nat) : qeOn (mirrorOut s a v) n = qeOn s n := by
  unfold qeOn State.gb State.g
  rw [mirrorOut_reg]

/-- The write that asks for EN leaves the channel off. -/
theorem qeOn_asked (s : State) (n v : Nat) : qeOn (s.setReg (F.QE_CFG n).adr (qeCfgAsked s n v)) n = qeOn s n := by
  have e : (s.setReg (F.QE_CFG n).adr (qeCfgAsked s n v)).g (F.QE_CFG_EN n) = s.g (F.QE_CFG_EN n) := by
    have k := State.g_setReg_self s (qeCfgAsked s n v) (F.QE_CFG_EN n)
    rw [Nat.mod_eq_of_lt (show qeCfgAsked s n v < 2 ^ 64 from blend_lt _ _ _)] at k
    exact k.trans (qeCfgAsked_on s n v)
  unfold qeOn State.gb
  rw [e]

section Asked

variable {t : DT} {m n : Nat} {s : State} (hn : n < 32) (off : qeOn s n = false) (hs : s.standby = false)
include hn off hs

/-- A write of QE_CFGn that sets EN of a channel that is off: the other fields take the value, and the check begins. -/
theorem qeCfgWrite_enable (v : Nat) (hr : (s.checks.look pQE).running = none) :
    qeCfgWrite s m n (setBits v 0 1 1) =
      beginsCheck (mirrorOut (s.setReg (F.QE_CFG n).adr (qeCfgAsked s n v)) (F.QE_CFG n).adr (qeCfgAsked s n v))
        ⟨.qeChannelEnable, pQE, n, setBits v 0 1 1, m, none, s.dt⟩ := by
  have asks : bit (setBits v 0 1 1) 0 = true := by
    rw [bit_eq_getBits, getBits_setBits_self]
    rfl
  have written := setRw_qeCfg (m := m) v hn off hs
  unfold qeCfgWrite
  simp only [asks, off, written]
  refine (if_pos rfl).trans ((reqAct_qeChannelEnable _ m ?_ ?_).trans ?_)
  · rw [mirrorOut_checks]
    exact hr
  · exact ((mirrorOut_qeOn _ _ _ n).trans (qeOn_asked s n v)).trans off
  · rw [mirrorOut_dt]
    rfl

end Asked

/-- The state behind a write of QE_CFGn that asks for EN of a channel, beside what is sent. -/
def qeEnableBegun (s : State) (m n v : Nat) : State :=
  beginsCheck (s.setReg (F.QE_CFG n).adr (qeCfgAsked s n v)) ⟨.qeChannelEnable, pQE, n, setBits v 0 1 1, m, none, s.dt⟩

theorem qeEnableBegun_reg {s : State} {m n v b : Nat} (h1 : b ≠ (F.QE_CFG n).adr) (h2 : b ≠ (F.CHECK pQE).adr) :
    (qeEnableBegun s m n v).reg b = s.reg b :=
  (beginsCheck_reg _ _ h2).trans (State.reg_setReg_other s _ h1)

theorem qeEnableBegun_cfg (s : State) (m v : Nat) {n : Nat} (hn : n < 32) :
    (qeEnableBegun s m n v).reg (F.QE_CFG n).adr = qeCfgAsked s n v := by
  have other : (F.QE_CFG n).adr ≠ (F.CHECK pQE).adr := by simp only [pQE]; omega
  refine (beginsCheck_reg _ _ other).trans ((State.reg_setReg_self s _ _).trans ?_)
  exact Nat.mod_eq_of_lt (blend_lt _ _ _)

/-- QE_CHANNEL_ENABLE of a channel that is off, where no check runs: the check begins (R120). -/
theorem qeChannelEnable_begins {t : DT} {m n : Nat} {v : Word} {s : State} (hn : n < 32)
    (hr : (s.checks.look pQE).running = none) (hu : Unhindered t m s) (hs : s.standby = false) (hc : s.hk.corePower = true)
    (off : qeOn s n = false) : Does (.qeChannelEnable t m n v) s (qeEnableBegun (arrive t s) m n v.toNat) := by
  have e : exec (.qeChannelEnable t m n v) s = .next (runOn t s pQE
      (.reg m (F.QE_CFG_EN (n % 32)).adr (BitVec.ofNat 64 (setBits v.toNat 0 1 1)))
      (fun s => qeCfgWrite s m (n % 32) (setBits v.toNat 0 1 1))) := rfl
  rw [runOn_made pQE _ hu rfl hc, Nat.mod_eq_of_lt hn] at e
  have contained : Contained t s (qeEnableBegun (arrive t s) m n v.toNat) :=
    ((Contained.arrive t s).setReg _ _).regsChecks (beginsCheck_eq _ _)
  refine does_of_follows e (qeCfgWrite_enable hn (by rwa [arrive_qeOn]) (by rwa [arrive_standby]) v.toNat (by rwa [arrive_checks]))
    contained ?_
  unfold qeEnableBegun
  rw [mirrorOut_eq]
  exact beginsCheck_sent _ (mirrorOut_out _ _ _) _

/-- What QE_CHANNEL_ENABLE leaves: EN waits for the check, the other fields take the value. -/
theorem exec_qeChannelEnable {t : DT} {m n : Nat} {v : Word} {s : State} (hn : n < 32)
    (hr : (s.checks.look pQE).running = none) (hu : Unhindered t m s) (hs : s.standby = false) (hc : s.hk.corePower = true)
    (off : qeOn s n = false) :
    ∃ u, exec (.qeChannelEnable t m n v) s = .next u ∧ qeOn u n = false ∧ u.g (F.CHECK_BUSY pQE) = 1 ∧
      (∀ f ∈ [F.QE_CFG_MODE n, F.QE_CFG_POLICY n, F.QE_CFG_INDEX_GATE n, F.QE_CFG_MIN_SPACING n, F.QE_CFG_FAULT_LIMIT n,
        F.QE_CFG_FAULT_WINDOW n, F.QE_CFG_CLEAN_CYCLES n], u.g f = getBits v.toNat f.lo f.w) ∧
      (∀ x, eventReg x = false → x ≠ (F.QE_CFG n).adr → x ≠ (F.CHECK pQE).adr → u.reg x = s.reg x) ∧
      Ends { arrive t s with regs := u.regs, checks := u.checks } u := by
  obtain ⟨u, e, ends⟩ := qeChannelEnable_begins (t := t) (v := v) hn hr hu hs hc off
  have cfg : u.reg (F.QE_CFG n).adr = qeCfgAsked (arrive t s) n v.toNat :=
    (ends.reg (eventReg_qeCfg hn)).trans (qeEnableBegun_cfg _ m _ hn)
  refine ⟨u, e, ?_, ?_, ?_, fun x hx h1 h2 => ?_, ?_⟩
  · have kept : u.g (F.QE_CFG_EN n) = s.g (F.QE_CFG_EN n) := by
      rw [← arrive_g t s, ← qeCfgAsked_on (arrive t s) n v.toNat]
      exact congrArg (fun x => getBits x 0 1) cfg
    rw [← off]
    unfold qeOn State.gb
    rw [kept]
  · exact (ends.g (by decide)).trans (beginsCheck_busy _ _)
  · intro f hf
    have place : f.adr = (F.QE_CFG n).adr ∧ (f.lo, f.w) ∈ qeCfgFields := by
      fin_cases hf <;> exact ⟨rfl, by simp [qeCfgFields]⟩
    unfold State.g
    rw [place.1, cfg, qeCfgAsked_field _ n _ place.2]
  · rw [ends.reg hx, qeEnableBegun_reg h1 h2, arrive_reg]
  · have checks : u.checks = (qeEnableBegun (arrive t s) m n v.toNat).checks := by
      rw [ends.rest]
      rfl
    have k := ends.withRegs
    rw [checks]
    unfold qeEnableBegun at k ⊢
    rw [beginsCheck_eq] at k
    exact k

/-! ### The obligation -/

/-- Settles O44: the enable as an action with a check, an edge by the turn of its levels, trip and end of the guarded phase where
they are due, and QE_CTRLn as marks for the next T0. -/
theorem quadratureChannelsCountGuardAndTrip : Obligations.QuadratureChannelsCountGuardAndTrip := by
  intro t m n wa wb wz v a b s hn hq c sampled ha hb hz edge step
  have la := qeLevel_of_samples ha
  have lb := qeLevel_of_samples hb
  have lz := qeLevel_of_samples hz
  refine ⟨exec_qeChannelEnable hn, qeEdge_still hn hq la lb lz, qeEdge_off hn hq la lb lz,
    fun on free was mode pend ca cb => ⟨fun h => ?_, qeEdge_jumps hn hq la lb lz on free was mode pend ca cb⟩, ?_,
    fun hu hs hc => ⟨?_, ?_, ?_⟩⟩
  · obtain ⟨u, e, ends⟩ := qeEdge_turns (t := t) hn hq la lb lz on free was mode pend ca cb h
    have fb : u.fb = ((arrive t s).onQe n (quadTurned a b (arrive t s).edgeStamp)).fb := ends.fb
    refine ⟨u, e, ?_, fun k hk => ?_, ?_⟩
    · unfold State.qe
      rw [fb]
      refine (onQe_qe (arrive t s) n _).trans ?_
      rw [arrive_qe, arrive_edgeStamp]
      rfl
    · unfold State.qe
      rw [fb, ← arrive_fb t s]
      exact onQe_qe_other (arrive t s) n _ hk
    · rw [fb, ← arrive_fb t s]
      exact ends
  · intro c' r hc'
    simp only [List.mem_cons, Prod.mk.injEq, List.not_mem_nil, or_false] at hc'
    rcases hc' with ⟨rfl, rfl⟩ | ⟨rfl, rfl⟩
    · exact qeTrip_does hn hq
    · exact qeClean_does hn hq
  · exact qeCtrl_does hn rfl rfl hu hs hc _ (fun q => by simp)
  · exact qeCtrl_does hn rfl rfl hu hs hc _ (fun q => by simp)
  · exact qeCtrl_does hn rfl rfl hu hs hc _ (fun q => by simp)

end Sys2Proof
end
section
/-! Rules about words and table entries that a write leaves alone, and reading an entry of a table (R153, R358). -/

namespace Sys2Proof

open Sys2Proof.Machine

/-! ### Words beside the one written -/

theorem heal_poisoned_other (s : State) {a b : Nat} (h : b / 8 ≠ a / 8) : (s.heal a).poisoned b = s.poisoned b := by
  obtain ⟨regs, e⟩ := heal_eq s a
  have ne : b / 8 * 8 ≠ a / 8 * 8 := by omega
  rw [e]
  unfold State.poisoned nsHas nsDel
  dsimp only
  split <;> simp [ne]

/-- Bytes that lie outside those written read as before. -/
theorem bytesAt_eq_of_bytes {r s : State} (n : Nat) : ∀ a, (∀ b, a ≤ b → b < a + n → r.byte b = s.byte b) →
    r.bytesAt a n = s.bytesAt a n := by
  induction n with
  | zero => exact fun _ _ => rfl
  | succ n ih =>
    intro a h
    unfold State.bytesAt
    rw [h a le_rfl (by omega), ih (a + 1) (fun b h1 h2 => h b (by omega) (by omega))]

/-- A word reads as before where its bytes and its poison are as before. -/
theorem word_eq_of_bytes {r s : State} {a : Nat} (hp : r.poisoned a = s.poisoned a) (hb : ∀ b, b / 8 = a / 8 → r.byte b = s.byte b) :
    r.word a = s.word a := by
  unfold State.word
  rw [hp, bytesAt_eq_of_bytes 8 _ (fun b h1 h2 => hb b (by omega))]

theorem setWord_poisoned_other (s : State) (v : Nat) {a b : Nat} (h : b / 8 ≠ a / 8) : (s.setWord a v).poisoned b = s.poisoned b := by
  rw [← heal_poisoned_other s h]
  unfold State.poisoned
  rw [setWord_poison]

theorem word_setWord_other (s : State) (v : Nat) {a b : Nat} (h : b / 8 ≠ a / 8) : (s.setWord a v).word b = s.word b :=
  word_eq_of_bytes (setWord_poisoned_other s v h) (fun _ hc => State.byte_setWord_other s a v (hc ▸ h))

/-! ### Fields beside the one written -/

theorem axPut_poisoned_other (s : State) (a : Nat) (f : Fld) (v : Nat) {b : Nat} (h : b / 8 ≠ (axisBase a + f.adr) / 8) :
    (s.axPut a f v).poisoned b = s.poisoned b := by
  rw [← setWord_poisoned_other s (setBits (s.word (axisBase a + f.adr)) f.lo f.w v) h]
  unfold State.poisoned State.axPut
  rw [mput_poison]

theorem word_axPut_other (s : State) (a : Nat) (f : Fld) (v : Nat) {b : Nat} (h : b / 8 ≠ (axisBase a + f.adr) / 8) :
    (s.axPut a f v).word b = s.word b :=
  word_eq_of_bytes (axPut_poisoned_other s a f v h) (fun _ hc => byte_axPut s a f v (hc ▸ h))

/-- A field below one that has been written in the same word stays. -/
theorem ax_axPut_below {f k : Fld} (hf : f.lo + f.w ≤ 64) (ha : k.adr = f.adr) (h : k.lo + k.w ≤ f.lo) (s : State) (a v : Nat) :
    (s.axPut a f v).ax a k = s.ax a k := by
  unfold State.ax State.axPut State.mg
  rw [ha, word_mput hf, getBits_setBits_below _ _ _ _ h]

/-- A field of another word of the record stays. -/
theorem ax_axPut_other {f k : Fld} (s : State) (a v : Nat) (h : (axisBase a + k.adr) / 8 ≠ (axisBase a + f.adr) / 8) :
    (s.axPut a f v).ax a k = s.ax a k := by
  unfold State.ax State.mg
  rw [word_axPut_other s a f v h]

/-- A one-bit field reads as set where it is not 0. -/
theorem axb_eq (s : State) (a : Nat) (f : Fld) : s.axb a f = (s.ax a f != 0) := rfl

/-! ### Entries of a table -/

/-- Bytes read at once are those read in two parts. -/
theorem bytesAt_add (s : State) (n k : Nat) : ∀ a, s.bytesAt a (n + k) = s.bytesAt a n + 2 ^ (8 * n) * s.bytesAt (a + n) k := by
  induction n with
  | zero => intro a; simp [State.bytesAt]
  | succ n ih =>
    intro a
    rw [Nat.add_right_comm]
    change (s.byte a).toNat + 256 * s.bytesAt (a + 1) (n + k) =
      (s.byte a).toNat + 256 * s.bytesAt (a + 1) n + 2 ^ (8 * (n + 1)) * s.bytesAt (a + (n + 1)) k
    rw [ih (a + 1), show a + 1 + n = a + (n + 1) by ring, show 8 * (n + 1) = 8 + 8 * n by ring, Nat.pow_add]
    ring

/-- An entry of a word that is not poisoned reads as its four bytes. -/
theorem repEntry_eq {s : State} {base i : Nat} (h : s.poisoned (repEntryAddr base i) = false) :
    repEntry s base i = toS 32 (s.bytesAt (repEntryAddr base i) 4) := by
  have aligned : repEntryAddr base i % 4 = 0 := by unfold repEntryAddr sramBase; omega
  unfold repEntry State.word
  generalize repEntryAddr base i = a at *
  have low := bytesAt_lt s 4 (a / 8 * 8)
  have high := bytesAt_lt s 4 (a / 8 * 8 + 4)
  have halves := bytesAt_add s 4 4 (a / 8 * 8)
  dsimp only
  rw [h, if_neg (by decide), halves]
  congr 1
  unfold getBits
  rw [Nat.shiftRight_eq_div_pow]
  rcases (by omega : a % 8 = 0 ∨ a % 8 = 4) with k | k
  · rw [show a / 8 * 8 = a by omega] at low ⊢
    rw [k]
    omega
  · rw [show a / 8 * 8 + 4 = a by omega] at high ⊢
    rw [k]
    omega

theorem repEntry_congr {r s : State} {base i : Nat} (h : r.word (repEntryAddr base i) = s.word (repEntryAddr base i)) :
    repEntry r base i = repEntry s base i := by
  unfold repEntry
  dsimp only
  rw [h]

/-- The pool of the tables lies behind the axis records (R153). -/
def poolBase : Nat := repEntryAddr 0 0

theorem poolBase_le (base i : Nat) : poolBase ≤ repEntryAddr base i := by unfold poolBase repEntryAddr; omega

/-- Table `base` with the entries from `k` on replaced by `l`, as they arrive over the party-wall link. -/
def tableFrom (base : Nat) (l : List Nat) (k : Nat) (s : State) : State :=
  forEach (fun p s => memWrite s 0x2E (repEntryAddr base p.2) p.1 4) (l.zipIdx k) s

/-- A write of an entry is shorter than a word: a poisoned word refuses it (R358). -/
theorem memWrite_entry (s : State) (m a v : Nat) : memWrite s m a v 4 = if s.poisoned a then raiseUe s m a else s.setBytes a v 4 := rfl

/-- Entries are written behind the axis records; with the hub disabled a refused one changes no byte and no poison. -/
theorem tableFrom_keeps {s : State} (hub : s.enabled pEH = false) (base : Nat) (l : List Nat) (k : Nat) :
    PoisonKept s.poison (tableFrom base l k s) ∧ ∀ b < poolBase, (tableFrom base l k s).byte b = s.byte b := by
  refine forEach_keeps (P := fun r : State => PoisonKept s.poison r ∧ ∀ b < poolBase, r.byte b = s.byte b) _ (fun p r h => ?_) _ s
    ⟨⟨hub, rfl⟩, fun _ _ => rfl⟩
  obtain ⟨kept, bytes⟩ := h
  rw [memWrite_entry]
  split
  · have told := Follows.raiseUe r 0x2E (repEntryAddr base p.2)
    exact ⟨kept.raiseUe _ _, fun b hb => (byte_congr (told.quiet kept.1).1 b).trans (bytes b hb)⟩
  · refine ⟨?_, fun b hb => ?_⟩
    · rw [setBytes_eq]
      exact kept
    · rw [State.byte_setBytes_other 4 _ _ _ (.inl (hb.trans_le (poolBase_le base p.2))), bytes b hb]

/-- Where none of the words is poisoned, the bytes before the entries stay and each entry holds what came for it. -/
theorem tableFrom_bytes (base : Nat) (l : List Nat) : ∀ (k : Nat) (s : State),
    (∀ i, k ≤ i → i < k + l.length → s.poisoned (repEntryAddr base i) = false) →
    (∀ b < repEntryAddr base k, (tableFrom base l k s).byte b = s.byte b) ∧
    ∀ j v, l[j]? = some v → (tableFrom base l k s).bytesAt (repEntryAddr base (k + j)) 4 = v % 2 ^ 32 := by
  induction l with
  | nil => exact fun k s _ => ⟨fun _ _ => rfl, fun j v h => by simp at h⟩
  | cons x l ih =>
    intro k s clean
    rw [List.length_cons] at clean
    have first : tableFrom base (x :: l) k s = tableFrom base l (k + 1) (s.setBytes (repEntryAddr base k) x 4) := by
      change tableFrom base l (k + 1) (memWrite s 0x2E (repEntryAddr base k) x 4) = _
      rw [memWrite_entry, clean k le_rfl (by omega)]
      rfl
    obtain ⟨before, entries⟩ := ih (k + 1) (s.setBytes (repEntryAddr base k) x 4) (fun i h1 h2 => by
      unfold State.poisoned
      rw [setBytes_eq]
      exact clean i (by omega) (by omega))
    have next : repEntryAddr base (k + 1) = repEntryAddr base k + 4 := by unfold repEntryAddr; ring
    rw [first]
    refine ⟨fun b hb => ?_, fun j v h => ?_⟩
    · rw [before b (by omega), State.byte_setBytes_other 4 _ _ _ (.inl hb)]
    · cases j with
      | zero =>
        obtain rfl : x = v := by simpa using h
        change (tableFrom base l (k + 1) (s.setBytes (repEntryAddr base k) x 4)).bytesAt (repEntryAddr base k) 4 = x % 2 ^ 32
        rw [bytesAt_eq_of_bytes 4 _ (fun b _ h2 => before b (by omega)), bytesAt_setBytes]
      | succ j =>
        rw [show k + (j + 1) = k + 1 + j by ring]
        exact entries j v (by simpa using h)

end Sys2Proof
end
section
/-! What a command leaves whose effect stores words of memory: the frame said without memory (R358, R359). -/

namespace Sys2Proof

open Sys2Proof.Machine

@[simp] theorem arrive_le (t : DT) (s : State) : (arrive t s).le = s.le := by rw [arrive_eq]

/-- `r` is `s` with words of memory written and their poison cleared, and with what a report of a poisoned word adds. -/
structure Stores (s r : State) : Prop where
  moves : Moves (fun _ => True) False s r
  quiet : s.enabled pEH = false → r.hostMem = s.hostMem ∧ r.ks = s.ks ∧ r.cores = s.cores ∧ r.devQ = s.devQ

theorem Stores.hub {s r : State} (h : Stores s r) : r.enabled pEH = s.enabled pEH := enabled_congr h.moves.regs

theorem Stores.trans {s r u : State} (h : Stores s r) (k : Stores r u) : Stores s u where
  moves := h.moves.trans k.moves
  quiet q := by
    obtain ⟨a1, a2, a3, a4⟩ := h.quiet q
    obtain ⟨b1, b2, b3, b4⟩ := k.quiet (h.hub.trans q)
    exact ⟨b1.trans a1, b2.trans a2, b3.trans a3, b4.trans a4⟩

theorem Stores.follows {s r : State} (h : Follows False s r) : Stores s r where
  moves := ⟨h.regs, h.cores, h.hp, h.hk, h.start, h.tw, h.ks, h.out, h.devQ, fun _ k => absurd trivial k, h.ms, h.count, h.rest⟩
  quiet q := (h.quiet q).2

theorem Stores.refl (s : State) : Stores s s := .follows (Follows.refl s)

theorem Stores.setWord (s : State) (a v : Nat) : Stores s (s.setWord a v) where
  moves := Moves.setWord s a v (fun _ _ => trivial)
  quiet _ := by
    rw [setWord_eq]
    exact ⟨rfl, rfl, rfl, rfl⟩

theorem Stores.setBytes (s : State) (a v n : Nat) : Stores s (s.setBytes a v n) where
  moves := Moves.setBytes s a v n (fun _ _ _ => trivial)
  quiet _ := by
    rw [setBytes_eq]
    exact ⟨rfl, rfl, rfl, rfl⟩

theorem Stores.axPut (s : State) (a : Nat) (f : Fld) (v : Nat) : Stores s (s.axPut a f v) where
  moves := by
    obtain ⟨l, e⟩ := State.mput_eq s (axisBase a) f v
    unfold State.axPut
    rw [e]
    exact (Stores.setWord s _ _).moves.trans (Moves.due _ l)
  quiet _ := by
    unfold State.axPut
    rw [mput_eq]
    exact ⟨rfl, rfl, rfl, rfl⟩

theorem Stores.tableFrom (base : Nat) (l : List Nat) (k : Nat) (s : State) : Stores s (tableFrom base l k s) :=
  forEach_keeps (P := Stores s) _ (fun p r h => h.trans (by
    rw [memWrite_entry]
    split
    · exact .follows (Follows.raiseUe r _ _)
    · exact .setBytes r _ _ _)) _ s (.refl s)

theorem Stores.le {s r : State} (h : Stores s r) : r.le = s.le := by rw [h.moves.rest]
theorem Stores.standby {s r : State} (h : Stores s r) : r.standby = s.standby := by
  unfold State.standby
  rw [h.moves.tw]
theorem Stores.link {s r : State} (h : Stores s r) : r.tw.link = s.tw.link := by rw [h.moves.tw]

/-- What is stored lets nothing go on. -/
theorem Stores.contained {t : DT} {s v r : State} (k : Stores v r) (h : Contained t s v) : Contained t s r where
  time := by rw [k.moves.rest]; exact h.time
  pending := by rw [k.moves.rest]; exact h.pending
  devNow := by rw [k.moves.rest]; exact h.devNow
  queues := by rw [k.moves.rest]; exact h.queues
  answered n hn := h.answered n (by rw [k.moves.rest] at hn; exact hn)

/-- What was asked of the cycle is carried out beside what is stored. -/
theorem Moves.asked {W : Nat → Prop} {K : Prop} {s r : State} (h : Moves W K s r) :
    Moves W K (Sys2Proof.asked s) (Sys2Proof.asked r) := by
  have time : r.time = s.time := by rw [h.rest]
  have cyc : r.cyc = s.cyc := by rw [h.rest]
  refine ⟨h.regs, h.cores, h.hp, h.hk, h.start, h.tw, h.ks, h.out, h.devQ, h.mem, h.ms, h.count, ?_⟩
  unfold Sys2Proof.asked
  rw [time, cyc]
  conv => lhs; rw [h.rest]

/-- The frame of a command that stores and ends in `u`, said without memory. -/
theorem Stores.ends {v r u : State} (h : Stores v r) (k : Ends r u) : Ends { v with mem := u.mem, poison := u.poison } u := by
  have follows : Stores (asked r) u := .follows k
  have whole : Stores (asked v) u := Stores.trans ⟨h.moves.asked, h.quiet⟩ follows
  obtain ⟨moves, quiet⟩ := whole
  exact ⟨moves.regs, moves.cores, moves.hp, moves.hk, moves.start, moves.tw, moves.ks, moves.out, moves.devQ, fun _ _ _ => rfl,
    moves.ms, moves.count, fun q => ⟨rfl, quiet q⟩, moves.rest⟩

/-! ### The list of table copies -/

/-- The state `s` with the list of table copies replaced. -/
def withSyncs (s : State) (l : List (Nat × Nat)) : State := { s with le := { s.le with syncs := l } }

theorem withSyncs_mem (s : State) (l : List (Nat × Nat)) : (withSyncs s l).mem = s.mem := rfl
theorem withSyncs_poison (s : State) (l : List (Nat × Nat)) : (withSyncs s l).poison = s.poison := rfl

theorem Stores.withSyncs {s r : State} (h : Stores s r) (l : List (Nat × Nat)) :
    Stores (Sys2Proof.withSyncs s l) (Sys2Proof.withSyncs r l) where
  moves := by
    obtain ⟨regs, cores, hp, hk, start, tw, ks, out, devQ, mem, ms, count, rest⟩ := h.moves
    refine ⟨regs, cores, hp, hk, start, tw, ks, out, devQ, mem, ms, count, ?_⟩
    unfold Sys2Proof.withSyncs
    rw [h.le]
    conv => lhs; rw [rest]
  quiet := h.quiet

/-- What a command leaves that stores words and replaces the list of table copies: with the hub disabled the memory is that of its
effect. -/
theorem exec_copies {c : Instr} {t : DT} {s r : State} {f : State → State} {l : List (Nat × Nat)}
    (e : exec c s = .next (run t s f)) (h : f (arrive t s) = r) (k : Stores (withSyncs (arrive t s) l) r) :
    ∃ u, exec c s = .next u ∧ u.le.syncs = l ∧ (s.enabled pEH = false → u.mem = r.mem ∧ u.poison = r.poison) ∧
      Ends { arrive t s with mem := u.mem, poison := u.poison, le := { s.le with syncs := u.le.syncs } } u := by
  have contained : Contained t s r := k.contained (.of rfl rfl rfl rfl rfl)
  have ends := k.ends (run_ends_of_effect h contained)
  have le : (run t s f).le = { s.le with syncs := l } := by
    rw [ends.rest]
    exact congrArg (fun x : LeSt => { x with syncs := l }) (arrive_le t s)
  refine ⟨_, e, by rw [le], fun hub => run_disabled h contained (k.hub.trans ?_), ?_⟩
  · exact (arrive_enabled t s pEH).trans hub
  · unfold withSyncs at ends
    rw [arrive_le] at ends
    rw [le]
    exact ends

end Sys2Proof
end
section
/-! The copies of a table to the standby: REP_SYNC and REP_SYNC_DONE (R21, R168, R390). -/

namespace Sys2Proof

open Sys2Proof.Machine

/-! ### What the commands read -/

/-- Offsets of different words of a record name different words of memory. -/
theorem record_apart (a : Nat) {o k : Nat} (h : o / 8 ≠ k / 8) : (axisBase a + o) / 8 ≠ (axisBase a + k) / 8 := by
  unfold axisBase sramBase
  omega

/-- The records of the axes lie before the pool. -/
theorem record_below_pool {a o : Nat} (ha : a < 512) (ho : o < 0x800) : (axisBase a + o) / 8 < poolBase / 8 := by
  unfold axisBase poolBase repEntryAddr
  omega

theorem repCfgOf_congr {r s : State} {a : Nat} (ha : a < 512) (hr : ∀ b, eventReg b = false → r.reg b = s.reg b)
    (hl : r.le.ax = s.le.ax) (hw : r.word (axisBase a + 0x200) = s.word (axisBase a + 0x200)) : repCfgOf r a = repCfgOf s a := by
  unfold repCfgOf State.leAx
  rw [axisEnabled_congr ha hr, hl, hw]

@[simp] theorem arrive_word (t : DT) (s : State) (a : Nat) : (arrive t s).word a = s.word a :=
  word_congr (arrive_mem t s) (arrive_poison t s) a

@[simp] theorem arrive_repCfgOf (t : DT) (s : State) (a : Nat) : repCfgOf (arrive t s) a = repCfgOf s a := by
  unfold repCfgOf State.leAx
  rw [arrive_axisEnabled, arrive_le, arrive_word]

/-! ### REP_SYNC -/

/-- The words of axis `a` once its SYNC is accepted on the active. -/
def syncShown (s : State) (a : Nat) : State :=
  ((s.axPut a F.REP_CMD_SYNC 0).axPut a F.REP_STATUS_SYNCING 1).axPut a F.REP_STATUS_STALE 0

/-- The list of copies once that of axis `p.1`, with `p.2` entries, is asked for: one under way begins again. -/
def syncsAsked (l : List (Nat × Nat)) (p : Nat × Nat) : List (Nat × Nat) :=
  if l.any (fun q => q.1 = p.1) then l.map (fun q => if q.1 = p.1 then p else q) else syncInsert l p

section Shown

variable (s : State) (a : Nat)

theorem syncShown_stores : Stores s (syncShown s a) := ((Stores.axPut s _ _ _).trans (.axPut _ _ _ _)).trans (.axPut _ _ _ _)

theorem syncShown_word {b : Nat} (h1 : b / 8 ≠ (axisBase a + F.REP_CMD_SYNC.adr) / 8)
    (h2 : b / 8 ≠ (axisBase a + F.REP_STATUS_SYNCING.adr) / 8) : (syncShown s a).word b = s.word b := by
  unfold syncShown
  rw [word_axPut_other _ a F.REP_STATUS_STALE _ h2, word_axPut_other _ a F.REP_STATUS_SYNCING _ h2, word_axPut_other _ a _ _ h1]

theorem syncShown_byte {b : Nat} (h1 : b / 8 ≠ (axisBase a + F.REP_CMD_SYNC.adr) / 8)
    (h2 : b / 8 ≠ (axisBase a + F.REP_STATUS_SYNCING.adr) / 8) : (syncShown s a).byte b = s.byte b := by
  unfold syncShown
  rw [byte_axPut _ a F.REP_STATUS_STALE _ h2, byte_axPut _ a F.REP_STATUS_SYNCING _ h2, byte_axPut _ a _ _ h1]

theorem syncShown_fields : (syncShown s a).axb a F.REP_CMD_SYNC = false ∧ (syncShown s a).axb a F.REP_STATUS_SYNCING = true ∧
    (syncShown s a).axb a F.REP_STATUS_STALE = false := by
  have apart : (axisBase a + F.REP_CMD_SYNC.adr) / 8 ≠ (axisBase a + F.REP_STATUS_SYNCING.adr) / 8 := record_apart a (by decide)
  have stale (r : State) : (r.axPut a F.REP_STATUS_STALE 0).ax a F.REP_STATUS_SYNCING = r.ax a F.REP_STATUS_SYNCING :=
    ax_axPut_below (f := F.REP_STATUS_STALE) (k := F.REP_STATUS_SYNCING) (by decide) rfl (by decide) r a 0
  unfold syncShown
  simp only [axb_eq]
  refine ⟨?_, ?_, ?_⟩
  · rw [ax_axPut_other (f := F.REP_STATUS_STALE) _ _ _ apart, ax_axPut_other (f := F.REP_STATUS_SYNCING) _ _ _ apart,
      ax_axPut (by decide)]
    rfl
  · rw [stale, ax_axPut (by decide)]
    rfl
  · rw [ax_axPut (by decide)]
    rfl

end Shown

/-- The copy that SYNC of axis `a` asks for: its whole table, or none without a partner. -/
def copyOf (s : State) (a : Nat) : Nat × Nat := (a, if s.tw.link then repN (repCfgOf s a) else 0)

/-- On the active a SYNC that is set is accepted at once, and ends STALE (R168). -/
theorem repSync_active {s : State} {a : Nat} (ha : a < 512) (hs : s.standby = false) (h : s.axb a F.REP_CMD_SYNC = true) :
    repSync s a = withSyncs (syncShown s a) (syncsAsked s.le.syncs (copyOf s a)) := by
  have stores := syncShown_stores s a
  have cfg : repCfgOf (syncShown s a) a = repCfgOf s a :=
    repCfgOf_congr ha stores.moves.regs (by rw [stores.le])
      (syncShown_word s a (record_apart a (by decide)) (record_apart a (by decide)))
  have asked : (s.standby && s.axb a F.REP_CMD_UNSTALE) = false := by rw [hs, Bool.false_and]
  have still : ((s.axPut a F.REP_CMD_SYNC 0).axPut a F.REP_STATUS_SYNCING 1).standby = false :=
    ((Stores.axPut s _ _ _).trans (.axPut _ _ _ _)).standby.trans hs
  have effect : repSync s a =
      withSyncs (syncShown s a) (syncsAsked (syncShown s a).le.syncs (copyOf (syncShown s a) a)) := by
    unfold repSync
    simp only [asked, h, still, Bool.false_eq_true, if_false, if_true]
    exact (apply_ite (withSyncs (syncShown s a)) _ _ _).symm
  have copy : copyOf (syncShown s a) a = copyOf s a := by
    unfold copyOf
    rw [stores.link, cfg]
  rw [effect, stores.le, copy]

/-- The word REP_CMD of axis `a` with SYNC set, as a master writes it. -/
def syncWord (s : State) (a : Nat) : Nat := setBits (s.word (axisBase a + F.REP_CMD_SYNC.adr)) 63 1 1

/-- BAR0 offset of the word REP_CMD of axis `a`. -/
def syncOffset (a : Nat) : Nat := 0x100000 + 0x800 * a + 0x278

/-- SYNC of axis `a` stored. -/
def syncStored (s : State) (a : Nat) : State := s.setWord (axisBase a + F.REP_CMD_SYNC.adr) (syncWord s a)

/-- SYNC of axis `a` stored and sent on to a standby. -/
def syncSent (s : State) (a : Nat) : State :=
  mirrorOut (syncStored s a) (syncOffset a / 8 * 8) ((syncStored s a).word ((axisBase a + F.REP_CMD_SYNC.adr) / 8 * 8))

theorem syncSent_mem (s : State) (a : Nat) : (syncSent s a).mem = (syncStored s a).mem := by
  unfold syncSent
  rw [mirrorOut_eq]

theorem syncSent_poison (s : State) (a : Nat) : (syncSent s a).poison = (syncStored s a).poison := by
  unfold syncSent
  rw [mirrorOut_eq]

theorem syncSent_stores (s : State) (a : Nat) : Stores s (syncSent s a) :=
  (Stores.setWord s _ _).trans (.follows (Follows.mirrorOut _ _ _))

theorem syncSent_byte (s : State) (a : Nat) {b : Nat} (h : b / 8 ≠ (axisBase a + F.REP_CMD_SYNC.adr) / 8) :
    (syncSent s a).byte b = s.byte b := (byte_congr (syncSent_mem s a) b).trans (State.byte_setWord_other s _ _ h)

theorem syncSent_word (s : State) (a : Nat) {b : Nat} (h : b / 8 ≠ (axisBase a + F.REP_CMD_SYNC.adr) / 8) :
    (syncSent s a).word b = s.word b :=
  (word_congr (syncSent_mem s a) (syncSent_poison s a) b).trans (word_setWord_other s _ h)

theorem syncSent_sync (s : State) (a : Nat) : (syncSent s a).axb a F.REP_CMD_SYNC = true := by
  have fits : syncWord s a < 2 ^ 64 := setBits_lt _ _ _ _ 64 (word_lt s _) (by decide)
  rw [axb_congr (syncSent_mem s a) (syncSent_poison s a), axb_eq]
  unfold State.ax State.mg syncStored
  rw [word_setWord, Nat.mod_eq_of_lt fits]
  unfold syncWord
  rw [getBits_setBits_self]
  rfl

section Write

variable {s : State} {m a : Nat} (ha : a < 512)
include ha

theorem recordOffset_sync : recordOffset (axisBase a + F.REP_CMD_SYNC.adr) = some (syncOffset a) := by
  change recordOffset (sramBase + 0x800 * a + 0x278) = _
  unfold recordOffset syncOffset
  rw [if_pos (by simp; omega)]
  exact congrArg some (by omega)

theorem syncOffset_mirrored : mirrored (syncOffset a) = true := by
  have record : 0x100000 ≤ syncOffset a ∧ syncOffset a < 0x200000 := by unfold syncOffset; omega
  unfold mirrored
  simp [record]

/-- A write of REP_CMD is watched. -/
theorem recordWatch_sync (s : State) : recordWatch s (syncOffset a) = repSync s a := by
  have axis : (syncOffset a - 0x100000) / 0x800 = a := by unfold syncOffset; omega
  have word : syncOffset a / 8 * 8 % 0x800 = 0x278 := by unfold syncOffset; omega
  unfold recordWatch
  simp only [axis, word, if_true]

/-- A SYNC that a unit takes is stored, sent on, and carried out. -/
theorem repSyncWrite_taken (h : standbyRefuses s m (syncOffset a) = false) : repSyncWrite s m a = repSync (syncSent s a) a := by
  have aligned : (axisBase a + F.REP_CMD_SYNC.adr) % 8 = 0 := by
    change (sramBase + 0x800 * a + 0x278) % 8 = 0
    unfold sramBase
    omega
  unfold repSyncWrite memStore
  rw [recordOffset_sync ha]
  dsimp only
  rw [h, if_neg (by decide), recordWatch_sync ha]
  unfold memWrite
  rw [if_pos (by simp [aligned])]
  rfl

/-- A standby sets aside the SYNC of any master but its partner (R390). -/
theorem repSyncWrite_refused (hs : s.standby = true) (hm : m ≠ 6) : repSyncWrite s m a = raiseWriteRefused s := by
  have refused : standbyRefuses s m (syncOffset a) = true := by
    unfold standbyRefuses
    rw [hs, syncOffset_mirrored ha]
    simp [hm]
  unfold repSyncWrite memStore
  rw [recordOffset_sync ha]
  exact if_pos refused

end Write

/-- SYNC set by a master on the active is stored, sent on, accepted and shown. -/
theorem repSyncWrite_active {s : State} {m a : Nat} (ha : a < 512) (hs : s.standby = false) :
    repSyncWrite s m a = withSyncs (syncShown (syncSent s a) a) (syncsAsked s.le.syncs (copyOf s a)) := by
  have stores := syncSent_stores s a
  have cfg : repCfgOf (syncSent s a) a = repCfgOf s a :=
    repCfgOf_congr ha stores.moves.regs (by rw [stores.le]) (syncSent_word s a (record_apart a (by decide)))
  have copy : copyOf (syncSent s a) a = copyOf s a := by
    unfold copyOf
    rw [stores.link, cfg]
  rw [repSyncWrite_taken ha (standbyRefuses_active m _ hs),
    repSync_active ha (stores.standby.trans hs) (syncSent_sync s a), stores.le, copy]

/-- REP_SYNC on the active: what it leaves of the list and of the words of the axis. -/
theorem repSync_accepted {t : DT} {m a : Nat} {s : State} (ha : a < 512) (hc : s.hk.corePower = true) (hs : s.standby = false)
    (hu : Unhindered t m s) : ∃ u, exec (.repSync t m a) s = .next u ∧ u.le.syncs = syncsAsked s.le.syncs (copyOf s a) ∧
      (s.enabled pEH = false → u.axb a F.REP_CMD_SYNC = false ∧ u.axb a F.REP_STATUS_SYNCING = true ∧
        u.axb a F.REP_STATUS_STALE = false ∧ ∀ b, b / 8 ≠ (axisBase a + F.REP_CMD_SYNC.adr) / 8 ∧
          b / 8 ≠ (axisBase a + F.REP_STATUS_SYNCING.adr) / 8 → u.byte b = s.byte b) ∧
      Ends { arrive t s with mem := u.mem, poison := u.poison, le := { s.le with syncs := u.le.syncs } } u := by
  have e : exec (.repSync t m a) s = .next (run t s (fun s => repSyncWrite s m (a % 512))) :=
    congrArg Host.Outcome.next (runOn_made pLE _ hu rfl hc)
  rw [Nat.mod_eq_of_lt ha] at e
  have effect := repSyncWrite_active (m := m) ha ((arrive_standby t s).trans hs)
  have stores := (syncSent_stores (arrive t s) a).trans (syncShown_stores _ a)
  obtain ⟨u, next, list, memory, ends⟩ := exec_copies e effect (stores.withSyncs _)
  have copy : copyOf (arrive t s) a = copyOf s a := by
    unfold copyOf
    rw [arrive_tw, arrive_repCfgOf]
  rw [arrive_le, copy] at list
  refine ⟨u, next, list, fun hub => ?_, ends⟩
  obtain ⟨mem, poison⟩ := memory hub
  rw [withSyncs_mem] at mem
  rw [withSyncs_poison] at poison
  obtain ⟨sync, syncing, stale⟩ := syncShown_fields (syncSent (arrive t s) a) a
  refine ⟨(axb_congr mem poison a _).trans sync, (axb_congr mem poison a _).trans syncing, (axb_congr mem poison a _).trans stale,
    fun b ⟨h1, h2⟩ => ?_⟩
  rw [byte_congr mem, ← byte_congr (arrive_mem t s), ← syncSent_byte (arrive t s) a h1]
  exact syncShown_byte _ a h1 h2

/-- REP_SYNC on a standby by another master than its partner leaves the unit as it is (R390). -/
theorem repSync_setAside {t : DT} {m a : Nat} {s : State} (ha : a < 512) (hc : s.hk.corePower = true) (hs : s.standby = true)
    (hm : m ≠ 6) (hu : Unhindered t m s) : Does (.repSync t m a) s (arrive t s) := by
  have e : exec (.repSync t m a) s = .next (run t s (fun s => repSyncWrite s m (a % 512))) :=
    congrArg Host.Outcome.next (runOn_made pLE _ hu rfl hc)
  rw [Nat.mod_eq_of_lt ha] at e
  have told : Follows False (arrive t s) (raiseWriteRefused (arrive t s)) := Follows.raisePage _ _ _ _
  exact does_of_follows e (repSyncWrite_refused ha ((arrive_standby t s).trans hs) hm) (.arrive t s) told

end Sys2Proof
end
section
/-! REP_SYNC_DONE: the end of a copy on the active and on a standby (R21, R168). -/

namespace Sys2Proof

open Sys2Proof.Machine

/-! ### The end of a copy -/

/-- The copy of axis `a` is one of the eight that are served, and it is at its end: on the active with no entry left. -/
def CopyEnds (s : State) (a : Nat) : Prop := ∃ k, (a, k) ∈ s.le.syncs.take 8 ∧ (k = 0 ∨ s.standby = true)

theorem copyEnds_arrive {t : DT} {s : State} {a : Nat} : CopyEnds (arrive t s) a ↔ CopyEnds s a := by
  unfold CopyEnds
  rw [arrive_le, arrive_standby]

theorem copyEnds_iff {s : State} {a : Nat} :
    (s.le.syncs.take 8).any (fun p => decide (p.1 = a) && (decide (p.2 = 0) || s.standby)) = true ↔ CopyEnds s a := by
  unfold CopyEnds
  simp only [List.any_eq_true, Bool.and_eq_true, Bool.or_eq_true, decide_eq_true_eq, Prod.exists]
  constructor
  · rintro ⟨b, k, mem, rfl, h⟩
    exact ⟨k, mem, h⟩
  · rintro ⟨k, mem, h⟩
    exact ⟨a, k, mem, rfl, h⟩

/-- The list of copies without that of axis `a`. -/
def syncsLeft (s : State) (a : Nat) : List (Nat × Nat) := s.le.syncs.filter (fun p => p.1 ≠ a)

/-- The copy of axis `a` is over. -/
def copyOver (s : State) (a : Nat) : State := (withSyncs s (syncsLeft s a)).axPut a F.REP_STATUS_SYNCING 0

/-- A standby holds what has come for the table of axis `a`. -/
def tableHeld (s : State) (a : Nat) (table : List Nat) (sum : Word) : State :=
  ((tableFrom (getBits (repCfgOf s a) 0 20) (table.take (repN (repCfgOf s a))) 0 s).setWord (axisBase a + 0x258) sum.toNat).axPut a
    F.REP_STATUS_STALE 0

theorem copyOver_stores (s : State) (a : Nat) : Stores (withSyncs s (syncsLeft s a)) (copyOver s a) := .axPut _ _ _ _

theorem tableHeld_stores (s : State) (a : Nat) (table : List Nat) (sum : Word) : Stores s (tableHeld s a table sum) :=
  ((Stores.tableFrom _ _ _ s).trans (.setWord _ _ _)).trans (.axPut _ _ _ _)

theorem repSyncDone_waits {s : State} {a : Nat} (h : ¬ CopyEnds s a) (table : List Nat) (sum : Word) : repSyncDone s a table sum = s :=
  if_neg (fun k => h (copyEnds_iff.mp k))

theorem repSyncDone_ends {s : State} {a : Nat} (h : CopyEnds s a) (table : List Nat) (sum : Word) :
    repSyncDone s a table sum = if s.standby then tableHeld (copyOver s a) a table sum else copyOver s a := by
  have left : s.le.syncs.filter (fun p => p.1 != a) = syncsLeft s a := List.filter_congr (fun p _ => Bool.eq_iff_iff.mpr (by simp))
  have role : (copyOver s a).standby = s.standby := (copyOver_stores s a).standby
  unfold repSyncDone
  rw [if_pos (copyEnds_iff.mpr h), left]
  change (if !(copyOver s a).standby then copyOver s a else tableHeld (copyOver s a) a table sum) = _
  rw [role]
  cases s.standby <;> rfl

/-! ### The words after the end of a copy -/

theorem withSyncs_word (s : State) (l : List (Nat × Nat)) (b : Nat) : (withSyncs s l).word b = s.word b := word_congr rfl rfl b

section Over

variable (s : State) (a : Nat)

theorem copyOver_syncing : (copyOver s a).axb a F.REP_STATUS_SYNCING = false := by
  unfold copyOver
  rw [axb_eq, ax_axPut (by decide)]
  rfl

theorem copyOver_stale : (copyOver s a).axb a F.REP_STATUS_STALE = s.axb a F.REP_STATUS_STALE := by
  unfold copyOver
  rw [axb_eq, ax_axPut_above (f := F.REP_STATUS_SYNCING) (k := F.REP_STATUS_STALE) (by decide) rfl (by decide)]
  exact axb_congr (withSyncs_mem s _) (withSyncs_poison s _) a F.REP_STATUS_STALE

theorem copyOver_byte {b : Nat} (h : b / 8 ≠ (axisBase a + F.REP_STATUS_SYNCING.adr) / 8) : (copyOver s a).byte b = s.byte b :=
  (byte_axPut _ a _ 0 h).trans (byte_congr (withSyncs_mem s _) b)

theorem copyOver_poisoned {b : Nat} (h : b / 8 ≠ (axisBase a + F.REP_STATUS_SYNCING.adr) / 8) :
    (copyOver s a).poisoned b = s.poisoned b := (axPut_poisoned_other _ a _ 0 h).trans rfl

theorem copyOver_repCfgOf (ha : a < 512) : repCfgOf (copyOver s a) a = repCfgOf s a := by
  have stores := copyOver_stores s a
  refine repCfgOf_congr ha stores.moves.regs (by rw [stores.le]; rfl) ?_
  exact (word_axPut_other _ a _ 0 (record_apart a (by decide))).trans (withSyncs_word s _ _)

end Over

section Held

variable {s : State} {a : Nat} (ha : a < 512) (hub : s.enabled pEH = false) (table : List Nat) (sum : Word)
include ha hub

/-- The entries that come for a table leave the words of the axis. -/
theorem tableFrom_record {o : Nat} (ho : o < 0x800) (base : Nat) (l : List Nat) :
    (tableFrom base l 0 s).word (axisBase a + o) = s.word (axisBase a + o) := by
  obtain ⟨kept, bytes⟩ := tableFrom_keeps hub base l 0
  have below := record_below_pool ha ho
  refine word_eq_of_bytes ?_ (fun b hb => bytes b (by omega))
  unfold State.poisoned
  rw [kept.2]

theorem tableHeld_fields : (tableHeld s a table sum).axb a F.REP_STATUS_SYNCING = s.axb a F.REP_STATUS_SYNCING ∧
    (tableHeld s a table sum).axb a F.REP_STATUS_STALE = false ∧ (tableHeld s a table sum).word (axisBase a + 0x258) = sum.toNat := by
  unfold tableHeld
  refine ⟨?_, ?_, ?_⟩
  · rw [axb_eq, ax_axPut_below (f := F.REP_STATUS_STALE) (k := F.REP_STATUS_SYNCING) (by decide) rfl (by decide), axb_eq]
    unfold State.ax State.mg
    rw [word_setWord_other _ _ (record_apart a (by decide)), tableFrom_record ha hub (by decide)]
  · rw [axb_eq, ax_axPut (by decide)]
    rfl
  · rw [word_axPut_other _ a _ 0 (record_apart a (by decide)), word_setWord]
    exact Nat.mod_eq_of_lt sum.isLt

/-- Where no word of the table is poisoned, each entry is what came for it. -/
theorem tableHeld_entry (clean : ∀ i < repN (repCfgOf s a), s.poisoned (repEntryAddr (getBits (repCfgOf s a) 0 20) i) = false)
    {i v : Nat} (hi : i < repN (repCfgOf s a)) (h : table[i]? = some v) (hv : v < 2 ^ 32) :
    repEntry (tableHeld s a table sum) (getBits (repCfgOf s a) 0 20) i = toS 32 v := by
  unfold tableHeld
  generalize getBits (repCfgOf s a) 0 20 = base at *
  have taken : (table.take (repN (repCfgOf s a)))[i]? = some v := by rw [List.getElem?_take_of_lt hi, h]
  have short : (table.take (repN (repCfgOf s a))).length ≤ repN (repCfgOf s a) := List.length_take_le _ _
  generalize table.take (repN (repCfgOf s a)) = l at *
  obtain ⟨-, entries⟩ := tableFrom_bytes base l 0 s (fun j _ hj => clean j (by omega))
  have apart {o : Nat} (ho : o < 0x800) : repEntryAddr base i / 8 ≠ (axisBase a + o) / 8 := by
    have below := record_below_pool ha ho
    have pool := poolBase_le base i
    omega
  have unpoisoned : (tableFrom base l 0 s).poisoned (repEntryAddr base i) = false := by
    rw [← clean i hi]
    unfold State.poisoned
    rw [(tableFrom_keeps hub base l 0).1.2]
  have value := entries i v taken
  rw [Nat.zero_add, Nat.mod_eq_of_lt hv] at value
  rw [repEntry_congr ((word_axPut_other _ a _ 0 (apart (by decide))).trans (word_setWord_other _ _ (apart (by decide)))),
    repEntry_eq unpoisoned, value]

end Held

/-! ### The command -/

/-- Where the ingress buffer of a standby is full, what comes is discarded whole and counted (R21). -/
theorem repSyncDone_discarded {t : DT} {s : State} {full : Bool} (a : Nat) (table : List Nat) (sum : Word)
    (hs : s.standby = true) (hf : full = true) (hl : s.tw.link = true) :
    Does (.repSyncDone t ⟨full, a, table, sum⟩) s { arrive t s with tw := { s.tw with discards := s.tw.discards + 1 } } := by
  have effect : pwTakes (arrive t s) full (fun r => repSyncDone r (a % 512) table sum) =
      raisePage ((arrive t s).nextFree.onTw (fun w => { w with discards := w.discards + 1 })) pPW
        ((arrive t s).freeWord.1 % 256) 0 := by
    unfold pwTakes
    rw [if_pos (by simp [hf, hl])]
    rfl
  have free : Follows False ((arrive t s).onTw (fun w => { w with discards := w.discards + 1 }))
      ((arrive t s).nextFree.onTw (fun w => { w with discards := w.discards + 1 })) :=
    Follows.of (Moves.nextFree _) (fun _ => ⟨rfl, rfl, rfl, rfl, rfl⟩)
  rw [← arrive_tw t s]
  refine does_of_follows rfl ?_ (.of rfl rfl rfl rfl rfl) (free.trans (Follows.raisePage _ pPW ((arrive t s).freeWord.1 % 256) 0))
  dsimp only
  rw [arrive_standby, hs, if_pos rfl]
  exact effect

section Done

variable {t : DT} {a : Nat} {s : State} {full : Bool} (ha : a < 512) (table : List Nat) (sum : Word)
include ha

/-- Where the ingress buffer has room, the copy is brought to its end. -/
theorem exec_repSyncDone (room : ¬ (s.standby = true ∧ full = true ∧ s.tw.link = true)) :
    ∃ f, exec (.repSyncDone t ⟨full, a, table, sum⟩) s = .next (run t s f) ∧
      f (arrive t s) = repSyncDone (arrive t s) a table sum := by
  refine ⟨_, rfl, ?_⟩
  unfold pwTakes
  rw [arrive_standby, arrive_tw, Nat.mod_eq_of_lt ha]
  cases hs : s.standby with
  | false => rfl
  | true => exact if_neg (fun h => room ⟨hs, Bool.and_eq_true_iff.mp h⟩)

/-- The end of a copy on the active. -/
theorem repSyncDone_active (hs : s.standby = false) (h : CopyEnds s a) :
    ∃ u, exec (.repSyncDone t ⟨full, a, table, sum⟩) s = .next u ∧ u.le.syncs = syncsLeft s a ∧
      (s.enabled pEH = false → u.axb a F.REP_STATUS_SYNCING = false ∧ u.axb a F.REP_STATUS_STALE = s.axb a F.REP_STATUS_STALE ∧
        ∀ b, b / 8 ≠ (axisBase a + F.REP_STATUS_SYNCING.adr) / 8 → u.byte b = s.byte b) ∧
      Ends { arrive t s with mem := u.mem, poison := u.poison, le := { s.le with syncs := u.le.syncs } } u := by
  obtain ⟨f, e, hf⟩ := exec_repSyncDone (t := t) (s := s) (full := full) ha table sum (fun k => by simp [hs] at k)
  have effect : f (arrive t s) = copyOver (arrive t s) a := by
    rw [hf, repSyncDone_ends (copyEnds_arrive.mpr h), arrive_standby, hs]
    rfl
  obtain ⟨u, next, list, memory, ends⟩ := exec_copies e effect (copyOver_stores _ a)
  refine ⟨u, next, ?_, fun hub => ?_, ends⟩
  · rw [list]
    unfold syncsLeft
    rw [arrive_le]
  · obtain ⟨mem, poison⟩ := memory hub
    refine ⟨(axb_congr mem poison a _).trans (copyOver_syncing _ a), ?_, fun b hb => ?_⟩
    · rw [axb_congr mem poison, copyOver_stale, arrive_axb]
    · rw [byte_congr mem, copyOver_byte _ a hb, byte_congr (arrive_mem t s)]

/-- The end of a copy on a standby. -/
theorem repSyncDone_standby (room : ¬ (s.standby = true ∧ full = true ∧ s.tw.link = true)) (hs : s.standby = true)
    (h : CopyEnds s a) : ∃ u, exec (.repSyncDone t ⟨full, a, table, sum⟩) s = .next u ∧ u.le.syncs = syncsLeft s a ∧
      (s.enabled pEH = false → u.axb a F.REP_STATUS_SYNCING = false ∧ u.axb a F.REP_STATUS_STALE = false ∧
        u.word (axisBase a + 0x258) = sum.toNat ∧
        ((∀ i < repN (repCfgOf s a), s.poisoned (repEntryAddr (getBits (repCfgOf s a) 0 20) i) = false) →
          ∀ i v, i < repN (repCfgOf s a) → table[i]? = some v → v < 2 ^ 32 →
            repEntry u (getBits (repCfgOf s a) 0 20) i = toS 32 v)) ∧
      Ends { arrive t s with mem := u.mem, poison := u.poison, le := { s.le with syncs := u.le.syncs } } u := by
  obtain ⟨f, e, hf⟩ := exec_repSyncDone (t := t) ha table sum room
  have effect : f (arrive t s) = tableHeld (copyOver (arrive t s) a) a table sum := by
    rw [hf, repSyncDone_ends (copyEnds_arrive.mpr h), arrive_standby, hs]
    rfl
  have ended := copyOver_stores (arrive t s) a
  obtain ⟨u, next, list, memory, ends⟩ := exec_copies e effect (ended.trans (tableHeld_stores _ a table sum))
  refine ⟨u, next, ?_, fun hub => ?_, ends⟩
  · rw [list]
    unfold syncsLeft
    rw [arrive_le]
  · obtain ⟨mem, poison⟩ := memory hub
    have quiet : (copyOver (arrive t s) a).enabled pEH = false := ended.hub.trans ((arrive_enabled t s pEH).trans hub)
    have cfg : repCfgOf (copyOver (arrive t s) a) a = repCfgOf s a := (copyOver_repCfgOf _ a ha).trans (arrive_repCfgOf t s a)
    obtain ⟨syncing, stale, held⟩ := tableHeld_fields ha quiet table sum
    refine ⟨?_, (axb_congr mem poison a _).trans stale, (word_congr mem poison _).trans held, fun clean i v hi hv h32 => ?_⟩
    · rw [axb_congr mem poison, syncing, copyOver_syncing]
    · rw [repEntry_congr (word_congr mem poison _), ← cfg]
      rw [← cfg] at hi clean
      refine tableHeld_entry ha quiet table sum (fun j hj => ?_) hi hv h32
      have below := record_below_pool ha (show F.REP_STATUS_SYNCING.adr < 0x800 by decide)
      have pool := poolBase_le (getBits (repCfgOf (copyOver (arrive t s) a) a) 0 20) j
      rw [copyOver_poisoned _ a (by omega), arrive_poisoned]
      exact clean j hj

end Done

/-! ### The obligation -/

/-- Settles O46: SYNC accepted on the active and set aside on a standby, the end of a copy on either unit, a copy that is not at
its end, and one that meets a full buffer. -/
theorem tableCopiesAreServedInOrder : Obligations.TableCopiesAreServedInOrder := by
  intro t m a full table sum s ha hc cfg entries other done room ends
  refine ⟨fun hs hu => repSync_accepted ha hc hs hu, fun hs hm hu => repSync_setAside ha hc hs hm hu,
    fun hr he => ?_, fun hr he => ?_, fun hr => ?_⟩
  · cases hs : s.standby with
    | false =>
      obtain ⟨u, next, list, words, frame⟩ := repSyncDone_active (t := t) (full := full) ha table sum hs he
      refine ⟨u, next, list, fun hub => ?_, frame⟩
      obtain ⟨syncing, stale, bytes⟩ := words hub
      exact ⟨syncing, fun _ => ⟨stale, fun b hb => bytes b hb.2⟩, fun h => absurd h (by decide)⟩
    | true =>
      obtain ⟨u, next, list, words, frame⟩ := repSyncDone_standby (t := t) ha table sum hr hs he
      refine ⟨u, next, list, fun hub => ?_, frame⟩
      obtain ⟨syncing, held⟩ := words hub
      exact ⟨syncing, fun h => absurd h (by decide), fun _ => held⟩
  · obtain ⟨f, e, hf⟩ := exec_repSyncDone (t := t) ha table sum hr
    exact does_nothing e (hf.trans (repSyncDone_waits (fun k => he (copyEnds_arrive.mp k)) table sum))
  · obtain ⟨hs, hf, hl⟩ := Decidable.not_not.mp hr
    exact repSyncDone_discarded a table sum hs hf hl

end Sys2Proof
end
section
/-! PG_GRPn_CFG: the bits that a write of it sets, and what the write asks for (R9, R192, R413). -/

namespace Sys2Proof

open Sys2Proof.Machine

/-! ### The registers of a group -/

/-- No event changes PG_GRPn_CFG or PG_GRPn_STATE. -/
theorem eventReg_pgGrp {n : Nat} (h : n < 32) :
    eventReg (F.PG_GRP_CFG n).adr = false ∧ eventReg (F.PG_GRP_STATE n).adr = false := by
  simp only [eventReg, hubReg, startReg, pMEM, pEH, pXU, pHK, pPG]
  simp
  omega

/-- The bits of PG_GRPn_CFG that software writes: EN, FAULT_STOP, MSRC and MASTER_AXIS. -/
theorem rwMask_pgGrpCfg : ∀ n < 32, rwMask (F.PG_GRP_CFG n).adr = 0xB80001FF00000000 := by decide +kernel

/-- While EN is set, MSRC and MASTER_AXIS are locked. -/
theorem lockMask_pgGrpCfg (s : State) {n : Nat} (hn : n < 32) :
    lockMask s (F.PG_GRP_CFG n).adr = if s.gb (F.PG_GRP_CFG_EN n) then (3 <<< 59) + (0x1FF <<< 32) else 0 := by
  have page : (F.PG_GRP_CFG n).adr / 0x1000 * 0x1000 = pPG := by simp only [pPG]; omega
  have group : ((F.PG_GRP_CFG n).adr % 0x1000 - 0x800) / 0x40 = n := by simp only [pPG]; omega
  have range : 0x800 ≤ (F.PG_GRP_CFG n).adr % 0x1000 ∧ (F.PG_GRP_CFG n).adr % 0x1000 % 0x40 = 0 := by simp only [pPG]; omega
  have own : (F.PG_GRP_CFG n).adr ≠ pPG + 0x80 := by simp only [pPG]; omega
  unfold lockMask
  simp only [page, group, range, own, decide_true, Bool.and_true, if_true, if_false]
  rfl

/-! ### A plain write -/

/-- The bits of PG_GRPn_CFG that a write sets; EN waits for its action. -/
def grpCfgMask (en : Bool) : Nat :=
  without (without 0xB80001FF00000000 (if en then (3 <<< 59) + (0x1FF <<< 32) else 0)) (1 <<< 63)

/-- What PG_GRPn_CFG holds behind a write of `v`. -/
def grpCfgWritten (s : State) (n v : Nat) : Nat := blend (s.reg (F.PG_GRP_CFG n).adr) v (grpCfgMask (s.gb (F.PG_GRP_CFG_EN n)))

/-- `s` with the fields of PG_GRPn_CFG beside EN written. -/
def grpCfgSet (s : State) (n v : Nat) : State := s.setReg (F.PG_GRP_CFG n).adr (grpCfgWritten s n v)

/-- `s` with the fields of PG_GRPn_CFG beside EN written, and the write sent on (R390). -/
def grpCfgSent (s : State) (n v : Nat) : State := mirrorOut (grpCfgSet s n v) (F.PG_GRP_CFG n).adr (grpCfgWritten s n v)

theorem setRw_pgGrpCfg {s : State} {n : Nat} (m v : Nat) (hn : n < 32) (hs : s.standby = false) :
    setRw s m (F.PG_GRP_CFG n).adr v (1 <<< 63) = grpCfgSent s n v := by
  have accepted : standbyRefuses s m (F.PG_GRP_CFG n).adr = false := standbyRefuses_active m _ hs
  unfold setRw
  rw [accepted, rwMask_pgGrpCfg n hn, lockMask_pgGrpCfg s hn]
  rfl

section Written

variable (s : State) (n v : Nat)

theorem grpCfgSet_cfg : (grpCfgSet s n v).reg (F.PG_GRP_CFG n).adr = grpCfgWritten s n v :=
  (State.reg_setReg_self s _ _).trans (Nat.mod_eq_of_lt (blend_lt _ _ _))

theorem grpCfgSet_reg {b : Nat} (h : b ≠ (F.PG_GRP_CFG n).adr) : (grpCfgSet s n v).reg b = s.reg b := State.reg_setReg_other s _ h

theorem grpCfgSent_reg (b : Nat) : (grpCfgSent s n v).reg b = (grpCfgSet s n v).reg b := mirrorOut_reg _ _ _ b

/-- The write leaves EN as it is. -/
theorem grpCfgWritten_en : getBits (grpCfgWritten s n v) 63 1 = s.g (F.PG_GRP_CFG_EN n) := by
  have kept : ∀ en, getBits (grpCfgMask en) 63 1 = 0 := by decide
  exact getBits_blend_kept _ _ _ _ _ (by decide) (kept _)

theorem grpCfgSent_en : (grpCfgSent s n v).gb (F.PG_GRP_CFG_EN n) = s.gb (F.PG_GRP_CFG_EN n) := by
  have e : (grpCfgSent s n v).reg (F.PG_GRP_CFG n).adr = grpCfgWritten s n v := (grpCfgSent_reg s n v _).trans (grpCfgSet_cfg s n v)
  unfold State.gb State.g
  exact congrArg (· != 0) ((congrArg (getBits · 63 1) e).trans (grpCfgWritten_en s n v))

variable {s}

/-- With EN clear the other fields take the value. -/
theorem grpCfgWritten_off (off : s.gb (F.PG_GRP_CFG_EN n) = false) :
    getBits (grpCfgWritten s n v) 32 9 = getBits v 32 9 ∧ getBits (grpCfgWritten s n v) 59 2 = getBits v 59 2 ∧
    getBits (grpCfgWritten s n v) 61 1 = getBits v 61 1 := by
  unfold grpCfgWritten
  rw [off]
  exact ⟨getBits_blend _ _ _ _ _ (by decide) (by decide), getBits_blend _ _ _ _ _ (by decide) (by decide),
    getBits_blend _ _ _ _ _ (by decide) (by decide)⟩

/-- With EN set the master stays. -/
theorem grpCfgWritten_on (on : s.gb (F.PG_GRP_CFG_EN n) = true) :
    getBits (grpCfgWritten s n v) 32 9 = s.g (F.PG_GRP_CFG_MASTER_AXIS n) ∧
    getBits (grpCfgWritten s n v) 59 2 = s.g (F.PG_GRP_CFG_MSRC n) := by
  unfold grpCfgWritten
  rw [on]
  exact ⟨getBits_blend_kept _ _ _ _ _ (by decide) (by decide), getBits_blend_kept _ _ _ _ _ (by decide) (by decide)⟩

end Written

/-! ### The values of GROUP_ENABLE and GROUP_DISABLE -/

/-- The value that GROUP_ENABLE writes: EN set, RESTART clear. -/
def enableValue (v : Nat) : Nat := setBits (setBits v 63 1 1) 62 1 0

/-- The value that GROUP_DISABLE writes: EN and RESTART clear. -/
def disableValue (v : Nat) : Nat := setBits v 62 2 0

theorem enableValue_bits (v : Nat) : bit (enableValue v) 63 = true ∧ bit (enableValue v) 62 = false := by
  unfold enableValue
  rw [bit_eq_getBits, bit_eq_getBits, getBits_setBits_self, getBits_setBits_above _ _ _ _ (by decide), getBits_setBits_self]
  exact ⟨rfl, rfl⟩

theorem enableValue_below (v : Nat) {lo w : Nat} (h : lo + w ≤ 62) : getBits (enableValue v) lo w = getBits v lo w :=
  (getBits_setBits_below _ _ _ _ h).trans (getBits_setBits_below _ _ _ _ (by omega))

theorem disableValue_bits (v : Nat) : bit (disableValue v) 63 = false ∧ bit (disableValue v) 62 = false := by
  have both := getBits_setBits_self v 62 2 0
  unfold disableValue
  generalize setBits v 62 2 0 = x at both ⊢
  unfold getBits at both
  unfold bit
  simp only [Nat.testBit_eq_decide_div_mod_eq, Nat.shiftRight_eq_div_pow, decide_eq_false_iff_not] at both ⊢
  omega

/-! ### What the write asks for -/

/-- Asking for EN of a group that is off begins its check where none runs (R192, R413). -/
theorem reqAct_groupEnable {s : State} {n : Nat} (v m : Nat) (hr : (s.checks.look pPG).running = none)
    (off : s.gb (F.PG_GRP_CFG_EN n) = false) :
    reqAct s .groupEnable pPG n v m none = beginsCheck s ⟨.groupEnable, pPG, n, v, m, none, s.dt⟩ := by
  unfold reqAct
  simp only [hasCheck, Bool.not_true, Bool.false_and, Bool.false_eq_true, if_false]
  unfold actNow act
  simp only [hr, if_true, opWrite, alreadyOn, off, hasCheck, streamMark]
  unfold submit
  simp only [hr]
  rfl

/-- Clearing EN has no check: where none runs on the page it is carried out, and sent on as a mirrored write (R390, R413). -/
theorem reqAct_groupDisable {s : State} {n : Nat} (v m : Nat) (hr : (s.checks.look pPG).running = none) (hs : s.standby = false) :
    reqAct s .groupDisable pPG n v m none = mirrorOut (grpDisable s n) ((F.PG_GRP_CFG n).adr / 8 * 8) v := by
  have accepted (a : Nat) : standbyRefuses s m a = false := standbyRefuses_active m a hs
  unfold reqAct
  simp only [accepted, Bool.and_false, Bool.false_eq_true, if_false]
  unfold actNow act
  simp only [hr, if_true, opWrite, alreadyOn, hasCheck]
  unfold submitPlain
  simp only [hr]
  rfl

section Write

variable {s : State} {n : Nat} (m v : Nat) (hn : n < 32) (hr : (s.checks.look pPG).running = none) (hs : s.standby = false)
include hn hr hs

/-- A write that sets EN of a group that is off sets the other fields, and the check begins with EN at 0. -/
theorem grpCfgWrite_enable (off : s.gb (F.PG_GRP_CFG_EN n) = false) : grpCfgWrite s m n (enableValue v) =
    beginsCheck (grpCfgSent s n (enableValue v)) ⟨.groupEnable, pPG, n, enableValue v, m, none, s.dt⟩ := by
  obtain ⟨en, restart⟩ := enableValue_bits v
  have running : ((grpCfgSent s n (enableValue v)).checks.look pPG).running = none := by
    unfold grpCfgSent
    rw [mirrorOut_checks]
    exact hr
  have dt : (grpCfgSent s n (enableValue v)).dt = s.dt := mirrorOut_dt _ _ _
  unfold grpCfgWrite
  simp only [en, restart, off, setRw_pgGrpCfg m _ hn hs, Bool.not_false, Bool.true_or, Bool.and_true, if_true, Bool.false_eq_true,
    if_false]
  rw [reqAct_groupEnable _ m running ((grpCfgSent_en s n _).trans off), dt]

/-- A write that clears EN of a group that is on sets the other fields, and takes the group off. -/
theorem grpCfgWrite_disable (on : s.gb (F.PG_GRP_CFG_EN n) = true) : grpCfgWrite s m n (disableValue v) =
    mirrorOut (grpDisable (grpCfgSent s n (disableValue v)) n) ((F.PG_GRP_CFG n).adr / 8 * 8) (disableValue v) := by
  obtain ⟨en, restart⟩ := disableValue_bits v
  have running : ((grpCfgSent s n (disableValue v)).checks.look pPG).running = none := by
    unfold grpCfgSent
    rw [mirrorOut_checks]
    exact hr
  have active : (grpCfgSent s n (disableValue v)).standby = false := by
    unfold grpCfgSent State.standby
    rw [mirrorOut_eq]
    exact hs
  unfold grpCfgWrite
  simp only [en, restart, on, setRw_pgGrpCfg m _ hn hs, Bool.not_false, Bool.true_or, Bool.and_true, if_true, Bool.false_eq_true,
    if_false, Bool.false_and]
  exact reqAct_groupDisable _ m running active

end Write

end Sys2Proof
end
section
/-! GROUP_ENABLE of a gear group that is off (R192). -/

namespace Sys2Proof

open Sys2Proof.Machine

/-- The state behind a write of PG_GRPn_CFG that asks for EN, beside what is sent. -/
def groupEnableBegun (s : State) (m n v : Nat) : State := beginsCheck (grpCfgSet s n v) ⟨.groupEnable, pPG, n, v, m, none, s.dt⟩

theorem groupEnableBegun_cfg (s : State) (m v : Nat) {n : Nat} (hn : n < 32) :
    (groupEnableBegun s m n v).reg (F.PG_GRP_CFG n).adr = grpCfgWritten s n v := by
  have other : (F.PG_GRP_CFG n).adr ≠ (F.CHECK pPG).adr := by simp only [pPG]; omega
  exact (beginsCheck_reg _ _ other).trans (grpCfgSet_cfg s n v)

theorem groupEnableBegun_reg {s : State} {m n v b : Nat} (h1 : b ≠ (F.PG_GRP_CFG n).adr) (h2 : b ≠ (F.CHECK pPG).adr) :
    (groupEnableBegun s m n v).reg b = s.reg b := (beginsCheck_reg _ _ h2).trans (grpCfgSet_reg s n v h1)

section Enable

variable {t : DT} {m n : Nat} {v : Word} {s : State} (hn : n < 32) (hu : Unhindered t m s) (hs : s.standby = false)
  (hc : s.hk.corePower = true) (hr : (s.checks.look pPG).running = none) (off : s.gb (F.PG_GRP_CFG_EN n) = false)
include hn hu hs hc hr off

/-- GROUP_ENABLE of a group that is off, where no check runs: the check begins. -/
theorem groupEnable_begins :
    Does (.groupEnable t m n v) s (groupEnableBegun (arrive t s) m n (enableValue v.toNat)) := by
  have e : exec (.groupEnable t m n v) s = .next (run t s (fun s => grpCfgWrite s m (n % 32) (enableValue v.toNat))) :=
    congrArg Host.Outcome.next (runOn_made pPG _ hu rfl hc)
  rw [Nat.mod_eq_of_lt hn] at e
  have contained : Contained t s (groupEnableBegun (arrive t s) m n (enableValue v.toNat)) :=
    ((Contained.arrive t s).setReg _ _).regsChecks (beginsCheck_eq _ _)
  refine does_of_follows e (grpCfgWrite_enable m v.toNat hn ((arrive_checks t s).symm ▸ hr) ((arrive_standby t s).trans hs)
    ((arrive_gb t s _).trans off)) contained ?_
  unfold grpCfgSent
  rw [mirrorOut_eq]
  exact beginsCheck_sent _ (mirrorOut_out _ _ _) _

/-- What GROUP_ENABLE leaves: EN waits for the check, the other fields take the value. -/
theorem exec_groupEnable :
    ∃ u, exec (.groupEnable t m n v) s = .next u ∧ u.gb (F.PG_GRP_CFG_EN n) = false ∧ u.g (F.CHECK_BUSY pPG) = 1 ∧
      u.g (F.PG_GRP_CFG_MASTER_AXIS n) = getBits v.toNat 32 9 ∧ u.g (F.PG_GRP_CFG_MSRC n) = getBits v.toNat 59 2 ∧
      u.g (F.PG_GRP_CFG_FAULT_STOP n) = getBits v.toNat 61 1 ∧
      (∀ b, eventReg b = false → b ≠ (F.PG_GRP_CFG n).adr → b ≠ (F.CHECK pPG).adr → u.reg b = s.reg b) ∧
      Ends { arrive t s with regs := u.regs, checks := u.checks } u := by
  obtain ⟨u, e, ends⟩ := groupEnable_begins (t := t) (v := v) hn hu hs hc hr off
  have off' : (arrive t s).gb (F.PG_GRP_CFG_EN n) = false := (arrive_gb t s _).trans off
  have cfg : u.reg (F.PG_GRP_CFG n).adr = grpCfgWritten (arrive t s) n (enableValue v.toNat) :=
    (ends.reg (eventReg_pgGrp hn).1).trans (groupEnableBegun_cfg _ m _ hn)
  have field (lo w : Nat) : u.g ⟨(F.PG_GRP_CFG n).adr, lo, w⟩ = getBits (grpCfgWritten (arrive t s) n (enableValue v.toNat)) lo w :=
    congrArg (getBits · lo w) cfg
  obtain ⟨axis, source, faultStop⟩ := grpCfgWritten_off n (enableValue v.toNat) off'
  have en : u.gb (F.PG_GRP_CFG_EN n) = (arrive t s).gb (F.PG_GRP_CFG_EN n) :=
    congrArg (· != 0) ((field 63 1).trans (grpCfgWritten_en _ n _))
  have checks : u.checks = (groupEnableBegun (arrive t s) m n (enableValue v.toNat)).checks := by
    rw [ends.rest]
    rfl
  refine ⟨u, e, en.trans off', (ends.g (by decide)).trans (beginsCheck_busy _ _), ?_, ?_, ?_, fun b hb h1 h2 => ?_, ?_⟩
  · exact (field 32 9).trans (axis.trans (enableValue_below _ (by decide)))
  · exact (field 59 2).trans (source.trans (enableValue_below _ (by decide)))
  · exact (field 61 1).trans (faultStop.trans (enableValue_below _ (by decide)))
  · rw [ends.reg hb, groupEnableBegun_reg h1 h2, arrive_reg]
  · have k := ends.withRegs
    rw [checks]
    unfold groupEnableBegun at k ⊢
    rw [beginsCheck_eq] at k
    exact k

end Enable

end Sys2Proof
end
section
/-! What a command leaves that writes the profile generator's own state (R170 to R192). -/

namespace Sys2Proof

open Sys2Proof.Machine

theorem pgAx_congr {r s : State} (h : r.pg = s.pg) (a : Nat) : r.pgAx a = s.pgAx a := congrArg (fun g : PgSt => g.ax.look a) h
theorem grp_congr {r s : State} (h : r.pg = s.pg) (n : Nat) : r.grp n = s.grp n := congrArg (fun g : PgSt => g.grp.look n) h

@[simp] theorem arrive_pg (t : DT) (s : State) : (arrive t s).pg = s.pg := by rw [arrive_eq]
@[simp] theorem arrive_pgAx (t : DT) (s : State) (a : Nat) : (arrive t s).pgAx a = s.pgAx a := pgAx_congr (arrive_pg t s) a
@[simp] theorem arrive_grp (t : DT) (s : State) (n : Nat) : (arrive t s).grp n = s.grp n := grp_congr (arrive_pg t s) n

theorem Ends.pg {r u : State} (h : Ends r u) : u.pg = r.pg := by rw [h.rest]; rfl

/-! ### The state of an axis and of a group in their tables -/

theorem setPg_pgAx_other (s : State) {a k : Nat} (x : PgAx) (h : k ≠ a) : (s.setPg a x).pgAx k = s.pgAx k := look_set_other _ _ h

theorem onGrp_grp_other (s : State) {n k : Nat} (f : PgGrp → PgGrp) (h : k ≠ n) : (s.onGrp n f).grp k = s.grp k :=
  look_set_other _ _ h

/-- What follows from a state follows also beside another state of an axis. -/
theorem Follows.setPg {K : Prop} {r v : State} (h : Follows K r v) (a : Nat) (x : PgAx) : Follows K (r.setPg a x) (v.setPg a x) := by
  have pg : v.pg = r.pg := by rw [h.rest]
  refine ⟨h.regs, h.cores, h.hp, h.hk, h.start, h.tw, h.ks, h.out, h.devQ, h.mem, h.ms, h.count, h.quiet, ?_⟩
  unfold State.setPg
  rw [pg]
  conv => lhs; rw [h.rest]

/-! ### Writes of the profile generator -/

/-- `r` is `s` with registers, words of memory and their poison, the profile generator's own state and what is sent changed. -/
structure ProfileWrite (s r : State) : Prop where
  out : s.out <+: r.out
  rest : r = { s with regs := r.regs, mem := r.mem, poison := r.poison, ueDue := r.ueDue, out := r.out, pg := r.pg }

theorem ProfileWrite.refl (s : State) : ProfileWrite s s := ⟨List.prefix_refl _, rfl⟩

theorem ProfileWrite.trans {s r u : State} (h : ProfileWrite s r) (k : ProfileWrite r u) : ProfileWrite s u where
  out := h.out.trans k.out
  rest := by rw [k.rest, h.rest]

theorem ProfileWrite.setReg (s : State) (a v : Nat) : ProfileWrite s (s.setReg a v) := ⟨List.prefix_refl _, rfl⟩
theorem ProfileWrite.setPg (s : State) (a : Nat) (x : PgAx) : ProfileWrite s (s.setPg a x) := ⟨List.prefix_refl _, rfl⟩
theorem ProfileWrite.onGrp (s : State) (n : Nat) (f : PgGrp → PgGrp) : ProfileWrite s (s.onGrp n f) := ⟨List.prefix_refl _, rfl⟩

theorem ProfileWrite.setWord (s : State) (a v : Nat) : ProfileWrite s (s.setWord a v) where
  out := by rw [setWord_eq]
  rest := by
    generalize e : s.setWord a v = r
    rw [setWord_eq] at e
    rw [← e]

theorem ProfileWrite.axPut (s : State) (a : Nat) (f : Fld) (v : Nat) : ProfileWrite s (s.axPut a f v) where
  out := by
    unfold State.axPut
    rw [mput_eq]
  rest := by
    generalize e : s.axPut a f v = r
    unfold State.axPut at e
    rw [mput_eq] at e
    rw [← e]

theorem ProfileWrite.contained {t : DT} {s v r : State} (k : ProfileWrite v r) (h : Contained t s v) : Contained t s r where
  time := by rw [k.rest]; exact h.time
  pending := by rw [k.rest]; exact h.pending
  devNow := by rw [k.rest]; exact h.devNow
  queues := by rw [k.rest]; exact h.queues
  answered n hn := h.answered n (by rw [k.rest] at hn; exact hn)

/-- The frame of a command that ends in `u`, said without what the profile generator writes. -/
theorem ProfileWrite.ends {v r u : State} (h : ProfileWrite v r) (k : Ends r u) :
    Ends { v with regs := u.regs, mem := u.mem, poison := u.poison, pg := u.pg } u := by
  have hub := Follows.enabled k
  have pg := k.pg
  have out := h.out
  unfold Ends at k ⊢
  rw [h.rest] at k
  refine ⟨fun _ _ => rfl, k.cores, k.hp, k.hk, fun q => ⟨(k.start q).1, fun _ _ => rfl⟩, k.tw, k.ks, out.trans k.out, k.devQ,
    fun _ _ _ => rfl, k.ms, k.count, fun q => ⟨rfl, (k.quiet (hub.symm.trans q)).2⟩, ?_⟩
  rw [pg]
  conv => lhs; rw [k.rest]
  rfl

/-- A command whose effect is a write of the profile generator and what may follow from it: with the hub disabled the memory is that of
the write. -/
theorem exec_profile {c : Instr} {t : DT} {s r v : State} {f : State → State} (e : exec c s = .next (run t s f))
    (h : f (arrive t s) = v) (k : ProfileWrite (arrive t s) r) (l : Follows False r v)
    (p : r.enabled pEH = false → v.poison = r.poison) :
    ∃ u, exec c s = .next u ∧ u.pg = r.pg ∧ (∀ b, eventReg b = false → u.reg b = r.reg b) ∧
      (r.enabled pEH = false → u.mem = r.mem ∧ u.poison = r.poison) ∧
      Ends { arrive t s with regs := u.regs, mem := u.mem, poison := u.poison, pg := u.pg } u := by
  have contained : Contained t s v := (k.contained (.arrive t s)).follows l
  have ends : Ends r (run t s f) := (run_ends_of_effect h contained).of l
  refine ⟨_, e, ends.pg, fun b hb => ends.reg hb, fun hub => ?_, k.ends ends⟩
  obtain ⟨mem, poison⟩ := run_disabled h contained (l.enabled.trans hub)
  exact ⟨mem.trans (l.quiet hub).1, poison.trans (p hub)⟩

/-! ### Writes of a group alone -/

/-- `r` is `s` with registers, the states of gear groups and what is sent changed. -/
structure GroupWrite (s r : State) : Prop where
  out : s.out <+: r.out
  rest : r = { s with regs := r.regs, out := r.out, pg := { s.pg with grp := r.pg.grp } }

theorem GroupWrite.refl (s : State) : GroupWrite s s := ⟨List.prefix_refl _, rfl⟩

theorem GroupWrite.trans {s r u : State} (h : GroupWrite s r) (k : GroupWrite r u) : GroupWrite s u where
  out := h.out.trans k.out
  rest := by rw [k.rest, h.rest]

theorem GroupWrite.setReg (s : State) (a v : Nat) : GroupWrite s (s.setReg a v) := ⟨List.prefix_refl _, rfl⟩
theorem GroupWrite.onGrp (s : State) (n : Nat) (f : PgGrp → PgGrp) : GroupWrite s (s.onGrp n f) := ⟨List.prefix_refl _, rfl⟩

theorem GroupWrite.mirrorOut (s : State) (a v : Nat) : GroupWrite s (Machine.mirrorOut s a v) where
  out := mirrorOut_out s a v
  rest := by
    generalize e : Machine.mirrorOut s a v = r
    rw [mirrorOut_eq] at e
    rw [← e]

theorem GroupWrite.profile {s r : State} (h : GroupWrite s r) : ProfileWrite s r where
  out := h.out
  rest := by
    generalize e : r = u
    rw [h.rest] at e
    rw [← e]

/-- The frame of a command that ends in `u`, said without registers and groups. -/
theorem GroupWrite.ends {v r u : State} (h : GroupWrite v r) (k : Ends r u) :
    Ends { v with regs := u.regs, pg := { v.pg with grp := u.pg.grp } } u := by
  have groups : u.pg.grp = r.pg.grp := congrArg PgSt.grp k.pg
  have whole : ({ r with regs := u.regs } : State) = { v with regs := u.regs, pg := { v.pg with grp := u.pg.grp }, out := r.out } := by
    rw [groups]
    conv => lhs; rw [h.rest]
  have ends := k.withRegs
  rw [whole] at ends
  exact ends.of (Follows.sent { v with regs := u.regs, pg := { v.pg with grp := u.pg.grp } } h.out)

/-- A command whose effect is a write of groups and what may follow from it. -/
theorem exec_group {c : Instr} {t : DT} {s r v : State} {f : State → State} (e : exec c s = .next (run t s f))
    (h : f (arrive t s) = v) (k : GroupWrite (arrive t s) r) (l : Follows False r v) :
    ∃ u, exec c s = .next u ∧ u.pg = r.pg ∧ (∀ b, eventReg b = false → u.reg b = r.reg b) ∧
      Ends { arrive t s with regs := u.regs, pg := { s.pg with grp := u.pg.grp } } u := by
  obtain ⟨u, next, ends⟩ := does_of_follows e h (k.profile.contained (.arrive t s)) l
  refine ⟨u, next, ends.pg, fun b hb => ends.reg hb, ?_⟩
  rw [← arrive_pg t s]
  exact k.ends ends

end Sys2Proof
end
section
/-! A stop is asked of gear groups: PG_GROUP_STOP (R189). -/

namespace Sys2Proof

open Sys2Proof.Machine

/-! ### A stop is asked for -/

/-- A group after its stop of `cause` is asked for: one that does not run, or that awaits a stop already, stays as it is (R189). -/
def stopAsked (g : PgGrp) (cause : Nat) : PgGrp :=
  if (g.state = 1 ∨ (g.state = 3 ∧ g.restart = true)) ∧ g.stopReq = 0 then { g with stopReq := cause } else g

theorem runs_iff (g : PgGrp) : (g.runs && decide (g.stopReq = 0)) = true ↔
    (g.state = 1 ∨ (g.state = 3 ∧ g.restart = true)) ∧ g.stopReq = 0 := by
  unfold PgGrp.runs
  simp

theorem grpRequest_eq (s : State) (n cause : Nat) : grpRequest s n cause = s ∧ stopAsked (s.grp n) cause = s.grp n ∨
    grpRequest s n cause = s.onGrp n (fun g => { g with stopReq := cause }) ∧
      stopAsked (s.grp n) cause = { s.grp n with stopReq := cause } := by
  by_cases h : ((s.grp n).runs && decide ((s.grp n).stopReq = 0)) = true
  · exact .inr ⟨if_pos h, if_pos ((runs_iff _).mp h)⟩
  · exact .inl ⟨if_neg h, if_neg (fun k => h ((runs_iff _).mpr k))⟩

theorem grpRequest_write (s : State) (n cause : Nat) : GroupWrite s (grpRequest s n cause) ∧ (grpRequest s n cause).regs = s.regs := by
  rcases grpRequest_eq s n cause with ⟨e, -⟩ | ⟨e, -⟩ <;> rw [e]
  · exact ⟨.refl s, rfl⟩
  · exact ⟨.onGrp s n _, rfl⟩

theorem grpRequest_grp (s : State) (n cause : Nat) : (grpRequest s n cause).grp n = stopAsked (s.grp n) cause := by
  rcases grpRequest_eq s n cause with ⟨e, k⟩ | ⟨e, k⟩ <;> rw [e, k]
  exact State.onGrp_grp s n _

theorem grpRequest_grp_other (s : State) {n k : Nat} (cause : Nat) (h : k ≠ n) : (grpRequest s n cause).grp k = s.grp k := by
  rcases grpRequest_eq s n cause with ⟨e, -⟩ | ⟨e, -⟩ <;> rw [e]
  exact onGrp_grp_other s _ h

/-! ### PG_GROUP_STOP -/

/-- The stop of cause 1 asked of group `n` where its bit is set in `v`. -/
def groupStop (v n : Nat) (s : State) : State := if bit v n then grpRequest s n 1 else s

theorem groupStop_grp (v n : Nat) (s : State) : (groupStop v n s).grp n = if bit v n then stopAsked (s.grp n) 1 else s.grp n := by
  unfold groupStop
  split
  · exact grpRequest_grp s n 1
  · rfl

theorem groupStop_grp_other (v : Nat) {n k : Nat} (s : State) (h : k ≠ n) : (groupStop v n s).grp k = s.grp k := by
  unfold groupStop
  split
  · exact grpRequest_grp_other s 1 h
  · rfl

theorem groupStop_write (v n : Nat) (s : State) : GroupWrite s (groupStop v n s) ∧ (groupStop v n s).regs = s.regs := by
  unfold groupStop
  split
  · exact grpRequest_write s n 1
  · exact ⟨.refl s, rfl⟩

/-- The stop of cause 1 asked of the groups of a list. -/
def groupStops (v : Nat) (l : List Nat) (s : State) : State := forEach (groupStop v) l s

theorem groupStops_grp_other (v : Nat) {l : List Nat} {k : Nat} (h : k ∉ l) : ∀ s : State, (groupStops v l s).grp k = s.grp k := by
  induction l with
  | nil => exact fun _ => rfl
  | cons n l ih =>
    obtain ⟨hn, hl⟩ := not_or.mp (fun m => h (List.mem_cons.mpr m))
    exact fun s => (ih hl _).trans (groupStop_grp_other v s hn)

/-- Each group of the list is asked once. -/
theorem groupStops_grp (v : Nat) {l : List Nat} {k : Nat} (hl : l.Nodup) (hk : k ∈ l) : ∀ s : State,
    (groupStops v l s).grp k = if bit v k then stopAsked (s.grp k) 1 else s.grp k := by
  induction l with
  | nil => exact absurd hk List.not_mem_nil
  | cons n l ih =>
    intro s
    obtain ⟨hn, hl⟩ := List.nodup_cons.mp hl
    rcases List.mem_cons.mp hk with rfl | hk
    · exact (groupStops_grp_other v hn _).trans (groupStop_grp v k s)
    · rw [← groupStop_grp_other v s (fun h => hn (h ▸ hk) : k ≠ n)]
      exact ih hl hk _

theorem groupStops_write (v : Nat) (l : List Nat) (s : State) :
    GroupWrite s (groupStops v l s) ∧ (groupStops v l s).regs = s.regs := by
  refine forEach_keeps (P := fun r : State => GroupWrite s r ∧ r.regs = s.regs) _ (fun n r ⟨write, regs⟩ => ?_) l s ⟨.refl s, rfl⟩
  obtain ⟨asked, same⟩ := groupStop_write v n r
  exact ⟨write.trans asked, same.trans regs⟩

/-- A write of PG_GROUP_STOP on the active asks each group for its stop, and is sent on as a mirrored write (R390). -/
theorem groupStopWrite_active {s : State} (m v : Nat) (hs : s.standby = false) :
    groupStopWrite s m v = mirrorOut (groupStops v (List.range 32) s) (pPG + 0x88) (getBits v 0 32) := by
  have accepted : standbyRefuses s m (pPG + 0x88) = false := standbyRefuses_active m _ hs
  unfold groupStopWrite
  simp only [accepted, Bool.false_eq_true, if_false]
  rfl

/-- PG_GROUP_STOP asks every group whose bit is set for its stop. -/
theorem exec_pgGroupStop {t : DT} {m : Nat} {v : Word} {s : State} (hu : Unhindered t m s) (hs : s.standby = false)
    (hc : s.hk.corePower = true) : ∃ u, exec (.pgGroupStop t m v) s = .next u ∧
      (∀ k < 32, u.grp k = if v.getLsbD k then stopAsked (s.grp k) 1 else s.grp k) ∧
      Ends { arrive t s with pg := { s.pg with grp := u.pg.grp } } u := by
  have e : exec (.pgGroupStop t m v) s = .next (run t s (fun s => groupStopWrite s m v.toNat)) :=
    congrArg Host.Outcome.next (runOn_made pPG _ hu rfl hc)
  obtain ⟨write, regs⟩ := groupStops_write v.toNat (List.range 32) (arrive t s)
  obtain ⟨u, next, ends⟩ := does_of_follows e (groupStopWrite_active m v.toNat ((arrive_standby t s).trans hs))
    (write.profile.contained (.arrive t s)) (Follows.mirrorOut _ _ _)
  have pg : u.pg = (groupStops v.toNat (List.range 32) (arrive t s)).pg := ends.pg
  refine ⟨u, next, fun k hk => ?_, ?_⟩
  · have asked := groupStops_grp v.toNat List.nodup_range (List.mem_range.mpr hk) (arrive t s)
    rw [arrive_grp] at asked
    exact (grp_congr pg k).trans asked
  · rw [write.rest, regs] at ends
    rw [pg, ← arrive_pg t s]
    exact ends.of (Follows.sent _ write.out)

end Sys2Proof
end
section
/-! A STOPPED gear group closes: its EN clears, and its axes hold (R173, R189, R192). -/

namespace Sys2Proof

open Sys2Proof.Machine

/-! ### The members of a group that closes -/

/-- Axis `a`, a member of a group that closes, holds: while the page is on, PG_STATUS shows it. -/
def memberHeld (a : Nat) (s : State) : State :=
  let r := s.setPg a { s.pgAx a with mode := 1, plan := .none, ref := { (s.pgAx a).ref with v := 0, a := 0, j := 0 } }
  if r.enabled pPG then pgShowMode r a 1 else r

/-- `r` is `s` with the axes of `l` held. -/
structure MembersHeld (l : List Nat) (s r : State) : Prop where
  write : ProfileWrite s r
  regs : ∀ b, eventReg b = false → r.reg b = s.reg b
  groups : r.pg.grp = s.pg.grp
  bytes : ∀ b, (∀ a ∈ l, b / 8 ≠ (axisBase a + 0x1B0) / 8) → r.byte b = s.byte b
  off : s.enabled pPG = false → r.mem = s.mem
  mode : ∀ a, a ∈ l ∨ (s.pgAx a).mode = 1 → (r.pgAx a).mode = 1

theorem MembersHeld.page {l : List Nat} {s r : State} (h : MembersHeld l s r) : r.enabled pPG = s.enabled pPG := by
  unfold State.enabled State.gb State.g
  rw [h.regs _ (by decide)]

theorem pgShowMode_pg (s : State) (a mode : Nat) : (pgShowMode s a mode).pg = s.pg := by
  unfold pgShowMode
  dsimp only
  rw [setWord_eq]

theorem membersHeld_one (a : Nat) (s : State) : MembersHeld [a] s (memberHeld a s) := by
  generalize hr : s.setPg a { s.pgAx a with mode := 1, plan := .none, ref := { (s.pgAx a).ref with v := 0, a := 0, j := 0 } } = r
  have write : ProfileWrite s r := hr ▸ .setPg s a _
  have same : r.regs = s.regs ∧ r.mem = s.mem ∧ r.pg.grp = s.pg.grp := hr ▸ ⟨rfl, rfl, rfl⟩
  obtain ⟨regs, mem, groups⟩ := same
  have reg (b : Nat) : r.reg b = s.reg b := by unfold State.reg; rw [regs]
  have mode : ∀ k, k ∈ [a] ∨ (s.pgAx k).mode = 1 → (r.pgAx k).mode = 1 := by
    intro k hk
    rw [← hr]
    by_cases h : k = a
    · rw [h, State.setPg_pgAx]
    · rw [setPg_pgAx_other s _ h]
      exact hk.resolve_left (fun m => h (List.mem_singleton.mp m))
  have held : memberHeld a s = if r.enabled pPG then pgShowMode r a 1 else r := hr ▸ rfl
  rw [held]
  split
  next on =>
    have pg := pgShowMode_pg r a 1
    refine ⟨write.trans (.setWord r _ _), fun b hb => ?_, ?_, fun b hb => ?_, fun off => ?_, fun k hk => ?_⟩
    · exact ((FeedbackWrite.setWord r _ _).regs b hb).trans (reg b)
    · rw [pg, groups]
    · exact (State.byte_setWord_other r _ _ (hb a (List.mem_singleton_self a))).trans (byte_congr mem b)
    · have same : r.enabled pPG = s.enabled pPG := by unfold State.enabled State.gb State.g; rw [reg]
      rw [same, off] at on
      exact absurd on Bool.false_ne_true
    · rw [pgAx_congr pg]
      exact mode k hk
  next => exact ⟨write, fun b _ => reg b, groups, fun b _ => byte_congr mem b, fun _ => mem, mode⟩

theorem membersHeld (l : List Nat) : ∀ s : State, MembersHeld l s (forEach memberHeld l s) := by
  induction l with
  | nil => exact fun s => ⟨.refl s, fun _ _ => rfl, rfl, fun _ _ => rfl, fun _ => rfl, fun a h => h.resolve_left List.not_mem_nil⟩
  | cons a l ih =>
    intro s
    have one := membersHeld_one a s
    have rest := ih (memberHeld a s)
    refine ⟨one.write.trans rest.write, fun b hb => (rest.regs b hb).trans (one.regs b hb), rest.groups.trans one.groups,
      fun b hb => ?_, fun off => (rest.off (one.page.trans off)).trans (one.off off), fun k hk => rest.mode k ?_⟩
    · rw [← one.bytes b (fun k hk => hb k (List.mem_singleton.mp hk ▸ List.mem_cons_self))]
      exact rest.bytes b (fun k hk => hb k (List.mem_cons_of_mem a hk))
    · rcases hk with hk | hk
      · rcases List.mem_cons.mp hk with rfl | hk
        · exact .inr (one.mode k (.inl (List.mem_singleton_self k)))
        · exact .inl hk
      · exact .inr (one.mode k (.inr hk))

/-! ### A group that closes -/

/-- `r` is `s` with the STOPPED group `n` closed. -/
structure GroupClosed (n : Nat) (s r : State) : Prop where
  write : ProfileWrite s r
  regs : ∀ b, eventReg b = false → b ≠ (F.PG_GRP_CFG n).adr → b ≠ (F.PG_GRP_STATE n).adr → r.reg b = s.reg b
  en : r.gb (F.PG_GRP_CFG_EN n) = false
  state : r.g (F.PG_GRP_STATE_STATE n) = 0
  masterLost : r.g (F.PG_GRP_STATE_MASTER_LOST n) = s.g (F.PG_GRP_STATE_MASTER_LOST n)
  group : r.grp n = { s.grp n with state := 0, closing := false }
  others : ∀ k, k ≠ n → r.grp k = s.grp k
  mode : ∀ a ∈ grpMembers s n, (r.pgAx a).mode = 1
  bytes : ∀ b, (∀ a ∈ grpMembers s n, b / 8 ≠ (axisBase a + 0x1B0) / 8) → r.byte b = s.byte b
  off : s.enabled pPG = false → r.mem = s.mem

/-- `s` with the state of the STOPPED group `n` at IDLE, in its record and in PG_GRPn_STATE. -/
def groupIdle (s : State) (n : Nat) : State :=
  let r := s.onGrp n (fun g => { g with state := 0, closing := false })
  r.setReg (F.PG_GRP_STATE n).adr (setBits (r.reg (F.PG_GRP_STATE n).adr) 0 3 0)

theorem grpMembers_put (s : State) (f : Fld) (v n : Nat) : grpMembers (s.put f v) n = grpMembers s n := by
  unfold grpMembers
  rfl

theorem grpClose_eq (s : State) (n : Nat) :
    grpClose s n = groupIdle (forEach memberHeld (grpMembers s n) (s.put (F.PG_GRP_CFG_EN n) 0)) n := by
  rw [← grpMembers_put s (F.PG_GRP_CFG_EN n) 0 n]
  rfl

section Idle

variable (s : State) (n : Nat)

theorem groupIdle_write : ProfileWrite s (groupIdle s n) := (ProfileWrite.onGrp s n _).trans (.setReg _ _ _)

theorem groupIdle_mem : (groupIdle s n).mem = s.mem := rfl

theorem groupIdle_pgAx (a : Nat) : (groupIdle s n).pgAx a = s.pgAx a := rfl

theorem groupIdle_grp : (groupIdle s n).grp n = { s.grp n with state := 0, closing := false } :=
  State.onGrp_grp s n (fun g => { g with state := 0, closing := false })

theorem groupIdle_grp_other {k : Nat} (h : k ≠ n) : (groupIdle s n).grp k = s.grp k :=
  onGrp_grp_other s (fun g => { g with state := 0, closing := false }) h

theorem groupIdle_reg {b : Nat} (h : b ≠ (F.PG_GRP_STATE n).adr) : (groupIdle s n).reg b = s.reg b := State.reg_setReg_other _ _ h

theorem groupIdle_state : (groupIdle s n).reg (F.PG_GRP_STATE n).adr = setBits (s.reg (F.PG_GRP_STATE n).adr) 0 3 0 :=
  (State.reg_setReg_self _ _ _).trans (Nat.mod_eq_of_lt (setBits_lt _ _ _ _ 64 (s.reg_lt _) (by decide)))

end Idle

theorem grpClose_closes (s : State) {n : Nat} (hn : n < 32) : GroupClosed n s (grpClose s n) := by
  obtain ⟨cfgEvent, stateEvent⟩ := eventReg_pgGrp hn
  have apart : (F.PG_GRP_CFG n).adr ≠ (F.PG_GRP_STATE n).adr := by simp only [pPG]; omega
  have ctrl : (F.CTRL_ENABLE pPG).adr ≠ (F.PG_GRP_CFG n).adr := by simp only [pPG]; omega
  have held := membersHeld (grpMembers s n) (s.put (F.PG_GRP_CFG_EN n) 0)
  rw [grpClose_eq]
  generalize forEach memberHeld (grpMembers s n) (s.put (F.PG_GRP_CFG_EN n) 0) = r at held
  have stateReg : (groupIdle r n).reg (F.PG_GRP_STATE n).adr = setBits (s.reg (F.PG_GRP_STATE n).adr) 0 3 0 := by
    rw [groupIdle_state, held.regs _ stateEvent, State.reg_put_other s (F.PG_GRP_CFG_EN n) 0 apart.symm]
  have grp (k : Nat) : r.grp k = s.grp k := congrArg (Tab.look · k) held.groups
  refine ⟨?_, fun b hb h1 h2 => ?_, ?_, ?_, ?_, ?_, fun k hk => ?_, fun a ha => ?_, fun b hb => ?_, fun off => ?_⟩
  · exact ((ProfileWrite.setReg s _ _).trans held.write).trans (groupIdle_write r n)
  · rw [groupIdle_reg r n h2, held.regs b hb, State.reg_put_other s (F.PG_GRP_CFG_EN n) 0 h1]
  · have cleared := State.g_put_self s (F.PG_GRP_CFG_EN n) 0 (show 63 + 1 ≤ 64 by decide)
    unfold State.gb State.g at *
    rw [groupIdle_reg r n apart, held.regs _ cfgEvent, cleared]
    rfl
  · unfold State.g
    rw [stateReg]
    exact getBits_setBits_self _ _ _ _
  · unfold State.g
    rw [stateReg]
    exact getBits_setBits_above _ 0 3 0 (show 0 + 3 ≤ 3 by decide)
  · rw [groupIdle_grp, grp]
  · rw [groupIdle_grp_other r n hk, grp]
  · rw [groupIdle_pgAx]
    exact held.mode a (.inl ha)
  · rw [byte_congr (groupIdle_mem r n), held.bytes b hb]
    exact byte_congr (State.put_mem s _ _) b
  · rw [groupIdle_mem, held.off, State.put_mem]
    unfold State.enabled State.gb State.g at *
    rw [State.reg_put_other s (F.PG_GRP_CFG_EN n) 0 ctrl]
    exact off

end Sys2Proof
end
section
/-! GROUP_DISABLE, as a command (R173, R189, R192). -/

namespace Sys2Proof

open Sys2Proof.Machine

/-! ### The three ends of a group -/

/-- A group that is off: EN clears. -/
theorem grpDisable_idle {s : State} {n : Nat} (h : (s.grp n).state = 0) : grpDisable s n = s.put (F.PG_GRP_CFG_EN n) 0 := if_pos h

/-- A STOPPED group that is not to run again closes. -/
theorem grpDisable_stopped {s : State} {n : Nat} (h : (s.grp n).state = 3) (k : (s.grp n).restart = false) :
    grpDisable s n = grpClose s n := by
  unfold grpDisable
  simp [h, k]

/-- Any other group is asked for its stop of cause 6, and closes behind it. -/
theorem grpDisable_running {s : State} {n : Nat} (h : (s.grp n).state ≠ 0) (k : (s.grp n).state ≠ 3 ∨ (s.grp n).restart = true) :
    grpDisable s n = (grpRequest s n 6).onGrp n (fun g => { g with closing := true }) := by
  unfold grpDisable
  rw [if_neg h, if_neg]
  rcases k with k | k <;> simp [k]

/-! ### What the write of the other fields leaves -/

section Sent

variable (s : State) (n v : Nat)

theorem grpCfgSent_write : GroupWrite s (grpCfgSent s n v) := (GroupWrite.setReg s _ _).trans (.mirrorOut _ _ _)

theorem grpCfgSent_pg : (grpCfgSent s n v).pg = s.pg := by
  unfold grpCfgSent
  rw [mirrorOut_eq]
  rfl

theorem grpCfgSent_grp (k : Nat) : (grpCfgSent s n v).grp k = s.grp k := grp_congr (grpCfgSent_pg s n v) k

theorem grpCfgSent_members : grpMembers (grpCfgSent s n v) n = grpMembers s n := by
  unfold grpMembers
  rw [grpCfgSent_pg]

theorem grpCfgSent_mem : (grpCfgSent s n v).mem = s.mem := by
  unfold grpCfgSent
  rw [mirrorOut_eq]
  rfl

theorem grpCfgSent_cfg : (grpCfgSent s n v).reg (F.PG_GRP_CFG n).adr = grpCfgWritten s n v :=
  (grpCfgSent_reg s n v _).trans (grpCfgSet_cfg s n v)

theorem grpCfgSent_reg_other {b : Nat} (h : b ≠ (F.PG_GRP_CFG n).adr) : (grpCfgSent s n v).reg b = s.reg b :=
  (grpCfgSent_reg s n v b).trans (grpCfgSet_reg s n v h)

theorem grpCfgSent_enabled {p : Nat} (h : (F.CTRL_ENABLE p).adr ≠ (F.PG_GRP_CFG n).adr) :
    (grpCfgSent s n v).enabled p = s.enabled p := by
  unfold State.enabled State.gb State.g
  rw [grpCfgSent_reg_other s n v h]

end Sent

/-- A group that closes behind the write of the other fields of PG_GRPn_CFG. -/
theorem grpClose_sent (s : State) {n : Nat} (v : Nat) (hn : n < 32) : GroupClosed n s (grpClose (grpCfgSent s n v) n) := by
  have apart : (F.PG_GRP_STATE n).adr ≠ (F.PG_GRP_CFG n).adr := by simp only [pPG]; omega
  have page : (F.CTRL_ENABLE pPG).adr ≠ (F.PG_GRP_CFG n).adr := by simp only [pPG]; omega
  have mem := grpCfgSent_mem s n v
  obtain ⟨write, regs, en, state, masterLost, group, others, mode, bytes, off⟩ := grpClose_closes (grpCfgSent s n v) hn
  rw [grpCfgSent_members] at mode bytes
  refine ⟨(grpCfgSent_write s n v).profile.trans write, fun b hb h1 h2 => ?_, en, state, masterLost.trans ?_, ?_, fun k hk => ?_, mode,
    fun b hb => (bytes b hb).trans (byte_congr mem b), fun h => (off ((grpCfgSent_enabled s n v page).trans h)).trans mem⟩
  · rw [regs b hb h1 h2, grpCfgSent_reg_other s n v h1]
  · unfold State.g
    rw [grpCfgSent_reg_other s n v apart]
  · rw [group, grpCfgSent_grp]
  · rw [others k hk, grpCfgSent_grp]

/-! ### A group that does not close at once -/

/-- `r` is `s` with EN of group `n` clear where the group is off, and with its stop of cause 6 asked for where it is not. -/
structure GroupLeaving (n : Nat) (s r : State) : Prop where
  write : GroupWrite s r
  regs : ∀ b, b ≠ (F.PG_GRP_CFG n).adr → r.reg b = s.reg b
  below : ∀ lo w, lo + w ≤ 63 → getBits (r.reg (F.PG_GRP_CFG n).adr) lo w = getBits (s.reg (F.PG_GRP_CFG n).adr) lo w
  en : r.gb (F.PG_GRP_CFG_EN n) = decide ((s.grp n).state ≠ 0)
  group : r.grp n = if (s.grp n).state = 0 then s.grp n else { stopAsked (s.grp n) 6 with closing := true }
  others : ∀ k, k ≠ n → r.grp k = s.grp k

theorem put_grp (s : State) (f : Fld) (v k : Nat) : (s.put f v).grp k = s.grp k := by
  unfold State.grp
  rfl

theorem grpDisable_leaves {s : State} {n : Nat} (on : s.gb (F.PG_GRP_CFG_EN n) = true)
    (running : (s.grp n).state ≠ 3 ∨ (s.grp n).restart = true) : GroupLeaving n s (grpDisable s n) := by
  by_cases h : (s.grp n).state = 0
  · have cleared := State.g_put_self s (F.PG_GRP_CFG_EN n) 0 (show 63 + 1 ≤ 64 by decide)
    rw [grpDisable_idle h]
    refine ⟨.setReg s _ _, fun b hb => State.reg_put_other s _ 0 hb, fun lo w hw => ?_, ?_,
      (put_grp s _ 0 n).trans (if_pos h).symm, fun k _ => put_grp s _ 0 k⟩
    · exact State.g_put_beside s (F.PG_GRP_CFG_EN n) 0 (k := ⟨(F.PG_GRP_CFG n).adr, lo, w⟩)
        (show 63 + 1 ≤ 64 by decide) rfl (.inl hw)
    · rw [decide_eq_false (not_not.mpr h)]
      exact congrArg (· != 0) cleared
  · obtain ⟨write, regs⟩ := grpRequest_write s n 6
    have reg (b : Nat) : ((grpRequest s n 6).onGrp n (fun g => { g with closing := true })).reg b = s.reg b :=
      congrArg (fun m => (tget regDefault m b).toNat) regs
    rw [grpDisable_running h running]
    refine ⟨write.trans (.onGrp _ n _), fun b _ => reg b, fun lo w _ => congrArg (getBits · lo w) (reg _), ?_, ?_, fun k hk => ?_⟩
    · rw [decide_eq_true h]
      exact (congrArg (fun x => getBits x 63 1 != 0) (reg _)).trans on
    · rw [if_neg h, State.onGrp_grp, grpRequest_grp]
    · rw [onGrp_grp_other _ _ hk, grpRequest_grp_other s 6 hk]

/-! ### The command -/

section Disable

variable {t : DT} {m n : Nat} {v : Word} {s : State} (hn : n < 32) (hu : Unhindered t m s) (hs : s.standby = false)
  (hc : s.hk.corePower = true) (hr : (s.checks.look pPG).running = none) (on : s.gb (F.PG_GRP_CFG_EN n) = true)
include hn hu hs hc hr on

/-- GROUP_DISABLE of a group that is on, where no check runs, sets the other fields and takes the group off. -/
theorem exec_groupDisable : ∃ f, exec (.groupDisable t m n v) s = .next (run t s f) ∧ f (arrive t s) =
    mirrorOut (grpDisable (grpCfgSent (arrive t s) n (disableValue v.toNat)) n) ((F.PG_GRP_CFG n).adr / 8 * 8) (disableValue v.toNat) := by
  have e : exec (.groupDisable t m n v) s = .next (run t s (fun s => grpCfgWrite s m (n % 32) (disableValue v.toNat))) :=
    congrArg Host.Outcome.next (runOn_made pPG _ hu rfl hc)
  rw [Nat.mod_eq_of_lt hn] at e
  exact ⟨_, e, grpCfgWrite_disable m v.toNat hn ((arrive_checks t s).symm ▸ hr) ((arrive_standby t s).trans hs)
    ((arrive_gb t s _).trans on)⟩

/-- A STOPPED group closes: EN clears, its axes hold, a loss of its master lasts on. -/
theorem groupDisable_closes (stopped : (s.grp n).state = 3) (still : (s.grp n).restart = false) :
    ∃ u, exec (.groupDisable t m n v) s = .next u ∧ u.gb (F.PG_GRP_CFG_EN n) = false ∧ (u.grp n).state = 0 ∧
      (∀ k, k ≠ n → u.grp k = s.grp k) ∧ (∀ a ∈ grpMembers s n, (u.pgAx a).mode = 1) ∧
      (∀ b, eventReg b = false → b ≠ (F.PG_GRP_CFG n).adr → b ≠ (F.PG_GRP_STATE n).adr → u.reg b = s.reg b) ∧
      (u.grp n).lost = (s.grp n).lost ∧ u.g (F.PG_GRP_STATE_STATE n) = 0 ∧
      u.g (F.PG_GRP_STATE_MASTER_LOST n) = s.g (F.PG_GRP_STATE_MASTER_LOST n) ∧
      (s.enabled pEH = false → s.enabled pPG = false → ∀ b, u.byte b = s.byte b) ∧
      (s.enabled pEH = false → ∀ b, (∀ a ∈ grpMembers s n, b / 8 ≠ (axisBase a + 0x1B0) / 8) → u.byte b = s.byte b) ∧
      Ends { arrive t s with regs := u.regs, mem := u.mem, poison := u.poison, pg := u.pg } u := by
  obtain ⟨f, e, effect⟩ := exec_groupDisable (t := t) (v := v) hn hu hs hc hr on
  obtain ⟨cfgEvent, stateEvent⟩ := eventReg_pgGrp hn
  have sent (k : Nat) := (grpCfgSent_grp (arrive t s) n (disableValue v.toNat) k).trans (arrive_grp t s k)
  have closed := grpClose_sent (arrive t s) (disableValue v.toNat) hn
  rw [grpDisable_stopped (by rw [sent, stopped]) (by rw [sent, still])] at effect
  generalize grpClose (grpCfgSent (arrive t s) n (disableValue v.toNat)) n = r at closed effect
  obtain ⟨u, next, pg, regs, memory, ends⟩ := exec_profile e effect closed.write (Follows.mirrorOut _ _ _)
    (fun _ => by rw [mirrorOut_eq])
  have members : grpMembers (arrive t s) n = grpMembers s n := by unfold grpMembers; rw [arrive_pg]
  obtain ⟨-, closedRegs, en, state, masterLost, group, others, mode, bytes, off⟩ := closed
  rw [members] at mode bytes
  have mem (h : s.enabled pEH = false) : u.mem = r.mem := by
    have h1 : (F.CTRL_ENABLE pEH).adr ≠ (F.PG_GRP_CFG n).adr := by simp only [pPG, pEH]; omega
    have h2 : (F.CTRL_ENABLE pEH).adr ≠ (F.PG_GRP_STATE n).adr := by simp only [pPG, pEH]; omega
    refine (memory ?_).1
    unfold State.enabled State.gb State.g at *
    rw [closedRegs _ (by decide) h1 h2, arrive_reg, h]
  have field (lo w : Nat) : u.g ⟨(F.PG_GRP_STATE n).adr, lo, w⟩ = r.g ⟨(F.PG_GRP_STATE n).adr, lo, w⟩ :=
    congrArg (getBits · lo w) (regs _ stateEvent)
  refine ⟨u, next, ?_, ?_, fun k hk => ?_, fun a ha => ?_, fun b hb h1 h2 => ?_, ?_, (field 0 3).trans state, (field 3 1).trans ?_,
    fun h page b => ?_, fun h b hb => ?_, ends⟩
  · rw [← en]
    exact congrArg (fun x => getBits x 63 1 != 0) (regs _ cfgEvent)
  · rw [grp_congr pg, group]
  · rw [grp_congr pg, others k hk, arrive_grp]
  · rw [pgAx_congr pg]
    exact mode a ha
  · rw [regs b hb, closedRegs b hb h1 h2, arrive_reg]
  · rw [grp_congr pg, group, arrive_grp]
  · exact masterLost.trans (arrive_g t s _)
  · rw [byte_congr (mem h), byte_congr (off ((arrive_enabled t s pPG).trans page)), byte_congr (arrive_mem t s)]
  · rw [byte_congr (mem h), bytes b hb, byte_congr (arrive_mem t s)]

/-- Any other group: one that is off clears EN, one that runs is asked for its stop of cause 6 and closes behind it; the master
stays. -/
theorem groupDisable_leaves (running : (s.grp n).state ≠ 3 ∨ (s.grp n).restart = true) :
    ∃ u, exec (.groupDisable t m n v) s = .next u ∧ u.gb (F.PG_GRP_CFG_EN n) = decide ((s.grp n).state ≠ 0) ∧
      u.grp n = (if (s.grp n).state = 0 then s.grp n else { stopAsked (s.grp n) 6 with closing := true }) ∧
      u.g (F.PG_GRP_CFG_MASTER_AXIS n) = s.g (F.PG_GRP_CFG_MASTER_AXIS n) ∧ u.g (F.PG_GRP_CFG_MSRC n) = s.g (F.PG_GRP_CFG_MSRC n) ∧
      (∀ b, eventReg b = false → b ≠ (F.PG_GRP_CFG n).adr → u.reg b = s.reg b) ∧ (∀ k, k ≠ n → u.grp k = s.grp k) ∧
      Ends { arrive t s with regs := u.regs, pg := { s.pg with grp := u.pg.grp } } u := by
  obtain ⟨f, e, effect⟩ := exec_groupDisable (t := t) (v := v) hn hu hs hc hr on
  obtain ⟨cfgEvent, -⟩ := eventReg_pgGrp hn
  generalize disableValue v.toNat = w at effect
  have sent (k : Nat) : (grpCfgSent (arrive t s) n w).grp k = s.grp k := (grpCfgSent_grp _ n w k).trans (arrive_grp t s k)
  have on' : (arrive t s).gb (F.PG_GRP_CFG_EN n) = true := (arrive_gb t s _).trans on
  obtain ⟨write, others, below, en, group, kept⟩ := grpDisable_leaves (s := grpCfgSent (arrive t s) n w) (n := n)
    ((grpCfgSent_en _ n w).trans on') (by rwa [sent])
  obtain ⟨axis, source⟩ := grpCfgWritten_on n w on'
  rw [sent] at en group
  rw [grpCfgSent_cfg] at below
  generalize grpDisable (grpCfgSent (arrive t s) n w) n = r at *
  obtain ⟨u, next, pg, regs, ends⟩ := exec_group e effect ((grpCfgSent_write _ n w).trans write) (Follows.mirrorOut _ _ _)
  have field (lo b : Nat) : u.g ⟨(F.PG_GRP_CFG n).adr, lo, b⟩ = r.g ⟨(F.PG_GRP_CFG n).adr, lo, b⟩ :=
    congrArg (getBits · lo b) (regs _ cfgEvent)
  refine ⟨u, next, (congrArg (· != 0) (field 63 1)).trans en, (grp_congr pg n).trans group, ?_, ?_, fun b hb h => ?_, fun k hk => ?_,
    ends⟩
  · exact ((field 32 9).trans (below 32 9 (by decide))).trans (axis.trans (arrive_g t s _))
  · exact ((field 59 2).trans (below 59 2 (by decide))).trans (source.trans (arrive_g t s _))
  · rw [regs b hb, others b h, grpCfgSent_reg_other _ n w h, arrive_reg]
  · rw [grp_congr pg, kept k hk, sent]

end Disable

end Sys2Proof
end
section
/-! FOLLOWING: the following error of an axis, examined before TR (R186). -/

namespace Sys2Proof

open Sys2Proof.Machine

/-! ### The state in which the command acts -/

theorem advance_running (m : Time) (t : DT) : (m.advance t).running = m.running := by
  unfold Time.advance
  split <;> rfl

theorem advance_cycle (m : Time) (t : DT) : (m.advance t).cycle = m.cycle := by
  unfold Time.advance
  split <;> rfl

@[simp] theorem arrive_cycN (t : DT) (s : State) : (arrive t s).cycN = s.cycN := by
  unfold State.cycN
  rw [arrive_time, advance_cycle]
@[simp] theorem arrive_ax (t : DT) (s : State) (a : Nat) (f : Fld) : (arrive t s).ax a f = s.ax a f :=
  ax_congr (arrive_mem t s) (arrive_poison t s) a f
@[simp] theorem arrive_axisFaulted (t : DT) (s : State) (a : Nat) : axisFaulted (arrive t s) a = axisFaulted s a := by
  unfold axisFaulted
  rw [arrive_reg]
@[simp] theorem arrive_errCounts (t : DT) (s : State) (a : Nat) : errCounts (arrive t s) a = errCounts s a := by
  unfold errCounts State.axi
  rw [arrive_word]

/-! ### The tests of an axis -/

/-- The run of cycles at or above FE_LIMIT that an examination finds (R186). -/
def feRun (s : State) (a : Nat) : Nat :=
  if s.ax a F.PG_FOLLOW_FE_LIMIT = 0 then s.ax a F.PG_STATUS_FE_RUN
  else if errCounts s a ≥ s.ax a F.PG_FOLLOW_FE_LIMIT then min 255 (s.ax a F.PG_STATUS_FE_RUN + 1) else 0

/-- Whether an examination finds the error at the warning level (R186). -/
def feWarns (s : State) (a : Nat) : Bool :=
  if s.ax a F.PG_FOLLOW_FE_WARN = 0 then s.axb a F.PG_STATUS_FE_WARN else decide (errCounts s a ≥ s.ax a F.PG_FOLLOW_FE_WARN)

/-- `s` with the outcome of an examination in PG_STATUS. -/
def feShown (s : State) (a : Nat) : State :=
  (s.axPut a F.PG_STATUS_FE_WARN (b2n (feWarns s a))).axPut a F.PG_STATUS_FE_RUN (feRun s a)

/-- The same, with the event of a warning that begins. -/
def feNoted (s : State) (a : Nat) : State :=
  if feWarns s a && !s.axb a F.PG_STATUS_FE_WARN then raiseAxis (feShown s a) a 13 (errCounts s a) else feShown s a

theorem feTest_open {s : State} {a : Nat} (h : feOpen s a = true) : feTest s a =
    if s.ax a F.PG_FOLLOW_FE_LIMIT ≠ 0 && feRun s a ≥ max 1 (s.ax a F.PG_FOLLOW_FE_CYCLES) then faultAxis (feNoted s a) a 3
    else feNoted s a := if_pos h

theorem feShown_stores (s : State) (a : Nat) : Stores s (feShown s a) := (Stores.axPut s _ _ _).trans (.axPut _ _ _ _)

theorem feNoted_stores (s : State) (a : Nat) : Stores s (feNoted s a) := by
  unfold feNoted
  split
  · exact (feShown_stores s a).trans (.follows (Follows.raiseAxis _ _ _ _))
  · exact feShown_stores s a

/-- An enabled axis that enters the fault state, or is in it, is in it. -/
theorem faultAxis_faulted {s : State} {a : Nat} (ha : a < 512) (on : axisEnabled s a = true) (cause : Nat) :
    axisFaulted (faultAxis s a cause) a = true := by
  cases h : axisFaulted s a with
  | true =>
    have same : faultAxis s a cause = s := if_pos (by simp [h])
    rw [same, h]
  | false =>
    rw [faultAxis_on on h, axisFaulted_congr ha (Follows.raiseAxis (K := False) _ _ _ _).regs]
    exact faultShown_faulted s cause ha

/-- The examination brings the axis into the fault state where its run reaches FE_CYCLES. -/
theorem feTest_faulted {s : State} {a : Nat} (ha : a < 512) (h : feOpen s a = true) : axisFaulted (feTest s a) a = true ↔
    s.ax a F.PG_FOLLOW_FE_LIMIT ≠ 0 ∧ max 1 (s.ax a F.PG_FOLLOW_FE_CYCLES) ≤ feRun s a := by
  have regs := (feNoted_stores s a).moves.regs
  have opened := h
  unfold feOpen at opened
  simp only [Bool.and_eq_true, Bool.not_eq_true'] at opened
  obtain ⟨⟨⟨on, free⟩, -⟩, -⟩ := opened
  rw [feTest_open h]
  split
  next reached =>
    simp only [Bool.and_eq_true, decide_eq_true_eq] at reached
    exact iff_of_true (faultAxis_faulted ha ((axisEnabled_congr ha regs).trans on) 3) reached
  next short =>
    simp only [Bool.and_eq_true, decide_eq_true_eq] at short
    refine iff_of_false ?_ short
    rw [axisFaulted_congr ha regs, free]
    exact Bool.false_ne_true

/-! ### When FOLLOWING is due -/

/-- Before TR, with the page on, an enabled axis without a fault, released in the cycle and not yet examined, whose error is at or above
FE_LIMIT, brings its run of such cycles to FE_CYCLES (R186). -/
def FollowingDue (s : State) (a : Nat) : Prop :=
  s.time.running = true ∧ s.cyc.phase = 4 ∧ s.enabled pPG = true ∧ s.pg.starting = false ∧
  axisEnabled s a = true ∧ axisFaulted s a = false ∧ s.ax a F.AX_STATUS_CYCLE = s.cycN ∧ (s.pgAx a).feSeen ≠ some s.cycN ∧
  s.ax a F.PG_FOLLOW_FE_LIMIT ≠ 0 ∧ s.ax a F.PG_FOLLOW_FE_LIMIT ≤ errCounts s a ∧
  max 1 (s.ax a F.PG_FOLLOW_FE_CYCLES) ≤ min 255 (s.ax a F.PG_STATUS_FE_RUN + 1)

theorem followingDue_arrive (t : DT) (s : State) (a : Nat) : FollowingDue (arrive t s) a ↔ FollowingDue s a := by
  unfold FollowingDue
  rw [arrive_time, advance_running]
  simp only [arrive_cyc, arrive_enabled, arrive_pg, arrive_axisEnabled, arrive_axisFaulted, arrive_ax, arrive_cycN, arrive_pgAx,
    arrive_errCounts]

/-- A run of at least 1 is one that this examination has counted on. -/
theorem feRun_reaches {s : State} {a n : Nat} (h : s.ax a F.PG_FOLLOW_FE_LIMIT ≠ 0) : max 1 n ≤ feRun s a ↔
    s.ax a F.PG_FOLLOW_FE_LIMIT ≤ errCounts s a ∧ max 1 n ≤ min 255 (s.ax a F.PG_STATUS_FE_RUN + 1) := by
  unfold feRun
  rw [if_neg h]
  split <;> omega

theorem followingDue_iff {s : State} {a : Nat} (ha : a < 512) : followingDue s a = true ↔ FollowingDue s a := by
  have opened : feOpen s a = true ↔ axisEnabled s a = true ∧ axisFaulted s a = false ∧ s.ax a F.AX_STATUS_CYCLE = s.cycN ∧
      (s.pgAx a).feSeen ≠ some s.cycN := by
    unfold feOpen
    simp only [Bool.and_eq_true, Bool.not_eq_true', decide_eq_true_eq, and_assoc]
  have reached (h : feOpen s a = true) : axisFaulted (feTest s a) a = true ↔ s.ax a F.PG_FOLLOW_FE_LIMIT ≠ 0 ∧
      s.ax a F.PG_FOLLOW_FE_LIMIT ≤ errCounts s a ∧
      max 1 (s.ax a F.PG_FOLLOW_FE_CYCLES) ≤ min 255 (s.ax a F.PG_STATUS_FE_RUN + 1) :=
    (feTest_faulted ha h).trans (and_congr_right feRun_reaches)
  unfold followingDue FollowingDue
  simp only [Bool.and_eq_true, Bool.not_eq_true', decide_eq_true_eq, and_assoc]
  refine and_congr_right fun _ => and_congr_right fun _ => and_congr_right fun _ => and_congr_right fun _ => ?_
  rw [and_congr_right reached, opened]
  simp only [and_assoc]

/-! ### The command -/

theorem exec_following (t : DT) {a : Nat} (s : State) (ha : a < 512) :
    ∃ f, exec (.following t a) s = .next (run t s f) ∧ f (arrive t s) = following (arrive t s) a := by
  refine ⟨_, rfl, ?_⟩
  rw [Nat.mod_eq_of_lt ha]

/-- FOLLOWING that is not due does nothing. -/
theorem following_nothing {t : DT} {a : Nat} {s : State} (ha : a < 512) (h : ¬ FollowingDue s a) :
    Does (.following t a) s (arrive t s) := by
  obtain ⟨f, e, hf⟩ := exec_following t s ha
  exact does_nothing e (hf.trans (if_neg (fun k => h ((followingDue_arrive t s a).mp ((followingDue_iff ha).mp k)))))

section Words

variable (s : State) (a : Nat)

theorem feShown_write : ProfileWrite s (feShown s a) := (ProfileWrite.axPut s _ _ _).trans (.axPut _ _ _ _)

theorem feShown_pg : (feShown s a).pg = s.pg := by rw [(feShown_stores s a).moves.rest]

theorem feShown_run : (feShown s a).ax a F.PG_STATUS_FE_RUN = feRun s a % 2 ^ 8 := by
  unfold feShown
  rw [ax_axPut (by decide)]

theorem feShown_warn : (feShown s a).axb a F.PG_STATUS_FE_WARN = feWarns s a := by
  unfold feShown
  rw [axb_eq, ax_axPut_below (f := F.PG_STATUS_FE_RUN) (k := F.PG_STATUS_FE_WARN) (by decide) rfl (by decide), ax_axPut (by decide)]
  cases feWarns s a <;> rfl

theorem feShown_byte {b : Nat} (h : b / 8 ≠ (axisBase a + F.PG_STATUS.adr) / 8) : (feShown s a).byte b = s.byte b := by
  unfold feShown
  rw [byte_axPut _ a F.PG_STATUS_FE_RUN _ h, byte_axPut _ a F.PG_STATUS_FE_WARN _ h]

variable {s a}

/-- A fault that is shown leaves the fields of every word but AX_STATUS. -/
theorem faultShown_ax (cause : Nat) {f : Fld} (h : f.adr / 8 ≠ F.AX_STATUS.adr / 8) : (faultShown s a cause).ax a f = s.ax a f := by
  unfold faultShown
  rw [ax_axPut_other (f := F.AX_STATUS_FAULT) _ _ _ (record_apart a h), ax_axPut_other (f := F.AX_STATUS_CAUSE) _ _ _ (record_apart a h)]
  exact ax_congr rfl rfl a f

theorem faultShown_pg (cause : Nat) : (faultShown s a cause).pg = s.pg := by
  rw [faultShown_eq]
  rfl

theorem faultShown_write (cause : Nat) : ProfileWrite s (faultShown s a cause) := by
  unfold faultShown
  exact ((ProfileWrite.setReg s _ _).trans (.axPut _ _ _ _)).trans (.axPut _ _ _ _)

end Words

/-- With the warning level 0, FOLLOWING that is due shows the fault and tells it. -/
theorem following_due {s : State} {a : Nat} (ha : a < 512) (h : FollowingDue s a) (w : s.ax a F.PG_FOLLOW_FE_WARN = 0) :
    following s a = (raiseAxis (faultShown (feShown s a) a 3) a 1 3).setPg a { s.pgAx a with feSeen := some s.cycN } := by
  have due := (followingDue_iff ha).mpr h
  obtain ⟨-, -, -, -, on, free, released, unseen, limit, above, cycles⟩ := h
  have opened : feOpen s a = true := by
    unfold feOpen
    simp [on, free, released, unseen]
  have quiet : feNoted s a = feShown s a := by
    refine if_neg ?_
    unfold feWarns
    rw [if_pos w]
    simp
  have regs := (feShown_stores s a).moves.regs
  have test : feTest s a = raiseAxis (faultShown (feShown s a) a 3) a 1 3 := by
    rw [feTest_open opened, if_pos (by simpa [limit] using (feRun_reaches limit).mpr ⟨above, cycles⟩), quiet]
    exact faultAxis_on ((axisEnabled_congr ha regs).trans on) ((axisFaulted_congr ha regs).trans free) 3
  have pg : (feTest s a).pg = s.pg := by
    rw [test, (Follows.raiseAxis (K := False) (faultShown (feShown s a) a 3) a 1 3).rest]
    exact (faultShown_pg 3).trans (feShown_pg s a)
  have own : (feTest s a).pgAx a = s.pgAx a := pgAx_congr pg a
  unfold following
  rw [if_pos due]
  dsimp only
  rw [own, test]

/-- `r` is `s` with the fault of axis `a` shown, and in PG_STATUS the run counted on and the warning as it stood. -/
structure FollowingShown (a : Nat) (s r : State) : Prop where
  write : ProfileWrite s r
  pg : r.pg = s.pg
  hub : r.enabled pEH = s.enabled pEH
  regs : ∀ b, eventReg b = false → b ≠ (F.LE_FAULTMAP (a / 64)).adr → r.reg b = s.reg b
  bytes : ∀ b, b / 8 ≠ (axisBase a + F.AX_STATUS.adr) / 8 → b / 8 ≠ (axisBase a + F.PG_STATUS.adr) / 8 → r.byte b = s.byte b
  faulted : axisFaulted r a = true
  cause : r.ax a F.AX_STATUS_CAUSE = 3
  fault : r.axb a F.AX_STATUS_FAULT = true
  run : r.ax a F.PG_STATUS_FE_RUN = min 255 (s.ax a F.PG_STATUS_FE_RUN + 1)
  warn : r.axb a F.PG_STATUS_FE_WARN = s.axb a F.PG_STATUS_FE_WARN

theorem followingShown {s : State} {a : Nat} (ha : a < 512) (h : FollowingDue s a) (w : s.ax a F.PG_FOLLOW_FE_WARN = 0) :
    FollowingShown a s (faultShown (feShown s a) a 3) := by
  obtain ⟨-, -, -, -, -, -, -, -, limit, above, -⟩ := h
  have stores := feShown_stores s a
  have run : feRun s a = min 255 (s.ax a F.PG_STATUS_FE_RUN + 1) := by
    unfold feRun
    rw [if_neg limit, if_pos above]
  have warn : feWarns s a = s.axb a F.PG_STATUS_FE_WARN := if_pos w
  refine ⟨(feShown_write s a).trans (faultShown_write 3), (faultShown_pg 3).trans (feShown_pg s a),
    (faultShown_hub _ 3 ha).trans stores.hub,
    fun b hb hne => (faultShown_reg _ 3 hb hne).trans (stores.moves.regs b hb),
    fun b h1 h2 => (faultShown_byte _ 3 h1).trans (feShown_byte s a h2), faultShown_faulted _ 3 ha, faultShown_cause _ 3,
    faultShown_fault _ 3, ?_, ?_⟩
  · rw [faultShown_ax (f := F.PG_STATUS_FE_RUN) 3 (by decide), feShown_run, run]
    exact Nat.mod_eq_of_lt (by omega)
  · rw [axb_eq, faultShown_ax (f := F.PG_STATUS_FE_WARN) 3 (by decide), ← axb_eq, feShown_warn, warn]

/-- FOLLOWING that is due puts its axis into the fault state with cause 3. -/
theorem following_faults {t : DT} {a : Nat} {s : State} (ha : a < 512) (h : FollowingDue s a) (w : s.ax a F.PG_FOLLOW_FE_WARN = 0)
    (hub : s.enabled pEH = false) :
    ∃ u, exec (.following t a) s = .next u ∧ axisFaulted u a = true ∧ u.ax a F.AX_STATUS_CAUSE = 3 ∧
      u.axb a F.AX_STATUS_FAULT = true ∧ u.ax a F.PG_STATUS_FE_RUN = min 255 (s.ax a F.PG_STATUS_FE_RUN + 1) ∧
      u.axb a F.PG_STATUS_FE_WARN = s.axb a F.PG_STATUS_FE_WARN ∧ u.pgAx a = { s.pgAx a with feSeen := some s.cycN } ∧
      (∀ k, k ≠ a → u.pgAx k = s.pgAx k) ∧
      (∀ b, eventReg b = false → b ≠ (F.LE_FAULTMAP (a / 64)).adr → u.reg b = s.reg b) ∧
      (∀ b, b / 8 ≠ (axisBase a + F.AX_STATUS.adr) / 8 → b / 8 ≠ (axisBase a + F.PG_STATUS.adr) / 8 → u.byte b = s.byte b) ∧
      Ends { arrive t s with regs := u.regs, mem := u.mem, poison := u.poison, pg := { s.pg with ax := u.pg.ax } } u := by
  obtain ⟨f, e, effect⟩ := exec_following t s ha
  have due := (followingDue_arrive t s a).mpr h
  have level : (arrive t s).ax a F.PG_FOLLOW_FE_WARN = 0 := (arrive_ax t s a _).trans w
  have shown := followingShown ha due level
  rw [following_due ha due level, arrive_pgAx, arrive_cycN] at effect
  generalize faultShown (feShown (arrive t s) a) a 3 = r at shown effect
  obtain ⟨write, pg, same, shownRegs, bytes, faulted, cause, fault, run, warn⟩ := shown
  rw [arrive_enabled, hub] at same
  rw [arrive_pg] at pg
  obtain ⟨u, next, marked, regs, memory, ends⟩ := exec_profile e effect
    (write.trans (.setPg r a { s.pgAx a with feSeen := some s.cycN })) ((Follows.raiseAxis r a 1 3).setPg a _)
    (fun _ => (raiseAxis_disabled same a 1 3).2)
  obtain ⟨mem, poison⟩ : u.mem = r.mem ∧ u.poison = r.poison := memory same
  have axis (k : Nat) : u.pgAx k = (r.setPg a { s.pgAx a with feSeen := some s.cycN }).pgAx k := pgAx_congr marked k
  have groups : u.pg = { s.pg with ax := u.pg.ax } := by
    rw [marked, ← pg]
    rfl
  rw [groups] at ends
  refine ⟨u, next, (axisFaulted_congr ha regs).trans faulted, (ax_congr mem poison a _).trans cause,
    (axb_congr mem poison a _).trans fault, (ax_congr mem poison a _).trans (run.trans ?_),
    (axb_congr mem poison a _).trans (warn.trans (arrive_axb t s a _)), (axis a).trans (State.setPg_pgAx r a _), fun k hk => ?_,
    fun b hb hne => (regs b hb).trans ((shownRegs b hb hne).trans (arrive_reg t s b)), fun b h1 h2 => ?_, ends⟩
  · rw [arrive_ax]
  · exact (axis k).trans ((setPg_pgAx_other r _ hk).trans (pgAx_congr pg k))
  · rw [byte_congr mem, bytes b h1 h2, byte_congr (arrive_mem t s)]

/-! ### The obligation -/

/-- Settles O47: GROUP_ENABLE as an action with a check, GROUP_DISABLE as one without, by the state of the group, PG_GROUP_STOP by
what is asked of each group, and FOLLOWING by whether it is due. -/
theorem gearGroupsStopAndAxesAreFollowed : Obligations.GearGroupsStopAndAxesAreFollowed := by
  intro t m n a v s hn ha asks e x due
  exact ⟨fun hu hs hc hr => ⟨fun off => exec_groupEnable hn hu hs hc hr off,
      fun on stopped still => groupDisable_closes hn hu hs hc hr on stopped still,
      fun on running => groupDisable_leaves hn hu hs hc hr on running⟩,
    fun hu hs hc => exec_pgGroupStop hu hs hc, fun h => following_nothing ha h, fun h w hub => following_faults ha h w hub⟩

end Sys2Proof
end
section
/-! Rules about a field port: what is read of it on arrival, its registers and its own state after a write, the frames it sends
(R198, R199, R212). -/

namespace Sys2Proof

open Sys2Proof.Machine

/-! ### The state in which a command acts -/

theorem port_congr {r s : State} (h : r.fp = s.fp) (p : Nat) : r.port p = s.port p := congrArg (fun m : Tab FpSt => m.look p) h

@[simp] theorem arrive_port (t : DT) (s : State) (p : Nat) : (arrive t s).port p = s.port p := port_congr (arrive_fp t s) p
@[simp] theorem arrive_segState (t : DT) (s : State) (p : Nat) : segState (arrive t s) p = segState s p := arrive_g t s _
@[simp] theorem arrive_scheduled (t : DT) (s : State) (p : Nat) : scheduled (arrive t s) p = scheduled s p := by
  unfold scheduled
  rw [arrive_segState]
@[simp] theorem arrive_numberedNodes (t : DT) (s : State) (p : Nat) : numberedNodes (arrive t s) p = numberedNodes s p := by
  unfold numberedNodes
  simp only [arrive_gb]

/-- Whether the unit is active depends on its role and on the cycle. -/
theorem active_congr {r s : State} (role : r.tw.role = s.tw.role) (recovering : r.tw.recovering = s.tw.recovering)
    (first : r.tw.firstCycle = s.tw.firstCycle) (takeover : r.tw.takeover = s.tw.takeover) (cycle : r.time.cycle = s.time.cycle) :
    r.active = s.active := by
  unfold State.active
  rw [role, recovering, first, takeover, cycle]

@[simp] theorem arrive_active (t : DT) (s : State) : (arrive t s).active = s.active := by
  refine active_congr ?_ ?_ ?_ ?_ ((congrArg Time.cycle (arrive_time t s)).trans (advance_cycle _ _)) <;> rw [arrive_tw]

theorem Follows.active {K : Prop} {s u : State} (h : Follows K s u) : u.active = s.active := by
  have time : u.time = s.time := by rw [h.rest]
  refine active_congr ?_ ?_ ?_ ?_ (congrArg Time.cycle time) <;> rw [h.tw]

theorem Follows.dt {K : Prop} {s u : State} (h : Follows K s u) : u.dt = s.dt := by rw [h.rest]; rfl
theorem Follows.refused {K : Prop} {s u : State} (h : Follows K s u) : u.tw.refused = s.tw.refused := by rw [h.tw]
theorem Follows.fp {K : Prop} {s u : State} (h : Follows K s u) : u.fp = s.fp := by rw [h.rest]

/-! ### Registers of a port's page -/

theorem reg_congr {r s : State} (h : r.regs = s.regs) (b : Nat) : r.reg b = s.reg b := by
  unfold State.reg
  rw [h]


/-- No register of a port's page is one that an event changes. -/
theorem eventReg_port {p o : Nat} (hp : p < 8) (ho : o < 0x1000) : eventReg (pFP p + o) = false := by
  simp only [eventReg, hubReg, startReg, pMEM, pEH, pXU, pHK, pFP]
  simp
  omega

/-- A field of a port's page is not changed by what may follow from a command. -/
theorem Follows.port_g {K : Prop} {s u : State} (h : Follows K s u) {p o l w : Nat} (hp : p < 8) (ho : o < 0x1000) :
    u.g ⟨pFP p + o, l, w⟩ = s.g ⟨pFP p + o, l, w⟩ := congrArg (fun x => getBits x l w) (h.regs _ (eventReg_port hp ho))

theorem reg_setReg (s : State) (a v b : Nat) : (s.setReg a v).reg b = if b = a then v % 2 ^ 64 else s.reg b := by
  split
  next h => rw [h, State.reg_setReg_self]
  next h => exact State.reg_setReg_other s v h

/-- The fields of one register, each a run of its bits: the field that is put reads as what was put, the others as before. -/
theorem g_put_field (s : State) {a l w v : Nat} (h : l + w ≤ 64) : (s.put ⟨a, l, w⟩ v).g ⟨a, l, w⟩ = v % 2 ^ w :=
  State.g_put_self s ⟨a, l, w⟩ v h

theorem g_put_apart (s : State) {a l w k n v : Nat} (h : l + w ≤ 64) (d : k + n ≤ l ∨ l + w ≤ k) :
    (s.put ⟨a, l, w⟩ v).g ⟨a, k, n⟩ = s.g ⟨a, k, n⟩ := State.g_put_beside s ⟨a, l, w⟩ v (k := ⟨a, k, n⟩) h rfl d

theorem g_put_elsewhere (s : State) {a b l w k n v : Nat} (h : b ≠ a) : (s.put ⟨a, l, w⟩ v).g ⟨b, k, n⟩ = s.g ⟨b, k, n⟩ :=
  State.g_put_other s ⟨a, l, w⟩ v (k := ⟨b, k, n⟩) h

theorem reg_put_elsewhere (s : State) {a b l w v : Nat} (h : b ≠ a) : (s.put ⟨a, l, w⟩ v).reg b = s.reg b :=
  State.reg_put_other s ⟨a, l, w⟩ v h

/-! ### Writes of a port -/

/-- `r` is `s` with registers and the own state of the field ports changed. -/
def PortWrite (s r : State) : Prop := r = { s with regs := r.regs, fp := r.fp }

theorem PortWrite.refl (s : State) : PortWrite s s := rfl

theorem PortWrite.trans {s r u : State} (h : PortWrite s r) (k : PortWrite r u) : PortWrite s u := by
  unfold PortWrite at *
  rw [k, h]

theorem PortWrite.setReg {s r : State} (h : PortWrite s r) (a v : Nat) : PortWrite s (r.setReg a v) := h.trans rfl
theorem PortWrite.put {s r : State} (h : PortWrite s r) (f : Fld) (v : Nat) : PortWrite s (r.put f v) := h.trans rfl
theorem PortWrite.onPort {s r : State} (h : PortWrite s r) (p : Nat) (f : FpSt → FpSt) : PortWrite s (r.onPort p f) := h.trans rfl

theorem PortWrite.forEach {α : Type} {f : α → State → State} (hf : ∀ a s, PortWrite s (f a s)) (l : List α) :
    ∀ s, PortWrite s (forEach f l s) := by
  induction l with
  | nil => exact PortWrite.refl
  | cons a l ih => exact fun s => (hf a s).trans (ih _)

theorem PortWrite.dt {s r : State} (h : PortWrite s r) : r.dt = s.dt := by rw [h]; rfl
theorem PortWrite.tw {s r : State} (h : PortWrite s r) : r.tw = s.tw := by rw [h]

theorem PortWrite.contained {t : DT} {s v r : State} (k : PortWrite v r) (h : Contained t s v) : Contained t s r where
  time := by rw [k]; exact h.time
  pending := by rw [k]; exact h.pending
  devNow := by rw [k]; exact h.devNow
  queues := by rw [k]; exact h.queues
  answered n hn := h.answered n (by rw [k] at hn; exact hn)

/-- The frame of a command that ends in `u`, said without registers and the field ports. -/
theorem PortWrite.ends {v r u : State} (h : PortWrite v r) (k : Ends r u) : Ends { v with regs := u.regs, fp := u.fp } u := by
  have whole : ({ r with regs := u.regs } : State) = { v with regs := u.regs, fp := u.fp } := by
    rw [k.fp]
    conv => lhs; rw [h]
  exact whole ▸ k.withRegs

@[simp] theorem put_port (s : State) (f : Fld) (v p : Nat) : (s.put f v).port p = s.port p := port_congr rfl p

@[simp] theorem onPort_reg (s : State) (p : Nat) (f : FpSt → FpSt) (b : Nat) : (s.onPort p f).reg b = s.reg b := reg_congr rfl b
@[simp] theorem onPort_g (s : State) (p : Nat) (f : FpSt → FpSt) (k : Fld) : (s.onPort p f).g k = s.g k :=
  congrArg (fun w => getBits w k.lo k.w) (onPort_reg s p f k.adr)

theorem onPort_onPort (s : State) (p : Nat) (f g : FpSt → FpSt) : (s.onPort p f).onPort p g = s.onPort p (fun q => g (f q)) := by
  unfold State.onPort State.port
  rw [set_set, look_set_self]

/-! ### Frames sent -/

/-- A frame that leaves is beside what may follow from any command. -/
theorem Follows.sendFrame {K : Prop} (s : State) (p type e : Nat) (tx : DT) (payload : List Nat) :
    Follows K s (Machine.sendFrame s p type e tx payload) := by
  unfold Machine.sendFrame
  exact Follows.ite (Follows.refl s) (Follows.sent s (List.prefix_append _ _))

theorem sendFrame_sent {s : State} (h : s.tw.refused = false) (p type e : Nat) (tx : DT) (payload : List Nat) :
    ∃ f, Out.frame p f ∈ (sendFrame s p type e tx payload).out :=
  ⟨headFrame s p type e tx payload, by simp [sendFrame, h]⟩

theorem sendFrame_reg (s : State) (p type e : Nat) (tx : DT) (payload : List Nat) (b : Nat) :
    (sendFrame s p type e tx payload).reg b = s.reg b := by
  unfold sendFrame
  split <;> rfl

/-! ### The form of a result -/

/-- What a command leaves of the registers, of the field ports and of what its effect has sent. -/
theorem exec_port {c : Instr} {t : DT} {s v : State} {f : State → State} (e : exec c s = .next (run t s f))
    (h : f (arrive t s) = v) (k : Contained t s v) :
    ∃ u, exec c s = .next u ∧ (∀ p, u.port p = v.port p) ∧ (∀ b, eventReg b = false → u.reg b = v.reg b) ∧
      (∀ o ∈ v.out, o ∈ u.out) ∧ Ends v u := by
  have ends := run_ends_of_effect h k
  exact ⟨_, e, fun p => port_congr ends.fp p, fun b hb => ends.reg hb, fun o ho => ends.out.subset ho, ends⟩

/-- The same of a command whose effect is a write of the ports and what may follow from it. -/
theorem exec_portWrite {c : Instr} {t : DT} {s r v : State} {f : State → State} (e : exec c s = .next (run t s f))
    (h : f (arrive t s) = v) (k : PortWrite (arrive t s) r) (l : Follows False r v) :
    ∃ u, exec c s = .next u ∧ (∀ p, u.port p = r.port p) ∧ (∀ b, eventReg b = false → u.reg b = r.reg b) ∧
      (∀ o ∈ v.out, o ∈ u.out) ∧ Ends r u := by
  obtain ⟨u, next, ports, regs, out, ends⟩ := exec_port e h ((k.contained (.arrive t s)).follows l)
  exact ⟨u, next, fun p => (ports p).trans (port_congr l.fp p), fun b hb => (regs b hb).trans (l.regs b hb), out, ends.of l⟩

end Sys2Proof
end
section
/-! An ANNOUNCE that reaches a standby which is taking over (R212, R401, R402, R457): the counterexample to O48. -/

namespace Sys2Proof

open Sys2Proof.Machine

/-! ### The receive tests -/

/-- Frame `h` passes the receive tests of port `p` (R198). -/
structure FramePasses (s : State) (p : Nat) (h : FrameHdr) : Prop where
  on : s.enabled (pFP p) = true
  room : h.full = false
  fcs : h.fcsOk = true
  least : 64 ≤ h.size
  most : h.size ≤ 4096
  etherType : h.etherType = s.g (F.FP_LINKCFG_ETHERTYPE p)
  untagged : h.tagged = false
  version : h.version = 1
  segment : h.seg = p
  known : 1 ≤ h.type ∧ h.type ≤ 6
  length : h.size = max 64 (34 + h.length)

/-- `s` with one more frame counted as received at port `p`. -/
def frameCounted (s : State) (p : Nat) : State := s.onPort p (fun q => { q with rx := q.rx + 1 })

theorem fpReceive_passes {s : State} {p : Nat} {h : FrameHdr} (k : FramePasses s p h) :
    fpReceive s p h = (true, frameCounted s p) := by
  obtain ⟨on, room, fcs, least, most, etherType, untagged, version, segment, ⟨low, high⟩, length⟩ := k
  have whole : (!h.fcsOk || decide (h.size < 64) || decide (h.size > 4096)) = false := by simp [fcs, least, most]
  have sound : ¬ (h.version ≠ 1 ∨ h.seg ≠ p ∨ h.type = 0 ∨ h.type > 6 ∨ h.size ≠ max 64 (34 + h.length)) := by omega
  have ours : h.etherType = (s.onPort p (fun q => { q with rx := q.rx + 1 })).g (F.FP_LINKCFG_ETHERTYPE p) := etherType
  unfold fpReceive portOn
  simp only [on, room, whole, untagged, ← ours]
  simpa [frameCounted, and_assoc] using sound

theorem FramePasses.arrive {s : State} {p : Nat} {h : FrameHdr} (k : FramePasses s p h) (t : DT) : FramePasses (arrive t s) p h where
  on := (arrive_enabled t s _).trans k.on
  etherType := k.etherType.trans (arrive_g t s _).symm
  __ := k

/-! ### The ANNOUNCE of a node at a standby -/

/-- Before a schedule is committed, a standby takes the ANNOUNCE of a node for the delay at end B, whatever search it runs. -/
theorem announceReceived_standby {s : State} {p : Nat} {h : FrameHdr} (k : FramePasses s p h) (standby : s.standby = true)
    (src : h.src < 32) (idle : scheduled s p = false) (b : AnnounceBody) :
    announceReceived s p h b = announceAtEndB (passFrame (frameCounted s p) p) p h := by
  have node : (decide (h.src = 0xFF) && !fromFarHead (frameCounted s p) p h) = false := by
    simp [show h.src ≠ 0xFF by omega]
  have copies : ((frameCounted s p).standby && decide (h.src < 32) && !scheduled (frameCounted s p) p) = true := by
    have same : (frameCounted s p).standby = true ∧ scheduled (frameCounted s p) p = false := ⟨standby, idle⟩
    simp [same, src]
  unfold announceReceived
  rw [fpReceive_passes k]
  simp only [node, copies]
  rfl

theorem exec_announceReceived (t : DT) {p : Nat} (h : FrameHdr) (b : AnnounceBody) (s : State) (hp : p < 8) :
    ∃ f, exec (.announceReceived t p h b) s = .next (run t s f) ∧ f (arrive t s) = announceReceived (arrive t s) p h b :=
  ⟨_, rfl, if_pos hp⟩

theorem announceAtEndB_write (s : State) (p : Nat) (h : FrameHdr) : PortWrite s (announceAtEndB s p h) := by
  unfold announceAtEndB
  dsimp only
  split
  · exact (PortWrite.refl s).onPort _ _
  · exact ((PortWrite.refl s).onPort _ _).put _ _

/-- The delay at end B leaves the search of the port as it is. -/
theorem announceAtEndB_disc (s : State) (p : Nat) (h : FrameHdr) : ((announceAtEndB s p h).port p).disc = (s.port p).disc := by
  have node (f : FpNode → FpNode) : ((s.onNode p h.src f).port p).disc = (s.port p).disc := by
    unfold State.onNode
    rw [State.onPort_port]
  unfold announceAtEndB
  dsimp only
  split
  · exact node _
  · rw [put_port]
    exact node _

/-- The ANNOUNCE of a node leaves the search of a standby as it is. -/
theorem announceReceived_keeps_search {t : DT} {p : Nat} {h : FrameHdr} {s : State} (hp : p < 8) (k : FramePasses s p h)
    (standby : s.standby = true) (src : h.src < 32) (idle : scheduled s p = false) (b : AnnounceBody) :
    ∃ u, exec (.announceReceived t p h b) s = .next u ∧ (u.port p).disc = (s.port p).disc := by
  have effect := announceReceived_standby (k.arrive t) ((arrive_standby t s).trans standby) src ((arrive_scheduled t s p).trans idle) b
  have write : PortWrite (arrive t s) (announceAtEndB (passFrame (frameCounted (arrive t s) p) p) p h) :=
    (((PortWrite.refl _).onPort _ _).onPort _ _).trans (announceAtEndB_write _ p h)
  obtain ⟨f, e, announced⟩ := exec_announceReceived t h b s hp
  obtain ⟨u, next, port, -⟩ := exec_port e (announced.trans effect) (write.contained (.arrive t s))
  refine ⟨u, next, ?_⟩
  rw [port, announceAtEndB_disc]
  unfold passFrame frameCounted
  rw [onPort_onPort, State.onPort_port, arrive_port]

/-! ### The counterexample -/

/-- The search for node 0, its first DISCOVER sent. -/
def firstSearch : FpDisc := { (default : FpDisc) with tries := 1 }

/-- The machine after reset with port 0 enabled, in the role STANDBY and taking over: the takeover stands, the cycle is the first that the
unit computes, and it searches on segment 0. The unit is active from that cycle on, while its role becomes ACTIVE at the next T0 only
(R402). -/
def takingOver : State :=
  let s := (State.reset.put (F.CTRL_ENABLE (pFP 0)) 1).put (F.FP_STATE_SEG_STATE 0) 1
  { s.onPort 0 (fun q => { q with disc := some firstSearch }) with tw := { s.tw with role := 4, takeover := 1 } }

/-- The ANNOUNCE by which node 0 would answer that DISCOVER: its header. -/
def nodeAnnounce : FrameHdr :=
  { (default : FrameHdr) with fcsOk := true, size := 64, etherType := takingOver.g (F.FP_LINKCFG_ETHERTYPE 0), version := 1, type := 5 }

theorem takingOver_active : takingOver.active = true ∧ takingOver.standby = true := by decide +kernel

theorem takingOver_searches : segState takingOver 0 = 1 ∧ scheduled takingOver 0 = false ∧
    (takingOver.port 0).disc = some firstSearch := by decide +kernel

theorem nodeAnnounce_passes : FramePasses takingOver 0 nodeAnnounce :=
  ⟨by decide +kernel, rfl, rfl, by decide, by decide, rfl, rfl, rfl, rfl, by decide, by decide⟩

/-- The unit notes the ANNOUNCE for the delay at end B and goes on awaiting it: its search has not moved. -/
theorem takingOver_keeps_search :
    ∃ u, exec (.announceReceived 0 0 nodeAnnounce default) takingOver = .next u ∧ (u.port 0).disc = some firstSearch := by
  obtain ⟨-, idle, search⟩ := takingOver_searches
  obtain ⟨u, next, kept⟩ := announceReceived_keeps_search (t := 0) (by decide) nodeAnnounce_passes takingOver_active.2 (by decide) idle
    default
  exact ⟨u, next, kept.trans search⟩

/-- Refutes O48, in its part `FramesOfDiscoveryAndTheFarHeadAreTaken`: the clause on an ANNOUNCE that answers the search of the active
leaves out the premise that the unit is no standby. A standby that takes over is both from the first cycle that it computes to the next
T0, and of a node's ANNOUNCE it takes the delay at end B, as the clause behind it says; the search does not go on to measure the node. -/
theorem not_framesMeetTheReceiveTestsAndTheGuardian : ¬ Obligations.FramesMeetTheReceiveTestsAndTheGuardian := by
  rintro ⟨-, taken⟩
  obtain ⟨on, room, fcs, least, most, etherType, untagged, version, segment, ⟨low, high⟩, length⟩ := nodeAnnounce_passes
  obtain ⟨searching, -, search⟩ := takingOver_searches
  obtain ⟨-, -, -, -, numbers, -⟩ := taken 0 0 nodeAnnounce takingOver (by decide) on room fcs least most etherType untagged version
    segment low high length
  obtain ⟨u, hu, -, -, -, -, -, measuring, -⟩ := numbers default firstSearch (by decide) takingOver_active.1 searching search rfl
    (by decide) rfl rfl
  obtain ⟨v, hv, kept⟩ := takingOver_keeps_search
  rw [hu] at hv
  cases hv
  rw [measuring] at kept
  exact absurd (congrArg FpDisc.phase (Option.some.inj kept)) (by decide)

end Sys2Proof
end
section
/-! The search of a segment: what begins it, what it sends, how it ends (R212 to R214). -/

namespace Sys2Proof

open Sys2Proof.Machine

/-! ### A DISCOVER of the search -/

theorem discSend_follows {K : Prop} (s : State) (p : Nat) (d : FpDisc) (target mode : Nat) :
    Follows K (setDisc s p (some { d with tx := egressStamp s p })) (discSend s p d target mode) := Follows.sendFrame _ _ _ _ _ _

theorem discSend_port (s : State) (p : Nat) (d : FpDisc) (target mode : Nat) :
    (discSend s p d target mode).port p = { s.port p with disc := some { d with tx := egressStamp s p } } :=
  (port_congr (discSend_follows (K := False) s p d target mode).fp p).trans (State.onPort_port s p _)

theorem discSend_discAtUp (s : State) (p : Nat) (d : FpDisc) (target mode : Nat) :
    ((discSend s p d target mode).port p).discAtUp = (s.port p).discAtUp := by rw [discSend_port]

theorem discSend_reg (s : State) (p : Nat) (d : FpDisc) (target mode b : Nat) : (discSend s p d target mode).reg b = s.reg b :=
  sendFrame_reg _ _ _ _ _ _ b

theorem discSend_sent {s : State} (h : s.tw.refused = false) (p : Nat) (d : FpDisc) (target mode : Nat) :
    ∃ f, Out.frame p f ∈ (discSend s p d target mode).out :=
  sendFrame_sent (s := setDisc s p (some { d with tx := egressStamp s p })) h _ _ _ _ _

theorem discSend_contained {t : DT} {s r : State} (h : Contained t s r) (p : Nat) (d : FpDisc) (target mode : Nat) :
    Contained t s (discSend r p d target mode) :=
  (((PortWrite.refl r).onPort p _).contained h).follows (discSend_follows (K := False) r p d target mode)

/-- The egress stamp of a port depends on the time and on its correction. -/
theorem egressStamp_congr {r s : State} {p : Nat} (dt : r.dt = s.dt) (h : r.reg (F.TU_TSCORR p).adr = s.reg (F.TU_TSCORR p).adr) :
    egressStamp r p = egressStamp s p := by
  have egress : r.g (F.TU_TSCORR_EGRESS p) = s.g (F.TU_TSCORR_EGRESS p) := congrArg (fun w => getBits w 32 32) h
  unfold egressStamp
  rw [dt, egress]

/-! ### The words of a node are cleared -/

/-- The four words of node `j` at port `p`. -/
def nodeWords (p j : Nat) : List Nat :=
  [(F.FP_NODE_MAC p j).adr, (F.FP_NODE_CAP p j).adr, (F.FP_NODE_DELAY p j).adr, (F.FP_NODE_STATE p j).adr]

theorem clearNode_eq (s : State) (p j : Nat) : clearNode s p j =
    (forEach (fun a s => s.setReg a 0) (nodeWords p j) s).onPort p (fun q => { q with nodes := q.nodes.set j default }) := rfl

theorem clearNode_write (s : State) (p j : Nat) : PortWrite s (clearNode s p j) := by
  rw [clearNode_eq]
  exact (PortWrite.forEach (fun a s => (PortWrite.refl s).setReg a 0) _ s).onPort _ _

theorem forEach_setReg_zero_port (p : Nat) (l : List Nat) :
    ∀ s : State, (forEach (fun a s => s.setReg a 0) l s).port p = s.port p := by
  induction l with
  | nil => exact fun _ => rfl
  | cons a l ih => exact fun s => (ih _).trans (port_congr rfl p)

theorem clearNode_port (s : State) (p j : Nat) : (clearNode s p j).port p =
    { s.port p with nodes := (s.port p).nodes.set j default } := by
  rw [clearNode_eq, State.onPort_port, forEach_setReg_zero_port]

theorem forEach_setReg_zero (b : Nat) (l : List Nat) :
    ∀ s : State, (forEach (fun a s => s.setReg a 0) l s).reg b = if b ∈ l then 0 else s.reg b := by
  induction l with
  | nil => exact fun s => by simp [forEach]
  | cons a l ih =>
    intro s
    rw [forEach, ih, reg_setReg, Nat.zero_mod]
    by_cases h : b ∈ l
    · rw [if_pos h, if_pos (List.mem_cons_of_mem _ h)]
    · rw [if_neg h]
      simp only [List.mem_cons, h, or_false]

/-- Clearing node `j` sets its four words to 0 and leaves every other register. -/
theorem clearNode_reg (s : State) (p j b : Nat) : (clearNode s p j).reg b = if b ∈ nodeWords p j then 0 else s.reg b := by
  rw [clearNode_eq, onPort_reg, forEach_setReg_zero]

/-- `r` is `s` with what port `p` holds of the nodes `l` cleared. -/
structure NodesCleared (p : Nat) (l : List Nat) (s r : State) : Prop where
  write : PortWrite s r
  port : ∃ nodes, r.port p = { s.port p with nodes }
  regs : ∀ b, b < pFP p + 0x800 ∨ pFP p + 0xC00 ≤ b → r.reg b = s.reg b
  zero : ∀ j, j ∈ l ∨ s.reg (F.FP_NODE_STATE p j).adr = 0 → r.reg (F.FP_NODE_STATE p j).adr = 0

theorem NodesCleared.clearNode (s : State) (p : Nat) {j : Nat} (hj : j < 32) : NodesCleared p [j] s (Machine.clearNode s p j) where
  write := clearNode_write s p j
  port := ⟨_, clearNode_port s p j⟩
  regs b hb := by
    rw [clearNode_reg, if_neg]
    simp only [nodeWords, List.mem_cons, List.not_mem_nil, or_false]
    omega
  zero k hk := by
    rw [clearNode_reg]
    split
    · rfl
    · refine hk.resolve_left (fun h => ?_)
      simp_all [nodeWords]

theorem nodesCleared (p : Nat) (l : List Nat) :
    (∀ j ∈ l, j < 32) → ∀ s, NodesCleared p l s (forEach (fun j s => clearNode s p j) l s) := by
  induction l with
  | nil => exact fun _ s => ⟨.refl s, ⟨_, rfl⟩, fun _ _ => rfl, fun j h => h.resolve_left List.not_mem_nil⟩
  | cons j l ih =>
    intro hl s
    have one := NodesCleared.clearNode s p (hl j List.mem_cons_self)
    have rest := ih (fun k hk => hl k (List.mem_cons_of_mem j hk)) (clearNode s p j)
    obtain ⟨_, onePort⟩ := one.port
    obtain ⟨nodes, restPort⟩ := rest.port
    refine ⟨one.write.trans rest.write, ⟨nodes, restPort.trans (by rw [onePort])⟩, fun b hb => (rest.regs b hb).trans (one.regs b hb),
      fun k hk => rest.zero k ?_⟩
    by_cases here : k ∈ l
    · exact .inl here
    · exact .inr (one.zero k (hk.imp_left (fun h => by simpa [here] using h)))

/-- Clearing the numbers of a segment: what its port holds of the nodes, and NODES. -/
theorem clearNodes_cleared (s : State) (p : Nat) :
    ∃ r, NodesCleared p (List.range 32) s r ∧ clearNodes s p = r.put (F.FP_STATE_NODES p) 0 :=
  ⟨_, nodesCleared p (List.range 32) (fun _ h => List.mem_range.mp h) s, rfl⟩

/-! ### Where a discovery begins -/

/-- The port of `s` with the words of a discovery that begins, its first DISCOVER not yet sent. -/
def discBegun (s : State) (p : Nat) : State :=
  let s := clearNodes s p
  let s := (((s.put (F.FP_STATE_SEG_STATE p) 1).put (F.FP_STATE_OVERFULL p) 0).put (F.FP_STATE_ALONE p) 0)
  let s := (s.put (F.FP_STATE_TOPO p) 0).put (F.FP_STATE_END p) 0
  let s := (s.put (F.FP_STATE_BREAK_HI p) 0xFF).put (F.FP_STATE_BREAK_LO p) 0xFF
  let s := (s.put (F.FP_STATE_BROKEN p) 0).put (F.FP_RING_RING_DELAY p) 0
  s.onPort p (fun q => { q with discAtUp := false, fell := false })

theorem discStart_eq (s : State) (p : Nat) : discStart s p = discSend (discBegun s p) p { (default : FpDisc) with tries := 1 } 0 0 := rfl

theorem discBegun_write (s : State) (p : Nat) : PortWrite s (discBegun s p) := by
  obtain ⟨r, cleared, e⟩ := clearNodes_cleared s p
  unfold discBegun
  rw [e]
  refine PortWrite.onPort ?_ _ _
  repeat refine PortWrite.put ?_ _ _
  exact cleared.write

theorem discBegun_status (s : State) (p : Nat) : segState (discBegun s p) p = 1 ∧ (discBegun s p).g (F.FP_STATE_NODES p) = 0 ∧
    (discBegun s p).g (F.FP_STATE_TOPO p) = 0 ∧ (discBegun s p).g (F.FP_STATE_LINK_UP p) = s.g (F.FP_STATE_LINK_UP p) := by
  obtain ⟨r, cleared, e⟩ := clearNodes_cleared s p
  have up : r.g (F.FP_STATE_LINK_UP p) = s.g (F.FP_STATE_LINK_UP p) :=
    congrArg (fun w => getBits w 0 1) (cleared.regs _ (by dsimp only; omega))
  unfold discBegun segState
  rw [e, ← up]
  dsimp only
  simp (disch := omega) only [g_put_apart, g_put_field, g_put_elsewhere, onPort_g]
  decide

/-- A discovery that begins writes no register outside the page of its port. -/
theorem discBegun_reg (s : State) {p b : Nat} (h : b < pFP p ∨ pFP p + 0x1000 ≤ b) : (discBegun s p).reg b = s.reg b := by
  obtain ⟨r, cleared, e⟩ := clearNodes_cleared s p
  unfold discBegun
  rw [e, ← cleared.regs b (by omega)]
  dsimp only
  simp (disch := omega) only [reg_put_elsewhere, onPort_reg]

theorem discBegun_discAtUp (s : State) (p : Nat) : ((discBegun s p).port p).discAtUp = false := by
  unfold discBegun
  rw [State.onPort_port]

end Sys2Proof
end
section
/-! LINK_UP and LINK_DOWN (R213). -/

namespace Sys2Proof

open Sys2Proof.Machine

/-! ### The link is shown -/

/-- `s` with LINK_UP of port `p` as `v`, and `event` of the port raised. -/
def linkShown (s : State) (p v event : Nat) : State := raisePage (s.put (F.FP_STATE_LINK_UP p) v) (pFP p) event 0

section Shown

variable (s : State) (p v event : Nat)

theorem linkShown_follows {K : Prop} : Follows K (s.put (F.FP_STATE_LINK_UP p) v) (linkShown s p v event) := Follows.raisePage _ _ _ _

theorem linkShown_contained {t : DT} {r : State} (h : Contained t r s) : Contained t r (linkShown s p v event) :=
  (((PortWrite.refl s).put _ _).contained h).follows (linkShown_follows (K := False) s p v event)

theorem linkShown_port (q : Nat) : (linkShown s p v event).port q = s.port q :=
  (port_congr (linkShown_follows (K := False) s p v event).fp q).trans (put_port s _ _ q)

theorem linkShown_active : (linkShown s p v event).active = s.active := (linkShown_follows (K := False) s p v event).active

variable {p}

theorem linkShown_link (hp : p < 8) : (linkShown s p v event).g (F.FP_STATE_LINK_UP p) = v % 2 :=
  ((linkShown_follows (K := False) s p v event).port_g hp (by decide)).trans (g_put_field s (by decide))

theorem linkShown_segState (hp : p < 8) : segState (linkShown s p v event) p = segState s p :=
  ((linkShown_follows (K := False) s p v event).port_g hp (by decide)).trans (g_put_apart s (by decide) (by decide))

theorem linkShown_reg {b : Nat} (h : eventReg b = false) (d : b ≠ pFP p + 0x10) : (linkShown s p v event).reg b = s.reg b :=
  ((linkShown_follows (K := False) s p v event).regs b h).trans (reg_put_elsewhere s d)

theorem linkShown_gb (hp : p < 8) {o l w : Nat} (h : o < 0x1000) (d : o ≠ 0x10) :
    (linkShown s p v event).gb ⟨pFP p + o, l, w⟩ = s.gb ⟨pFP p + o, l, w⟩ :=
  congrArg (fun x => getBits x l w != 0) (linkShown_reg (b := pFP p + o) s v event (eventReg_port hp h) (by omega))

end Shown

/-! ### A link comes up -/

/-- A discovery begins when the link comes up: one that AUTO brings on an idle segment or that a START has asked for, on an enabled port
of the active (R212, R213). -/
def StartsAtLinkUp (s : State) (p : Nat) : Prop :=
  ((segState s p = 0 ∧ s.gb (F.FP_DISC_AUTO p) = true) ∨ (scheduled s p = false ∧ (s.port p).discAtUp = true)) ∧
    s.enabled (pFP p) = true ∧ s.active = true

theorem startsAtLinkUp_arrive (t : DT) (s : State) (p : Nat) : StartsAtLinkUp (arrive t s) p ↔ StartsAtLinkUp s p := by
  unfold StartsAtLinkUp
  simp only [arrive_segState, arrive_gb, arrive_scheduled, arrive_port, arrive_enabled, arrive_active]

/-- What begins a discovery is not changed by the link being shown. -/
theorem startsAtLinkUp_linkShown {p : Nat} (hp : p < 8) (s : State) (v event : Nat) :
    StartsAtLinkUp (linkShown s p v event) p ↔ StartsAtLinkUp s p := by
  have auto := linkShown_gb s v event hp (o := 0x98) (l := 0) (w := 1) (by decide) (by decide)
  have on := linkShown_gb s v event hp (o := 0x8) (l := 0) (w := 1) (by decide) (by decide)
  unfold StartsAtLinkUp scheduled State.enabled
  rw [linkShown_segState s v event hp, auto, linkShown_port, on, linkShown_active]

theorem linkUp_up {s : State} {p : Nat} (up : s.gb (F.FP_STATE_LINK_UP p) = true) : linkUp s p = s := if_pos up

theorem linkUp_down {s : State} {p : Nat} (hp : p < 8) (down : s.gb (F.FP_STATE_LINK_UP p) = false) :
    (StartsAtLinkUp s p → linkUp s p = discStart (linkShown s p 1 1) p) ∧
    (¬ StartsAtLinkUp s p → linkUp s p = linkShown s p 1 1) := by
  have whole : linkUp s p = (fun r : State =>
      if ((r.gb (F.FP_DISC_AUTO p) && segState r p = 0) || ((r.port p).discAtUp && !scheduled r p)) && portOn r p && r.active
      then discStart r p else r) (linkShown s p 1 1) := if_neg (by rw [down]; exact Bool.false_ne_true)
  rw [whole, ← startsAtLinkUp_linkShown hp s 1 1]
  generalize linkShown s p 1 1 = r
  have starts : (((r.gb (F.FP_DISC_AUTO p) && segState r p = 0) || ((r.port p).discAtUp && !scheduled r p)) && portOn r p && r.active) =
      true ↔ StartsAtLinkUp r p := by
    unfold StartsAtLinkUp portOn
    simp only [Bool.and_eq_true, Bool.or_eq_true, decide_eq_true_eq, Bool.not_eq_true']
    tauto
  exact ⟨fun h => if_pos (starts.mpr h), fun h => if_neg (mt starts.mp h)⟩

theorem exec_linkUp (t : DT) {p : Nat} (s : State) (hp : p < 8) :
    ∃ f, exec (.linkUp t p) s = .next (run t s f) ∧ f (arrive t s) = linkUp (arrive t s) p := ⟨_, rfl, if_pos hp⟩

theorem linkUp_nothing {t : DT} {p : Nat} {s : State} (hp : p < 8) (up : s.gb (F.FP_STATE_LINK_UP p) = true) :
    Does (.linkUp t p) s (arrive t s) := by
  obtain ⟨f, e, effect⟩ := exec_linkUp t s hp
  exact does_nothing e (effect.trans (linkUp_up ((arrive_gb t s _).trans up)))

/-- Where no discovery begins, LINK_UP is shown. -/
theorem linkUp_shows {t : DT} {p : Nat} {s : State} (hp : p < 8) (down : s.gb (F.FP_STATE_LINK_UP p) = false)
    (idle : ¬ StartsAtLinkUp s p) : Does (.linkUp t p) s ((arrive t s).put (F.FP_STATE_LINK_UP p) 1) := by
  obtain ⟨f, e, effect⟩ := exec_linkUp t s hp
  have shown := (linkUp_down hp ((arrive_gb t s _).trans down)).2 (mt (startsAtLinkUp_arrive t s p).mp idle)
  exact does_of_follows e (effect.trans shown) (((PortWrite.refl _).put _ _).contained (.arrive t s)) (linkShown_follows _ p 1 1)

/-- A discovery that begins at link-up has sent its first DISCOVER (R212). -/
theorem linkUp_discovers {t : DT} {p : Nat} {s : State} (hp : p < 8) (down : s.gb (F.FP_STATE_LINK_UP p) = false)
    (starts : StartsAtLinkUp s p) : ∃ u, exec (.linkUp t p) s = .next u ∧ u.g (F.FP_STATE_LINK_UP p) = 1 ∧ segState u p = 1 ∧
      u.g (F.FP_STATE_NODES p) = 0 ∧ u.g (F.FP_STATE_TOPO p) = 0 ∧ (u.port p).discAtUp = false ∧
      (u.port p).disc = some { (default : FpDisc) with tries := 1, tx := egressStamp (arrive t s) p } ∧
      (s.tw.refused = false → ∃ f, Out.frame p f ∈ u.out) := by
  obtain ⟨f, e, effect⟩ := exec_linkUp t s hp
  have begun := effect.trans ((linkUp_down hp ((arrive_gb t s _).trans down)).1 ((startsAtLinkUp_arrive t s p).mpr starts))
  have follows := linkShown_follows (K := False) (arrive t s) p 1 1
  have link := linkShown_link (arrive t s) 1 1 hp
  have contained := linkShown_contained (arrive t s) p 1 1 (.arrive t s)
  have correction : (linkShown (arrive t s) p 1 1).reg (F.TU_TSCORR p).adr = (arrive t s).reg (F.TU_TSCORR p).adr :=
    linkShown_reg (b := (F.TU_TSCORR p).adr) _ 1 1 (eventReg_tscorr (by omega)) (by simp only [pFP, pTU]; omega)
  generalize linkShown (arrive t s) p 1 1 = r at *
  have write := discBegun_write r p
  have stamp : egressStamp (discBegun r p) p = egressStamp (arrive t s) p := by
    refine egressStamp_congr (write.dt.trans follows.dt) ((discBegun_reg r ?_).trans correction)
    simp only [pFP, pTU]
    omega
  have twin : (discBegun r p).tw.refused = s.tw.refused :=
    (congrArg TwSt.refused write.tw).trans (follows.refused.trans (congrArg TwSt.refused (arrive_tw t s)))
  rw [discStart_eq] at begun
  obtain ⟨u, next, port, regs, out, -⟩ := exec_port e begun (discSend_contained (write.contained contained) p _ 0 0)
  have status (l w : Nat) : u.g ⟨pFP p + 0x10, l, w⟩ = (discBegun r p).g ⟨pFP p + 0x10, l, w⟩ :=
    congrArg (fun x => getBits x l w) ((regs _ (eventReg_port hp (by decide))).trans (discSend_reg _ p _ 0 0 _))
  obtain ⟨seg, nodes, topo, up⟩ := discBegun_status r p
  refine ⟨u, next, (status 0 1).trans (up.trans link), (status 8 3).trans seg, (status 32 6).trans nodes, (status 12 3).trans topo,
    ?_, ?_, fun h => ?_⟩
  · rw [port, discSend_discAtUp, discBegun_discAtUp]
  · rw [port, discSend_port, stamp]
  · obtain ⟨g, sent⟩ := discSend_sent (twin.trans h) p { (default : FpDisc) with tries := 1 } 0 0
    exact ⟨g, out _ sent⟩

/-! ### A link goes down -/

theorem searchEnd_write (s : State) (p : Nat) : PortWrite s (searchEnd s p) := by
  obtain ⟨r, cleared, e⟩ := clearNodes_cleared (setDisc s p none) p
  unfold searchEnd
  rw [e]
  repeat refine PortWrite.put ?_ _ _
  exact ((PortWrite.refl s).onPort _ _).trans cleared.write

/-- A search that is given up leaves the segment idle, without numbers (R213). -/
theorem searchEnd_idle (s : State) (p : Nat) : segState (searchEnd s p) p = 0 ∧ (searchEnd s p).g (F.FP_STATE_ALONE p) = 0 ∧
    (searchEnd s p).g (F.FP_STATE_TOPO p) = 0 ∧ (searchEnd s p).g (F.FP_STATE_LINK_UP p) = s.g (F.FP_STATE_LINK_UP p) ∧
    ((searchEnd s p).port p).disc = none ∧ ∀ j < 32, (searchEnd s p).g (F.FP_NODE_STATE_NUMBERED p j) = 0 := by
  obtain ⟨r, cleared, e⟩ := clearNodes_cleared (setDisc s p none) p
  obtain ⟨nodes, port⟩ := cleared.port
  have up : r.g (F.FP_STATE_LINK_UP p) = s.g (F.FP_STATE_LINK_UP p) :=
    congrArg (fun w => getBits w 0 1) ((cleared.regs _ (by dsimp only; omega)).trans (onPort_reg s p _ _))
  have disc : (r.port p).disc = none := by
    rw [port]
    exact congrArg FpSt.disc (State.onPort_port s p _)
  have numbered (j : Nat) (hj : j < 32) : r.g (F.FP_NODE_STATE_NUMBERED p j) = 0 :=
    congrArg (fun w => getBits w 2 1) (cleared.zero j (.inl (List.mem_range.mpr hj)))
  unfold searchEnd segState
  rw [e, ← up]
  dsimp only
  simp (disch := omega) only [g_put_apart, g_put_field, g_put_elsewhere, put_port]
  exact ⟨by decide, by decide, by decide, trivial, disc, numbered⟩

theorem linkDown_down {s : State} {p : Nat} (down : s.gb (F.FP_STATE_LINK_UP p) = false) : linkDown s p = s :=
  if_pos (by rw [down]; rfl)

theorem linkDown_up {s : State} {p : Nat} (hp : p < 8) (up : s.gb (F.FP_STATE_LINK_UP p) = true) :
    (segState s p = 1 ∨ segState s p = 2 → linkDown s p = searchEnd (linkShown s p 0 2) p) ∧
    (¬ (segState s p = 1 ∨ segState s p = 2) → linkDown s p = linkShown s p 0 2) := by
  have whole : linkDown s p = (fun r : State => if segState r p = 1 || segState r p = 2 then searchEnd r p else r) (linkShown s p 0 2) :=
    if_neg (by rw [up]; exact Bool.false_ne_true)
  rw [whole, ← linkShown_segState s 0 2 hp]
  generalize linkShown s p 0 2 = r
  have searches : (segState r p = 1 || segState r p = 2) = true ↔ segState r p = 1 ∨ segState r p = 2 := by
    simp only [Bool.or_eq_true, decide_eq_true_eq]
  exact ⟨fun h => if_pos (searches.mpr h), fun h => if_neg (mt searches.mp h)⟩

theorem exec_linkDown (t : DT) {p : Nat} (s : State) (hp : p < 8) :
    ∃ f, exec (.linkDown t p) s = .next (run t s f) ∧ f (arrive t s) = linkDown (arrive t s) p := ⟨_, rfl, if_pos hp⟩

theorem linkDown_nothing {t : DT} {p : Nat} {s : State} (hp : p < 8) (down : s.gb (F.FP_STATE_LINK_UP p) = false) :
    Does (.linkDown t p) s (arrive t s) := by
  obtain ⟨f, e, effect⟩ := exec_linkDown t s hp
  exact does_nothing e (effect.trans (linkDown_down ((arrive_gb t s _).trans down)))

/-- Where no search is under way, LINK_UP is cleared. -/
theorem linkDown_shows {t : DT} {p : Nat} {s : State} (hp : p < 8) (up : s.gb (F.FP_STATE_LINK_UP p) = true)
    (idle : ¬ (segState s p = 1 ∨ segState s p = 2)) : Does (.linkDown t p) s ((arrive t s).put (F.FP_STATE_LINK_UP p) 0) := by
  obtain ⟨f, e, effect⟩ := exec_linkDown t s hp
  rw [← arrive_segState t s p] at idle
  have shown := (linkDown_up hp ((arrive_gb t s _).trans up)).2 idle
  exact does_of_follows e (effect.trans shown) (((PortWrite.refl _).put _ _).contained (.arrive t s)) (linkShown_follows _ p 0 2)

/-- A discovery, or the search of an ALONE segment, ends with the link. -/
theorem linkDown_ends_search {t : DT} {p : Nat} {s : State} (hp : p < 8) (up : s.gb (F.FP_STATE_LINK_UP p) = true)
    (searching : segState s p = 1 ∨ segState s p = 2) : ∃ u, exec (.linkDown t p) s = .next u ∧
      u.g (F.FP_STATE_LINK_UP p) = 0 ∧ segState u p = 0 ∧ u.g (F.FP_STATE_ALONE p) = 0 ∧ u.g (F.FP_STATE_TOPO p) = 0 ∧
      (u.port p).disc = none ∧ ∀ j < 32, u.g (F.FP_NODE_STATE_NUMBERED p j) = 0 := by
  obtain ⟨f, e, effect⟩ := exec_linkDown t s hp
  rw [← arrive_segState t s p] at searching
  have ended := effect.trans ((linkDown_up hp ((arrive_gb t s _).trans up)).1 searching)
  have link := linkShown_link (arrive t s) 0 2 hp
  have contained := linkShown_contained (arrive t s) p 0 2 (.arrive t s)
  generalize linkShown (arrive t s) p 0 2 = r at *
  obtain ⟨u, next, port, regs, -⟩ := exec_port e ended ((searchEnd_write r p).contained contained)
  have field (o l w : Nat) (h : o < 0x1000) : u.g ⟨pFP p + o, l, w⟩ = (searchEnd r p).g ⟨pFP p + o, l, w⟩ :=
    congrArg (fun x => getBits x l w) (regs _ (eventReg_port hp h))
  obtain ⟨seg, alone, topo, shown, disc, numbered⟩ := searchEnd_idle r p
  refine ⟨u, next, (field 0x10 0 1 (by decide)).trans (shown.trans link), (field 0x10 8 3 (by decide)).trans seg,
    (field 0x10 1 1 (by decide)).trans alone, (field 0x10 12 3 (by decide)).trans topo, ?_, fun j hj => ?_⟩
  · rw [port, disc]
  · have place : (F.FP_NODE_STATE_NUMBERED p j).adr = pFP p + (0x818 + 0x20 * j) := Nat.add_assoc _ _ _
    have word := regs (F.FP_NODE_STATE_NUMBERED p j).adr (by rw [place]; exact eventReg_port hp (by omega))
    exact (congrArg (fun x => getBits x 2 1) word).trans (numbered j hj)

end Sys2Proof
end
section
/-! DISCOVER_TIMEOUT and ALONE_DISCOVER (R212, R214). -/

namespace Sys2Proof

open Sys2Proof.Machine

/-! ### The wait for an ANNOUNCE -/

theorem discTimeout_idle {s : State} {p : Nat} (h : s.active = false ∨ (s.port p).disc = none) : discTimeout s p = s := by
  unfold discTimeout
  rcases h with off | off
  · rw [off]
    rfl
  · rw [off]
    exact ite_self s

/-- What 100 µs without an ANNOUNCE make of a search that awaits the answer to a numbering or a probe (R212). -/
theorem discTimeout_search {s : State} {p : Nat} {x : FpDisc} (active : s.active = true) (search : (s.port p).disc = some x) :
    (dtDiff s.dt x.tx < 100000 * 65536 → discTimeout s p = s) ∧
    (100000 * 65536 ≤ dtDiff s.dt x.tx → x.phase = 0 → x.tries < 3 → discTimeout s p =
      discSend s p { x with tries := x.tries + 1 } (if x.k < 32 then x.k else 0xFF) (if x.k < 32 then 0 else 3)) ∧
    (100000 * 65536 ≤ dtDiff s.dt x.tx → x.phase = 0 → 3 ≤ x.tries → discTimeout s p = discStop s p false) := by
  have wait : ((nsUnits 100000 : Nat) : Int) = 100000 * 65536 := rfl
  unfold discTimeout
  rw [if_neg (by rw [active]; decide), search]
  dsimp only
  rw [wait]
  refine ⟨fun early => if_pos early, fun late numbering tries => ?_, fun late numbering tries => ?_⟩
  · rw [if_neg (not_lt.mpr late), if_pos numbering, if_pos tries]
  · rw [if_neg (not_lt.mpr late), if_pos numbering, if_neg (not_lt.mpr tries)]

/-- `s` with the search of segment `p` over: no far head was found (R212). -/
def searchOver (s : State) (p : Nat) : State :=
  ((setDisc s p none).put (F.FP_STATE_NODES p) (numberedNodes s p).length).put (F.FP_STATE_TOPO p) 1

/-- `s` with segment `p` ALONE from now on (R214). -/
def aloneShown (s : State) (p : Nat) : State :=
  let s := (s.put (F.FP_STATE_SEG_STATE p) 2).put (F.FP_STATE_ALONE p) 1
  s.onPort p (fun q => { q with beacon := some s.dt })

/-- `s` with its search ended without a far head: ALONE where no node was numbered, and otherwise READY. -/
def searchStopped (s : State) (p : Nat) : State :=
  if numberedNodes s p = [] then aloneShown (searchOver s p) p else (searchOver s p).put (F.FP_STATE_SEG_STATE p) 3

theorem discStop_eq (s : State) (p : Nat) :
    discStop s p false = raisePage (searchStopped s p) (pFP p) (if numberedNodes s p = [] then 4 else 3) 0 := by
  have whole : discStop s p false = (fun r : State => if (numberedNodes s p).length = 0 then raisePage (aloneShown r p) (pFP p) 4 0
      else raisePage (r.put (F.FP_STATE_SEG_STATE p) 3) (pFP p) 3 0) (searchOver s p) := rfl
  rw [whole]
  unfold searchStopped
  generalize searchOver s p = r
  by_cases h : numberedNodes s p = []
  · rw [if_pos h, if_pos h]
    exact if_pos (List.length_eq_zero_iff.mpr h)
  · rw [if_neg h, if_neg h]
    exact if_neg (mt List.length_eq_zero_iff.mp h)

theorem searchOver_write (s : State) (p : Nat) : PortWrite s (searchOver s p) := (((PortWrite.refl s).onPort _ _).put _ _).put _ _

theorem aloneShown_write (s : State) (p : Nat) : PortWrite s (aloneShown s p) := by
  unfold aloneShown
  exact (((PortWrite.refl s).put _ _).put _ _).onPort _ _

theorem searchStopped_write (s : State) (p : Nat) : PortWrite s (searchStopped s p) := by
  unfold searchStopped
  split
  · exact (searchOver_write s p).trans (aloneShown_write _ p)
  · exact (searchOver_write s p).put _ _

theorem searchStopped_reg (s : State) {p b : Nat} (h : b ≠ pFP p + 0x10) : (searchStopped s p).reg b = s.reg b := by
  have cleared : (searchOver s p).reg b = s.reg b := by
    unfold searchOver setDisc
    rw [reg_put_elsewhere _ h, reg_put_elsewhere _ h, onPort_reg]
  unfold searchStopped
  split
  · unfold aloneShown
    rw [onPort_reg, reg_put_elsewhere _ h, reg_put_elsewhere _ h, cleared]
  · rw [reg_put_elsewhere _ h, cleared]

theorem searchOver_disc (s : State) (p : Nat) : ((searchOver s p).port p).disc = none := by
  unfold searchOver setDisc
  rw [put_port, put_port, State.onPort_port]

theorem searchOver_topo (s : State) (p : Nat) : (searchOver s p).g (F.FP_STATE_TOPO p) = 1 := g_put_field _ (by decide)

theorem aloneShown_port (s : State) (p : Nat) : (aloneShown s p).port p = { s.port p with beacon := some s.dt } := by
  have dt : ((s.put (F.FP_STATE_SEG_STATE p) 2).put (F.FP_STATE_ALONE p) 1).dt = s.dt :=
    (((PortWrite.refl s).put _ _).put _ _).dt
  unfold aloneShown
  rw [State.onPort_port, dt, put_port, put_port]

theorem aloneShown_status (s : State) (p : Nat) : segState (aloneShown s p) p = 2 ∧ (aloneShown s p).g (F.FP_STATE_ALONE p) = 1 ∧
    (aloneShown s p).g (F.FP_STATE_TOPO p) = s.g (F.FP_STATE_TOPO p) := by
  unfold aloneShown segState
  dsimp only
  simp (disch := omega) only [onPort_g, g_put_apart, g_put_field]
  decide

theorem searchStopped_status (s : State) (p : Nat) : ((searchStopped s p).port p).disc = none ∧
    segState (searchStopped s p) p = (if numberedNodes s p = [] then 2 else 3) ∧ (searchStopped s p).g (F.FP_STATE_TOPO p) = 1 ∧
    (numberedNodes s p = [] → (searchStopped s p).g (F.FP_STATE_ALONE p) = 1 ∧ ((searchStopped s p).port p).beacon = some s.dt) := by
  have disc := searchOver_disc s p
  have topo := searchOver_topo s p
  have dt := (searchOver_write s p).dt
  unfold searchStopped
  generalize searchOver s p = r at *
  by_cases h : numberedNodes s p = []
  · obtain ⟨seg, alone, kept⟩ := aloneShown_status r p
    rw [if_pos h, if_pos h, aloneShown_port, kept]
    exact ⟨disc, seg, topo, fun _ => ⟨alone, congrArg some dt⟩⟩
  · rw [if_neg h, if_neg h, put_port]
    exact ⟨disc, g_put_field r (by decide), (g_put_apart r (by decide) (by decide)).trans topo, fun k => absurd k h⟩

/-! ### DISCOVER_TIMEOUT -/

theorem exec_discoverTimeout (t : DT) {p : Nat} (s : State) (hp : p < 8) :
    ∃ f, exec (.discoverTimeout t p) s = .next (run t s f) ∧ f (arrive t s) = discTimeout (arrive t s) p := ⟨_, rfl, if_pos hp⟩

theorem discoverTimeout_idle {t : DT} {p : Nat} {s : State} (hp : p < 8) (h : s.active = false ∨ (s.port p).disc = none) :
    Does (.discoverTimeout t p) s (arrive t s) := by
  obtain ⟨f, e, effect⟩ := exec_discoverTimeout t s hp
  rw [← arrive_active t s, ← arrive_port t s] at h
  exact does_nothing e (effect.trans (discTimeout_idle h))

section Searching

variable {t : DT} {p : Nat} {s : State} {x : FpDisc} (hp : p < 8) (active : s.active = true) (search : (s.port p).disc = some x)
include hp active search

theorem discoverTimeout_early (early : ((s.time.advance t).dt - x.tx).toInt < 100000 * 65536) :
    Does (.discoverTimeout t p) s (arrive t s) := by
  obtain ⟨f, e, effect⟩ := exec_discoverTimeout t s hp
  rw [← arrive_dt] at early
  rw [← arrive_active t s] at active
  rw [← arrive_port t s] at search
  exact does_nothing e (effect.trans ((discTimeout_search active search).1 early))

variable (late : 100000 * 65536 ≤ ((s.time.advance t).dt - x.tx).toInt) (numbering : x.phase = 0)
include late numbering

/-- A DISCOVER without its ANNOUNCE is sent again, up to three times in all. -/
theorem discoverTimeout_repeats (tries : x.tries < 3) : ∃ u, exec (.discoverTimeout t p) s = .next u ∧
    (u.port p).disc = some { x with tries := x.tries + 1, tx := egressStamp (arrive t s) p } ∧
    (s.tw.refused = false → ∃ f, Out.frame p f ∈ u.out) ∧
    (∀ b, eventReg b = false → u.reg b = s.reg b) ∧ Ends { arrive t s with fp := u.fp } u := by
  obtain ⟨f, e, effect⟩ := exec_discoverTimeout t s hp
  rw [← arrive_dt] at late
  rw [← arrive_active t s] at active
  rw [← arrive_port t s] at search
  have again := effect.trans ((discTimeout_search active search).2.1 late numbering tries)
  obtain ⟨u, next, port, regs, out, ends⟩ := exec_portWrite e again ((PortWrite.refl _).onPort _ _) (discSend_follows _ p _ _ _)
  have frame : Ends { arrive t s with fp := u.fp } u := by
    rw [ends.fp]
    exact ends
  refine ⟨u, next, ?_, fun h => ?_, fun b hb => (regs b hb).trans ((onPort_reg _ _ _ b).trans (arrive_reg t s b)), frame⟩
  · rw [port]
    exact congrArg FpSt.disc (State.onPort_port (arrive t s) p _)
  · obtain ⟨g, sent⟩ := discSend_sent ((congrArg TwSt.refused (arrive_tw t s)).trans h) p { x with tries := x.tries + 1 }
      (if x.k < 32 then x.k else 0xFF) (if x.k < 32 then 0 else 3)
    exact ⟨g, out _ sent⟩

/-- Behind the third the search ends. -/
theorem discoverTimeout_ends (tries : 3 ≤ x.tries) : ∃ u, exec (.discoverTimeout t p) s = .next u ∧
    (u.port p).disc = none ∧ segState u p = (if numberedNodes s p = [] then 2 else 3) ∧ u.g (F.FP_STATE_TOPO p) = 1 ∧
    (numberedNodes s p = [] → u.g (F.FP_STATE_ALONE p) = 1 ∧ (u.port p).beacon = some (s.time.advance t).dt) ∧
    (∀ b, eventReg b = false ∧ b ≠ (F.FP_STATE_LINK_UP p).adr → u.reg b = s.reg b) ∧
    Ends { arrive t s with regs := u.regs, fp := u.fp } u := by
  obtain ⟨f, e, effect⟩ := exec_discoverTimeout t s hp
  rw [← arrive_dt] at late
  rw [← arrive_active t s] at active
  rw [← arrive_port t s] at search
  have ended := effect.trans (((discTimeout_search active search).2.2 late numbering tries).trans (discStop_eq _ p))
  have write := searchStopped_write (arrive t s) p
  obtain ⟨u, next, port, regs, -, ends⟩ := exec_portWrite e ended write (Follows.raisePage _ _ _ _)
  have status (l w : Nat) : u.g ⟨pFP p + 0x10, l, w⟩ = (searchStopped (arrive t s) p).g ⟨pFP p + 0x10, l, w⟩ :=
    congrArg (fun v => getBits v l w) (regs _ (eventReg_port hp (by decide)))
  obtain ⟨disc, seg, topo, alone⟩ := searchStopped_status (arrive t s) p
  rw [arrive_numberedNodes] at seg alone
  rw [arrive_dt] at alone
  refine ⟨u, next, by rw [port, disc], (status 8 3).trans seg, (status 12 3).trans topo, fun h => ?_, fun b hb => ?_, write.ends ends⟩
  · obtain ⟨shown, beacon⟩ := alone h
    exact ⟨(status 1 1).trans shown, by rw [port, beacon]⟩
  · obtain ⟨quiet, apart⟩ := hb
    rw [regs b quiet, searchStopped_reg _ apart, arrive_reg]

end Searching

/-! ### ALONE_DISCOVER -/

/-- The DISCOVER of an ALONE segment is due: 1 ms has passed since the last (R214). -/
def AloneDue (s : State) (d : DT) (p : Nat) : Prop :=
  s.active = true ∧ segState s p = 2 ∧ s.gb (F.FP_STATE_LINK_UP p) = true ∧ s.enabled (pFP p) = true ∧
    ∀ b, (s.port p).beacon = some b → 1000000 * 65536 ≤ (d - b).toInt

theorem aloneDue_arrive (t : DT) (s : State) (d : DT) (p : Nat) : AloneDue (arrive t s) d p ↔ AloneDue s d p := by
  unfold AloneDue
  simp only [arrive_active, arrive_segState, arrive_gb, arrive_enabled, arrive_port]

theorem aloneDiscover_eq (s : State) (p : Nat) : (AloneDue s s.dt p → aloneDiscover s p =
      sendDiscover (s.onPort p (fun q => { q with beacon := some s.dt })) p 0 0) ∧
    (¬ AloneDue s s.dt p → aloneDiscover s p = s) := by
  have due : (s.active && segState s p = 2 && s.gb (F.FP_STATE_LINK_UP p) && portOn s p &&
      (match (s.port p).beacon with
       | some b => decide (dtDiff s.dt b ≥ (nsUnits 1000000 : Int))
       | none => true)) = true ↔ AloneDue s s.dt p := by
    unfold AloneDue portOn
    simp only [Bool.and_eq_true, decide_eq_true_eq, and_assoc]
    refine and_congr_right fun _ => and_congr_right fun _ => and_congr_right fun _ => and_congr_right fun _ => ?_
    cases (s.port p).beacon with
    | none => simp
    | some b => simp [dtDiff, nsUnits]
  exact ⟨fun h => if_pos (due.mpr h), fun h => if_neg (mt due.mp h)⟩

theorem exec_aloneDiscover (t : DT) {p : Nat} (s : State) (hp : p < 8) :
    ∃ f, exec (.aloneDiscover t p) s = .next (run t s f) ∧ f (arrive t s) = aloneDiscover (arrive t s) p := ⟨_, rfl, if_pos hp⟩

theorem aloneDiscover_nothing {t : DT} {p : Nat} {s : State} (hp : p < 8) (h : ¬ AloneDue s (s.time.advance t).dt p) :
    Does (.aloneDiscover t p) s (arrive t s) := by
  obtain ⟨f, e, effect⟩ := exec_aloneDiscover t s hp
  rw [← aloneDue_arrive t, ← arrive_dt] at h
  exact does_nothing e (effect.trans ((aloneDiscover_eq (arrive t s) p).2 h))

theorem aloneDiscover_sends {t : DT} {p : Nat} {s : State} (hp : p < 8) (h : AloneDue s (s.time.advance t).dt p) :
    ∃ u, exec (.aloneDiscover t p) s = .next u ∧ (s.tw.refused = false → ∃ f, Out.frame p f ∈ u.out) ∧
      Ends ((arrive t s).onPort p (fun q => { q with beacon := some (s.time.advance t).dt })) u := by
  obtain ⟨f, e, effect⟩ := exec_aloneDiscover t s hp
  rw [← aloneDue_arrive t, ← arrive_dt] at h
  rw [← arrive_dt]
  have sends := effect.trans ((aloneDiscover_eq (arrive t s) p).1 h)
  obtain ⟨u, next, -, -, out, ends⟩ := exec_portWrite e sends ((PortWrite.refl _).onPort _ _) (Follows.sendFrame _ _ _ _ _ _)
  refine ⟨u, next, fun allowed => ?_, ends⟩
  have refused := (congrArg TwSt.refused (arrive_tw t s)).trans allowed
  obtain ⟨g, sent⟩ := sendFrame_sent (s := (arrive t s).onPort p (fun q => { q with beacon := some (arrive t s).dt })) refused p _ _ _ _
  exact ⟨g, out _ sent⟩

/-! ### The obligation -/

/-- Settles O50: LINK_UP and LINK_DOWN by whether the link stood so already and whether a discovery begins or a search ends, the time-out
of a DISCOVER by the time passed and the tries made, and the DISCOVER of an ALONE segment by whether it is due. -/
theorem linksComeUpAndSearchesEnd : Obligations.LinksComeUpAndSearchesEnd := by
  intro t p s hp d up wanted starts sent status
  exact ⟨linkUp_nothing hp, fun down idle => linkUp_shows hp down idle, fun down begins => linkUp_discovers hp down begins,
    linkDown_nothing hp, fun shown idle => linkDown_shows hp shown idle, fun shown searching => linkDown_ends_search hp shown searching,
    discoverTimeout_idle hp, fun x active search => ⟨discoverTimeout_early hp active search,
      fun late numbering tries => discoverTimeout_repeats hp active search late numbering tries,
      fun late numbering tries => discoverTimeout_ends hp active search late numbering tries⟩,
    aloneDiscover_nothing hp, aloneDiscover_sends hp⟩

end Sys2Proof
end
section
/-! NODE_EPOCH_STOP names the axes of a node by their bits in LE_FAULTMAPn (R247): the counterexample to O51. -/

namespace Sys2Proof

open Sys2Proof.Machine

/-- The machine after reset with axis 0 enabled, whose commands go to node 0 of segment 0, and that node 16 cycles in the wrong epoch. -/
def wrongEpochStanding : State :=
  (State.reset.put ⟨(F.LE_AXMAP 0).adr, 0, 1⟩ 1).put (F.FP_GNODE_STATE_WE_RUN 0 0) 16

theorem wrongEpochStanding_due : wrongEpochStanding.active = true ∧ 16 ≤ wrongEpochStanding.g (F.FP_GNODE_STATE_WE_RUN 0 0) ∧
    (wrongEpochStanding.node 0 0).stopTold = false := by decide +kernel

theorem wrongEpochStanding_axis : 0 ∈ enabledAxes wrongEpochStanding ∧ (wrongEpochStanding.leAx 0).cfg.seg = 0 ∧
    (wrongEpochStanding.leAx 0).cfg.node = 0 := by decide +kernel

/-- Number 512 names no axis: its bit would stand in the register behind LE_AXMAP7, which is LE_FAULTMAP0. -/
theorem axisEnabled_512 (s : State) : axisEnabled s 512 = axisFaulted s 0 := rfl

/-- Refutes O51, in its clause on NODE_EPOCH_STOP: that every number `k` keeps what `axisEnabled` reads for it is said beyond the 512
axes. The stop sets bit 0 of LE_FAULTMAP0 for the enabled axis 0, and that bit is what `axisEnabled` reads for number 512. -/
theorem not_nodesAreMutedHealedStoppedAndRelayed : ¬ Obligations.NodesAreMutedHealedStoppedAndRelayed := by
  intro holds
  obtain ⟨-, -, -, -, -, -, stops, -⟩ := holds 0 0 0 0 wrongEpochStanding (by decide) (by decide)
  obtain ⟨active, run, untold⟩ := wrongEpochStanding_due
  obtain ⟨axis, seg, node⟩ := wrongEpochStanding_axis
  obtain ⟨u, -, -, faulted, kept⟩ := stops active run untold
  have set : axisEnabled u 512 = true := (axisEnabled_512 u).trans (faulted 0 axis seg node)
  have clear : axisEnabled wrongEpochStanding 512 = false := by decide +kernel
  rw [kept 512, clear] at set
  exact Bool.false_ne_true set

end Sys2Proof
end
section
/-! What an accepted frame changes beside the field ports: feedback, streams, triggers, histograms and angle channels leave the time, the
queues and the ports as they are, and the registers below the acquisition engine's (R89, R254). -/

namespace Sys2Proof

open Sys2Proof.Machine

/-! ### The relation -/

/-- `u` is `s` with the field ports, the time, the queues, the partner, and every register below the page of the acquisition engine that no
event changes as they were; where `D` holds, no write is asked for either. -/
structure KeepsPorts (D : Prop) (s u : State) : Prop where
  time : u.time = s.time
  pending : u.pending = s.pending
  queues : u.queues = s.queues
  he : u.he = s.he
  fp : u.fp = s.fp
  link : u.tw.link = s.tw.link
  role : u.tw.role = s.tw.role
  regs : ∀ b, eventReg b = false → b < pAE → u.reg b = s.reg b
  devNow : D → u.devNow = s.devNow

theorem KeepsPorts.refl {D : Prop} (s : State) : KeepsPorts D s s :=
  ⟨rfl, rfl, rfl, rfl, rfl, rfl, rfl, fun _ _ _ => rfl, fun _ => rfl⟩

theorem KeepsPorts.trans {D : Prop} {s r u : State} (h : KeepsPorts D s r) (k : KeepsPorts D r u) : KeepsPorts D s u where
  time := k.time.trans h.time
  pending := k.pending.trans h.pending
  queues := k.queues.trans h.queues
  he := k.he.trans h.he
  fp := k.fp.trans h.fp
  link := k.link.trans h.link
  role := k.role.trans h.role
  regs b hb low := (k.regs b hb low).trans (h.regs b hb low)
  devNow d := (k.devNow d).trans (h.devNow d)

/-- A port's field is below the acquisition engine's page, and no event changes it. -/
theorem KeepsPorts.port_g {D : Prop} {s u : State} (h : KeepsPorts D s u) {p o l w : Nat} (hp : p < 8) (ho : o < 0x1000) :
    u.g ⟨pFP p + o, l, w⟩ = s.g ⟨pFP p + o, l, w⟩ :=
  congrArg (fun x => getBits x l w) (h.regs _ (eventReg_port hp ho) (by simp only [pFP, pAE]; omega))

theorem KeepsPorts.contained {D : Prop} {t : DT} {s r u : State} (k : KeepsPorts D r u) (h : Contained t s r)
    (unasked : u.devNow = r.devNow) : Contained t s u where
  time := k.time.trans h.time
  pending := k.pending.trans h.pending
  devNow := unasked.trans h.devNow
  queues := k.queues.trans h.queues
  answered n hn := h.answered n (by unfold raAnswered at *; rwa [k.he] at hn)

/-- Effects come one behind another: `r` is what those so far have made of `s`. -/
theorem KeepsPorts.moves {D K : Prop} {W : Nat → Prop} {s r u : State} (h : KeepsPorts D s r) (m : Moves W K r u) : KeepsPorts D s u := by
  refine h.trans ⟨?_, ?_, ?_, ?_, ?_, ?_, ?_, fun b hb _ => m.regs b hb, fun _ => ?_⟩
  case refine_6 | refine_7 => rw [m.tw]
  all_goals rw [m.rest]

section Steps

variable {D : Prop} {s r : State} (h : KeepsPorts D s r)
include h

theorem KeepsPorts.follows {K : Prop} {u : State} (k : Follows K r u) : KeepsPorts D s u := h.moves k.moves

theorem KeepsPorts.forEach {α : Type} {f : α → State → State} (hf : ∀ a {r}, KeepsPorts D s r → KeepsPorts D s (f a r)) (l : List α) :
    KeepsPorts D s (forEach f l r) := by
  induction l generalizing r with
  | nil => exact h
  | cons a l ih => exact ih (hf a h)

omit h in
theorem KeepsPorts.ite {c : Prop} [Decidable c] {u v : State} (hu : KeepsPorts D s u) (hv : KeepsPorts D s v) :
    KeepsPorts D s (if c then u else v) := by split <;> assumption

/-! ### Memory, registers and events -/

theorem KeepsPorts.setWord (a v : Nat) : KeepsPorts D s (r.setWord a v) :=
  h.moves (Moves.setWord (W := fun _ => True) (K := False) r a v fun _ _ => trivial)

theorem KeepsPorts.due (l : List (Nat × Nat)) : KeepsPorts D s { r with ueDue := l } :=
  h.moves (Moves.due (W := fun _ => True) (K := False) r l)

theorem KeepsPorts.mput (base : Nat) (f : Fld) (v : Nat) : KeepsPorts D s (r.mput base f v) := by
  obtain ⟨l, e⟩ := State.mput_eq r base f v
  rw [e]
  exact (h.setWord _ _).due _

theorem KeepsPorts.noteReadsBy (m : Nat) (l : List Nat) : KeepsPorts D s (r.noteReadsBy m l) :=
  h.moves (Moves.noteReadsBy (W := fun _ => True) (K := False) r m l)

theorem KeepsPorts.noteReads (m a n : Nat) : KeepsPorts D s (r.noteReads m a n) := h.noteReadsBy m _

theorem KeepsPorts.nextFree : KeepsPorts D s r.nextFree := h.moves (Moves.nextFree (W := fun _ => True) (K := False) r)

theorem KeepsPorts.setBytes (a v n : Nat) : KeepsPorts D s (r.setBytes a v n) :=
  h.moves (Moves.setBytes (W := fun _ => True) (K := False) r a v n fun _ _ _ => trivial)

theorem KeepsPorts.setHostBytes (a v n : Nat) : KeepsPorts D s (r.setHostBytes a v n) :=
  h.moves (Moves.setHostBytes (W := fun _ => True) (K := False) r a v n)

theorem KeepsPorts.setReg {a : Nat} (high : pAE ≤ a) (v : Nat) : KeepsPorts D s (r.setReg a v) :=
  h.trans ⟨rfl, rfl, rfl, rfl, rfl, rfl, rfl, fun _ _ low => State.reg_setReg_other r v (low.trans_le high).ne, fun _ => rfl⟩

theorem KeepsPorts.put {f : Fld} (high : pAE ≤ f.adr) (v : Nat) : KeepsPorts D s (r.put f v) := h.setReg high _

theorem KeepsPorts.mapBit {base : Nat} (high : pAE ≤ base) (i : Nat) (v : Bool) : KeepsPorts D s (mapBit r base i v) :=
  h.put (f := ⟨base + 8 * (i / 64), i % 64, 1⟩) (high.trans (Nat.le_add_right _ _)) _

theorem KeepsPorts.raiseAxis (a e i : Nat) : KeepsPorts D s (raiseAxis r a e i) := h.follows (Follows.raiseAxis (K := False) r a e i)

theorem KeepsPorts.raisePage (p e i : Nat) : KeepsPorts D s (raisePage r p e i) := h.follows (Follows.raisePage (K := False) r p e i)

theorem KeepsPorts.raiseUe (m a : Nat) : KeepsPorts D s (raiseUe r m a) := h.follows (Follows.raiseUe r m a)

theorem KeepsPorts.raiseXuFault (m k l a : Nat) : KeepsPorts D s (raiseXuFault r m k l a) := by
  have raised := (h.moves (Moves.noteXuFault (W := fun _ => True) (K := False) r m k l a)).follows
    (Follows.raisePage2 (K := False) _ pXU 1 (m + (k <<< 16) + (l <<< 24)) a 0)
  unfold Machine.raiseXuFault
  dsimp only
  split
  · exact raised.raiseUe _ _
  · exact raised

theorem KeepsPorts.devRead (m a n : Nat) : KeepsPorts D s (devRead r m a n).2 := by
  unfold Machine.devRead
  split
  · exact h.raiseUe m a
  · exact h

theorem KeepsPorts.memWrite (m a v n : Nat) : KeepsPorts D s (memWrite r m a v n) := by
  unfold Machine.memWrite
  split
  · exact h.setWord a v
  · split
    · exact h.raiseUe m a
    · exact h.setBytes a v n

/-! ### The engines' own state -/

theorem KeepsPorts.ofEngines (fb : FbSt) (ae : AeSt) (ang : AngSt) (dma : Tab DmaRing) : KeepsPorts D s { r with fb, ae, ang, dma } :=
  ⟨h.time, h.pending, h.queues, h.he, h.fp, h.link, h.role, h.regs, h.devNow⟩

theorem KeepsPorts.onStr (n : Nat) (f : AeStr → AeStr) : KeepsPorts D s (r.onStr n f) := h.ofEngines _ _ _ _
theorem KeepsPorts.onCh (c : Nat) (f : AeCh → AeCh) : KeepsPorts D s (r.onCh c f) := h.ofEngines _ _ _ _
theorem KeepsPorts.onAng (g : Nat) (f : AngCh → AngCh) : KeepsPorts D s (r.onAng g f) := h.ofEngines _ _ _ _
theorem KeepsPorts.onFb (a : Nat) (f : FbAx → FbAx) : KeepsPorts D s (r.onFb a f) := h.ofEngines _ _ _ _

end Steps

end Sys2Proof
end
section
/-! Packets, records, triggers and reductions beside the field ports (R255 to R275). -/

namespace Sys2Proof

open Sys2Proof.Machine

section Steps

variable {s r : State} (h : KeepsPorts False s r)
include h

/-! ### Writes of a block -/

theorem KeepsPorts.devWrite (m a v : Nat) : KeepsPorts False s (devWrite r m a v) := by
  have asked (l : List DevWrite) : KeepsPorts False s { r with devNow := l } :=
    ⟨h.time, h.pending, h.queues, h.he, h.fp, h.link, h.role, h.regs, False.elim⟩
  have queued (l : List DevWrite) : KeepsPorts False s { r with devQ := l } :=
    ⟨h.time, h.pending, h.queues, h.he, h.fp, h.link, h.role, h.regs, h.devNow⟩
  unfold Machine.devWrite
  dsimp only
  split
  · split
    · exact asked _
    · exact h.setWord _ _
  · exact h.setHostBytes _ _ _
  · split
    · exact queued _
    · exact asked _
  · exact h

theorem KeepsPorts.devWrites (m : Nat) (l : List Nat) (a : Nat) : KeepsPorts False s (devWrites r m a l) := by
  induction l generalizing r a with
  | nil => exact h
  | cons v l ih => exact ih (h.devWrite m a v) _

theorem KeepsPorts.devCarried (n dst len code bytes : Nat) : KeepsPorts False s (devCarried r n dst len code bytes) := by
  unfold Machine.devCarried
  extract_lets x a rd posted
  have written : KeepsPorts False s posted := .ite h (h.nextFree.devWrites _ _ _)
  exact ((written.ofEngines _ _ _ _).setReg (by simp only [pAE, pDMA]; omega) rd).put (by simp only [pAE, pDMA]; omega) rd

/-! ### Packets of a stream -/

theorem KeepsPorts.setStr (n st : Nat) : KeepsPorts False s (setStr r n st) := by
  unfold Machine.setStr
  exact (((h.onStr _ _).mput _ _ _).mapBit (by decide) _ _).mapBit (by decide) _ _

theorem KeepsPorts.putPacket (n : Nat) (p : AeOut) : KeepsPorts False s (putPacket r n p) := by
  unfold Machine.putPacket
  extract_lets l x wr s1 s2 s3 ae s4 m
  have written : KeepsPorts False s s4 :=
    ((((h.devWrites _ _ _).devCarried _ _ _ _ _).setWord _ _).setWord _ _).ofEngines _ _ _ _
  split
  · exact written
  · split
    · exact written.raiseXuFault _ _ _ _
    · exact written.devWrite _ _ _

/-- `P` holds of the state in which a packet has been handed over or has failed. -/
def handedTo (P : State → Prop) : Handed → Prop
  | .done t => P t
  | .waits => True
  | .fails t _ => P t

theorem KeepsPorts.hand (n : Nat) (p : AeOut) : handedTo (KeepsPorts False s) (hand r n p) := by
  have read := h.noteReads 0x47 (stBase n + 0x28) 5
  unfold Machine.hand
  extract_lets s1 x pos pad bad padded
  clear_value bad
  split
  · trivial
  · split
    · exact read
    · split
      · extract_lets s2
        have told : KeepsPorts False s s2 := (read.devCarried _ _ _ _ _).raiseXuFault _ _ _ _
        split <;> exact told
      · refine KeepsPorts.putPacket (r := padded) ?_ n p
        unfold padded
        split
        · exact read
        · exact read.putPacket n _

theorem KeepsPorts.handedOver {n : Nat} {p : AeOut} {t : State} (e : Machine.hand r n p = .done t) : KeepsPorts False s t := by
  have k := h.hand n p
  rwa [e] at k

theorem KeepsPorts.handFailed {n c : Nat} {p : AeOut} {t : State} (e : Machine.hand r n p = .fails t c) : KeepsPorts False s t := by
  have k := h.hand n p
  rwa [e] at k

theorem KeepsPorts.overflow (n cause : Nat) (dropped kept : List AeOut) (more : List DT) :
    KeepsPorts False s (overflow r n cause dropped kept more) := by
  unfold Machine.overflow
  extract_lets first s1 p p' s2 s3
  have marked : KeepsPorts False s s2 := ((h.onStr _ _).setStr _ _).mput _ _ _
  refine KeepsPorts.raisePage (r := s3) ?_ _ _ _
  unfold s3
  split
  next e => exact marked.handedOver e
  next e => exact marked.handFailed e
  next => exact marked.onStr _ _

theorem KeepsPorts.packetFails (n cause : Nat) (p : AeOut) (more : List DT) : KeepsPorts False s (packetFails r n cause p more) := by
  unfold Machine.packetFails
  dsimp only
  split
  · exact h.overflow _ _ _ _ _
  · exact h

theorem KeepsPorts.needBuffer (n : Nat) (more : List DT) : KeepsPorts False s (needBuffer r n more) := by
  unfold Machine.needBuffer
  dsimp only
  split
  · exact h.overflow _ _ _ _ _
  · exact h

theorem KeepsPorts.writePacket (n : Nat) (p : AeOut) (more : List DT) : KeepsPorts False s (writePacket r n p more) := by
  unfold Machine.writePacket
  extract_lets was s1 wait
  have room : KeepsPorts False s s1 := .ite (h.needBuffer _ _) h
  split
  · exact room
  · split
    next e => exact room.handedOver e
    next e => exact (room.handFailed e).packetFails _ _ _ _
    next => exact room.onStr _ _

theorem KeepsPorts.closePkt (n : Nat) (close : DT) (more : List DT) : KeepsPorts False s (closePkt r n close more) := by
  unfold Machine.closePkt
  split
  · exact h
  · exact (h.onStr _ _).writePacket _ _ _

theorem KeepsPorts.packetFlush (n : Nat) : KeepsPorts False s (packetFlush r n) := by
  unfold Machine.packetFlush
  split
  · split
    · exact h.closePkt _ _ _
    · exact h
  · exact h

theorem KeepsPorts.writeMapping (n reason : Nat) : KeepsPorts False s (writeMapping r n reason) := h.writePacket _ _ _

theorem KeepsPorts.mappingAll (reason : Nat) : KeepsPorts False s (mappingAll r reason) := by
  refine h.forEach (fun e _ k => ?_) _
  split
  · exact k.writeMapping _ _
  · exact k

theorem KeepsPorts.mapFollow : KeepsPorts False s (mapFollow r) := by
  unfold Machine.mapFollow
  extract_lets old ae s1 s2
  have told : KeepsPorts False s s1 := h.ofEngines _ _ _ _
  have selected : KeepsPorts False s s2 := .ite told (told.mappingAll _)
  split
  · exact selected
  · exact selected.mappingAll _

theorem KeepsPorts.intoPacket (n : Nat) (more : List DT) (f : AePkt → AePkt) : KeepsPorts False s (intoPacket r n more f) := by
  unfold Machine.intoPacket
  extract_lets fresh
  have opened {r : State} (h : KeepsPorts False s r) : KeepsPorts False s (fresh r) := by
    unfold fresh
    dsimp only
    split
    · exact (h.needBuffer _ _).onStr _ _
    · exact h.needBuffer _ _
  split
  · exact opened h
  · split
    · exact h.onStr _ _
    · split
      · exact opened (h.closePkt _ _ _)
      · exact h.closePkt _ _ _

theorem KeepsPorts.enterValue (n c slot kind flags interval : Nat) (fresh : Bool) (dt : DT) (v : Int) :
    KeepsPorts False s (enterValue r n c slot kind flags interval fresh dt v) := by
  unfold Machine.enterValue
  extract_lets s1 x newFirst flags mark s2
  split
  · exact h.packetFlush n
  · exact ((h.packetFlush n).onStr _ _).intoPacket _ _ _

theorem KeepsPorts.enterMark (n : Nat) (m : AeMark) : KeepsPorts False s (enterMark r n m) := by
  unfold Machine.enterMark
  dsimp only
  split
  · exact (h.mapFollow.packetFlush n).intoPacket _ _ _
  · exact h.mapFollow.packetFlush n

theorem KeepsPorts.strRestart (n : Nat) : KeepsPorts False s (strRestart r n) := by
  unfold Machine.strRestart
  exact ((((h.mapFollow.mput _ _ _).setStr _ _).onStr _ _).writeMapping _ _).raisePage _ _ _

theorem KeepsPorts.autoRestart (n : Nat) : KeepsPorts False s (autoRestart r n) := by
  unfold Machine.autoRestart
  dsimp only
  split
  · exact h.strRestart n
  · exact h

/-! ### Records -/

theorem KeepsPorts.writeRecord (n : Nat) : KeepsPorts False s (writeRecord r n) := by
  unfold Machine.writeRecord
  split
  · exact h
  · extract_lets
    rename_i one
    refine (h.onStr _ _).forEach (fun e _ k => ?_) _
    unfold one
    dsimp only
    split
    · exact k
    · exact k.writePacket _ _ _

theorem KeepsPorts.finishRecord (n : Nat) : KeepsPorts False s (finishRecord r n) := by
  unfold Machine.finishRecord
  split
  · exact h
  · split
    · exact h.writeRecord n
    · exact h

theorem KeepsPorts.beginRecord (n : Nat) (dt : DT) : KeepsPorts False s (beginRecord r n dt) := by
  unfold Machine.beginRecord
  dsimp only
  split
  · exact h.mput _ _ _
  · exact (h.onStr _ _).finishRecord n

theorem KeepsPorts.recordSample (n c : Nat) (e : AeSmp) : KeepsPorts False s (recordSample r n c e) := by
  unfold Machine.recordSample
  extract_lets s1 x keep l s2
  have marked : KeepsPorts False s s1 := h.forEach (fun m _ k => (k.onStr _ _).enterMark _ _) _
  have noted : KeepsPorts False s s2 := marked.onStr _ _
  split
  · exact marked
  · split
    · exact noted
    · split
      · exact noted.finishRecord n
      · split
        · exact noted.onStr _ _
        · exact (noted.onStr _ _).finishRecord n

/-! ### Triggers -/

theorem KeepsPorts.fire (u info : Nat) (dt : DT) (flags : Nat) : KeepsPorts False s (fire r u info dt flags) := by
  have state : pAE ≤ (F.AE_TRG_STATE u).adr := by simp only [pAE]; omega
  unfold Machine.fire
  extract_lets out start late n a st b s1 s2 discard s3 q ae s4 s5 s6
  have marked : KeepsPorts False s s1 := by
    unfold s1
    split
    · exact h
    · have entered : KeepsPorts False s b := .ite ((h.autoRestart n).enterMark _ _) (h.autoRestart n)
      split
      · exact entered.mput _ _ _
      · exact entered
  have recorded : KeepsPorts False s s2 := by
    refine marked.forEach (fun e _ k => ?_) _
    split
    · exact k.beginRecord _ _
    · exact k
  have counted : KeepsPorts False s s3 := .ite (recorded.put (by exact state) _) recorded
  have pulsed : KeepsPorts False s s4 := .ite (counted.ofEngines _ _ _ _) counted
  have discarded : KeepsPorts False s s5 := .ite (pulsed.raisePage _ _ _) pulsed
  have told : KeepsPorts False s s6 := .ite (discarded.raisePage _ _ _) discarded
  exact told.put (by exact state) _

theorem KeepsPorts.crossing (u info : Nat) (dt : DT) (flags : Nat) : KeepsPorts False s (crossing r u info dt flags) := by
  unfold Machine.crossing
  extract_lets t hold t' ae s1
  have disarmed : KeepsPorts False s s1 := h.ofEngines _ _ _ _
  split
  · exact disarmed
  · exact disarmed.fire _ _ _ _

theorem KeepsPorts.unitSample (u c : Nat) (prev : Option AeSmp) (e : AeSmp) (interval : Nat) :
    KeepsPorts False s (unitSample r u c prev e interval) := by
  unfold Machine.unitSample
  extract_lets cond lv alt t inside hit s1 t1 t2 ae s2
  have crossed : KeepsPorts False s s1 := by
    clear_value hit
    unfold s1
    split
    · exact h.crossing _ _ _ _
    · exact h
  exact (crossed.ofEngines _ _ _ _).put (by simp only [pAE]; omega) _

theorem KeepsPorts.trigSample (c : Nat) (prev : Option AeSmp) (e : AeSmp) (interval : Nat) :
    KeepsPorts False s (trigSample r c prev e interval) := by
  refine h.forEach (fun u _ k => ?_) _
  split
  · exact k.unitSample _ _ _ _ _
  · exact k

/-! ### Histograms and reductions -/

theorem KeepsPorts.histSample (c slot : Nat) (x : Int) : KeepsPorts False s (histSample r c slot x) := by
  unfold Machine.histSample
  split
  · exact h
  · split
    · exact h
    · exact (h.devRead _ _ _).memWrite _ _ _ _

theorem KeepsPorts.redEmit (c k : Nat) (x : AeRed) (g : Int) : KeepsPorts False s (redEmit r c k x g) := by
  unfold Machine.redEmit
  extract_lets
  rename_i entered
  refine KeepsPorts.histSample (r := entered) ?_ _ _ _
  unfold entered
  split
  · exact h.enterValue _ _ _ _ _ _ _ _ _
  · exact h

theorem KeepsPorts.redSample (c k : Nat) (e : AeSmp) : KeepsPorts False s (redSample r c k e) := by
  unfold Machine.redSample
  extract_lets
  split
  · exact h
  · extract_lets pos g joins
    have joined (x : AeRed) {r : State} (h : KeepsPorts False s r) : KeepsPorts False s (joins x r) := by
      unfold joins
      dsimp only
      split
      · exact (h.redEmit _ _ _ _).onCh _ _
      · exact h.onCh _ _
    split
    · exact joined _ h
    · split
      · exact h
      · split
        · exact joined _ h
        · refine joined _ ?_
          split
          · exact h
          · exact h.redEmit _ _ _ _

theorem KeepsPorts.redRestart (c : Nat) : KeepsPorts False s (redRestart r c) := by
  unfold Machine.redRestart
  refine KeepsPorts.onCh (h.forEach (fun k _ k => ?_) _) _ _
  dsimp only
  split
  · split
    · exact k
    · exact k.redEmit _ _ _ _
  · exact k

end Steps

end Sys2Proof
end
section
/-! Angle channels, the samples of a SENSOR frame and the feedback of an UPLINK beside the field ports (R89, R254, R281 to R295). -/

namespace Sys2Proof

open Sys2Proof.Machine

section Steps

variable {s r : State} (h : KeepsPorts False s r)
include h

/-! ### Angle channels -/

theorem KeepsPorts.angPut (g : Nat) (f : Fld) (v : Nat) : KeepsPorts False s (angPut r g f v) := h.mput _ _ _

theorem KeepsPorts.clearAvg (g n : Nat) : KeepsPorts False s (clearAvg r g n) := by
  unfold Machine.clearAvg
  exact ((h.forEach (fun j _ k => k.setWord _ _) _).angPut _ _ _).onAng _ _

theorem KeepsPorts.contribute (c : AngCh) (m n : Nat) (y : List Int) : KeepsPorts False s (contribute r c m n y) := by
  unfold Machine.contribute
  extract_lets low sh point counted k
  have marked : KeepsPorts False s counted := h.forEach (fun e _ k => (k.devRead _ _ _).memWrite _ _ _ _) _
  split
  · exact marked.forEach (fun i _ k => (k.devRead _ _ _).memWrite _ _ _ _) _
  · exact marked

theorem KeepsPorts.pushRec (g : Nat) (x : AngRec) : KeepsPorts False s (pushRec r g x) := by
  unfold Machine.pushRec
  split
  · exact h.ofEngines _ _ _ _
  · exact h

theorem KeepsPorts.finishAvg (g : Nat) (last : DT) : KeepsPorts False s (finishAvg r g last) := by
  unfold Machine.finishAvg
  extract_lets c s1 avg flags s2 m s3
  have pushed : KeepsPorts False s s2 := (h.noteReads _ _ _).pushRec _ _
  have mapped : KeepsPorts False s s3 := .ite ((pushed.contribute _ _ _ _).onAng _ _) pushed
  exact (mapped.clearAvg _ _).onAng _ _

theorem KeepsPorts.finishRev (g : Nat) : KeepsPorts False s (finishRev r g) := by
  unfold Machine.finishRev
  extract_lets c sparse s1 s2 rev s3 s4 n s5 s6 s7 s8 s9
  have pushed : KeepsPorts False s s3 := ((h.angPut _ _ _).angPut _ _ _).pushRec _ _
  have mapped : KeepsPorts False s s4 := .ite ((pushed.contribute _ _ _ _).onAng _ _) pushed
  have summed : KeepsPorts False s s8 :=
    (((mapped.noteReads _ _ _).forEach (fun e _ k => k.setWord _ _) _).onAng _ _).angPut _ _ _
  have averaged : KeepsPorts False s s9 := by
    unfold s9
    split
    · exact mapped
    · split
      · exact summed.finishAvg _ _
      · exact summed
  exact (averaged.onAng _ _).angPut _ _ _

theorem KeepsPorts.abandonNow (g why : Nat) : KeepsPorts False s (abandonNow r g why) := by
  unfold Machine.abandonNow
  extract_lets c ab s1 s2 s3 s4
  have idle : KeepsPorts False s s3 := (((h.angPut _ _ _).angPut _ _ _).angPut _ _ _).onAng _ _
  have cleared : KeepsPorts False s s4 := .ite ((idle.clearAvg _ _).onAng _ _) idle
  split
  · exact cleared
  · exact cleared.raisePage _ _ _

theorem KeepsPorts.abandon (g why : Nat) : KeepsPorts False s (abandon r g why) := by
  unfold Machine.abandon
  split
  · exact h.abandonNow g why
  · exact h

theorem KeepsPorts.reverse (g : Nat) (p : AngPt) (th : Int) : KeepsPorts False s (reverse r g p th) := by
  unfold Machine.reverse
  dsimp only
  split
  · exact h.abandonNow g 3
  · exact h.forEach (fun _ _ k => k.abandonNow g 3) _

theorem KeepsPorts.abandonThrough (g why : Nat) (p q : AngPt) : KeepsPorts False s (abandonThrough r g why p q) :=
  (h.abandon g why).forEach (fun _ _ k => k.abandonNow g why) _

theorem KeepsPorts.gridPoints (g : Nat) (p q : AngPt) (flags : Nat) (fuel : Nat) (start : Int) :
    KeepsPorts False s (gridPoints r g p q flags start fuel) := by
  induction fuel generalizing r start with
  | zero => exact h
  | succ fuel ih =>
    unfold Machine.gridPoints
    extract_lets c step rev phi u y t s1 s2 s3
    have begun : KeepsPorts False s s1 := .ite h (h.angPut _ _ _)
    have formed : KeepsPorts False s s2 := begun.onAng _ _
    have complete : KeepsPorts False s s3 := .ite (formed.finishRev g) formed
    split
    · exact ih complete _
    · exact h

theorem KeepsPorts.angTake (g : Nat) (e : AeSmp) (i : Nat) : KeepsPorts False s (angTake r g e i) := by
  unfold Machine.angTake
  extract_lets c a s1 f th q extrap vel stepIn jumped stepNext speed unit bad s2 s3 s4 flags s5 s6
  have read : KeepsPorts False s s1 := h.noteReads _ _ _
  have gapped : KeepsPorts False s s2 := .ite (read.abandon _ _) read
  have stepped : KeepsPorts False s s3 := .ite (gapped.abandon _ _) gapped
  have turned : KeepsPorts False s s4 := by
    unfold s4
    split
    · split
      · exact stepped.reverse _ _ _
      · exact stepped
    · exact stepped
  refine KeepsPorts.onAng (r := s6) ?_ _ _
  clear_value bad
  unfold s6
  split
  · split
    · exact turned.abandon _ _
    · exact turned.abandonThrough _ _ _ _
  · exact turned.abandon _ _
  · split
    · exact turned
    · refine KeepsPorts.gridPoints (r := s5) ?_ _ _ _ _ _ _
      unfold s5
      split
      · exact turned.onAng _ _
      · exact turned
  · exact turned

theorem KeepsPorts.angDrain (g fuel : Nat) : KeepsPorts False s (angDrain r g fuel) := by
  induction fuel generalizing r with
  | zero => exact h
  | succ fuel ih =>
    unfold Machine.angDrain
    dsimp only
    split
    · exact h
    · split
      · exact h
      · exact ih ((h.abandon _ _).onAng _ _)
      · exact ih ((h.onAng _ _).angTake _ _ _)

theorem KeepsPorts.angTakeUp : KeepsPorts False s (angTakeUp r) := h.forEach (fun g _ k => k.angDrain g _) _

theorem KeepsPorts.angSource (c : Nat) (e : AeSmp) : KeepsPorts False s (angSource r c e) := by
  refine h.forEach (fun g _ k => ?_) _
  split
  · exact k.onAng _ _
  · exact k

theorem KeepsPorts.angDropped (c : Nat) : KeepsPorts False s (angDropped r c) := by
  refine h.forEach (fun g _ k => ?_) _
  split
  · exact k.onAng _ _
  · exact k

/-! ### Samples of a SENSOR frame -/

theorem KeepsPorts.waitStart (n : Nat) (dt : DT) : KeepsPorts False s (waitStart r n dt) := by
  unfold Machine.waitStart
  dsimp only
  split
  · exact (h.setStr _ _).onStr _ _
  · exact h

theorem KeepsPorts.aeOne (c : Nat) (e : AeSmp) : KeepsPorts False s (aeOne r c e) := by
  unfold Machine.aeOne
  extract_lets prev n ae s1 s2 s3 x s4 s5
  have awake : KeepsPorts False s s3 := (((h.ofEngines _ _ _ _).onCh _ _).waitStart _ _).autoRestart _
  have entered : KeepsPorts False s s4 := by
    unfold s4
    split
    · exact awake
    · split
      · exact awake.recordSample _ _ _
      · split
        · exact awake.enterValue _ _ _ _ _ _ _ _ _
        · exact awake
  have reduced : KeepsPorts False s s5 := by
    refine entered.forEach (fun k _ kept => ?_) _
    split
    · exact kept.redSample _ _ _
    · exact kept
  exact ((reduced.histSample _ _ _).angSource _ _).trigSample _ _ _ _

theorem KeepsPorts.aeBlock (c : Nat) (first : DT) (interval : Nat) (gap ovr : Bool) (l : List Int) :
    KeepsPorts False s (aeBlock r c first interval gap ovr l) := by
  unfold Machine.aeBlock
  extract_lets ch changed s1 s2 ch2 d later early all lost keep f s3 ae s4 g0 s5
  have restarted : KeepsPorts False s s1 := .ite (h.redRestart c) h
  have dropped : KeepsPorts False s s4 := .ite (restarted.onCh _ _) ((((restarted.onCh _ _).mput _ _ _).ofEngines _ _ _ _).angDropped _)
  have taken : KeepsPorts False s s5 := dropped.forEach (fun e _ k => k.aeOne _ _) _
  split
  · exact taken
  · exact taken.onCh _ _

/-- The samples of an accepted SENSOR frame leave the field ports as they are. -/
theorem KeepsPorts.aeSensor (seg node : Nat) (b : SensorBody) : KeepsPorts False s (aeSensor r seg node b) := by
  unfold Machine.aeSensor
  extract_lets s1 one
  refine (h.mapFollow.forEach (fun c _ k => ?_) _).angTakeUp
  unfold one
  dsimp only
  split
  · exact k
  · split
    · exact k
    · split
      · exact ((k.mput _ _ _).ofEngines _ _ _ _).raisePage _ _ _
      · exact k.aeBlock _ _ _ _ _ _

end Steps

/-! ### Position records of an UPLINK -/

section Records

variable {D : Prop} {s r : State} (h : KeepsPorts D s r)
include h

theorem KeepsPorts.fbSync (a : Nat) : KeepsPorts D s (fbSync r a) := by
  unfold Machine.fbSync
  exact (h.noteReads _ _ _).onFb _ _

theorem KeepsPorts.fbPutStatus (a : Nat) : KeepsPorts D s (fbPutStatus r a) := h.setWord _ _

theorem KeepsPorts.fbIndex (a raw : Nat) (ts : DT) : KeepsPorts D s (fbIndex r a raw ts) := by
  unfold Machine.fbIndex
  extract_lets s1 f pos s2 cq
  have shown : KeepsPorts D s s2 := ((h.fbSync a).setWord _ _).setWord _ _
  split
  extract_lets s3 s4
  have told : KeepsPorts D s s4 := .ite ((shown.onFb _ _).fbPutStatus a) (shown.onFb _ _)
  split
  · exact told.raiseAxis _ _ _
  · exact told

theorem KeepsPorts.latchRecord (a : Nat) (dt : DT) : KeepsPorts D s (latchRecord r a dt) := by
  unfold Machine.latchRecord
  split
  · exact h
  · exact (h.forEach (fun e _ k => k.setWord _ _) _).ofEngines _ _ _ _

theorem KeepsPorts.fbWrite (a : Nat) (dt : DT) (resid : Option Int) : KeepsPorts D s (fbWrite r a dt resid) := by
  unfold Machine.fbWrite
  extract_lets f s1 s2 s3 s4
  have placed : KeepsPorts D s s1 := .ite (((h.setWord _ _).setWord _ _).setWord _ _) h
  have moved : KeepsPorts D s s3 := ((placed.setWord _ _).setWord _ _).setWord _ _
  refine (KeepsPorts.fbPutStatus (r := s4) ?_ a).latchRecord a dt
  unfold s4
  split
  · exact moved.setWord _ _
  · exact moved

theorem KeepsPorts.fbReject (a why : Nat) : KeepsPorts D s (fbReject r a why) := by
  unfold Machine.fbReject
  exact ((h.onFb _ _).ofEngines _ _ _ _).mput _ _ _

theorem KeepsPorts.fbMeasure (a raw : Nat) (dt : DT) : KeepsPorts D s (fbMeasure r a raw dt) := by
  have synced := h.fbSync a
  unfold Machine.fbMeasure
  generalize Machine.fbSync r a = s1 at synced ⊢
  extract_lets
  split
  extract_lets
  refine .ite (synced.fbReject a 2) ?_
  split
  next free s2 e =>
  have drawn : KeepsPorts D s s2 := by
    split at e
    · obtain rfl : s1.nextFree = s2 := congrArg Prod.snd e
      exact synced.nextFree
    · obtain rfl : s1 = s2 := congrArg Prod.snd e
      exact synced
  split
  exact ((drawn.onFb _ _).ofEngines _ _ _ _).fbWrite _ _ _

theorem KeepsPorts.fbRemote (a : Nat) (x : PosRec) : KeepsPorts D s (fbRemote r a x) := by
  unfold Machine.fbRemote
  extract_lets s1 f dt off s2
  have got : KeepsPorts D s s1 := h.onFb _ _
  have taken : KeepsPorts D s s2 := .ite (got.fbReject _ _) (.ite (got.fbReject _ _) (got.fbMeasure _ _ _))
  split
  · split
    · exact taken.fbIndex _ _ _
    · exact taken
  · exact taken

/-- The position records of an accepted UPLINK leave the field ports as they are, and ask for no write. -/
theorem KeepsPorts.fbUplink (seg node : Nat) (recs : List PosRec) : KeepsPorts D s (fbUplink r seg node recs) := by
  unfold Machine.fbUplink
  split
  · exact h
  · refine h.forEach (fun a _ k => ?_) _
    dsimp only
    split
    · split
      · exact k.fbRemote _ _
      · exact k
    · exact k

end Records

end Sys2Proof
end
section
/-! An UPLINK or a SENSOR frame that the guardian accepts in its slot (R206, R230). -/

namespace Sys2Proof

open Sys2Proof.Machine

/-! ### The state in which a frame is looked at -/

@[simp] theorem arrive_slotOf (t : DT) (s : State) (p b k : Nat) : slotOf (arrive t s) p b k = slotOf s p b k := by
  unfold slotOf
  simp only [arrive_g]
@[simp] theorem arrive_slotsOf (t : DT) (s : State) (p b : Nat) : slotsOf (arrive t s) p b = slotsOf s p b := by
  unfold slotsOf
  simp only [arrive_slotOf]
@[simp] theorem arrive_liveBank (t : DT) (s : State) (p : Nat) : liveBank (arrive t s) p = liveBank s p := arrive_g t s _

/-- What a port keeps beside its grants does not change which of them win in the cycle. -/
theorem grantNow_onPort {s : State} {p : Nat} {f : FpSt → FpSt} (h : (f (s.port p)).grants = (s.port p).grants) (q : FpClaim → Bool) :
    grantNow (s.onPort p f) p q = grantNow s p q := by
  unfold grantNow
  rw [State.onPort_port, h]
  rfl

/-- Nor does it change which slot a frame fits. -/
theorem fitsSlot_onPort {s : State} {p : Nat} {f : FpSt → FpSt} (k : (f (s.port p)).grants = (s.port p).grants) (e : Slot) (h : FrameHdr)
    (stamp : DT) : fitsSlot (s.onPort p f) p e h stamp = fitsSlot s p e h stamp := by
  unfold fitsSlot
  rw [grantNow_onPort k]
  rfl

/-! ### The guardian -/

/-- The slots of the node that sends `h`, of the kind that `h` belongs in. -/
def slotsFor (s : State) (p : Nat) (h : FrameHdr) : List Slot :=
  (slotsOf s p (liveBank s p)).filter (fun e => e.kind = (if h.type = 2 then 1 else 2) && e.node = h.src)

/-- Frame `h` passes the guardian of port `p` in slot `e`, for the first time in the cycle (R206, R230). -/
structure GuardPasses (s : State) (p : Nat) (h : FrameHdr) (e : Slot) : Prop where
  src : h.src < 32
  bound : s.gb (F.FP_GNODE_STATE_BOUND p h.src) = true
  unmuted : s.gb (F.FP_GNODE_STATE_MUTED p h.src) = false
  epoch : h.epoch = s.g F.FP_EPOCH_STATE_CURRENT % 256
  cycle : h.cycle = s.cycN
  slot : (slotsFor s p h).find? (fun x => fitsSlot s p x h (ingressStamp s p h.capture)) = some e
  size : h.size ≤ e.len
  untaken : ∀ a ∈ (s.port p).accepted, ¬ (a.1 = h.type ∧ a.2.1 = h.src ∧ a.2.2.1 = e.k)

theorem GuardPasses.counted {s : State} {p : Nat} {h : FrameHdr} {e : Slot} (g : GuardPasses s p h e) :
    GuardPasses (frameCounted s p) p h e where
  slot := by
    have same : (fun x => fitsSlot (frameCounted s p) p x h (ingressStamp (frameCounted s p) p h.capture)) =
        fun x => fitsSlot s p x h (ingressStamp s p h.capture) := by
      funext x
      unfold frameCounted
      exact fitsSlot_onPort (by rfl) x h _
    rw [same]
    exact g.slot
  untaken := by
    unfold frameCounted
    rw [State.onPort_port]
    exact g.untaken
  __ := g

/-- `s` with frame `h` accepted in slot `k`: the node is in the right epoch, and the port counts and notes the frame. -/
def slotTaken (s : State) (p : Nat) (h : FrameHdr) (k seq : Nat) : State :=
  (s.onNode p h.src (fun n => { n with epochOk := true })).onPort p (fun q => { q with
    accept := q.accept + 1, accepted := q.accepted ++ [(h.type, h.src, k, seq)] })

theorem guardFrame_passes {s : State} {p : Nat} {h : FrameHdr} {e : Slot} (g : GuardPasses s p h e) (seq : Nat) :
    guardFrame s p h (ingressStamp s p h.capture) seq = (some e.k, slotTaken s p h e.k seq) := by
  obtain ⟨src, bound, unmuted, epoch, cycle, slot, size, untaken⟩ := g
  have node : h.src ≠ 0xFF := by omega
  have fits : (slotsFor s p h).find? (fun x => fitsSlot (s.onNode p h.src (fun n => { n with epochOk := true })) p x h
      (ingressStamp s p h.capture)) = some e := by
    rw [← slot]
    congr 1
    funext x
    exact fitsSlot_onPort (by rfl) x h _
  have first : (((s.onNode p h.src (fun n => { n with epochOk := true })).port p).accepted.any
      (fun a => a.1 = h.type && a.2.1 = h.src && a.2.2.1 = e.k)) = false := by
    rw [List.any_eq_false]
    intro a ha
    unfold State.onNode at ha
    rw [State.onPort_port] at ha
    simpa [and_assoc] using untaken a ha
  unfold guardFrame
  dsimp only
  rw [if_neg node, if_neg (by simp [src, bound]), if_neg (by simp [unmuted]), if_neg (not_not.mpr epoch), if_pos (by exact cycle)]
  change (match (slotsFor s p h).find? _ with | none => _ | some e => _) = _
  rw [fits]
  dsimp only
  rw [first, if_neg (by decide), if_neg (not_lt.mpr size)]
  rfl

/-- A frame of the cycle is no copy of one accepted where none of its kind was noted (R206). -/
theorem isCopy_new {s : State} {p seq : Nat} {h : FrameHdr} (cycle : h.cycle = s.cycN)
    (new : ∀ a ∈ (s.port p).accepted, ¬ (a.1 = h.type ∧ a.2.1 = h.src ∧ (h.type = 2 ∨ a.2.2.2 = seq))) :
    isCopy s p h seq = false := by
  unfold isCopy acceptedIn
  rw [if_pos cycle, List.any_eq_false]
  intro a ha
  simpa [and_assoc] using new a ha

theorem isCopy_counted (s : State) (p : Nat) (h : FrameHdr) (seq : Nat) : isCopy (frameCounted s p) p h seq = isCopy s p h seq := by
  unfold isCopy acceptedIn frameCounted
  rw [State.onPort_port]
  rfl

/-- `s` with frame `h` received and accepted in slot `k`. -/
def frameTaken (s : State) (p : Nat) (h : FrameHdr) (k seq : Nat) : State :=
  (s.onNode p h.src (fun n => { n with epochOk := true })).onPort p (fun q => { q with
    rx := q.rx + 1, accept := q.accept + 1, accepted := q.accepted ++ [(h.type, h.src, k, seq)] })

theorem slotTaken_counted (s : State) (p : Nat) (h : FrameHdr) (k seq : Nat) :
    slotTaken (frameCounted s p) p h k seq = frameTaken s p h k seq := by
  unfold slotTaken frameCounted frameTaken State.onNode
  simp only [onPort_onPort]

theorem frameTaken_write (s : State) (p : Nat) (h : FrameHdr) (k seq : Nat) : PortWrite s (frameTaken s p h k seq) :=
  ((PortWrite.refl s).onPort p _).onPort p _

theorem frameTaken_port (s : State) (p : Nat) (h : FrameHdr) (k seq : Nat) :
    ((frameTaken s p h k seq).port p).accept = (s.port p).accept + 1 ∧ ((frameTaken s p h k seq).port p).rx = (s.port p).rx + 1 ∧
    ((frameTaken s p h k seq).port p).accepted = (s.port p).accepted ++ [(h.type, h.src, k, seq)] := by
  unfold frameTaken State.onNode
  rw [onPort_onPort, State.onPort_port]
  exact ⟨rfl, rfl, rfl⟩

/-- The guardian's verdict on a frame that passes the receive tests before it. -/
theorem guardFrame_counted {s : State} {p : Nat} {h : FrameHdr} {e : Slot} (g : GuardPasses s p h e) (seq : Nat) :
    guardFrame (frameCounted s p) p h (ingressStamp (frameCounted s p) p h.capture) seq = (some e.k, frameTaken s p h e.k seq) := by
  rw [guardFrame_passes g.counted, slotTaken_counted]

end Sys2Proof
end
section
/-! O49: what an accepted UPLINK, SENSOR frame and CLAIM bring (R203, R230, R236, R254). -/

namespace Sys2Proof

open Sys2Proof.Machine

/-! ### What stays of an accepted frame -/

/-- From `s` to `u` what port `p` counts and notes of frames stays, and so do STATUS and ACK_EPOCH of node `j`; nothing is let go on. -/
structure ReceiptKept (p j : Nat) (s u : State) : Prop where
  contained : ∀ {t : DT} {r : State}, Contained t r s → Contained t r u
  accept : (u.port p).accept = (s.port p).accept
  rx : (u.port p).rx = (s.port p).rx
  accepted : (u.port p).accepted = (s.port p).accepted
  status : u.g (F.FP_NODE_STATE_STATUS p j) = s.g (F.FP_NODE_STATE_STATUS p j)
  ack : u.g (F.FP_NODE_STATE_ACK_EPOCH p j) = s.g (F.FP_NODE_STATE_ACK_EPOCH p j)

theorem ReceiptKept.refl (p j : Nat) (s : State) : ReceiptKept p j s s := ⟨id, rfl, rfl, rfl, rfl, rfl⟩

theorem ReceiptKept.trans {p j : Nat} {s r u : State} (h : ReceiptKept p j s r) (k : ReceiptKept p j r u) : ReceiptKept p j s u where
  contained c := k.contained (h.contained c)
  accept := k.accept.trans h.accept
  rx := k.rx.trans h.rx
  accepted := k.accepted.trans h.accepted
  status := k.status.trans h.status
  ack := k.ack.trans h.ack

section Steps

variable {p j : Nat} {s r : State} (h : ReceiptKept p j s r)
include h

theorem ReceiptKept.ite {c : Prop} [Decidable c] {v : State} (k : ReceiptKept p j s v) : ReceiptKept p j s (if c then r else v) := by
  split <;> assumption

theorem ReceiptKept.onPort {f : FpSt → FpSt} (accept : (f (r.port p)).accept = (r.port p).accept)
    (rx : (f (r.port p)).rx = (r.port p).rx) (accepted : (f (r.port p)).accepted = (r.port p).accepted) :
    ReceiptKept p j s (r.onPort p f) := by
  refine h.trans ⟨((PortWrite.refl r).onPort p f).contained, ?_, ?_, ?_, onPort_g r p f _, onPort_g r p f _⟩ <;> rw [State.onPort_port]
  · exact accept
  · exact rx
  · exact accepted

theorem ReceiptKept.onNode (i : Nat) (f : FpNode → FpNode) : ReceiptKept p j s (r.onNode p i f) := h.onPort rfl rfl rfl

theorem ReceiptKept.put {f : Fld} (status : ∀ v, (r.put f v).g (F.FP_NODE_STATE_STATUS p j) = r.g (F.FP_NODE_STATE_STATUS p j))
    (ack : ∀ v, (r.put f v).g (F.FP_NODE_STATE_ACK_EPOCH p j) = r.g (F.FP_NODE_STATE_ACK_EPOCH p j)) (v : Nat) :
    ReceiptKept p j s (r.put f v) :=
  h.trans ⟨((PortWrite.refl r).put f v).contained, by rw [put_port], by rw [put_port], by rw [put_port], status v, ack v⟩

theorem ReceiptKept.keepsPorts {u : State} (hp : p < 8) (hj : j < 32) (k : KeepsPorts True r u) : ReceiptKept p j s u := by
  have place : pFP p + 0x818 + 0x20 * j = pFP p + (0x818 + 0x20 * j) := Nat.add_assoc _ _ _
  have field (l w : Nat) : u.g ⟨pFP p + 0x818 + 0x20 * j, l, w⟩ = r.g ⟨pFP p + 0x818 + 0x20 * j, l, w⟩ := by
    rw [place]
    exact k.port_g hp (by omega)
  have port := port_congr k.fp p
  exact h.trans ⟨fun c => k.contained c (k.devNow trivial), by rw [port], by rw [port], by rw [port], field 48 16, field 32 8⟩

theorem ReceiptKept.follows {u : State} (hp : p < 8) (hj : j < 32) (k : Follows False r u) : ReceiptKept p j s u :=
  h.keepsPorts hp hj ((KeepsPorts.refl r).follows k)

theorem ReceiptKept.relayOut (i : Nat) (b : RelayBody) : ReceiptKept p j s (relayOut r p i b) := by
  unfold Machine.relayOut
  refine .ite ?_ h
  have relayed : ReceiptKept p j s (r.onPort p (fun q => { q with relayed := q.relayed + 1 })) := h.onPort rfl rfl rfl
  exact relayed.trans ⟨fun c => c.regsOut _ _, rfl, rfl, rfl, rfl, rfl⟩

/-! ### An accepted UPLINK -/

theorem ReceiptKept.addDelay (i : Nat) (v : Int) : ReceiptKept p j s (addDelay r p i v) := h.onNode i _

/-- The delay value of an UPLINK does not touch what is noted of it (R208, R209). -/
theorem ReceiptKept.uplinkDelay (f : FrameHdr) (src : f.src = j) (b : UplinkBody) (stamp : DT) :
    ReceiptKept p j s (uplinkDelay r p f b stamp) := by
  subst src
  unfold Machine.uplinkDelay
  dsimp only
  refine .ite h ?_
  split
  · split
    · refine .ite h (.ite h (.addDelay (.put h (fun v => ?_) (fun v => ?_) _) _ _))
      · exact g_put_apart r (by decide) (by decide)
      · exact g_put_apart r (by decide) (by decide)
    · exact h
  · refine .ite (h.addDelay _ _) (.put (h.addDelay _ _) (fun v => ?_) (fun v => ?_) _)
    all_goals
      unfold nodeDelayFld
      split <;> exact g_put_elsewhere _ (by omega)

end Steps

/-- STATUS and ACK_EPOCH of node `j` as an accepted UPLINK carries them (R203). -/
def statusNoted (s : State) (p j : Nat) (b : UplinkBody) : State :=
  (s.put (F.FP_NODE_STATE_STATUS p j) b.status).put (F.FP_NODE_STATE_ACK_EPOCH p j) b.ackEpoch

theorem statusNoted_g (s : State) (p j : Nat) (b : UplinkBody) :
    (statusNoted s p j b).g (F.FP_NODE_STATE_STATUS p j) = b.status % 2 ^ 16 ∧
    (statusNoted s p j b).g (F.FP_NODE_STATE_ACK_EPOCH p j) = b.ackEpoch % 2 ^ 8 :=
  ⟨(g_put_apart _ (by decide) (by decide)).trans (g_put_field s (by decide)), g_put_field _ (by decide)⟩

theorem statusNoted_port (s : State) (p j : Nat) (b : UplinkBody) (i : Nat) : (statusNoted s p j b).port i = s.port i := by
  unfold statusNoted
  rw [put_port, put_port]

theorem noteStatus_kept {p j : Nat} (hp : p < 8) (hj : j < 32) (s : State) (b : UplinkBody) :
    ReceiptKept p j (statusNoted s p j b) (noteStatus s p j b) := by
  have noted := ReceiptKept.refl p j (statusNoted s p j b)
  unfold noteStatus
  extract_lets old n fell s1 s2 s3
  have ports : ReceiptKept p j (statusNoted s p j b) s2 := noted.onNode j _
  have told : ReceiptKept p j (statusNoted s p j b) s3 := .ite (ports.onPort rfl rfl rfl) ports
  exact .ite (told.follows hp hj (Follows.raisePage _ _ _ _)) told

/-- What an UPLINK makes that is received, accepted in its slot and no copy (R203, R206, R230). -/
theorem uplinkReceived_accepted {s : State} {p : Nat} {h : FrameHdr} {e : Slot} (k : FramePasses s p h) (g : GuardPasses s p h e)
    (new : isCopy s p h 0 = false) (b : UplinkBody) : uplinkReceived s p h b =
      relayOut (fbUplink (uplinkDelay (noteStatus (frameTaken s p h e.k 0) p h.src b) p h b (ingressStamp s p h.capture)) p h.src b.recs)
        p h.src (.uplink h b) := by
  unfold uplinkReceived
  rw [fpReceive_passes k]
  dsimp only
  rw [guardFrame_counted g, isCopy_counted, new]
  rfl

/-- An accepted UPLINK is counted and noted, and its STATUS and ACK_EPOCH are those of the node (R203, R230). -/
theorem uplinkReceived_counts {t : DT} {p : Nat} {h : FrameHdr} {s : State} {e : Slot} (hp : p < 8) (quiet : QuadQuiet s)
    (k : FramePasses (arrive t s) p h) (g : GuardPasses (arrive t s) p h e) (new : isCopy (arrive t s) p h 0 = false) (b : UplinkBody) :
    ∃ u, exec (.uplinkReceived t p h b) s = .next u ∧ (u.port p).accept = (s.port p).accept + 1 ∧ (u.port p).rx = (s.port p).rx + 1 ∧
      (u.port p).accepted = (s.port p).accepted ++ [(h.type, h.src, e.k, 0)] ∧
      u.g (F.FP_NODE_STATE_STATUS p h.src) = b.status % 2 ^ 16 ∧ u.g (F.FP_NODE_STATE_ACK_EPOCH p h.src) = b.ackEpoch % 2 ^ 8 := by
  have effect := uplinkReceived_accepted k g new b
  obtain ⟨accept, rx, accepted⟩ := frameTaken_port (arrive t s) p h e.k 0
  have write := frameTaken_write (arrive t s) p h e.k 0
  generalize frameTaken (arrive t s) p h e.k 0 = r at effect accept rx accepted write
  have kept := (((noteStatus_kept hp g.src r b).uplinkDelay h rfl b (ingressStamp (arrive t s) p h.capture)).keepsPorts hp g.src
    ((KeepsPorts.refl _).fbUplink p h.src b.recs)).relayOut h.src (.uplink h b)
  obtain ⟨status, ack⟩ := statusNoted_g r p h.src b
  have noted : PortWrite (arrive t s) (statusNoted r p h.src b) := (write.put _ _).put _ _
  have caught : (fun r : State => if p < 8 then uplinkReceived (qeCatchUp r false) p h b else r) (arrive t s) =
      uplinkReceived (arrive t s) p h b := by
    dsimp only
    rw [if_pos hp, qeCatchUp_arrive quiet]
  obtain ⟨u, next, port, regs, -⟩ := exec_port (c := .uplinkReceived t p h b) rfl (caught.trans effect)
    (kept.contained (noted.contained (.arrive t s)))
  have place : pFP p + 0x818 + 0x20 * h.src = pFP p + (0x818 + 0x20 * h.src) := Nat.add_assoc _ _ _
  have src := g.src
  have word := regs (pFP p + 0x818 + 0x20 * h.src) (by rw [place]; exact eventReg_port hp (by omega))
  refine ⟨u, next, ?_, ?_, ?_, (congrArg (fun x => getBits x 48 16) word).trans (kept.status.trans status),
    (congrArg (fun x => getBits x 32 8) word).trans (kept.ack.trans ack)⟩
  · rw [port, kept.accept, statusNoted_port, accept, arrive_port]
  · rw [port, kept.rx, statusNoted_port, rx, arrive_port]
  · rw [port, kept.accepted, statusNoted_port, accepted, arrive_port]

/-! ### An accepted SENSOR frame -/

theorem sensorReceived_accepted {s : State} {p : Nat} {h : FrameHdr} {e : Slot} (k : FramePasses s p h) (g : GuardPasses s p h e)
    (b : SensorBody) (new : isCopy s p h b.seq = false) :
    sensorReceived s p h b = relayOut (aeSensor (frameTaken s p h e.k b.seq) p h.src b) p h.src (.sensor h b) := by
  unfold sensorReceived
  rw [fpReceive_passes k]
  dsimp only
  rw [guardFrame_counted g, isCopy_counted, new]
  rfl

/-- Whether relay is carried for a segment depends on its topology, its port and the partner (R217). -/
theorem relayOn_congr {r s : State} {p : Nat} (topo : r.g (F.FP_STATE_TOPO p) = s.g (F.FP_STATE_TOPO p))
    (broke : (r.port p).brokeNow = (s.port p).brokeNow) (link : r.tw.link = s.tw.link) (role : r.tw.role = s.tw.role) :
    relayOn r p = relayOn s p := by
  unfold relayOn
  rw [topo, broke, link, role]

theorem relayOn_frameTaken (s : State) (p : Nat) (h : FrameHdr) (k seq : Nat) : relayOn (frameTaken s p h k seq) p = relayOn s p := by
  refine relayOn_congr rfl ?_ rfl rfl
  unfold frameTaken State.onNode
  rw [onPort_onPort, State.onPort_port]

theorem KeepsPorts.relayOn {D : Prop} {s u : State} (k : KeepsPorts D s u) {p : Nat} (hp : p < 8) : relayOn u p = relayOn s p :=
  relayOn_congr (k.port_g hp (by decide)) (by rw [port_congr k.fp p]) k.link k.role

theorem relayOut_off {s : State} {p : Nat} (off : relayOn s p = false) (j : Nat) (b : RelayBody) : relayOut s p j b = s :=
  if_neg (by simp [off])

/-- An accepted SENSOR frame is counted and noted, and its samples are taken; nothing else where no relay is carried (R230, R254). -/
theorem sensorReceived_takes {t : DT} {p : Nat} {h : FrameHdr} {s : State} {e : Slot} (hp : p < 8) (k : FramePasses (arrive t s) p h)
    (g : GuardPasses (arrive t s) p h e) (b : SensorBody) (new : isCopy (arrive t s) p h b.seq = false)
    (apart : (aeSensor (frameTaken (arrive t s) p h e.k b.seq) p h.src b).devNow = s.devNow) :
    (relayOn s p = false → Does (.sensorReceived t p h b) s (aeSensor (frameTaken (arrive t s) p h e.k b.seq) p h.src b)) ∧
    ∃ u, exec (.sensorReceived t p h b) s = .next u ∧ (u.port p).accept = (s.port p).accept + 1 ∧
      (u.port p).accepted = (s.port p).accepted ++ [(h.type, h.src, e.k, b.seq)] := by
  have effect : (fun r : State => if p < 8 then sensorReceived r p h b else r) (arrive t s) = _ :=
    (if_pos hp).trans (sensorReceived_accepted k g b new)
  obtain ⟨accept, -, accepted⟩ := frameTaken_port (arrive t s) p h e.k b.seq
  have write := frameTaken_write (arrive t s) p h e.k b.seq
  have relay := relayOn_frameTaken (arrive t s) p h e.k b.seq
  generalize frameTaken (arrive t s) p h e.k b.seq = r at effect accept accepted write relay apart ⊢
  have samples := (KeepsPorts.refl (D := False) r).aeSensor p h.src b
  have taken : Contained t s (aeSensor r p h.src b) := by
    have start := write.contained (.arrive t s)
    exact samples.contained start (apart.trans start.devNow.symm)
  refine ⟨fun off => ?_, ?_⟩
  · have quiet : relayOn (aeSensor r p h.src b) p = false := by
      rw [samples.relayOn hp, relay, ← off]
      exact relayOn_congr (arrive_g t s _) (by rw [arrive_port]) (by rw [arrive_tw]) (by rw [arrive_tw])
    rw [relayOut_off quiet] at effect
    exact does_of_follows (c := .sensorReceived t p h b) rfl effect taken (Follows.refl _)
  · have kept := (ReceiptKept.refl p h.src (aeSensor r p h.src b)).relayOut h.src (.sensor h b)
    obtain ⟨u, next, port, -⟩ := exec_port (c := .sensorReceived t p h b) rfl effect (kept.contained taken)
    refine ⟨u, next, ?_, ?_⟩
    · rw [port, kept.accept, port_congr samples.fp, accept, arrive_port]
    · rw [port, kept.accepted, port_congr samples.fp, accepted, arrive_port]

/-! ### A CLAIM -/

@[simp] theorem arrive_poolSlots (t : DT) (s : State) (p : Nat) : poolSlots (arrive t s) p = poolSlots s p := by
  unfold poolSlots
  simp only [arrive_scheduled, arrive_slotsOf, arrive_liveBank, arrive_port]
@[simp] theorem arrive_fromFarHead (t : DT) (s : State) (p : Nat) (h : FrameHdr) : fromFarHead (arrive t s) p h = fromFarHead s p h := by
  unfold fromFarHead ownEnd
  simp only [arrive_standby, arrive_scheduled, arrive_g]

/-- A CLAIM that the active takes for the entry `b.slot` of its pool, in the entry's window (R236, R237). -/
structure ClaimPasses (s : State) (p : Nat) (h : FrameHdr) (b : AnnounceBody) : Prop where
  active : s.active = true
  slot : b.slot < 64
  far : h.src = 0xFF → fromFarHead s p h = true
  free : ∀ g ∈ (s.port p).grants, ¬ (g.cycle = s.time.cycle ∧ g.slot = b.slot)
  pool : (poolSlots s p).any (fun e => e.k = b.slot) = true
  window : inSpareWindow s p (slotOf s p (liveBank s p) b.slot) (ingressStamp s p h.capture) = true
  size : h.size ≤ (slotOf s p (liveBank s p) b.slot).len
  claims : b.action = 1

/-- The claim that a CLAIM brings. -/
def claimOf (s : State) (p : Nat) (h : FrameHdr) (b : AnnounceBody) : FpClaim :=
  { slot := b.slot, mac := h.srcMac, sp := b.spRecords, pos := b.posRecords, sensor := b.sensorCh, maxUl := b.maxUl, fwd := b.fwdLat
    vendor := b.vendor, stamp := ingressStamp s p h.capture, node := 0, cycle := s.time.cycle, cancel := false }

/-- `s` with a CLAIM counted and among the claims of the cycle. -/
def claimJoined (s : State) (p : Nat) (x : FpClaim) : State :=
  s.onPort p (fun q => { q with rx := q.rx + 1, accept := q.accept + 1, claims := q.claims ++ [x] })

theorem claimReceived_joins {s : State} {p : Nat} {h : FrameHdr} {b : AnnounceBody} (k : FramePasses s p h) (c : ClaimPasses s p h b) :
    claimReceived s p h b = claimJoined s p (claimOf s p h b) := by
  obtain ⟨active, slot, far, free, pool, window, size, claims⟩ := c
  have ungranted : grantNow (frameCounted s p) p (fun g => g.slot = b.slot) = none := by
    unfold frameCounted
    rw [grantNow_onPort (by rfl)]
    unfold grantNow
    rw [List.find?_eq_none]
    intro g hg
    simpa using free g hg
  have pooled : (poolSlots (frameCounted s p) p).any (fun e => e.k = b.slot) = true := by
    rw [← pool]
    unfold poolSlots frameCounted
    rw [State.onPort_port]
    rfl
  have near : (decide (h.src = 0xFF) && !fromFarHead s p h) = false := by
    by_cases src : h.src = 0xFF
    · simp [far src]
    · simp [src]
  have admitted : (decide (h.src = 0xFF) && !fromFarHead (frameCounted s p) p h || decide (b.slot ≥ 64) ||
      !(true || (Option.none : Option FpClaim).isSome) ||
      !inSpareWindow (frameCounted s p) p (slotOf (frameCounted s p) p (liveBank (frameCounted s p) p) b.slot)
        (ingressStamp (frameCounted s p) p h.capture)) = false := by
    change (decide (h.src = 0xFF) && !fromFarHead s p h || decide (b.slot ≥ 64) || !(true || (Option.none : Option FpClaim).isSome) ||
      !inSpareWindow s p (slotOf s p (liveBank s p) b.slot) (ingressStamp s p h.capture)) = false
    rw [near, window]
    simpa using slot
  have running : (frameCounted s p).active = true := active
  unfold claimReceived
  rw [fpReceive_passes k]
  dsimp only
  rw [if_neg (by rw [running]; decide), ungranted, pooled, admitted, if_neg (by decide), if_neg (not_lt.mpr (by exact size))]
  dsimp only
  rw [if_pos claims]
  unfold claimJoined frameCounted
  simp only [onPort_onPort]
  rfl

/-- A CLAIM that is taken is counted and joins the claims of the cycle; nothing else comes of it (R236). -/
theorem claimReceived_counts {t : DT} {p : Nat} {h : FrameHdr} {s : State} {b : AnnounceBody} (hp : p < 8)
    (k : FramePasses (arrive t s) p h) (c : ClaimPasses (arrive t s) p h b) :
    ∃ u, exec (.claimReceived t p h b) s = .next u ∧ (u.port p).accept = (s.port p).accept + 1 ∧
      (∃ x : FpClaim, (u.port p).claims = (s.port p).claims ++ [x] ∧ x.slot = b.slot ∧ x.mac = h.srcMac ∧ x.cycle = s.time.cycle) ∧
      (∀ b, eventReg b = false → u.reg b = s.reg b) ∧ Ends { arrive t s with fp := u.fp } u := by
  have effect : (fun r : State => if p < 8 then claimReceived r p h b else r) (arrive t s) =
      claimJoined (arrive t s) p (claimOf (arrive t s) p h b) := (if_pos hp).trans (claimReceived_joins k c)
  obtain ⟨u, next, port, regs, -, ends⟩ := exec_portWrite (c := .claimReceived t p h b) rfl effect
    ((PortWrite.refl _).onPort p _) (Follows.refl _)
  have cycle : (arrive t s).time.cycle = s.time.cycle := by rw [arrive_time, advance_cycle]
  have joined : u.port p = { s.port p with
      rx := (s.port p).rx + 1, accept := (s.port p).accept + 1, claims := (s.port p).claims ++ [claimOf (arrive t s) p h b] } := by
    rw [port, State.onPort_port, arrive_port]
  refine ⟨u, next, by rw [joined], ⟨_, by rw [joined], rfl, rfl, cycle⟩, fun b hb => ?_, ?_⟩
  · rw [regs b hb, onPort_reg, arrive_reg]
  · rw [ends.fp]
    exact ends

/-! ### O49 -/

/-- Where `h` is looked at in `s`, so it is once device time has come to its DT. -/
theorem GuardPasses.arrive {t : DT} {s : State} {p : Nat} {h : FrameHdr} {e : Slot} (src : h.src < 32)
    (bound : s.gb (F.FP_GNODE_STATE_BOUND p h.src) = true) (unmuted : s.gb (F.FP_GNODE_STATE_MUTED p h.src) = false)
    (epoch : h.epoch = s.g F.FP_EPOCH_STATE_CURRENT % 256) (cycle : h.cycle = s.cycN)
    (slot : (slotsFor s p h).find? (fun x => fitsSlot (arrive t s) p x h (ingressStamp (arrive t s) p h.capture)) = some e)
    (size : h.size ≤ e.len) (untaken : ∀ a ∈ (s.port p).accepted, ¬ (a.1 = h.type ∧ a.2.1 = h.src ∧ a.2.2.1 = e.k)) :
    GuardPasses (arrive t s) p h e where
  src := src
  bound := (arrive_gb t s _).trans bound
  unmuted := (arrive_gb t s _).trans unmuted
  epoch := epoch.trans (by rw [arrive_g])
  cycle := cycle.trans (arrive_cycN t s).symm
  slot := by
    rw [← slot]
    unfold slotsFor
    rw [arrive_slotsOf, arrive_liveBank]
  size := size
  untaken := by
    rw [arrive_port]
    exact untaken

/-- Settles O49: a frame that passes the receive tests and the guardian is counted and noted, and what it carries is taken; a CLAIM
in the window of its entry joins the claims. -/
theorem uplinksAndClaimsAreAccepted : Obligations.UplinksAndClaimsAreAccepted := by
  intro t p h s hp on room fcs least most etherType untagged version segment length q
  have passes (known : 1 ≤ h.type ∧ h.type ≤ 6) : FramePasses (arrive t s) p h :=
    .arrive ⟨on, room, fcs, least, most, etherType, untagged, version, segment, known, length⟩ t
  refine ⟨fun b e quiet type src bound unmuted epoch cycle only fits size first => ?_,
    fun b e type src bound unmuted epoch cycle slot size first => ?_,
    fun b type active slot far free pool window size claims => ?_⟩
  · have slots : slotsFor s p h = [e] := by
      rw [← only, slotsFor, type]
      rfl
    have guard : GuardPasses (arrive t s) p h e := .arrive src bound unmuted epoch cycle (by rw [slots, List.find?_singleton, if_pos fits]) size
      fun a ha same => first a ha ⟨same.1.trans type, same.2.1⟩
    have new : isCopy (arrive t s) p h 0 = false := isCopy_new guard.cycle fun a ha same =>
      first a (by rwa [arrive_port] at ha) ⟨same.1.trans type, same.2.1⟩
    have counts := uplinkReceived_counts hp quiet (passes (by omega)) guard new b
    rw [type] at counts
    exact counts
  · intro took apart
    have slots : slotsFor s p h = (slotsOf s p (liveBank s p)).filter (fun x => x.kind = 2 && x.node = h.src) := by
      rw [slotsFor, type]
      rfl
    have guard : GuardPasses (arrive t s) p h e := .arrive src bound unmuted epoch cycle (slots ▸ slot) size
      fun a ha ⟨kind, node, place⟩ => first a ha ⟨kind.trans type, node, .inl place⟩
    have new : isCopy (arrive t s) p h b.seq = false := isCopy_new guard.cycle fun a ha ⟨kind, node, again⟩ =>
      first a (by rwa [arrive_port] at ha) ⟨kind.trans type, node, .inr (again.resolve_left (by omega))⟩
    have taken : frameTaken (arrive t s) p h e.k b.seq = took := by
      rw [frameTaken, type]
    rw [← taken] at apart ⊢
    rw [← type]
    exact sensorReceived_takes hp (passes (by omega)) guard b new apart
  · refine claimReceived_counts hp (passes (by omega)) ⟨?_, slot, ?_, ?_, ?_, ?_, ?_, claims⟩
    · rwa [arrive_active]
    · rwa [arrive_fromFarHead]
    · rwa [arrive_port, arrive_time, advance_cycle]
    · rwa [arrive_poolSlots]
    · rwa [arrive_slotOf, arrive_liveBank]
    · rwa [arrive_slotOf, arrive_liveBank]

end Sys2Proof
end
section
/-! A pulse that leaves while a request of the cycle is left over (R57, R268): the counterexample to O52. -/

namespace Sys2Proof

open Sys2Proof.Machine

/-! ### The level of a pin -/

/-- A pin is high up to an instant, and its level depends on that instant and on the present DT alone (R268). -/
theorem trigOut_congr {r u : State} (high : u.ae.high = r.ae.high) (dt : u.dt = r.dt) (k : Nat) : trigOut u k = trigOut r k := by
  unfold trigOut
  rw [high, dt]

theorem Ends.ae {r u : State} (h : Ends r u) : u.ae = r.ae := by rw [h.rest]; rfl

/-- Behind a command a pin has the level that it has once the requests of the cycle are carried out. -/
theorem Ends.trigOut {r u : State} (h : Ends r u) (k : Nat) : trigOut u k = Machine.trigOut (asked r) k :=
  trigOut_congr (r := asked r) (congrArg AeSt.high h.ae) (by unfold State.dt; rw [h.rest]) k

/-- Pulses that leave let nothing more go on. -/
theorem pulseBegin_contained (t : DT) (s : State) (pin : Nat) : Contained t s (pulseBegin (arrive t s) pin) :=
  forEach_keeps (P := Contained t s) (fun q r => pulseOn r q)
    (fun _ _ h => ⟨h.time, h.pending, h.devNow, h.queues, h.answered⟩) _ _ (.arrive t s)

/-! ### The counterexample -/

/-- The machine after reset with a pulse of 1 ns scheduled for DT 0 on TRIG_OUT(0), and with the request that ends all time left over. -/
def pulseBesideRequest : State :=
  { State.reset with
    cyc := { State.reset.cyc with ask := [.off] }
    ae := { State.reset.ae with pulses := [⟨0, 0, 1⟩] } }

/-- DT 2 ns, at which the width of that pulse has passed. -/
def twoNanoseconds : DT := 131072

theorem pulseBesideRequest_due :
    let due (q : AePulse) : Bool := q.pin = 0 && decide (0 ≤ ((pulseBesideRequest.time.advance twoNanoseconds).dt - q.start).toInt)
    pulseBesideRequest.ae.pulses.any due = true ∧ pulseBesideRequest.ae.pulses.filter due = [⟨0, 0, 1⟩] ∧
      pulseBesideRequest.ae.high.look 0 = none := by decide +kernel

/-- With the request carried out device time stands at 0 again, before the end of the pulse. -/
theorem pulseBesideRequest_high : trigOut (asked (pulseBegin (arrive twoNanoseconds pulseBesideRequest) 0)) 0 = true := by
  decide +kernel

theorem pulseBesideRequest_passed : decide (((pulseBesideRequest.time.advance twoNanoseconds).dt -
    ((0 : DT) + BitVec.ofNat 64 (1 * 65536))).toInt < 0) = false := by decide +kernel

/-- Refutes O52, in its last clause: the clause leaves out the premise that no request of the cycle is left over (`Settled`). Such a
request is carried out before the command ends; where it ends all time (R409), the pin is not compared with the DT at which its pulse
left. -/
theorem not_triggersFireAndPulsesLeave : ¬ Obligations.TriggersFireAndPulsesLeave := by
  intro h
  obtain ⟨-, -, -, -, pulses⟩ := h twoNanoseconds 0 0 0 false 0 pulseBesideRequest (by decide) (by decide)
  obtain ⟨due, alone, low⟩ := pulseBesideRequest_due
  obtain ⟨u, hu, -, -, level, -⟩ := pulses due
  have effect : exec (.trigOutPulse twoNanoseconds 0) pulseBesideRequest =
      .next (run twoNanoseconds pulseBesideRequest (fun s => pulseBegin s 0)) := rfl
  have ends : Ends (pulseBegin (arrive twoNanoseconds pulseBesideRequest) 0) u := by
    rw [Host.Outcome.next.inj (hu.symm.trans effect)]
    exact run_ends_of_effect rfl (pulseBegin_contained _ _ _)
  have high : trigOut u 0 = true := (ends.trigOut 0).trans pulseBesideRequest_high
  have passed : trigOut u 0 = false := (level _ alone low).trans pulseBesideRequest_passed
  exact Bool.false_ne_true (passed.symm.trans high)

end Sys2Proof
end
section
/-! The completion of a packet that does not translate, written over the stream's own ST_STATUS (R257, R272, R369, R375): the
counterexample to O53. -/

namespace Sys2Proof

open Sys2Proof.Machine

/-! ### Words of the stream descriptors -/

/-- A descriptor of a stream is not watched: a block's write to it is one to memory (R250). -/
theorem devWrite_descriptor {a : Nat} (low : stBase 0 ≤ a) (high : a < stBase 256) (s : State) (m v : Nat) :
    devWrite s m a v = s.setWord a v := by
  simp only [stBase, sramBase] at low high
  have memory : inMemory a = true := by
    unfold inMemory sramBase dramBase
    simp only [Bool.or_eq_true, Bool.and_eq_true, decide_eq_true_eq]
    omega
  have direct : xlate s a = .mem a := by
    unfold xlate directTarget
    rw [if_neg (by omega), if_pos (by omega), if_neg (by omega), if_pos memory]
  have unwatched : watchedWord a = false := by
    unfold watchedWord sramBase
    simp only [Bool.and_eq_false_iff, Bool.or_eq_false_iff, decide_eq_false_iff_not]
    omega
  unfold devWrite
  simp only [direct, unwatched, Bool.and_false, Bool.false_eq_true, if_false]

theorem devWrites_descriptor_moves (m : Nat) (l : List Nat) :
    ∀ {a : Nat} (s : State), stBase 0 ≤ a → a + 8 * l.length ≤ stBase 256 →
      Moves (fun _ => True) False s (devWrites s m a l) := by
  induction l with
  | nil => exact fun s _ _ => .refl s
  | cons v l ih =>
    intro a s low high
    simp only [List.length_cons] at high
    unfold devWrites
    rw [devWrite_descriptor low (by omega)]
    exact (Moves.setWord s a v fun _ _ => trivial).trans (ih _ (by omega) (by omega))

theorem bytesAt_setWord {a : Nat} (aligned : a % 8 = 0) (s : State) (v : Nat) : (s.setWord a v).bytesAt a 8 = v % 2 ^ 64 := by
  have start : a / 8 * 8 = a := by omega
  unfold State.setWord
  rw [start]
  exact bytesAt_setBytes 8 _ a v

theorem bytesAt_setWord_other (s : State) (v : Nat) {a b : Nat} (aligned : b % 8 = 0) (h : b / 8 ≠ a / 8) :
    (s.setWord a v).bytesAt b 8 = s.bytesAt b 8 :=
  bytesAt_eq_of_bytes 8 b fun c _ _ => State.byte_setWord_other s a v (by omega)

/-- Of eight words written to descriptors the fourth reads back. -/
theorem devWrites_fourth {a : Nat} (low : stBase 0 ≤ a) (high : a + 64 ≤ stBase 256) (aligned : a % 8 = 0) (s : State)
    (m v0 v1 v2 v3 v4 v5 v6 v7 : Nat) :
    (devWrites s m a [v0, v1, v2, v3, v4, v5, v6, v7]).bytesAt (a + 24) 8 = v3 % 2 ^ 64 := by
  have write (i : Nat) (hi : i < 64) (s : State) (v : Nat) : devWrite s m (a + i) v = s.setWord (a + i) v :=
    devWrite_descriptor (by omega) (by omega) s m v
  have other (i : Nat) (hi : i % 8 = 0) (h : i ≠ 24) (s : State) (v : Nat) :
      (s.setWord (a + i) v).bytesAt (a + 24) 8 = s.bytesAt (a + 24) 8 :=
    bytesAt_setWord_other s v (by omega) (by omega)
  simp only [devWrites, Nat.add_assoc, Nat.reduceAdd]
  rw [write 56 (by decide), other 56 (by decide) (by decide), write 48 (by decide), other 48 (by decide) (by decide),
    write 40 (by decide), other 40 (by decide) (by decide), write 32 (by decide), other 32 (by decide) (by decide),
    write 24 (by decide), bytesAt_setWord (by omega)]

/-- The state that a zero word of ST_STATUS shows is IDLE, poisoned or not. -/
theorem str_state_zero {s : State} {n : Nat} (h : s.bytesAt (stBase n + 0x40) 8 = 0) : (s.str n).state = 0 := by
  have aligned : (stBase n + 0x40) / 8 * 8 = stBase n + 0x40 := by unfold stBase sramBase; omega
  have word : s.word (stBase n + 0x40) = 0 := by
    unfold State.word
    rw [aligned, h]
    split <;> rfl
  exact congrArg (fun v => getBits v 61 3) word

/-! ### A packet that fails -/

/-- `r` is `s` with ST_STATUS of stream `n` zero, and with what the acquisition engine holds and asks for as it was. -/
structure StatusErased (n : Nat) (s r : State) : Prop where
  ae : r.ae = s.ae
  devNow : r.devNow = s.devNow
  hub : r.enabled pEH = s.enabled pEH
  status : r.bytesAt (stBase n + 0x40) 8 = 0

/-- A completion whose descriptor stands from offset 0x28 of a stream's on has its fourth word, which is 0, in ST_STATUS (R369). -/
theorem devCarried_erases {s : State} {n : Nat} (hn : n < 255) (on : (s.dma.look 24).state ≠ 0)
    (place : (s.dma.look 24).base + 64 * ((s.dma.look 24).rd % 2 ^ (s.dma.look 24).sizeLog2) = stBase n + 0x28)
    (dst len code bytes : Nat) : StatusErased n s (devCarried s 12 dst len code bytes) := by
  have low : stBase 0 ≤ stBase n + 0x28 := by unfold stBase; omega
  have high : stBase n + 0x28 + 64 ≤ stBase 256 := by unfold stBase; omega
  have aligned : (stBase n + 0x28) % 8 = 0 := by unfold stBase sramBase; omega
  unfold devCarried
  simp only [show 2 * 12 = 24 from rfl, place, if_neg on]
  have moves (l : List Nat) (short : l.length = 8) :
      Moves (fun _ => True) False s (devWrites s.nextFree (0x20 + 12) (stBase n + 0x28) l) :=
    (Moves.nextFree s).trans (devWrites_descriptor_moves _ _ _ low (by rwa [short]))
  have posted := moves [(Config.freeValue s.free).toNat, dst, len, 0, 0, 0, statusWord s.nextFree code bytes, s.dtN] rfl
  have erased := devWrites_fourth low high aligned s.nextFree (0x20 + 12) (Config.freeValue s.free).toNat dst len 0 0 0
    (statusWord s.nextFree code bytes) s.dtN
  generalize devWrites s.nextFree (0x20 + 12) (stBase n + 0x28) _ = r at posted erased ⊢
  exact {
    ae := show r.ae = s.ae by rw [posted.rest]
    devNow := show r.devNow = s.devNow by rw [posted.rest]
    hub := by
      refine congrArg (fun v => getBits v 0 1 != 0) ?_
      rw [State.reg_put_other _ _ _ (by decide), State.reg_setReg_other _ _ (by decide)]
      exact posted.regs _ (by decide)
    status := by
      rw [Nat.zero_mod, Nat.add_assoc] at erased
      exact (bytesAt_congr rfl 8 _).trans erased }

/-- With the event hub disabled the report of a translation fault leaves memory as it is (R365). -/
theorem StatusErased.raiseXuFault {n : Nat} {s r : State} (h : StatusErased n s r) (off : s.enabled pEH = false) (m l a : Nat)
    {k : Nat} (hk : k ≠ 4) : StatusErased n s (raiseXuFault r m k l a) := by
  have noted : Moves (fun _ => False) False r (noteXuFault r m k l a) := Moves.noteXuFault r m k l a
  have noted_hub : (noteXuFault r m k l a).enabled pEH = r.enabled pEH :=
    congrArg (fun v => getBits v 0 1 != 0) (noted.regs _ (by decide))
  have raised : Follows False (noteXuFault r m k l a)
      (raisePage2 (noteXuFault r m k l a) pXU 1 (m + (k <<< 16) + (l <<< 24)) a 0) := Follows.raisePage2 _ _ _ _ _ _
  obtain ⟨mem, -⟩ := raised.quiet (noted_hub.trans (h.hub.trans off))
  have reported : Machine.raiseXuFault r m k l a = raisePage2 (noteXuFault r m k l a) pXU 1 (m + (k <<< 16) + (l <<< 24)) a 0 := by
    unfold Machine.raiseXuFault
    simp only [if_neg hk]
  rw [reported]
  exact {
    ae := by rw [raised.rest]; exact h.ae
    devNow := by rw [raised.rest]; exact h.devNow
    hub := raised.enabled.trans (noted_hub.trans h.hub)
    status := (bytesAt_congr (mem.trans rfl) 8 _).trans h.status }

/-- A packet that fits its ring, but whose place there does not translate, fails: PATH (R272, R375). -/
theorem hand_untranslated {s : State} {n k l a : Nat} {p : AeOut} (clean : s.poison = []) (own : p.cause = 0)
    (fits : s.word (stBase n + 0x38) % (s.str n).size + p.len ≤ (s.str n).size) (queue : s.ae.path + p.len / 64 ≤ pathDepth)
    (free : (p.len + 64 : Int) ≤ ringFree s n)
    (fault : spanFault s ((s.str n).base + s.word (stBase n + 0x38) % (s.str n).size) p.len = some (k, l, a)) :
    hand s n p = .fails (raiseXuFault (devCarried s 12 ((s.str n).base + s.word (stBase n + 0x38) % (s.str n).size) p.len 3 0)
      0x2C k l a) 2 := by
  have read : s.noteReads 0x47 (stBase n + 0x28) 5 = s := if_pos clean
  unfold hand
  simp only [read, if_neg (Nat.not_lt.mpr fits), if_neg (Nat.not_lt.mpr queue), Nat.cast_zero, zero_add, own,
    decide_true, Bool.true_and, decide_eq_true_eq, if_neg (not_lt.mpr free), if_true, fault]

/-- A packet that needs no assembly buffer, of a stream where nothing waits: a failure with which the stream stops drops it alone. -/
theorem writePacket_lost {s t : State} {n c : Nat} {p : AeOut} (unbuffered : p.buffered = false) (held : (s.str n).held = [])
    (failed : hand s n p = .fails t c) (idle : (t.str n).state = 0) (more : List DT) : writePacket s n p more = t := by
  have stopped : strLive t n = false := by
    unfold strLive
    rw [idle]
    rfl
  unfold writePacket packetFails
  simp only [unbuffered, Bool.false_eq_true, if_false, ne_eq, not_true_eq_false, held, failed, stopped]

/-- Where the streams have been told the time state and the selection that stand, no MAPPING packet follows from them (R262). -/
theorem mapFollow_told {s : State} (told : s.ae.told = (s.tu.tstate, s.tu.selected)) : mapFollow s = s := by
  unfold mapFollow
  simp only [told, if_true]
  rw [← told]

/-- With the event hub disabled a command leaves memory as its effect has made it. -/
theorem Ends.mem {r u : State} (h : Ends r u) (off : r.enabled pEH = false) : u.mem = r.mem := (h.quiet off).1

/-! ### The counterexample -/

/-- The machine after reset with stream 0 RUNNING, its ring of 4 KiB at an address that names nothing, and with a ring 0 of DM12 whose
descriptor stands from offset 0x28 of the descriptor of stream 0 on. -/
def ringOverStatus : State :=
  { State.reset with
    ae := { State.reset.ae with str := [(0, { (default : AeStr) with base := 0x5000000, size := 4096 })] }
    dma := [(24, { (default : DmaRing) with state := 1, base := stBase 0 + 0x28 })] }.setWord (stBase 0 + 0x40) (2 <<< 61)

/-- The state of its stream once MAP_INTERVAL has passed and the interval has moved on, before the packet is written. -/
def mappingDue : State := (arrive oneSecond ringOverStatus).onStr 0 (fun x => { x with mapped := oneSecond })

/-- The MAPPING packet of that interval. -/
def mappingPacket : AeOut := packet mappingDue 3 mappingDue.stamp 0 0 (padTo 96 (mappingBytes mappingDue 2)) mappingDue.stamp

/-- The state behind the transfer that fails. -/
def mappingLost : State := raiseXuFault (devCarried mappingDue 12 0x5000000 128 3 0) 0x2C 1 0 0x5000000

theorem ringOverStatus_due :
    ringOverStatus.ae.told = ((arrive oneSecond ringOverStatus).tu.tstate, (arrive oneSecond ringOverStatus).tu.selected) ∧
    (ringOverStatus.str 0).state = 2 ∧ (∀ q < 16, ringOverStatus.gb (F.EH_QCFG_EN q) = false) ∧
    0 ≤ ((ringOverStatus.time.advance oneSecond).dt - ((ringOverStatus.str 0).mapped +
      BitVec.ofInt 64 ((max 1 (ringOverStatus.g F.AE_CFG_MAP_INTERVAL) * 1000000000 * 65536 : Nat) : Int))).toInt := by
  decide +kernel

theorem mappingDue_fails : hand mappingDue 0 mappingPacket = .fails mappingLost 2 := by
  have len : mappingPacket.len = 128 := by decide +kernel
  have size : (mappingDue.str 0).size = 4096 := by decide +kernel
  have wr : mappingDue.word (stBase 0 + 0x38) = 0 := by decide +kernel
  have base : (mappingDue.str 0).base = 0x5000000 := by decide +kernel
  have failed := hand_untranslated (s := mappingDue) (n := 0) (p := mappingPacket) (k := 1) (l := 0) (a := 0x5000000)
    (by decide +kernel) (by decide +kernel) (by rw [len, size, wr]; decide) (by rw [len]; decide +kernel)
    (by rw [len]; decide +kernel) (by rw [len, size, wr, base]; decide +kernel)
  rw [len, size, wr, base] at failed
  exact failed

theorem mappingLost_erased : StatusErased 0 mappingDue mappingLost :=
  (devCarried_erases (by decide) (by decide +kernel) (by decide +kernel) _ _ _ _).raiseXuFault (by decide +kernel) _ _ _ (by decide)

theorem mappingLost_unasked : mappingLost.devNow = (arrive oneSecond ringOverStatus).devNow :=
  mappingLost_erased.devNow.trans (by unfold mappingDue; simp only [State.onStr_rest])

theorem mappingLost_contained : Contained oneSecond ringOverStatus mappingLost :=
  ((((KeepsPorts.refl (arrive oneSecond ringOverStatus)).onStr 0 _).devCarried _ _ _ _ _).raiseXuFault _ _ _ _).contained
    (.arrive oneSecond ringOverStatus) mappingLost_unasked

theorem mappingInterval_lost : mappingInterval (arrive oneSecond ringOverStatus) 0 = mappingLost := by
  have told : mapFollow (arrive oneSecond ringOverStatus) = arrive oneSecond ringOverStatus := mapFollow_told (by decide +kernel)
  have due : dtAdd ((arrive oneSecond ringOverStatus).str 0).mapped (mapEvery (arrive oneSecond ringOverStatus)) = oneSecond := by
    decide +kernel
  have now : (((arrive oneSecond ringOverStatus).str 0).state = 2 &&
      decide (dtDiff (arrive oneSecond ringOverStatus).dt oneSecond ≥ 0)) = true := by decide +kernel
  unfold mappingInterval
  simp only [told, due, now, if_true]
  exact writePacket_lost rfl (by decide +kernel) mappingDue_fails (str_state_zero mappingLost_erased.status) _

/-- Refutes O53, in its clause on MAPPING_INTERVAL: the clause leaves out the premise that no ring of DM12 lies over the descriptor of
the stream. A packet whose place in the stream's ring does not translate is completed with an error, and the words of that completion
(R369) take the place of ST_STATUS; the stream is IDLE then, the packet is not in the ring, does not wait, and nothing overflows. -/
theorem not_streamsFlushMapAndTruncate : ¬ Obligations.StreamsFlushMapAndTruncate := by
  intro h
  obtain ⟨-, -, -, mapping, -⟩ := h oneSecond 0 0 0 ringOverStatus (by decide) (by decide)
  obtain ⟨told, running, ringless, due⟩ := ringOverStatus_due
  have lands : (mappingInterval (arrive oneSecond ringOverStatus) 0).devNow = ringOverStatus.devNow := by
    rw [mappingInterval_lost]
    exact mappingLost_unasked.trans (arrive_devNow oneSecond ringOverStatus)
  have apart (b : Nat) : ¬ ringWord ringOverStatus b := by
    rintro ⟨q, x, hq, on, -⟩
    exact Bool.false_ne_true ((ringless q hq).symm.trans on)
  obtain ⟨u, hu, -, written⟩ := mapping told running due (fun b _ => apart b) lands
  have effect : exec (.mappingInterval oneSecond 0) ringOverStatus =
      .next (run oneSecond ringOverStatus (fun s => mappingInterval s 0)) := rfl
  have ends : Ends mappingLost u := by
    rw [Host.Outcome.next.inj (hu.symm.trans effect)]
    exact run_ends_of_effect mappingInterval_lost mappingLost_contained
  have off : mappingLost.enabled pEH = false := mappingLost_erased.hub.trans (by decide +kernel)
  have ae : u.ae = mappingDue.ae := ends.ae.trans mappingLost_erased.ae
  have idle : (u.str 0).state = 0 := str_state_zero ((bytesAt_congr (ends.mem off) 8 _).trans mappingLost_erased.status)
  have packets : u.ae.packets = ringOverStatus.ae.packets := by
    rw [ae]
    decide +kernel
  have held : (u.str 0).held = [] := by
    change (u.ae.str.look 0).held = []
    rw [ae]
    decide +kernel
  rw [idle, packets, held] at written
  rcases written with overflow | packet | waits
  · exact absurd overflow (by decide)
  · exact lt_irrefl _ packet
  · exact Nat.not_lt_zero _ waits

end Sys2Proof
end
section
/-! Rules about the angle page: what its commands read on arrival, the maps of channels, and a record as it is written to its ring
(R281, R290 to R294). -/

namespace Sys2Proof

open Sys2Proof.Machine

/-! ### The state in which a command acts -/

@[simp] theorem arrive_ang (t : DT) (s : State) : (arrive t s).ang = s.ang := by rw [arrive_eq]
@[simp] theorem arrive_angCh (t : DT) (s : State) (g : Nat) : (arrive t s).angCh g = s.angCh g := by
  unfold State.angCh
  rw [arrive_ang]
@[simp] theorem arrive_leAx (t : DT) (s : State) (a : Nat) : (arrive t s).leAx a = s.leAx a := by
  unfold State.leAx
  rw [arrive_le]
@[simp] theorem arrive_angOn (t : DT) (s : State) (g : Nat) : angOn (arrive t s) g = angOn s g := by
  unfold angOn
  rw [arrive_reg]
@[simp] theorem arrive_compareOf (t : DT) (s : State) (c : AngCh) : compareOf (arrive t s) c = compareOf s c := by
  unfold compareOf
  simp only [arrive_leAx, arrive_axisEnabled, arrive_axb]
@[simp] theorem arrive_angReady (t : DT) (s : State) (g : Nat) : angReady (arrive t s) g = angReady s g := by
  unfold angReady
  simp only [arrive_compareOf, arrive_angCh, arrive_ang, arrive_standby, arrive_time, advance_running]

theorem Ends.ang {r u : State} (h : Ends r u) : u.ang = r.ang := by rw [h.rest]; rfl

/-! ### Maps -/

/-- No event changes a register of the angle page. -/
theorem eventReg_angle {a : Nat} (low : pANG ≤ a) (high : a < pANG + 0x1000) : eventReg a = false := by
  simp only [eventReg, hubReg, startReg, pMEM, pEH, pXU, pHK, pANG] at *
  simp
  omega

theorem eventReg_runmap {g : Nat} (hg : g < 512) : eventReg (F.ANG_RUNMAP (g / 64)).adr = false :=
  eventReg_angle (by simp only [pANG]; omega) (by simp only [pANG]; omega)

theorem eventReg_histMap {c : Nat} (hc : c < 4096) : eventReg (F.HIST_MAP (c / 64)).adr = false :=
  eventReg_angle (by simp only [pANG]; omega) (by simp only [pANG]; omega)

theorem mapBit_reg_other (s : State) {base i b : Nat} {v : Bool} (h : b ≠ base + 8 * (i / 64)) :
    (mapBit s base i v).reg b = s.reg b := State.reg_put_other s ⟨base + 8 * (i / 64), i % 64, 1⟩ _ h

/-- A write of one bit of a map, bit by bit. -/
theorem bit_mapBit_at (s : State) (base i k : Nat) (v : Bool) :
    bit ((mapBit s base i v).reg (base + 8 * (k / 64))) (k % 64) =
      if k = i then v else bit (s.reg (base + 8 * (k / 64))) (k % 64) := by
  by_cases word : k / 64 = i / 64
  · have low : i % 64 + 1 ≤ 64 := Nat.mod_lt i (by decide)
    have written : (mapBit s base i v).reg (base + 8 * (i / 64)) = setBits (s.reg (base + 8 * (i / 64))) (i % 64) 1 (b2n v) :=
      State.reg_put_self s ⟨base + 8 * (i / 64), i % 64, 1⟩ (b2n v) low
    rw [word, written, bit_eq_getBits, bit_eq_getBits]
    rcases lt_trichotomy (k % 64) (i % 64) with below | same | above
    · rw [getBits_setBits_below _ _ _ _ below, if_neg (by rintro rfl; exact lt_irrefl _ below)]
    · rw [same, getBits_setBits_self, if_pos (by omega)]
      cases v <;> rfl
    · rw [getBits_setBits_above _ _ _ _ above, if_neg (by rintro rfl; exact lt_irrefl _ above)]
  · rw [if_neg (by rintro rfl; exact word rfl)]
    exact congrArg (bit · (k % 64)) (mapBit_reg_other s (by omega))

/-! ### The relation of a record's writes -/

/-- An order component uses two free values, or none (R289). -/
theorem orderComponent_state (s : State) (y : List Int) (n k : Nat) :
    (orderComponent s y n k).2.2 = s ∨ (orderComponent s y n k).2.2 = s.nextFree.nextFree := by
  rw [orderComponent]
  generalize orderExact y n k = e
  obtain ⟨c, ph⟩ := e
  simp only [State.freeWord]
  split_ifs
  · exact .inl rfl
  · exact .inr rfl

/-- What the writing of records makes of `s`: beside it the ports, the time and the queues are as they were, and so are the records that
are still to be written. -/
structure RecordWrite (s u : State) : Prop where
  ports : KeepsPorts False s u
  due : u.ang.due = s.ang.due

theorem RecordWrite.refl (s : State) : RecordWrite s s := ⟨.refl s, rfl⟩

section Steps

variable {s r : State} (h : RecordWrite s r)
include h

/-- A step that leaves the angle engine's own state. -/
theorem RecordWrite.beside {u : State} (ports : KeepsPorts False s u) (ang : u.ang = r.ang) : RecordWrite s u :=
  ⟨ports, (congrArg AngSt.due ang).trans h.due⟩

theorem RecordWrite.moves {K : Prop} {W : Nat → Prop} {u : State} (m : Moves W K r u) : RecordWrite s u :=
  h.beside (h.ports.moves m) (by rw [m.rest])

theorem RecordWrite.setWord (a v : Nat) : RecordWrite s (r.setWord a v) := h.moves (Stores.setWord r a v).moves

theorem RecordWrite.angPut (g : Nat) (f : Fld) (v : Nat) : RecordWrite s (angPut r g f v) :=
  h.beside (h.ports.angPut g f v) (by unfold Machine.angPut; rw [mput_eq])

theorem RecordWrite.nextFree : RecordWrite s r.nextFree := h.moves (Moves.nextFree (W := fun _ => True) (K := False) r)

theorem RecordWrite.noteReads (m a n : Nat) : RecordWrite s (r.noteReads m a n) :=
  h.moves (Moves.noteReadsBy (W := fun _ => True) (K := False) r m _)

theorem RecordWrite.raisePage (p e i : Nat) : RecordWrite s (raisePage r p e i) :=
  h.moves (Follows.raisePage (K := False) r p e i).moves

theorem RecordWrite.raiseXuFault (m k l a : Nat) : RecordWrite s (raiseXuFault r m k l a) := by
  have raised := (h.moves (Moves.noteXuFault (W := fun _ => True) (K := False) r m k l a)).moves
    (Follows.raisePage2 (K := False) _ pXU 1 (m + (k <<< 16) + (l <<< 24)) a 0).moves
  unfold Machine.raiseXuFault
  dsimp only
  split
  · exact raised.moves (Follows.raiseUe _ _ _).moves
  · exact raised

theorem RecordWrite.sendNotice (c : Nat) : RecordWrite s (sendNotice r c) :=
  h.moves (Moves.sendNotice (W := fun _ => True) (K := False) (fun _ _ => trivial) r c)

theorem RecordWrite.mapBit {base : Nat} (high : pAE ≤ base) (i : Nat) (v : Bool) : RecordWrite s (mapBit r base i v) :=
  h.beside (h.ports.mapBit high i v) rfl

theorem RecordWrite.onAng (g : Nat) (f : AngCh → AngCh) : RecordWrite s (r.onAng g f) := ⟨h.ports.onAng g f, h.due⟩

/-! ### Writes of a block -/

theorem RecordWrite.devWrite (m a v : Nat) : RecordWrite s (devWrite r m a v) := by
  refine h.beside (h.ports.devWrite m a v) ?_
  unfold Machine.devWrite
  dsimp only
  split
  · split
    · rfl
    · rw [setWord_eq]
  · rw [setHostBytes_eq]
  · split <;> rfl
  · rfl

theorem RecordWrite.devWrites (m : Nat) (l : List Nat) (a : Nat) : RecordWrite s (devWrites r m a l) := by
  induction l generalizing r a with
  | nil => exact h
  | cons v l ih => exact ih (h.devWrite m a v) _

theorem RecordWrite.devCarried (n dst len code bytes : Nat) : RecordWrite s (devCarried r n dst len code bytes) := by
  refine ⟨h.ports.devCarried n dst len code bytes, ?_⟩
  unfold Machine.devCarried
  dsimp only
  split
  · exact h.due
  · exact (h.nextFree.devWrites _ _ _).due

theorem RecordWrite.devRead (m a n : Nat) : RecordWrite s (devRead r m a n).2 := by
  unfold Machine.devRead
  split
  · exact h.moves (Follows.raiseUe r m a).moves
  · exact h

theorem RecordWrite.devReads (m n k : Nat) (a : Nat) : RecordWrite s (devReads r m a n k).2 := by
  induction k generalizing r a with
  | zero => exact h
  | succ k ih => exact ih (h.devRead m a n) _

/-! ### The parts of a record

`compareTable` and `angEmit` take the results of `orderComponent` apart. In the two proofs about them the definition is unfolded as a
function, and `orderComponent` stands as a variable until its result has a name: the kernel unfolds a match before it compares what is
matched, and would evaluate the component there. -/

theorem RecordWrite.orderComponent {y : List Int} {n k amp ph : Nat} {u : State}
    (e : orderComponent r y n k = (amp, ph, u)) : RecordWrite s u := by
  have state := orderComponent_state r y n k
  rw [e] at state
  rcases state with rfl | rfl
  · exact h
  · exact h.nextFree.nextFree

/-- A table that is compared with takes its entries from those left in the cycle, and no more (R290). -/
theorem RecordWrite.compareTable {c : AngCh} {cmp amp ph : Nat} {u : State}
    (e : compareTable r c = (cmp, amp, ph, u)) : RecordWrite s u := by
  obtain ⟨component, hcomponent⟩ : ∃ f, f = Machine.orderComponent := ⟨_, rfl⟩
  suffices formed : ∀ f, f = Machine.compareTable → f r c = (cmp, amp, ph, u) → RecordWrite s u from formed _ rfl e
  intro f hf e
  delta Machine.compareTable at hf
  rw [← hcomponent] at hf
  subst hf
  beta_reduce at e
  split at e
  · cases e
    exact h
  · cases e
    exact h
  · next n _ =>
    extract_lets base at e
    split at e
    next t s1 read =>
      have whole := h.devReads 0x47 4 n (repEntryAddr base 0)
      rw [read] at whole
      extract_lets t' at e
      split at e
      next a p s2 formed =>
        cases e
        rw [hcomponent] at formed
        have kept := RecordWrite.orderComponent whole formed
        exact ⟨kept.ports.ofEngines _ _ _ _, kept.due⟩

theorem RecordWrite.angPutBytes (g : Nat) (l : List Nat) : RecordWrite s (angPutBytes r g l) := by
  have carried {d n len code bytes : Nat} := (h.devWrites 0x2D (wordsOf l) d).devCarried n d len code bytes
  unfold Machine.angPutBytes
  extract_lets c wr s1 s2 s3
  have counted : RecordWrite s s3 := (RecordWrite.setWord carried _ _).setWord _ _
  split
  · exact counted.sendNotice _
  · exact counted

theorem RecordWrite.angOverflow (g : Nat) (x : AngRec) : RecordWrite s (angOverflow r g x) := by
  unfold Machine.angOverflow
  extract_lets c l s1 s2
  have kept : RecordWrite s s1 := by
    unfold s1
    split
    · exact (h.devCarried _ _ _ _ _).raiseXuFault _ _ _ _
    · exact h.angPutBytes g l
  exact ((kept.angPut _ _ _).mapBit (by decide) _ _).raisePage _ _ _

/-- A record on its way to the ring leaves those that are still to be written, whether it finds room there or not (R291, R292). -/
theorem RecordWrite.angEmit (g : Nat) (x : AngRec) : RecordWrite s (angEmit r g x) := by
  obtain ⟨component, hcomponent⟩ : ∃ f, f = Machine.orderComponent := ⟨_, rfl⟩
  suffices whole : ∀ f, f = Machine.angEmit → RecordWrite s (f r g x) from whole _ rfl
  intro f hf
  delta Machine.angEmit at hf
  rw [← hcomponent] at hf
  subst hf
  beta_reduce
  extract_lets c s1
  split
  next amp ph s2 formed =>
  split
  next cmp tamp tph s3 compared =>
  rw [hcomponent] at formed
  have whole : RecordWrite s s3 := ((h.noteReads _ _ _).orderComponent formed).compareTable compared
  extract_lets ovf room s4 s5 mk len pos pad bad padRec pb s6
  have restarted : RecordWrite s s5 := by
    unfold s5
    split
    · exact (((whole.angPut _ _ _).mapBit (by decide) _ _).raisePage _ _ _).onAng _ _
    · exact whole
  have padded : RecordWrite s s6 := by
    unfold s6
    split
    · exact restarted
    · exact restarted.angPutBytes _ _
  clear_value bad s6
  split
  · exact whole
  · split
    · exact restarted.angOverflow _ _
    · split
      · exact ((restarted.devCarried _ _ _ _ _).raiseXuFault _ _ _ _).angOverflow _ _
      · exact (padded.angPutBytes _ _).onAng _ _

end Steps

end Sys2Proof
end
section
/-! Disabling angle channels and histograms, writing a record, and the end of a copy (R281, R291, R294, R296). -/

namespace Sys2Proof

open Sys2Proof.Machine

/-! ### A disable asked for by its control register -/

/-- The value that asks a control register for the operation DISABLE of an index names the index and DISABLE. -/
theorem disable_value {i w : Nat} (hi : i < 2 ^ w) (hw : w ≤ 62) :
    getBits ((2 <<< 62) + i) 62 2 = 2 ∧ getBits ((2 <<< 62) + i) 0 w = i := by
  have below : i < 2 ^ 62 := hi.trans_le (Nat.pow_le_pow_right (by decide) hw)
  have multiple : 2 ^ w ∣ 2 * 2 ^ 62 := (pow_dvd_pow 2 hw).mul_left 2
  unfold getBits
  simp only [Nat.shiftRight_eq_div_pow, Nat.shiftLeft_eq, pow_zero, Nat.div_one]
  exact ⟨by omega, by rw [Nat.add_mod, Nat.mod_eq_zero_of_dvd multiple, zero_add, Nat.mod_mod, Nat.mod_eq_of_lt hi]⟩

/-- An action without a check, of a range that is not mirrored, is carried out where no check of its page runs (R390, R413). -/
theorem reqAct_unchecked {s : State} {kind : ActKind} {p i v m : Nat} {a : Action} (ha : a = ⟨kind, p, i, v, m, none, s.dt⟩)
    {r : Nat} (hr : actReg a = r) (reg : mirrored r = false) (word : mirrored (r / 8 * 8) = false)
    (unchecked : hasCheck kind = false) (unset : alreadyOn s a = false) (plain : kind ≠ .nothing)
    (free : (s.checks.look p).running = none) :
    reqAct s kind p i v m none = plainApply a s := by
  subst ha hr
  have accepted := standbyRefuses_unmirrored s m reg
  have unrestored : kind ≠ .restore := by rintro rfl; exact absurd unchecked (by decide)
  have unsent (u : State) : mirrorOut u (actReg ⟨kind, p, i, v, m, none, s.dt⟩ / 8 * 8) v = u := by
    unfold mirrorOut
    rw [word, Bool.and_false, if_neg Bool.false_ne_true]
  unfold reqAct actNow act
  simp only [accepted, free, unset, unchecked, unrestored, Bool.and_false, Bool.false_eq_true, if_true, if_false, decide_false,
    Bool.false_and, opWrite]
  unfold submitPlain mirrorAct
  simp only [free, if_neg plain, unsent]

theorem aeCtlWrite_angleDisable {s : State} {g : Nat} (m : Nat) (hg : g < 512) (hr : (s.checks.look pANG).running = none) :
    aeCtlWrite s m F.AE_ANG_CTL_OP.adr ((2 <<< 62) + g) = angDisable s g := by
  obtain ⟨op, index⟩ := disable_value (w := 9) hg (by decide)
  unfold aeCtlWrite
  rw [op, index]
  exact reqAct_unchecked (r := F.AE_ANG_CTL_OP.adr) rfl rfl (by decide) (by decide) rfl rfl (by decide) hr

theorem aeCtlWrite_histDisable {s : State} {c : Nat} (m : Nat) (hc : c < 4096) (hr : (s.checks.look pANG).running = none) :
    aeCtlWrite s m F.AE_HIST_CTL_OP.adr ((2 <<< 62) + c) = histDisable s c := by
  obtain ⟨op, index⟩ := disable_value (w := 12) hc (by decide)
  unfold aeCtlWrite
  rw [op, index]
  exact reqAct_unchecked (r := F.AE_HIST_CTL_OP.adr) rfl rfl (by decide) (by decide) rfl rfl (by decide) hr

/-! ### What disabling an angle channel changes -/

/-- STATE, AVG_COUNT and RING_OVF of the channel are 0. -/
def angStatusCleared (s : State) (g : Nat) : State :=
  angPut (angPut (angPut s g F.ANG_STATUS_STATE 0) g F.ANG_STATUS_AVG_COUNT 0) g F.ANG_STATUS_RING_OVF 0

/-- The channel has left the maps. -/
def angUnmapped (s : State) (g : Nat) : State :=
  mapBit (mapBit s (F.ANG_RUNMAP 0).adr g false) (F.ANG_OVFMAP 0).adr g false

/-- What the engine holds once the channel has left it. -/
def angWithout (a : AngSt) (g : Nat) : AngSt := { a with ch := a.ch.set g default, due := a.due.filter (fun e => e.1 != g) }

theorem angStatusCleared_eq (s : State) (g : Nat) : angStatusCleared s g = { s with
    regs := (angStatusCleared s g).regs, mem := (angStatusCleared s g).mem, poison := (angStatusCleared s g).poison
    ueDue := (angStatusCleared s g).ueDue } := by
  generalize e : angStatusCleared s g = r
  unfold angStatusCleared angPut at e
  rw [mput_eq, mput_eq (s.mput _ _ _), mput_eq s] at e
  rw [← e]

/-- Only the log of poisoned words can change with a word of the descriptor. -/
theorem angStatusCleared_reg (s : State) (g : Nat) {b : Nat} (hb : eventReg b = false) :
    (angStatusCleared s g).reg b = s.reg b := by
  have put (s : State) (f : Fld) : (angPut s g f 0).reg b = s.reg b := by
    unfold State.reg angPut
    rw [mput_regs]
    exact (Stores.setWord s _ _).moves.regs b hb
  unfold angStatusCleared
  rw [put, put, put]

theorem angStatusCleared_ringOvf (s : State) (g : Nat) : ang (angStatusCleared s g) g F.ANG_STATUS_RING_OVF = 0 := by
  unfold angStatusCleared ang angPut State.mg
  rw [word_mput (by decide), getBits_setBits_self, Nat.zero_mod]

theorem angUnmapped_eq (s : State) (g : Nat) : angUnmapped s g = { s with regs := (angUnmapped s g).regs } := rfl

theorem angUnmapped_reg (s : State) {g b : Nat} (run : b ≠ (F.ANG_RUNMAP (g / 64)).adr) (ovf : b ≠ (F.ANG_OVFMAP (g / 64)).adr) :
    (angUnmapped s g).reg b = s.reg b := by
  unfold angUnmapped
  rw [mapBit_reg_other _ ovf, mapBit_reg_other s run]

theorem angUnmapped_off (s : State) (g : Nat) : angOn (angUnmapped s g) g = false := by
  have apart : (F.ANG_RUNMAP (g / 64)).adr ≠ (F.ANG_OVFMAP 0).adr + 8 * (g / 64) := by simp only [pANG]; omega
  unfold angOn angUnmapped
  rw [mapBit_reg_other _ apart]
  exact (bit_mapBit_at s (F.ANG_RUNMAP 0).adr g g false).trans (if_pos rfl)

theorem angDisable_off {s : State} {g : Nat} (off : angOn s g = false) : angDisable s g = s := by
  unfold angDisable
  rw [off]
  rfl

/-- The state that disabling the channel leaves. -/
def angLeft (s : State) (g : Nat) : State := { s with
  regs := (angUnmapped (angStatusCleared s g) g).regs, mem := (angStatusCleared s g).mem
  poison := (angStatusCleared s g).poison, ueDue := (angStatusCleared s g).ueDue, ang := angWithout s.ang g }

/-- A channel disabled is cleared in its descriptor, in the maps and in the engine (R281). -/
theorem angDisable_on {s : State} {g : Nat} (on : angOn s g = true) : angDisable s g = angLeft s g := by
  have disabled : angDisable s g =
      { angUnmapped (angStatusCleared s g) g with ang := angWithout (angUnmapped (angStatusCleared s g) g).ang g } := by
    unfold angDisable
    rw [on]
    rfl
  unfold angLeft
  rw [disabled, angUnmapped_eq]
  generalize (angUnmapped (angStatusCleared s g) g).regs = regs
  rw [angStatusCleared_eq]

theorem angLeft_reg (s : State) (g b : Nat) : (angLeft s g).reg b = (angUnmapped (angStatusCleared s g) g).reg b := reg_congr rfl b

theorem angLeft_off (s : State) (g : Nat) : angOn (angLeft s g) g = false := by
  unfold angOn
  rw [angLeft_reg]
  exact angUnmapped_off _ g

theorem angLeft_reg_other (s : State) {g b : Nat} (hb : eventReg b = false) (run : b ≠ (F.ANG_RUNMAP (g / 64)).adr)
    (ovf : b ≠ (F.ANG_OVFMAP (g / 64)).adr) : (angLeft s g).reg b = s.reg b := by
  rw [angLeft_reg, angUnmapped_reg _ run ovf, angStatusCleared_reg s g hb]

theorem angLeft_hub (s : State) {g : Nat} (hg : g < 512) : (angLeft s g).enabled pEH = s.enabled pEH := by
  have reg := angLeft_reg_other s (g := g) (b := (F.CTRL_ENABLE pEH).adr) (by decide) (by simp only [pEH, pANG]; omega)
    (by simp only [pEH, pANG]; omega)
  unfold State.enabled State.gb State.g
  rw [reg]

/-- Words of memory, their poison and reads to be reported are what a store changes. -/
theorem Stores.words (s : State) (mem : List Host.Cell) (poison : List Nat) (due : List (Nat × Nat)) :
    Stores s { s with mem, poison, ueDue := due } :=
  ⟨⟨fun _ _ => rfl, fun _ => rfl, rfl, rfl, fun _ => ⟨rfl, fun _ _ => rfl⟩, rfl, rfl, List.prefix_refl _, List.prefix_refl _,
    fun _ k => absurd trivial k, rfl, fun _ => rfl, rfl⟩, fun _ => ⟨rfl, rfl, rfl, rfl⟩⟩

section Disable

variable {t : DT} {m : Nat} {s : State} (hu : Unhindered t m s) (hr : (s.checks.look pANG).running = none)
  (hc : s.hk.corePower = true)
include hu hr hc

theorem exec_angleChannelDisable {g : Nat} (hg : g < 512) : ∃ f, exec (.angleChannelDisable t m g) s = .next (run t s f) ∧
    f (arrive t s) = angDisable (arrive t s) g := by
  refine ⟨_, congrArg Host.Outcome.next (runOn_made F.AE_ANG_CTL_OP.adr _ hu rfl hc), ?_⟩
  rw [Nat.mod_eq_of_lt hg]
  exact aeCtlWrite_angleDisable m hg (by rwa [arrive_checks])

theorem exec_histogramDisable {c : Nat} (hc' : c < 4096) : ∃ f, exec (.histogramDisable t m c) s = .next (run t s f) ∧
    f (arrive t s) = histDisable (arrive t s) c := by
  refine ⟨_, congrArg Host.Outcome.next (runOn_made F.AE_HIST_CTL_OP.adr _ hu rfl hc), ?_⟩
  rw [Nat.mod_eq_of_lt hc']
  exact aeCtlWrite_histDisable m hc' (by rwa [arrive_checks])

/-! ### ANGLE_CHANNEL_DISABLE -/

theorem angleChannelDisable_idle {g : Nat} (hg : g < 512) (off : angOn s g = false) :
    Does (.angleChannelDisable t m g) s (arrive t s) := by
  obtain ⟨f, e, effect⟩ := exec_angleChannelDisable hu hr hc hg
  exact does_nothing e (effect.trans (angDisable_off ((arrive_angOn t s g).trans off)))

/-- A channel disabled is as one never enabled, RING_OVF is 0, and its records still to write are gone (R281). -/
theorem angleChannelDisable_leaves {g : Nat} (hg : g < 512) (on : angOn s g = true) :
    ∃ u, exec (.angleChannelDisable t m g) s = .next u ∧ angOn u g = false ∧ u.angCh g = default ∧
      (s.enabled pEH = false → ang u g F.ANG_STATUS_RING_OVF = 0) ∧
      (∀ e ∈ u.ang.due, e.1 ≠ g) ∧ (∀ k, k ≠ g → u.angCh k = s.angCh k) ∧
      (∀ b, eventReg b = false → b ≠ (F.ANG_RUNMAP (g / 64)).adr → b ≠ (F.ANG_OVFMAP (g / 64)).adr → u.reg b = s.reg b) ∧
      Ends { arrive t s with regs := u.regs, mem := u.mem, poison := u.poison, ang := u.ang } u := by
  obtain ⟨f, e, effect⟩ := exec_angleChannelDisable hu hr hc hg
  rw [angDisable_on ((arrive_angOn t s g).trans on)] at effect
  have contained : Contained t s (angLeft (arrive t s) g) := .of rfl rfl rfl rfl rfl
  have ends := run_ends_of_effect effect contained
  have engine : (run t s f).ang = angWithout s.ang g := by rw [ends.ang, ← arrive_ang t s]; rfl
  refine ⟨_, e, ?_, ?_, fun hub => ?_, fun x hx => ?_, fun k hk => ?_, fun b hb run ovf => ?_, ?_⟩
  · unfold angOn
    rw [ends.reg (eventReg_runmap hg)]
    exact angLeft_off _ g
  · unfold State.angCh
    rw [engine]
    exact look_set_self s.ang.ch g default
  · obtain ⟨mem, poison⟩ := run_disabled effect contained ((angLeft_hub _ hg).trans ((arrive_enabled t s pEH).trans hub))
    rw [← angStatusCleared_ringOvf (arrive t s) g]
    exact congrArg (fun w => getBits w _ _) (word_congr mem poison _)
  · rw [engine] at hx
    simpa using (List.mem_filter.mp hx).2
  · unfold State.angCh
    rw [engine]
    exact look_set_other s.ang.ch default hk
  · rw [ends.reg hb, angLeft_reg_other _ hb run ovf, arrive_reg]
  · have stores := Stores.words { arrive t s with
      regs := (angLeft (arrive t s) g).regs, ang := angWithout (arrive t s).ang g } (angLeft (arrive t s) g).mem
      (angLeft (arrive t s) g).poison (angLeft (arrive t s) g).ueDue
    rw [engine, ← arrive_ang t s]
    exact (stores.ends ends).withRegs

/-! ### HISTOGRAM_DISABLE -/

omit hu hr hc in
theorem histDisable_eq (s : State) (c : Nat) : histDisable s c = { s with
    regs := (mapBit s (F.HIST_MAP 0).adr c false).regs, ang := { s.ang with hist := s.ang.hist.set c none } } := rfl

/-- A histogram disabled counts no more, and its bin memory stays (R294). -/
theorem histogramDisable_stops {c : Nat} (hc' : c < 4096) : ∃ u, exec (.histogramDisable t m c) s = .next u ∧
    (∀ k < 4096, histOn u k = if k = c then false else histOn s k) ∧ u.ang.hist.look c = none ∧
    (∀ b, eventReg b = false → b ≠ (F.HIST_MAP (c / 64)).adr → u.reg b = s.reg b) ∧
    Ends { arrive t s with regs := u.regs, ang := { s.ang with hist := u.ang.hist } } u := by
  obtain ⟨f, e, effect⟩ := exec_histogramDisable hu hr hc hc'
  rw [histDisable_eq] at effect
  have ends := run_ends_of_effect effect (.of rfl rfl rfl rfl rfl)
  have ang : (run t s f).ang = { s.ang with hist := s.ang.hist.set c none } := by rw [ends.ang, arrive_ang]
  have reg (b : Nat) (hb : eventReg b = false) : (run t s f).reg b = (mapBit (arrive t s) (F.HIST_MAP 0).adr c false).reg b :=
    (ends.reg hb).trans (reg_congr rfl b)
  refine ⟨_, e, fun k hk => ?_, by rw [ang]; exact look_set_self s.ang.hist c none, fun b hb hne => ?_, ?_⟩
  · unfold histOn
    rw [reg _ (eventReg_histMap hk), ← arrive_reg t s]
    exact bit_mapBit_at (arrive t s) (F.HIST_MAP 0).adr c k false
  · rw [reg b hb, ← arrive_reg t s]
    exact State.reg_put_other _ _ _ hne
  · rw [ang, ← arrive_ang t s]
    exact ends.withRegs

end Disable

/-! ### COPY_DONE -/

theorem copyDone_none {s : State} (h : s.ang.copy = none) : copyDone s = s := by
  unfold copyDone
  rw [h]

/-- DONE shown in the place of BUSY. -/
def copyFields (s : State) : State := (s.put F.ANG_COPY_STATE_DONE 1).put F.ANG_COPY_STATE_BUSY 0

theorem copyFields_reg (s : State) {b : Nat} (h : b ≠ F.ANG_COPY_STATE.adr) : (copyFields s).reg b = s.reg b :=
  (State.reg_put_other (s.put F.ANG_COPY_STATE_DONE 1) F.ANG_COPY_STATE_BUSY 0 h).trans
    (State.reg_put_other s F.ANG_COPY_STATE_DONE 1 h)

theorem copyFields_done (s : State) : (copyFields s).g F.ANG_COPY_STATE_DONE = 1 :=
  (g_put_apart (s.put F.ANG_COPY_STATE_DONE 1) (by decide) (.inr (by decide))).trans (g_put_field s (by decide))

theorem copyFields_busy (s : State) : (copyFields s).g F.ANG_COPY_STATE_BUSY = 0 :=
  g_put_field (s.put F.ANG_COPY_STATE_DONE 1) (by decide)

theorem copyFields_eq (s : State) : copyFields s = { s with regs := (copyFields s).regs } := rfl

/-- No copy is in progress. -/
def copyOff (s : State) : State := { s with ang := { s.ang with copy := none } }

theorem copyDone_some {s : State} {o i : Nat} (h : s.ang.copy = some (o, i)) :
    copyDone s = raisePage (copyOff (copyFields s)) pANG 4 i := by
  unfold copyDone
  rw [h]
  rfl

/-- What the end of a copy shows and leaves. -/
def copyShown (s : State) : State := { s with regs := (copyFields s).regs, ang := { s.ang with copy := none } }

theorem copyShown_eq (s : State) : copyOff (copyFields s) = copyShown s := congrArg copyOff (copyFields_eq s)

theorem copyShown_g (s : State) (f : Fld) : (copyShown s).g f = (copyFields s).g f :=
  congrArg (fun v => getBits v f.lo f.w) (reg_congr rfl f.adr)

/-- A copy that is complete shows DONE, and no copy is in progress (R296). -/
theorem copyDone_shows {t : DT} {s : State} {o i : Nat} (h : s.ang.copy = some (o, i)) :
    ∃ u, exec (.copyDone t) s = .next u ∧ u.g F.ANG_COPY_STATE_DONE = 1 ∧ u.g F.ANG_COPY_STATE_BUSY = 0 ∧ u.ang.copy = none ∧
      (∀ b, eventReg b = false → b ≠ F.ANG_COPY_STATE.adr → u.reg b = s.reg b) ∧
      Ends { arrive t s with regs := u.regs, ang := { s.ang with copy := none } } u := by
  have e : exec (.copyDone t) s = .next (run t s copyDone) := rfl
  have effect := copyDone_some (s := arrive t s) (by rwa [arrive_ang])
  rw [copyShown_eq] at effect
  have contained : Contained t s (copyShown (arrive t s)) := .of rfl rfl rfl rfl rfl
  obtain ⟨u, next, ends⟩ := does_of_follows e effect contained (Follows.raisePage _ pANG 4 i)
  have frame : Ends { arrive t s with regs := u.regs, ang := { (arrive t s).ang with copy := none } } u := ends.withRegs
  have field (f : Fld) (h : eventReg f.adr = false) : u.g f = (copyFields (arrive t s)).g f :=
    (ends.g h).trans (copyShown_g _ f)
  refine ⟨u, next, (field _ (by decide)).trans (copyFields_done _), (field _ (by decide)).trans (copyFields_busy _),
    by rw [frame.ang], fun b hb hne => ?_, ?_⟩
  · rw [ends.reg hb, ← arrive_reg t s, ← copyFields_reg (arrive t s) hne]
    exact reg_congr rfl b
  · rwa [arrive_ang] at frame

/-! ### ANGLE_RECORD_WRITE -/

theorem exec_angleRecordWrite (t : DT) {g : Nat} (s : State) (hg : g < 512) :
    ∃ f, exec (.angleRecordWrite t g) s = .next (run t s f) ∧ f (arrive t s) = angleRecordWrite (arrive t s) g :=
  ⟨_, rfl, if_pos hg⟩

/-- Where no record of the channel is still to be written, or it is not its turn, nothing is written. -/
theorem angleRecordWrite_waits {s : State} {g : Nat} (h : s.ang.due.find? (fun e => e.1 = g) = none ∨ angReady s g = false) :
    angleRecordWrite s g = s := by
  unfold angleRecordWrite
  split
  · rfl
  · next e found =>
    rw [found] at h
    rcases h with h | h
    · cases h
    · simp [h]

/-- The oldest record of the channel, in its turn, leaves the list, and the others stay there (R291). -/
theorem angleRecordWrite_takes {s : State} {g : Nat} {e : Nat × AngRec} (found : s.ang.due.find? (fun e => e.1 = g) = some e)
    (ready : angReady s g = true) : KeepsPorts False s (angleRecordWrite s g) ∧ (angleRecordWrite s g).ang.due = s.ang.due.erase e := by
  have taken : angleRecordWrite s g = angEmit { s with ang := { s.ang with due := s.ang.due.erase e } } g e.2 := by
    unfold angleRecordWrite
    rw [found]
    simp [ready]
  obtain ⟨ports, due⟩ := (RecordWrite.refl { s with ang := { s.ang with due := s.ang.due.erase e } }).angEmit g e.2
  rw [taken]
  exact ⟨((KeepsPorts.refl s).ofEngines _ _ _ _).trans ports, due⟩

/-- A record whose writing asks for no write of a register or a watched word leaves the list (R291). -/
theorem angleRecordWrite_leaves {t : DT} {g : Nat} {s : State} {e : Nat × AngRec} (hg : g < 512)
    (found : s.ang.due.find? (fun e => e.1 = g) = some e) (ready : angReady s g = true)
    (unasked : (angleRecordWrite (arrive t s) g).devNow = s.devNow) :
    ∃ u, exec (.angleRecordWrite t g) s = .next u ∧ u.ang.due = s.ang.due.erase e := by
  obtain ⟨f, step, effect⟩ := exec_angleRecordWrite t s hg
  obtain ⟨ports, due⟩ := angleRecordWrite_takes (s := arrive t s) (by rwa [arrive_ang]) (by rwa [arrive_angReady])
  have contained := ports.contained (.arrive t s) (unasked.trans (arrive_devNow t s).symm)
  rw [arrive_ang] at due
  exact ⟨_, step, by rw [(run_ends_of_effect effect contained).ang, due]⟩

/-! ### The obligation -/

/-- Settles O54: each disable as an action without a check, the written record by what the writing leaves of the list, the end of a
copy by the fields that it shows. -/
theorem angleChannelsHistogramsAndCopies : Obligations.AngleChannelsHistogramsAndCopies := by
  intro t m g c s hg hc
  refine ⟨fun hu hr power => ⟨angleChannelDisable_idle hu hr power hg, angleChannelDisable_leaves hu hr power hg,
    histogramDisable_stops hu hr power hc⟩, fun h => ?_, fun e => angleRecordWrite_leaves hg, fun h => ?_,
    fun o i => copyDone_shows⟩
  · obtain ⟨f, step, effect⟩ := exec_angleRecordWrite t s hg
    exact does_nothing step (effect.trans (angleRecordWrite_waits (by rwa [arrive_ang, arrive_angReady])))
  · exact does_nothing (f := copyDone) rfl (copyDone_none (by rwa [arrive_ang]))

end Sys2Proof
end
